-- ==== Sys2Proof/Word.lean ====
section
/-! DEFINITION. The plainest value types of the Bruilo model: bytes, and the bounded numbers of R7. -/

namespace Sys2Proof

/-- One byte of a message, a frame, a record or a DOMAIN region. -/
abbrev Byte := BitVec 8

/-- A front port, 0–127 (R7). -/
abbrev Port := Fin 128

/-- A port group, 0–15: eight ports and eight front lanes (R105). -/
abbrev Group := Fin 16

/-- A pipe, 0–16; pipe 16 is the spare (R7, R12). -/
abbrev Pipe := Fin 17

/-- A lookup quadrant, 0–3 (R7). -/
abbrev Quadrant := Fin 4

/-- A traffic class, 0–7 (R298). -/
abbrev TrafficClass := Fin 8

/-- A version slot, 0–2 (R220). -/
abbrev Slot := Fin 3

/-- A fabric lane, FB lanes 0–159 (R7, R320). -/
abbrev FabricLane := Fin 160

/-- A device of the system, 0–4,095 (R323). -/
abbrev Device := Fin 4096

/-- A DDR5 channel, DC00–DC15 (R7). -/
abbrev Channel := Fin 16

/-- A microcode sequencer, 0–7 (R429). -/
abbrev Sequencer := Fin 8

end Sys2Proof
end

