-- ==== Sys2Proof/Syntax.lean ====
section
/-! DEFINITION. The commands the block takes from outside, and the operands they carry: one constructor of `Instr` per
row of the operation table. Operands are bounded by their types wherever the spec gives a plain bound. -/

namespace Sys2Proof

/-- A function of the table Functions (R92). -/
inductive Fn where
  | port (p : Port) | sched (g : Group) | cipher (g : Group) | pipe (p : Pipe) | relief (q : Quadrant) | fabric
  deriving DecidableEq, Repr

/-- A PLL whose lock the Plinth watches (R68). -/
inductive Pll where
  | core | ddr5
  deriving DecidableEq, Repr

/-- What was lost before READY (R481). -/
inductive ClockSource where
  | sysRefclk | corePll | ddr5Pll
  deriving DecidableEq, Repr

/-- Why a sleeping pipe wakes (R84, R85, R35, R401, R384). -/
inductive WakeCause where
  | arrival | egressWork | portUp | slice | access | takeover
  deriving DecidableEq, Repr

/-- The path and carriage of a SOP message (R38, R55; the codes of SESSION_PATH). -/
inductive Path where
  | mg0Eth | mg0Udp | mg1Eth | mg1Udp | mailbox
  deriving DecidableEq, Repr

/-- How a received SOP message was carried (R38). -/
structure Carriage where
  /-- path and carriage kind -/
  path : Path
  /-- source MAC address, or source address followed by source port; empty for the mailbox (R47) -/
  peer : List Byte
  /-- destination MAC address, or destination address followed by destination port; empty for the mailbox -/
  dest : List Byte
  /-- the IEEE 802.1Q tags of an Ethernet carriage -/
  tags : List (BitVec 16)
  /-- an IPv4 header with options, or an IPv6 header with extension headers -/
  ipOptions : Bool
  /-- a fragment of a datagram -/
  fragment : Bool
  /-- the UDP checksum field is zero -/
  zeroChecksum : Bool
  deriving DecidableEq, Repr

/-- A received SOP message: the fields of the SOP header but OPCODE, which the command's row gives, then the payload and
the trailer as received (table SOP header). -/
structure SopMessage where
  carriage : Carriage
  ver : BitVec 4
  rsp : Bool
  auth : Bool
  /-- the rsvd bits [121:120] -/
  rsvdHigh : BitVec 2
  session : BitVec 16
  seq : BitVec 32
  length : BitVec 16
  index : BitVec 16
  sub : BitVec 8
  status : BitVec 8
  /-- the rsvd bits [15:0] -/
  rsvdLow : BitVec 16
  payload : List Byte
  trailer : List Byte
  deriving DecidableEq, Repr

/-- A read of one object: by SOP, through BAR0 (R51), or of a mailbox register through BAR4 (R55). -/
inductive ReadAccess where
  | sop (m : SopMessage)
  | bar0 (offset : BitVec 27) (width : Nat)
  | bar4 (offset : BitVec 13) (width : Nat)
  deriving DecidableEq, Repr

/-- A write of one object: by SOP, through BAR0, or into the mailbox through BAR4 (bytes at ascending addresses). -/
inductive WriteAccess where
  | sop (m : SopMessage)
  | bar0 (offset : BitVec 27) (bytes : List Byte)
  | bar4 (offset : BitVec 13) (bytes : List Byte)
  deriving DecidableEq, Repr

/-- A read of a DOMAIN region: by SOP, or through a BAR2 window (R53). -/
inductive DomainReadAccess where
  | sop (m : SopMessage)
  | bar2 (offset : BitVec 22) (width : Nat)
  deriving DecidableEq, Repr

/-- A write of a DOMAIN region: by SOP, or through a BAR2 window. -/
inductive DomainWriteAccess where
  | sop (m : SopMessage)
  | bar2 (offset : BitVec 22) (bytes : List Byte)
  deriving DecidableEq, Repr

/-- Clause 73 pages received from the far end (R110): the rows of the table Port speeds it offers (bit n is row n),
its FEC requests, and its base page. -/
structure Pages where
  rows : BitVec 20
  requestsBaseR : Bool
  requestsRs528 : Bool
  basePage : BitVec 48
  deriving DecidableEq, Repr

/-- Why a link is declared lost (R113). -/
inductive LossCause where
  | lock | localFault | remoteFault
  deriving DecidableEq, Repr

/-- The part of a frame a RECEIVED_FRAME step brings: all of it, its first bytes while reception goes on (cut-through,
R19), or the rest of a frame in reception. -/
inductive RxPart where
  | whole | head | tail
  deriving DecidableEq, Repr

/-- What the FEC and the PCS report of the part of a frame that a RECEIVED_FRAME step brings (R115, R134). -/
inductive RxError where
  | none
  /-- an error control character of the PCS -/
  | pcs
  /-- an uncorrectable FEC codeword, and how many more -/
  | fec (more : Nat)
  /-- FEC codewords corrected since the port's last frame, and the symbols corrected on each of its lanes -/
  | corrected (codewords : Nat) (symbols : List Nat)
  deriving DecidableEq, Repr

/-- What the traffic of the other pipes in the same clocks did to a granted pass: nothing, or the pass found no place
within its bound and is replayed (R172, R203, R314). -/
inductive Contention where
  | none
  /-- the probe of a descriptor was not served within its 4 clocks; those of lower ones were -/
  | emBank (descriptor : Fin 8)
  | reliefPort
  /-- the array that serves the pass has stopped, for a fault: its search set stays in flight (R214) -/
  | reliefStopped
  | policer
  deriving DecidableEq, Repr

/-- The parity met by an access: none, an error that the retry does not meet, or one that the retry meets too
(R182, R209). -/
inductive ParityEvent where
  | clean | once | twice
  deriving DecidableEq, Repr

/-- A unit that a probe reads: in its first or second bucket, or in the overflow store (R169). -/
inductive EmRead where
  | first | second | overflow (unit : Fin 16384)
  deriving DecidableEq, Repr

/-- What a granted pass meets from outside its own state: contention, parity errors in what it reads, and the requester ports that ask
for cells beside its writer (R274). -/
structure GrantEnv where
  contention : Contention
  /-- parity in what the pass's probes read, one after another in the order of issue; probes beyond the list read clean -/
  emParity : List (ParityEvent × EmRead)
  /-- parity errors in Bloom filter words: the LEN_INDEXes made candidates -/
  bloomParity : List (Fin 12)
  /-- parity in the readouts of the winners of the pass's Relief searches, in ascending search number -/
  reliefParity : List ParityEvent
  /-- the other requester ports that ask for a cell, in each clock from the frame's first request on -/
  rivals : List (List (Fin 37))
  deriving DecidableEq, Repr

/-- A place of the exact-match store that is restored or scrubbed (R183). -/
inductive EmPlace where
  | bucket (bank : Fin 64) (bucket : Fin 8192)
  | overflow (unit : Fin 16384)
  | filterWord (word : Fin 524288)
  deriving DecidableEq, Repr

/-- A queue of the table Queue kinds (R297). -/
inductive QueueId where
  | voq (n : Fin 131072) | repl (c : TrafficClass) | egress (n : Fin 65536)
  deriving DecidableEq, Repr

/-- What a DDR5 burst belongs to (table DDR5 regions, R285). -/
inductive Ddr5Place where
  | tableImage (copy : Quadrant) (place : EmPlace)
  | ruleTable | changeLogs
  | flowCounters (pair : Fin 2097152)
  | kilnSpare
  | captureRing (record : Nat)
  | spillBin (bin : Nat)
  deriving DecidableEq, Repr

/-- A DDR5 burst read twice (R292): its byte address, and each time 16 beats of four data bytes and a check byte. -/
structure Ddr5Burst where
  address : BitVec 40
  first : List (BitVec 40)
  second : List (BitVec 40)
  deriving DecidableEq, Repr

/-- The class of a fault (table Fault classes, R371). -/
inductive FaultClass where
  | corrected | contained | fatal
  deriving DecidableEq, Repr

/-- What a checker saw (R372). -/
inductive Syndrome where
  | singleBit | doubleBit | parity | parityRecovered | crc | crcRecovered | txPllLock | corePllLock | stateCheck
  /-- a pointer that came back for a cell, and reads as ADDRESS (R277) -/
  | badPointer (cell : Fin 786432)
  deriving DecidableEq, Repr

/-- A fault as its checker reports it (R371–R377): where, what, whose access, and the frame it touched if any. -/
structure FaultEvent where
  unit : BitVec 12
  checker : BitVec 4
  syndrome : Syndrome
  master : BitVec 12
  access : BitVec 4
  address : BitVec 48
  /-- the fault comes from the armed injection (R389) -/
  injected : Bool
  /-- the frame whose data the fault touched -/
  frame : Option Nat
  deriving DecidableEq, Repr

/-- How a slice of the power-on pass failed (R407). -/
structure SliceFailure where
  slice : BitVec 16
  part : BitVec 16
  timeout : Bool
  observed : BitVec 32
  golden : BitVec 32
  deriving DecidableEq, Repr

/-- What a slice's test yields: its response words in test order (R402), or for the SIGNATURE kind whether the image
signature verified (R397). -/
inductive SliceResult where
  | responses (words : List (BitVec 32))
  | signature (good : Bool)
  deriving DecidableEq, Repr

/-- The commands of the block: one constructor per row of the operation table, in its order. Each docstring is the
row's rule and what the row says comes about. -/
inductive Instr where
  /-- POWER_ON (R70): VDD_AON enters its range; the SMBus straps are sampled and a cold reset begins. -/
  | powerOn (straps : BitVec 2)
  /-- RAIL_LOSS (R480): A group 2 or 3 rail leaves its range while VDD_AON stays up; fast domains are held in reset and BOOT_STATE reads WAIT_RAILS. -/
  | railLoss (rail : Fin 5)
  /-- RAIL_RETURN (R480): Every group 2 and 3 rail is back in range; the Plinth runs the cold boot sequence as a rail-return reset. -/
  | railReturn
  /-- COLD_N_LOW (R72): COLD_N falls; every fast domain is held in reset and BOOT_STATE reads IN_RESET. -/
  | coldNLow
  /-- COLD_N_RISE (R75): COLD_N rises and the cold boot sequence starts at t = 0. -/
  | coldNRise
  /-- WARM_N_LOW (R72): WARM_N falls; fast domains are held in reset, or the cause is absorbed or ignored by the state. -/
  | warmNLow
  /-- WARM_N_RISE (R79): WARM_N rises and the warm sequence starts, or READY is reached without wiping again. -/
  | warmNRise
  /-- RESET_REQUEST_WARM (R72): A write of WARM to RESET_REQUEST starts the warm sequence after its response. -/
  | resetRequestWarm
  /-- RESET_REQUEST_COLD (R70): A write of COLD to RESET_REQUEST starts a cold reset after its response. -/
  | resetRequestCold
  /-- PLL_LOSS_OF_LOCK (R68): The core or DDR5 PLL loses lock while the device runs; a fatal fault holds the fast domains in reset. -/
  | pllLossOfLock (pll : Pll)
  /-- PLL_LOCK_RESTORED (R68): PLL lock has held again for 1 ms after a running loss, and a warm reset runs. -/
  | pllLockRestored
  /-- CLOCK_LOSS_BEFORE_READY (R481): SYS_REFCLK or a PLL is lost during a boot sequence; the sequence is abandoned and BOOT_STATE reads WAIT_CLOCKS. -/
  | clockLossBeforeReady (source : ClockSource)
  /-- CLOCKS_STABLE (R481): SYS_REFCLK has been stable 1 ms with both PLLs locked, and the abandoned or waiting sequence restarts. -/
  | clocksStable
  /-- PLLS_LOCKED (R75): The PLLs lock during boot; the SRAM wipe and the image read start and BOOT_STATE reads LOADING. -/
  | pllsLocked
  /-- CONFIG_BLOCK_READ (R76): The board configuration block has been read and is checked for magic, CRC and field ranges. -/
  | configBlockRead (block : List Byte)
  /-- IMAGE_READ_END (R75): The read of an image slot from flash ends with its hash computed. -/
  | imageReadEnd (image : List Byte)
  /-- IMAGE_VERIFIED (R76): Signature and LIFE_MASK checks of an image end; it is loaded, or image B or NO_IMAGE follows. -/
  | imageVerified (signatureGood : Bool)
  /-- SRAM_WIPE_END (R75): The on-die SRAM wipe of a reset sequence ends. -/
  | sramWipeEnd
  /-- DDR5_TRAINING_END (R78): Training of the fitted DDR5 channels ends; failing channels are fenced and BOOT_STATE reads WIPING. -/
  | ddr5TrainingEnd (failed : BitVec 16)
  /-- DDR5_RESET_RELEASE (R79): The 1 ms low period of the DDR5 reset outputs in a warm sequence ends and re-initialisation starts. -/
  | ddr5ResetRelease
  /-- DDR5_REINIT_END (R79): Re-initialisation of the DDR5 devices from kept training values ends and the DDR5 wipe starts. -/
  | ddr5ReinitEnd
  /-- DDR5_WIPE_END (R75): The DDR5 wipe ends; the power-on Kiln pass starts or the device becomes READY. -/
  | ddr5WipeEnd
  /-- POWER_ON_KILN_PASS_END (R407): The power-on Kiln pass ends; READY on success, KILN_FAILED at the first failure. -/
  | powerOnKilnPassEnd (failure : Option SliceFailure)
  /-- UPLOAD_START (R77): A write of 1 to UPLOAD_START in NO_IMAGE starts the check of the uploaded block and image. -/
  | uploadStart (value : Bool)
  /-- LIFE_REQUEST (R81): A life-cycle transition request is judged, with its authorisation, and accepted or rejected. -/
  | lifeRequest (value : BitVec 32) (signatureGood : Bool)
  /-- FUSE_BLOW_END (R82): The fuse blow of an accepted life-cycle request ends and a cold reset follows as a life-cycle change. -/
  | fuseBlowEnd
  /-- PIPE_GATED_ENTRY (R84): A pipe has been idle for 64 core clocks and enters GATED. -/
  | pipeGatedEntry (pipe : Pipe)
  /-- PIPE_RETAIN_ENTRY (R84): A pipe has stayed GATED for RETAIN_IDLE_US and enters RETAIN. -/
  | pipeRetainEntry (pipe : Pipe)
  /-- PIPE_OFF_ENTRY (R84): A pipe under policy 2 whose group ports are all down with empty egress queues enters OFF. -/
  | pipeOffEntry (pipe : Pipe)
  /-- PIPE_WAKE (R85): An arrival, eligible work, slice, access or takeover starts the wake of a sleeping pipe. -/
  | pipeWake (pipe : Pipe) (cause : WakeCause)
  /-- PIPE_WAKE_END (R85): A pipe's wake completes and it serves its waiting frames. -/
  | pipeWakeEnd (pipe : Pipe)
  /-- READ (R40): A SOP READ returns an object's value, sessionless on session 0 or on an open session. -/
  | read (access : ReadAccess)
  /-- WRITE (R34): A SOP WRITE sets an object's value, or requests the action it starts. -/
  | write (access : WriteAccess)
  /-- MULTI_READ (R41): A SOP MULTI_READ returns up to 64 items in list order, with BAD_LENGTH for items that do not fit. -/
  | multiRead (message : SopMessage)
  /-- DOMAIN_READ (R479): A SOP DOMAIN_READ returns COUNT bytes of a DOMAIN region from OFFSET. -/
  | domainRead (access : DomainReadAccess)
  /-- DOMAIN_WRITE (R479): A SOP DOMAIN_WRITE writes bytes into a DOMAIN region from OFFSET. -/
  | domainWrite (access : DomainWriteAccess)
  /-- OPEN (R47): A SOP OPEN on session 0 takes the lowest free session and gives it a new epoch. -/
  | sopOpen (message : SopMessage)
  /-- CLOSE (R48): A SOP CLOSE closes its session after the response. -/
  | sopClose (message : SopMessage)
  /-- NOP (R48): A SOP NOP restarts the session's idle timer. -/
  | sopNop (message : SopMessage)
  /-- ARP_REQUEST (R39): An ARP request for SOP_IPV4_ADDRESS on a management lane is answered. -/
  | arpRequest (lane : Fin 2) (target : List Byte)
  /-- NEIGHBOUR_SOLICITATION (R39): An IPv6 neighbour solicitation for SOP_IPV6_ADDRESS on a management lane is answered. -/
  | neighbourSolicitation (lane : Fin 2) (target : List Byte)
  /-- SESSION_IDLE_TIMEOUT (R48): A session's idle time passes with no accepted request and the session closes. -/
  | sessionIdleTimeout (session : Fin 8)
  /-- SESSION_FORCE_CLOSE (R48): A write of 1 to SESSION_FORCE_CLOSE closes the session after the response. -/
  | sessionForceClose (session : Fin 8)
  /-- SOP_KEY_SLOT_WRITE (R48): A write to SOP_KEY_SLOT changes the GMAC key slot and closes authenticated sessions. -/
  | sopKeySlotWrite (value : BitVec 8)
  /-- SOP_AUTH_REQUIRED_WRITE (R48): A write of 1 to SOP_AUTH_REQUIRED closes unauthenticated sessions after the response. -/
  | sopAuthRequiredWrite (value : BitVec 8)
  /-- MBOX_DOORBELL (R55): A write to MBOX_DOORBELL starts processing of the SOP message in MBOX_REQUEST, or is ignored while BUSY. -/
  | mboxDoorbell (value : BitVec 32)
  /-- SLOW_REQUEST_COMPLETE (R37): A slow SOP request served by the Atelier completes and its response is sent. -/
  | slowRequestComplete
  /-- OBJECT_WRITE (R34): A write to an object with no behaviour of its own is checked and takes effect when served. -/
  | objectWrite (index : BitVec 16) (sub : BitVec 8) (value : List Byte)
  /-- RING_HEAD (R60): The host advances RING_HEAD of a host-to-device ring, making new records available to the device. -/
  | ringHead (ring : Fin 256) (value : BitVec 32)
  /-- RING_TAIL (R62): The host advances RING_TAIL of a device-to-host ring, freeing the slots it passes. -/
  | ringTail (ring : Fin 256) (value : BitVec 32)
  /-- RING_STATUS_CLEAR (R62): A write of 1 in bit 2 of RING_STATUS_CLEAR clears the ring's overflow flag. -/
  | ringStatusClear (ring : Fin 256) (value : BitVec 32)
  /-- COMM_SUMMARY_CLEAR (R58): A write to COMM_SUMMARY_CLEAR clears the chosen event flags of COMM_SUMMARY. -/
  | commSummaryClear (value : BitVec 32)
  /-- FUNCTION_REQUEST_HOLD (R94): A HOLD request starts a function from OFF or drains it from RUN. -/
  | functionRequestHold (fn : Fn)
  /-- FUNCTION_REQUEST_RUN (R94): A RUN request moves a held function through STARTING to RUN. -/
  | functionRequestRun (fn : Fn)
  /-- FUNCTION_REQUEST_OFF (R94): An OFF request moves a held or fenced function to OFF at once. -/
  | functionRequestOff (fn : Fn)
  /-- FUNCTION_REQUEST_FENCE (R94): A FENCE request fences the function's unit and moves it to FENCED. -/
  | functionRequestFence (fn : Fn)
  /-- DRAIN_COMPLETE (R97): A function's drain completes and its state reads HOLD. -/
  | drainComplete (fn : Fn)
  /-- FORCED_DRAIN (R98): A drain reaches DRAIN_LIMIT_US; remaining work is dropped and the function reads HOLD. -/
  | forcedDrain (fn : Fn)
  /-- START_COMPLETE (R97): A function's start completes and it reads HOLD or RUN, with frozen settings applied in one clock. -/
  | startComplete (fn : Fn)
  /-- MODE_SUMMARY_CLEAR (R103): A write to MODE_SUMMARY_CLEAR clears the chosen event flags of MODE_SUMMARY. -/
  | modeSummaryClear (value : BitVec 32)
  /-- LIFE_SUMMARY_CLEAR (R87): A write to LIFE_SUMMARY_CLEAR clears the chosen event flags of LIFE_SUMMARY. -/
  | lifeSummaryClear (value : BitVec 32)
  /-- CLOCK_SUMMARY_CLEAR (R87): A write to CLOCK_SUMMARY_CLEAR clears the PLL lock-loss event flag. -/
  | clockSummaryClear (value : BitVec 32)
  /-- PAGES_RECEIVED (R110): Clause 73 pages arrive on a port and are resolved, or the link returns to NEGOTIATING. -/
  | pagesReceived (port : Port) (pages : Pages)
  /-- AN_WAIT_EXPIRY (R110): AN_WAIT_MS passes; the port moves to DETECTING or restarts arbitration. -/
  | anWaitExpiry (port : Port)
  /-- PD_DWELL_EXPIRY (R111): PD_DWELL_MS passes at a parallel-detect rate and the next enabled rate is tried. -/
  | pdDwellExpiry (port : Port)
  /-- RATE_DETECTED (R111): Lock at a tried rate has held for 1 ms and the link moves to ALIGNING. -/
  | rateDetected (port : Port)
  /-- TRAINING_COMPLETE (R112): Link training of a port completes and the link moves to ALIGNING. -/
  | trainingComplete (port : Port)
  /-- TRAINING_LIMIT_EXPIRY (R112): A training attempt passes TRAINING_LIMIT_MS; the link returns and the attempt repeats. -/
  | trainingLimitExpiry (port : Port)
  /-- LINK_UP (R109): Lock and alignment have held for LINK_UP_DEBOUNCE_US and the link reads UP. -/
  | linkUp (port : Port)
  /-- LINK_LOSS (R126): Loss of lock or a fault is seen; the link enters HOLDING, frames are cut off and the hold timer starts. -/
  | linkLoss (port : Port) (cause : LossCause)
  /-- HOLD_TIME_EXPIRY (R126): The hold timer expires and the port's egress queues are flushed with code 0x0C. -/
  | holdTimeExpiry (port : Port)
  /-- RECEIVED_FRAME (R114): A frame is received by the MAC, decrypted if CIPHER is on, judged and written into the ingress FIFO or ended. -/
  | receivedFrame (port : Port) (part : RxPart) (bytes : List Byte) (err : RxError)
  /-- PAUSE_FRAME (R121): A PAUSE frame is consumed and, in mode 1, sets the pause timers of all classes. -/
  | pauseFrame (port : Port) (bytes : List Byte)
  /-- PFC_FRAME (R121): A PFC frame is consumed and, in mode 2, sets the pause timers of the enabled classes. -/
  | pfcFrame (port : Port) (bytes : List Byte)
  /-- MAC_CONTROL_FRAME (R116): A MAC control frame of another opcode is consumed with code 0x0A. -/
  | macControlFrame (port : Port) (bytes : List Byte)
  /-- PAUSE_TIMER_EXPIRY (R122): A class's pause timer runs out and the class resumes. -/
  | pauseTimerExpiry (port : Port) (cls : TrafficClass)
  /-- PAUSE_WATCHDOG_EXPIRY (R123): A class's pause reaches PAUSE_WATCHDOG_MS; the class resumes and a Patina record is written. -/
  | pauseWatchdogExpiry (port : Port) (cls : TrafficClass)
  /-- PAUSE_WATCHDOG_IGNORE_END (R123): The further PAUSE_WATCHDOG_MS during which control frames are ignored ends. -/
  | pauseWatchdogIgnoreEnd (port : Port) (cls : TrafficClass)
  /-- CUT_THROUGH_START (R284): Enough bytes of a copy are in cells and it starts to transmit under cut-through. -/
  | cutThroughStart (port : Port)
  /-- TRANSMIT_UNDERRUN (R124): The transmit MAC needs a byte not yet in cells; the frame is stomped and UNDERRUN_STEP rises. -/
  | transmitUnderrun (port : Port)
  /-- TRANSMIT_END (R22): The last byte of a copy leaves a front port; the copy ends and releases its reference and in-flight count. -/
  | transmitEnd (port : Port)
  /-- CLEAN_FRAMES_LIMIT (R125): CLEAN_FRAMES reaches 2^20; UNDERRUN_STEP falls by one and the count restarts. -/
  | cleanFramesLimit (port : Port)
  /-- UNDERRUN_STEP_RESET (R125): A write of 1 sets UNDERRUN_STEP and CLEAN_FRAMES to 0. -/
  | underrunStepReset (port : Port)
  /-- STATS_CLEAR_RECEIVE (R133): STATS_CLEAR value 1 clears the receive statistics and their half-range bits. -/
  | statsClearReceive (port : Port)
  /-- STATS_CLEAR_TRANSMIT (R133): STATS_CLEAR value 2 clears the transmit statistics and their half-range bits. -/
  | statsClearTransmit (port : Port)
  /-- STATS_CLEAR_BOTH (R133): STATS_CLEAR value 3 clears both receive and transmit statistics. -/
  | statsClearBoth (port : Port)
  /-- PORT_FLAGS_CLEAR (R135): A write to PORT_FLAGS_CLEAR clears the chosen event flags of PORT_FLAGS. -/
  | portFlagsClear (port : Port) (value : BitVec 32)
  /-- STATS_RX_HALF_CLEAR (R133): A write clears the chosen bits of STATS_RX_HALF. -/
  | statsRxHalfClear (port : Port) (value : BitVec 32)
  /-- STATS_TX_HALF_CLEAR (R133): A write clears the chosen bits of STATS_TX_HALF. -/
  | statsTxHalfClear (port : Port) (value : BitVec 32)
  /-- INGRESS_SLOT_GRANT (R13): A waiting pass is granted an ingress slot and runs its parse, lookups, searches and policing. -/
  | ingressSlotGrant (pipe : Pipe) (env : GrantEnv)
  /-- LATE_LENGTH_CHECK (R146): A region end beyond the window is checked at the frame's tail; a short tail ends it with 0x20. -/
  | lateLengthCheck (frame : Nat)
  /-- PARSE_GRAPH_SELECT (R155): A write selects graph copy A or B for frames whose first pass is granted afterwards. -/
  | parseGraphSelect (value : BitVec 8)
  /-- STANDARD_GRAPH_LOAD (R155): A write of 1 loads the standard graph into the copy that is not selected. -/
  | standardGraphLoad
  /-- PIPE_FLAGS_CLEAR (R158): A write to PIPE_FLAGS_CLEAR clears the chosen event flags of PIPE_FLAGS. -/
  | pipeFlagsClear (pipe : Pipe) (value : BitVec 32)
  /-- INSERT (R170): A ring 8 INSERT places a key in all four copies, versioned or immediate. -/
  | insert
  /-- MODIFY (R170): A ring 8 MODIFY replaces the result of a key, versioned or immediate. -/
  | modify
  /-- DELETE (R170): A ring 8 DELETE removes a key, versioned or immediate. -/
  | delete
  /-- LOOKUP (R185): A ring 8 LOOKUP returns the result visible in the current or building slot. -/
  | lookup
  /-- HIT_TEST (R187): A ring 8 HIT_TEST returns and clears the hit bits of a key in every copy. -/
  | hitTest
  /-- LEARN_EVENT (R188): A learn event judged after the frame's FCS checks good consults the dedupe cache and may write a learn record. -/
  | learnEvent
  /-- BUCKET_RESTORE (R183): After a parity error the Atelier restores the bucket, unit or filter word from the golden image. -/
  | bucketRestore (copy : Quadrant) (place : EmPlace)
  /-- SCRUB (R183): The scrubber reads each bucket and overflow unit once per EM_SCRUB_PERIOD_MS and repairs what it finds. -/
  | scrub (copy : Quadrant) (place : EmPlace)
  /-- BUCKET_REBUILD (R183): With the golden image unreadable, a lost bucket is rebuilt from copy q XOR 1. -/
  | bucketRebuild (copy : Quadrant) (bank : Fin 64) (bucket : Fin 8192)
  /-- TABLE_SUMMARY_CLEAR (R191): A write to TABLE_SUMMARY_CLEAR clears the chosen event flags of TABLE_SUMMARY. -/
  | tableSummaryClear (value : BitVec 32)
  /-- RULE_WRITE (R206): A ring 8 RULE_WRITE writes a staged rule at its bank and position in every quadrant. -/
  | ruleWrite
  /-- RULE_DELETE (R206): A ring 8 RULE_DELETE removes the rule at a bank and position. -/
  | ruleDelete
  /-- RULE_READ (R204): A ring 8 RULE_READ copies the visible rule into the staging rows. -/
  | ruleRead
  /-- SHADOW_MISMATCH (R209): The shadow sweep finds an entry differing from its shadow and rewrites it. -/
  | shadowMismatch (quadrant : Quadrant) (bank : Fin 32) (position : Fin 1024)
  /-- SHADOW_REBUILD (R209): An uncorrectable shadow error suspends comparison and the shadow is rebuilt from the DDR5 rule table. -/
  | shadowRebuild (quadrant : Quadrant) (bank : Fin 32)
  /-- REHOMING_SWITCH (R210): Every guest entry of a fenced bank is written and searches switch to the guests in one clock. -/
  | rehomingSwitch (quadrant : Quadrant) (bank : Fin 32)
  /-- RELIEF_SUMMARY_CLEAR (R217): A write to RELIEF_SUMMARY_CLEAR clears the chosen event flags of RELIEF_SUMMARY. -/
  | reliefSummaryClear (value : BitVec 32)
  /-- VERSION_OPEN (R227): A ring 8 OPEN makes the lowest FREE slot BUILDING. -/
  | versionOpen
  /-- COMMIT (R227): A ring 8 COMMIT primes a FREE slot or waits pending, stopping ring 8. -/
  | commit
  /-- ABORT (R227): A ring 8 ABORT removes every change of the building version. -/
  | versionAbort
  /-- ABORT_COMPLETE (R230): The abort's log application ends and the building slot stays BUILDING empty. -/
  | abortComplete
  /-- PRIMING_START (R233): A slot becomes FREE and the pending commit begins priming it in the next clock. -/
  | primingStart
  /-- COMMIT_SWITCH (R228): Priming ends and in one clock the building slot becomes CURRENT and the current slot DRAINING. -/
  | commitSwitch
  /-- SLOT_RETIRE (R233): A DRAINING slot's in-flight count reads zero and the slot becomes RETIRING. -/
  | slotRetire (slot : Slot)
  /-- CLEANUP_COMPLETE (R233): Retirement cleanup ends and the slot becomes FREE. -/
  | cleanupComplete (slot : Slot)
  /-- VERSION_CANCEL (R231): A write of 1 cancels a pending commit, or reads TOO_LATE once priming has begun. -/
  | versionCancel
  /-- STALE_SWEEP (R235): The queue manager's visit of a queue drops head frames older than STALE_AGE_MS with 0x61. -/
  | staleSweep (queue : QueueId)
  /-- SLOT_AUDIT (R237): A slot draining longer than STALE_AGE_MS + 2 ms is audited and its stamped frames dropped. -/
  | slotAudit (slot : Slot)
  /-- CAST_WALK (R260): Cast starts a walk of a group's list and enqueues one copy per entry. -/
  | castWalk
  /-- CAST_WALK_END (R262): A Cast walk ends and releases its own reference, ending the frame with 0x66 if no copy was made. -/
  | castWalkEnd
  /-- SAMPLE_SEED (R265): A write to SAMPLE_SEED reloads every half-pipe's sampling register. -/
  | sampleSeed (value : BitVec 32)
  /-- RECIRC_DEPTH_PEAK (R253): A write of 0 restarts the peak recirculation depth at the present depth. -/
  | recircDepthPeak (pipe : Pipe) (value : BitVec 16)
  /-- GRANT_TIMEOUT (R275): A cell request not granted within 4 core clocks tail-drops its frame with 0x85. -/
  | grantTimeout (frame : Nat)
  /-- SPILL_WRITE (R288): A spill writer copies a staged frame into its VOQ's open bin and frees its cells. -/
  | spillWrite
  /-- BIN_FLUSH (R288): BIN_FLUSH_US passes since an open bin's first frame and the bin is written out. -/
  | binFlush (voq : Fin 131072)
  /-- SPILL_RETURN (R289): A spill return reader brings a VOQ's head bin back into on-die cells. -/
  | spillReturn
  /-- DDR5_REREAD (R292): A DDR5 burst with a bad check byte is re-read; a second failure retires the bin or applies the region's rule. -/
  | ddr5Reread (channel : Channel) (place : Ddr5Place) (burst : Ddr5Burst)
  /-- QUEUE_SUMMARY_CLEAR (R295): A write to QUEUE_SUMMARY_CLEAR clears the chosen event flags of QUEUE_SUMMARY. -/
  | queueSummaryClear (value : BitVec 32)
  /-- VOQ_PASS (R300): A VOQ with positive credit passes its head frame to the on-die path or the cell former. -/
  | voqPass (voq : Fin 131072)
  /-- CREDIT_GRANT (R301): A port's credit scheduler issues a grant of CREDIT_QUANTUM_BYTES to a requesting VOQ. -/
  | creditGrant (port : Port)
  /-- EGRESS_DECISION (R303): An egress slot picks a ready port, walks its tree to a queue and dequeues its head frame. -/
  | egressDecision (pipe : Pipe)
  /-- SHAPER_REFILL (R309): A node's refill interval passes and its committed and peak buckets are refilled. -/
  | shaperRefill (group : Group) (node : Fin 4744)
  /-- FABRIC_LANE_TRAINED (R321): A fabric lane completes training and enters HELLO. -/
  | fabricLaneTrained (lane : FabricLane)
  /-- HELLO (R322): HELLO words received on a fabric lane are checked, and the lane moves to UP or stays in HELLO. -/
  | hello (lane : FabricLane) (word : BitVec 64)
  /-- FABRIC_LANE_LOSS (R333): A fabric lane loses lock; it leaves the spray and its queued cells are placed again. -/
  | fabricLaneLoss (lane : FabricLane)
  /-- DATA_CELL (R335): A data cell is received and passed to its stream in SEQUENCE order, extracting frames. -/
  | dataCell (lane : FabricLane) (cell : List Byte)
  /-- CONTROL_CELL (R325): A control cell is received, discarded if its rsvd bits are set. -/
  | controlCell (lane : FabricLane) (cell : List Byte)
  /-- REQUEST (R339): A REQUEST word sets or clears a credit scheduler flag for its source and class. -/
  | request (word : BitVec 64)
  /-- GRANT (R339): A GRANT word adds its amount to the named VOQ's credit. -/
  | grant (word : BitVec 64)
  /-- LINK_CREDIT (R327): A LINK_CREDIT word adds cells to the lane's transmit credit. -/
  | linkCredit (lane : FabricLane) (word : BitVec 64)
  /-- REACH (R328): A REACH word replaces 48 bits of the lane's reach table. -/
  | reach (lane : FabricLane) (word : BitVec 64)
  /-- CELL_FILL_TIMEOUT (R330): CELL_FILL_NS passes since a cell's first byte and the cell is sent. -/
  | cellFillTimeout (device : Device) (stream : Fin 17)
  /-- CELL_PLACEMENT (R332): A waiting data cell is placed on the next eligible lane for its destination. -/
  | cellPlacement (device : Device)
  /-- UNREACHABLE_HOLD_EXPIRY (R332): No lane has reached a device for UNREACHABLE_HOLD_US; its waiting cells are discarded with 0xC3. -/
  | unreachableHoldExpiry (device : Device)
  /-- STALE_CELL_DISCARD (R332): A frame in waiting cells passes STALE_AGE_MS and the cells are discarded with 0xC3. -/
  | staleCellDiscard (device : Device)
  /-- REACH_BLOCK_EXPIRY (R328): A reach block not refreshed for 1 ms reads as all zeros. -/
  | reachBlockExpiry (lane : FabricLane) (block : Fin 86)
  /-- REORDER_TIMEOUT (R336): A gap stands for REORDER_TIMEOUT_NS and is declared lost, ending open frames with 0xC2. -/
  | reorderTimeout (device : Device)
  /-- REQUEST_REFRESH (R339): REQUEST_REFRESH_US passes and a VOQ at zero balance repeats REQUEST STATE 1. -/
  | requestRefresh (voq : Fin 131072)
  /-- REQUEST_FLAG_EXPIRY (R339): A scheduler flag not refreshed for 4 × REQUEST_REFRESH_US clears. -/
  | requestFlagExpiry (port : Port) (cls : TrafficClass) (device : Device)
  /-- FABRIC_SUMMARY_CLEAR (R344): A write to FABRIC_SUMMARY_CLEAR clears the chosen event flags of FABRIC_SUMMARY. -/
  | fabricSummaryClear (value : BitVec 32)
  /-- GCM_ENCRYPT (R362): A ring 9 GCM_ENCRYPT job is checked and placed. -/
  | gcmEncrypt
  /-- GCM_DECRYPT (R362): A ring 9 GCM_DECRYPT job is checked and placed. -/
  | gcmDecrypt
  /-- CMAC (R362): A ring 9 CMAC job is checked and placed. -/
  | cmac
  /-- WRAP (R362): A ring 9 WRAP job is checked and placed. -/
  | wrap
  /-- UNWRAP (R362): A ring 9 UNWRAP job is checked and placed. -/
  | unwrap
  /-- EXPORT (R363): A ring 9 EXPORT job wraps a job-key slot under the key-encryption key. -/
  | exportKey
  /-- JOB_END (R365): A crypto job ends with its status and its completion is written to ring 4. -/
  | jobEnd (job : Nat)
  /-- JOB_RESUME (R364): A suspended job resumes on a free context of its pipe, or on another pipe after 1 µs. -/
  | jobResume (job : Nat)
  /-- KEY_LOAD (R359): A write to KEY_LOAD starts the unwrap or clear load of a key record into a slot. -/
  | keyLoad (record : List Byte)
  /-- KEY_LOAD_END (R359): A key load ends and KEY_LOAD_STATUS reads DONE or a failure. -/
  | keyLoadEnd
  /-- KEY_ERASE (R361): A write to KEY_ERASE zeroes a slot and ends or closes the users of it. -/
  | keyErase (value : BitVec 16)
  /-- KEY_CLEAR_LOAD (R359): A write of 0 to KEY_CLEAR_LOAD locks clear key loading until cold reset. -/
  | keyClearLoad (value : BitVec 8)
  /-- JOB_ABORT (R366): A write of a TAG aborts the oldest job bearing it, or reads TOO_LATE or NOT_FOUND. -/
  | jobAbort (tag : BitVec 16)
  /-- CIPHER_SUMMARY_CLEAR (R369): A write to CIPHER_SUMMARY_CLEAR clears the chosen event flags of CIPHER_SUMMARY. -/
  | cipherSummaryClear (value : BitVec 32)
  /-- FAULT (R373): A checker detects a fault; it is classed, escalated, captured, recorded and reacted to. -/
  | fault (event : FaultEvent)
  /-- FAULT_ACK (R374): A write of a unit ID clears that unit's pending bits, or all of them for 0xFFFF. -/
  | faultAck (value : BitVec 16)
  /-- CORRECTED_AUTO_ACK (R374): CORRECTED_AUTO_ACK_MS passes since PENDING_C was set and it clears. -/
  | correctedAutoAck (unit : BitVec 12)
  /-- FIRST_ERROR_CLEAR (R377): A write of 1 empties the first-error capture. -/
  | firstErrorClear
  /-- HOST_FENCE (R381): FENCE_REQUEST operation 1 fences a unit as its fatal reaction. -/
  | hostFence (unit : BitVec 12)
  /-- RELEASE (R388): FENCE_REQUEST operation 2 starts the release of a fenced unit with its Kiln slice. -/
  | release (unit : BitVec 12)
  /-- RELEASE_WITHOUT_SLICE (R388): FENCE_REQUEST operation 3 starts a release that skips the slice. -/
  | releaseWithoutSlice (unit : BitVec 12)
  /-- RELEASE_END (R388): A release ends; the unit returns to service or stays fenced with SLICE_FAILED. -/
  | releaseEnd (slicePassed : Bool)
  /-- FENCE_SWEEP (R380): The Atelier sweeps the owner tags of a fenced unit, freeing cells and accounting lost frames. -/
  | fenceSweep (unit : BitVec 12)
  /-- TAKEOVER (R384): A takeover completes and the group's MACs let frames into the new pipe. -/
  | takeover
  /-- GROUP_RETURN (R387): A write of 1 starts the return of a group to its home pipe. -/
  | groupReturn (group : Group)
  /-- GROUP_RETURN_END (R387): The serving pipe's drain ends and the group switches to its home pipe. -/
  | groupReturnEnd (group : Group)
  /-- INJECT (R389): A write to INJECT arms a checker to read inverted check bits on its next accesses. -/
  | inject (value : BitVec 32)
  /-- TIMING_MARGIN (R391): A millisecond of margin measurement ends and TIMING_MARGIN_PS is updated. -/
  | timingMargin (quadrant : Quadrant) (picoseconds : BitVec 32)
  /-- FAULT_SUMMARY_CLEAR (R394): A write to FAULT_SUMMARY_CLEAR clears the chosen event flags of FAULT_SUMMARY. -/
  | faultSummaryClear (value : BitVec 32)
  /-- KILN_TICK (R398): A SLICE_PERIOD_MS tick starts the next sweep entry, or skips it. -/
  | kilnTick
  /-- SLICE_END (R404): A slice ends; its unit returns to service, or a failure is recorded as a FATAL fault. -/
  | sliceEnd (which : Fin 2) (result : SliceResult)
  /-- SLICE_TIMEOUT (R399): A slice still running at its maximum time ends with outcome TIMEOUT. -/
  | sliceTimeout (which : Fin 2)
  /-- SLICE_REQUEST (R408): A write of a slice number runs that slice at the next tick. -/
  | sliceRequest (value : BitVec 16)
  /-- FLOW_FLUSH (R419): A cache line's FLOW_FLUSH_US passes and its delta is written back to DDR5. -/
  | flowFlush (pair : Fin 2097152)
  /-- FLOW_COUNTER_READ (R420): A read of flow counter pairs returns stored value plus delta, clearing them under FLOW_READ_CLEAR. -/
  | flowCounterRead (pair : Fin 2097152) (count : Fin 89)
  /-- FLOW_COUNTER_WRITE (R421): A write sets a flow counter pair and discards its pending delta. -/
  | flowCounterWrite (pair : Fin 2097152) (packets : BitVec 64) (octets : BitVec 64)
  /-- CALIPER_FREEZE (R425): A write of 1 stops every Caliper counter in one clock and records CALIPER_FROZEN_AT. -/
  | caliperFreeze
  /-- CALIPER_RESTART (R425): A write of 0 to CALIPER_FREEZE restarts every Caliper counter in one clock. -/
  | caliperRestart
  /-- CALIPER_CLEAR_ALL (R425): A write of 1 sets every Caliper COUNT and SATURATED to 0 in one clock. -/
  | caliperClearAll
  /-- COUNTER_SUMMARY_CLEAR (R427): A write to COUNTER_SUMMARY_CLEAR clears the chosen event flags of COUNTER_SUMMARY. -/
  | counterSummaryClear (value : BitVec 32)
  /-- ROUTINE_DISPATCH (R430): A sequencer takes its next request and enters the routine of its kind. -/
  | routineDispatch (sequencer : Sequencer)
  /-- CONTINUE (R435): A microword runs its operations and continues at micro-PC + 1. -/
  | continueWord (sequencer : Sequencer)
  /-- JUMP (R435): A microword runs and continues at NEXT_ADDR. -/
  | jumpWord (sequencer : Sequencer)
  /-- BRANCH_SET (R435): A microword runs and branches to NEXT_ADDR if COND is true. -/
  | branchSet (sequencer : Sequencer)
  /-- BRANCH_CLEAR (R435): A microword runs and branches to NEXT_ADDR if COND is false. -/
  | branchClear (sequencer : Sequencer)
  /-- CALL (R435): A microword runs, saves micro-PC + 1 in MREG15 and continues at NEXT_ADDR. -/
  | callWord (sequencer : Sequencer)
  /-- RETURN (R435): A microword runs and continues at MREG15[13:0]. -/
  | returnWord (sequencer : Sequencer)
  /-- WAIT (R435): A microword repeats until COND is true, then continues. -/
  | waitWord (sequencer : Sequencer)
  /-- CHECKPOINT (R433): A microword writes the routine's checkpoint record and continues, letting a cover switch queues. -/
  | checkpoint (sequencer : Sequencer)
  /-- END (R435): A microword ends the routine and the next request is dispatched. -/
  | endRoutine (sequencer : Sequencer)
  /-- TRAP_RETURN (R437): A microword restores the trap frame and the interrupted routine continues. -/
  | trapReturn (sequencer : Sequencer)
  /-- MICRO_TRAP (R437): A pending trap is taken at a word boundary, saving state into its frame. -/
  | microTrap (sequencer : Sequencer)
  /-- RELOAD_START_IMAGE (R442): RELOAD_START value 1 starts an in-service reload from RELOAD_IMAGE. -/
  | reloadStartImage
  /-- RELOAD_START_HOLD (R442): RELOAD_START value 2 starts an in-service reload from the image hold. -/
  | reloadStartHold
  /-- RELOAD_VERIFIED (R442): Verification of the staged image ends; loading starts or the reload ends with its status. -/
  | reloadVerified (signatureGood : Bool)
  /-- SEQUENCER_RELEASE (R442): A sequencer released for reload reaches its checkpoint and its work passes to its cover. -/
  | sequencerRelease
  /-- SEQUENCER_LOADED (R442): A sequencer's store is loaded and read back, and it returns to service. -/
  | sequencerLoaded (matched : Bool)
  /-- ATELIER_SUMMARY_CLEAR (R446): A write to ATELIER_SUMMARY_CLEAR clears the chosen event flags of ATELIER_SUMMARY. -/
  | atelierSummaryClear (value : BitVec 32)
  /-- PPS_IN_EDGE (R470): A rising edge on PPS_IN is time-stamped into PPS_IN_TIME. -/
  | ppsInEdge
  /-- PPS_OUT_EDGE (R471): The timebase reaches the next second plus offset and PPS_OUT rises. -/
  | ppsOutEdge
  /-- PPS_OUT_WIDTH_EXPIRY (R471): PPS_OUT_WIDTH_US passes and PPS_OUT falls. -/
  | ppsOutWidthExpiry
  /-- TOD_TX_START (R472): 10 ms after a PPS_OUT edge a time-of-day message starts on TOD_TXD. -/
  | todTxStart
  /-- TOD_MESSAGE_RECEIVED (R472): A time-of-day message received on TOD_RXD is stored or counted as an error. -/
  | todMessageReceived (message : List Byte)
  /-- PERST_N_LOW (R455): PERST_N falls and resets the PCIe endpoint alone. -/
  | perstNLow
  /-- PERST_N_RISE (R455): PERST_N rises and the PCIe endpoint leaves reset. -/
  | perstNRise
  /-- DDR5_ALERT (R465): DDRc_ALERT_N asserts; a contained fault is raised and the command stream is repeated once. -/
  | ddr5Alert (channel : Channel)
  /-- TRST_N_LOW (R469): TRST_N low holds the TAP in Test-Logic-Reset. -/
  | trstNLow
  /-- EXTEST_PULSE (R469): The IEEE 1149.6 EXTEST_PULSE instruction drives the lanes from the boundary register. -/
  | extestPulse
  /-- EXTEST_TRAIN (R469): The IEEE 1149.6 EXTEST_TRAIN instruction drives the lanes from the boundary register. -/
  | extestTrain
  /-- SMBUS_READ_BOOT_STATE (R467): SMBus command 0x01 returns BOOT_STATE. -/
  | smbusReadBootState
  /-- SMBUS_READ_LIFE_STATE (R467): SMBus command 0x02 returns LIFE_STATE. -/
  | smbusReadLifeState
  /-- SMBUS_READ_DIE_TEMP (R467): SMBus command 0x10 returns DIE_TEMP. -/
  | smbusReadDieTemp
  /-- SMBUS_READ_TEMP_ALARM (R467): SMBus command 0x11 Block Read returns TEMP_ALARM. -/
  | smbusReadTempAlarm
  /-- SMBUS_WRITE_TEMP_ALARM (R467): SMBus command 0x11 Block Write sets TEMP_ALARM, or is NACKed if rejected. -/
  | smbusWriteTempAlarm (value : List Byte) (pec : Option Byte)
  /-- SMBUS_READ_RAIL_STATUS (R467): SMBus command 0x12 returns RAIL_STATUS. -/
  | smbusReadRailStatus
  /-- SMBUS_READ_RAIL_VOLTAGE (R467): SMBus commands 0x20–0x26 return the measured voltage of a rail in mV. -/
  | smbusReadRailVoltage (rail : Fin 7) (millivolts : BitVec 16)
  /-- POWER_REMOVAL (R66): VDD_AON leaves its range, alone or with every group at once, and the whole device becomes unpowered, losing the Patina and all kept state. -/
  | powerRemoval (every : Bool)
  /-- SD_REFCLK_LOSS (R87): An SD_REFCLK in use stops; CLOCK_STATUS clears its present bit and CLOCK_SUMMARY bit 2 sets. -/
  | sdRefclkLoss (clock : Fin 8)
  /-- SD_REFCLK_RETURN (R87): A lost SD_REFCLK is present again; its present bit sets and CLOCK_SUMMARY bit 2 clears. -/
  | sdRefclkReturn (clock : Fin 8)
  /-- TIMEBASE_STEP (R471): The device timebase is stepped; a forward step past a second boundary raises PPS_OUT in that clock, and a step in the clock of a PPS_IN edge applies to its stamp. -/
  | timebaseStep (nanoseconds : Int)
  /-- HOST_INJECTION (R13): The host injects a frame naming a port, and it waits for a slot of the injection class. -/
  | hostInjection (port : Port) (bytes : List Byte)
  /-- FLASH_REREAD_END (R441): The flash re-read of R441 ends; its image is checked, the SPI pins are released and LIFE_SUMMARY bit 3 clears. -/
  | flashRereadEnd (image : List Byte) (signatureGood : Bool)
  /-- DIE_TEMP_UPDATE (R87): The temperature sensors update DIE_TEMP, and CLOCK_SUMMARY bit 3 follows whether it is at or above TEMP_ALARM. -/
  | dieTempUpdate (millidegrees : BitVec 32)
  deriving DecidableEq, Repr

end Sys2Proof
end

