-- ==== Sys2Proof/Decode.lean ====
section
/-! DEFINITION. The operation table gives no row a bit encoding: commands reach the block over its links, pins and windows, so
no word spells a command. -/

namespace Sys2Proof

/-- The command a table word spells: none, because no row of the table gives bits. -/
def decodeTableWord (_nbits _w : Nat) : Option Instr := none

end Sys2Proof
end

