-- ==== Sys2Proof/Machine/Bits.lean ====
section
/-! DEFINITION. Bit fields, byte strings and cyclic redundancy checks.

Values of objects, records and messages are natural numbers; a field [hi:lo] of one is a number again. Byte strings are
lists. -/

namespace Sys2Proof.Machine

/-- Field [hi:lo] of a value (R4). -/
def bits (v hi lo : Nat) : Nat := v / 2 ^ lo % 2 ^ (hi + 1 - lo)

/-- Bit [n] of a value (R4). -/
def bit (v n : Nat) : Bool := v / 2 ^ n % 2 == 1

/-- A value placed with its least significant bit at [lo]. -/
def field (lo v : Nat) : Nat := v * 2 ^ lo

/-- The value with field [hi:lo] replaced. -/
def putBits (v hi lo x : Nat) : Nat := v - bits v hi lo * 2 ^ lo + x % 2 ^ (hi + 1 - lo) * 2 ^ lo

/-- The value with bit [n] set. -/
def setBit (v n : Nat) : Nat := if bit v n then v else v + 2 ^ n

/-- The value with the bits of a mask cleared. -/
def clearBits (v mask : Nat) : Nat := v - Nat.land v mask

/-- 1 for true. -/
def b2n (b : Bool) : Nat := if b then 1 else 0

/-- Two's complement of an integer in `n` bits. -/
def ofInt (n : Nat) (i : Int) : Nat := (i % (2 ^ n : Nat)).toNat

/-- The integer a two's complement value of `n` bits stands for. -/
def toInt (n v : Nat) : Int := if v % 2 ^ n < 2 ^ (n - 1) then (v % 2 ^ n : Nat) else (v % 2 ^ n : Nat) - (2 ^ n : Nat)

/-- A byte string read most significant byte first (R6). -/
def beNat (b : List Byte) : Nat := b.foldl (fun a x => 256 * a + x.toNat) 0

/-- A byte string read least significant byte first. -/
def leNat (b : List Byte) : Nat := b.foldr (fun x a => 256 * a + x.toNat) 0

/-- The `n` low bytes of a value, least significant first. -/
def toLe : Nat → Nat → List Byte
  | 0, _ => []
  | n + 1, v => BitVec.ofNat 8 v :: toLe n (v / 256)

/-- The `n` low bytes of a value, most significant first (R6). -/
def toBe (n v : Nat) : List Byte := (toLe n v).reverse

/-- `n` bytes of a byte string from an offset, as far as it reaches. -/
def slice (b : List Byte) (off n : Nat) : List Byte := (b.drop off).take n

/-- The big-endian number in `n` bytes from an offset. -/
def beAt (b : List Byte) (off n : Nat) : Nat := beNat (slice b off n)

/-- A byte string with the bytes from an offset replaced, its length kept. -/
def splice (b : List Byte) (off : Nat) (x : List Byte) : List Byte :=
  (b.take off ++ x ++ b.drop (off + x.length)).take b.length

/-- A byte string padded with zeros, or cut, to `n` bytes. -/
def padTo (n : Nat) (b : List Byte) : List Byte := (b ++ List.replicate (n - b.length) 0).take n

/-- Exclusive or of two byte strings, over the shorter. -/
def xorBytes (a b : List Byte) : List Byte := List.zipWith (· ^^^ ·) a b

/-- One bit of a reflected cyclic redundancy check over `poly`. -/
def crcReflectedBit (poly crc : Nat) : Nat := if crc % 2 = 1 then Nat.xor (crc / 2) poly else crc / 2

/-- One byte of a reflected 32-bit cyclic redundancy check. -/
def crcReflectedByte (poly crc : Nat) (b : Byte) : Nat :=
  let f := crcReflectedBit poly
  f (f (f (f (f (f (f (f (Nat.xor crc b.toNat))))))))

/-- A reflected 32-bit cyclic redundancy check from an initial value, with a final exclusive or of all ones. -/
def crcFrom (poly init : Nat) (b : List Byte) : Nat :=
  Nat.xor (b.foldl (crcReflectedByte poly) init) 0xFFFFFFFF

/-- A reflected 32-bit cyclic redundancy check with initial value and final exclusive or of all ones. -/
def crcReflected (poly : Nat) (b : List Byte) : Nat := crcFrom poly 0xFFFFFFFF b

/-- CRC-32C (R42). -/
def crc32c (b : List Byte) : Nat := crcReflected 0x82F63B78 b

/-- The CRC-32 of IEEE 802.3, whose value sent least significant byte first is the frame check sequence. -/
def crc32 (b : List Byte) : Nat := crcReflected 0xEDB88320 b

/-- The frame check sequence of a frame's bytes, as sent. -/
def fcs (b : List Byte) : List Byte := toLe 4 (crc32 b)

/-- One bit of the CRC-8 of polynomial 0x07. -/
def crc8Bit (c : Nat) : Nat := if c ≥ 128 then Nat.xor (2 * c % 256) 7 else 2 * c

/-- The CRC-8 of polynomial 0x07 and initial value 0 (R292, R467). -/
def crc8 (b : List Byte) : Nat :=
  b.foldl (fun c x =>
    crc8Bit (crc8Bit (crc8Bit (crc8Bit (crc8Bit (crc8Bit (crc8Bit (crc8Bit (Nat.xor c x.toNat))))))))) 0

/-- Bit positions below `n` that are 1, in ascending order. -/
def bitList (n v : Nat) : List Nat := (List.range n).filter fun i => bit v i

/-- The number of 1 bits below position `n`. -/
def popCount (n v : Nat) : Nat := (bitList n v).length

/-- Integer division rounded up. -/
def ceilDiv (a b : Nat) : Nat := (a + b - 1) / b

end Sys2Proof.Machine
end

