-- ==== Sys2Proof/Machine/Aes.lean ====
section
/-! DEFINITION. The algorithms that the spec names by standard: AES (FIPS 197), GCM (NIST SP 800-38D), CMAC (RFC 4493) and key
wrap (RFC 3394). PRESUMED: they are written from those standards, which the spec does not repeat. -/

namespace Sys2Proof.Machine.Aes

/-! ### The block cipher -/

/-- Multiplication by x in GF(2^8). -/
def xtime (a : Nat) : Nat := if a ≥ 128 then Nat.xor (2 * a % 256) 0x1B else 2 * a

/-- Multiplication in GF(2^8): the low `n` bits of `b`. -/
def gmulBits : Nat → Nat → Nat → Nat
  | 0, _, _ => 0
  | n + 1, a, b => Nat.xor (if b % 2 = 1 then a else 0) (gmulBits n (xtime a) (b / 2))

/-- Multiplication in GF(2^8). -/
def gmul (a b : Nat) : Nat := gmulBits 8 a b

/-- The inverse in GF(2^8): the 254th power. -/
def ginv (a : Nat) : Nat :=
  let a2 := gmul a a
  let a4 := gmul a2 a2
  let a8 := gmul a4 a4
  let a16 := gmul a8 a8
  let a32 := gmul a16 a16
  let a64 := gmul a32 a32
  let a128 := gmul a64 a64
  gmul a2 (gmul a4 (gmul a8 (gmul a16 (gmul a32 (gmul a64 a128)))))

/-- An eight-bit value rotated left. -/
def rotl8 (v n : Nat) : Nat := (v * 2 ^ n % 256) + v / 2 ^ (8 - n)

/-- The substitution box. -/
def sboxOf (a : Nat) : Nat :=
  let b := ginv a
  Nat.xor (Nat.xor (Nat.xor b (rotl8 b 1)) (Nat.xor (rotl8 b 2) (rotl8 b 3))) (Nat.xor (rotl8 b 4) 0x63)

/-- The substitution box as a table. -/
def sboxTable : Array Nat := ((List.range 256).map sboxOf).toArray

/-- The substitution box. -/
def sbox (a : Nat) : Nat := sboxTable.getD a 0

/-- The inverse substitution box as a table. -/
def invTable : Array Nat := ((List.range 256).map fun a => (sboxTable.toList.findIdx fun x => x == a)).toArray

/-- The inverse substitution box. -/
def invSbox (a : Nat) : Nat := invTable.getD a 0

/-- Byte `i` of a block. -/
def at_ (b : List Nat) (i : Nat) : Nat := b.getD i 0

/-- Exclusive or of two lists. -/
def xorList (a b : List Nat) : List Nat := List.zipWith Nat.xor a b

/-- SHIFTROWS, and its inverse with 3 in place of 1. -/
def shiftRows (k : Nat) (b : List Nat) : List Nat :=
  (List.range 16).map fun i => at_ b (4 * ((i / 4 + k * (i % 4)) % 4) + i % 4)

/-- One column mixed by the coefficients of a circulant matrix. -/
def mixColumn (m : List Nat) (b : List Nat) (c : Nat) : List Nat :=
  (List.range 4).map fun r =>
    (List.range 4).foldl (fun a j => Nat.xor a (gmul (at_ b (4 * c + j)) (at_ m ((j + 4 - r) % 4)))) 0

/-- MIXCOLUMNS by the coefficients of a circulant matrix. -/
def mixColumns (m b : List Nat) : List Nat := (List.range 4).flatMap (mixColumn m b)

/-- The next word of the key schedule: `i` is its number, `nk` the words of the key, `ws` the words so far, last first. -/
def nextWord (nk i rcon : Nat) (ws : List (List Nat)) : List Nat :=
  let t := ws.headD []
  let t := if i % nk = 0 then
      xorList [sbox (at_ t 1), sbox (at_ t 2), sbox (at_ t 3), sbox (at_ t 0)] [rcon, 0, 0, 0]
    else if nk = 8 ∧ i % nk = 4 then t.map sbox else t
  xorList (ws.getD (nk - 1) []) t

/-- Words of the key schedule added until none is left to add. -/
def expand : Nat → Nat → Nat → Nat → List (List Nat) → List (List Nat)
  | 0, _, _, _, ws => ws
  | n + 1, nk, i, rcon, ws =>
    expand n nk (i + 1) (if i % nk = 0 then xtime rcon else rcon) (nextWord nk i rcon ws :: ws)

/-- Consecutive groups of `k` elements, at most `n` of them. -/
def chunks {α : Type} (k : Nat) : Nat → List α → List (List α)
  | 0, _ => []
  | n + 1, l => if l.isEmpty then [] else l.take k :: chunks k n (l.drop k)

/-- The round keys of a key of 16 or 32 bytes. -/
def roundKeys (key : List Nat) : List (List Nat) :=
  let nk := key.length / 4
  let ws := (expand (4 * (nk + 7) - nk) nk nk 1 (chunks 4 8 key).reverse).reverse
  (chunks 4 15 ws).map List.flatten

/-- A block enciphered under round keys. -/
def cipherRounds : List (List Nat) → List Nat → List Nat
  | [], b => b
  | [k], b => xorList (shiftRows 1 (b.map sbox)) k
  | k :: ks, b => cipherRounds ks (xorList (mixColumns [2, 3, 1, 1] (shiftRows 1 (b.map sbox))) k)

/-- A block deciphered under round keys, last first. -/
def decipherRounds : List (List Nat) → List Nat → List Nat
  | [], b => b
  | [k], b => xorList ((shiftRows 3 b).map invSbox) k
  | k :: ks, b => decipherRounds ks (mixColumns [14, 11, 13, 9] (xorList ((shiftRows 3 b).map invSbox) k))

/-- Bytes as numbers. -/
def toNats (b : List Byte) : List Nat := b.map BitVec.toNat

/-- Numbers as bytes. -/
def ofNats (b : List Nat) : List Byte := b.map (BitVec.ofNat 8)

/-- AES of one block under a key of 16 or 32 bytes. -/
def encrypt (key block : List Byte) : List Byte :=
  match roundKeys (toNats key) with
  | k :: ks => ofNats (cipherRounds ks (xorList (toNats block) k))
  | [] => block

/-- The inverse of AES of one block. -/
def decrypt (key block : List Byte) : List Byte :=
  match (roundKeys (toNats key)).reverse with
  | k :: ks => ofNats (decipherRounds ks (xorList (toNats block) k))
  | [] => block

/-! ### GCM -/

/-- A block of 16 zero bytes. -/
def zeroBlock : List Byte := List.replicate 16 0

/-- Multiplication in GF(2^128) as GCM defines it, the bits of `x` from the first: `n` are left, `v` goes on. -/
def ghashMul : Nat → Nat → Nat → Nat → Nat
  | 0, _, _, z => z
  | n + 1, x, v, z =>
    let z := if bit x n then Nat.xor z v else z
    ghashMul n x (if v % 2 = 1 then Nat.xor (v / 2) 0xE1000000000000000000000000000000 else v / 2) z

/-- GHASH of a byte string whose length is a multiple of 16. -/
def ghash (h : Nat) (b : List Byte) : Nat :=
  (chunks 16 (b.length / 16) b).foldl (fun y x => ghashMul 128 (Nat.xor y (beNat x)) h 0) 0

/-- A byte string padded with zeros to a multiple of 16. -/
def pad16 (b : List Byte) : List Byte := padTo (ceilDiv b.length 16 * 16) b

/-- The key stream from a 96-bit IV, from counter `c` on, for `n` blocks. -/
def keyStream (key iv : List Byte) : Nat → Nat → List Byte
  | _, 0 => []
  | c, n + 1 => encrypt key (iv ++ toBe 4 c) ++ keyStream key iv (c + 1) n

/-- CTR of GCM with a 96-bit IV: encryption and decryption alike. -/
def gcmCtr (key iv data : List Byte) : List Byte := xorBytes data (keyStream key iv 2 (ceilDiv data.length 16))

/-- The tag of GCM over additional data and ciphertext. -/
def gcmTag (key iv aad cipher : List Byte) : List Byte :=
  let h := beNat (encrypt key zeroBlock)
  let s := ghash h (pad16 aad ++ pad16 cipher ++ toBe 8 (8 * aad.length) ++ toBe 8 (8 * cipher.length))
  xorBytes (toBe 16 s) (encrypt key (iv ++ toBe 4 1))

/-! ### CMAC -/

/-- A subkey of CMAC from a block. -/
def cmacDouble (v : Nat) : Nat := if bit v 127 then Nat.xor (2 * v % 2 ^ 128) 0x87 else 2 * v

/-- The CBC chain of CMAC. -/
def cbcMac (key : List Byte) (b : List Byte) : List Byte :=
  (chunks 16 (b.length / 16) b).foldl (fun y x => encrypt key (xorBytes y x)) zeroBlock

/-- AES-CMAC. -/
def cmac (key msg : List Byte) : List Byte :=
  let k1 := cmacDouble (beNat (encrypt key zeroBlock))
  let n := max 1 (ceilDiv msg.length 16)
  let last := msg.drop (16 * (n - 1))
  let m := if last.length = 16 then xorBytes last (toBe 16 k1)
    else xorBytes (padTo 16 (last ++ [0x80])) (toBe 16 (cmacDouble k1))
  cbcMac key (msg.take (16 * (n - 1)) ++ m)

/-! ### Key wrap -/

/-- One pass of key wrap over the registers: `t` counts from what is given. -/
def wrapPass (key : List Byte) : Nat → List Byte → List (List Byte) → List Byte × List (List Byte)
  | _, a, [] => (a, [])
  | t, a, r :: rs =>
    let b := encrypt key (a ++ r)
    let (a', rs') := wrapPass key (t + 1) (xorBytes (b.take 8) (toBe 8 t)) rs
    (a', b.drop 8 :: rs')

/-- Passes of key wrap. -/
def wrapPasses (key : List Byte) : Nat → Nat → List Byte → List (List Byte) → List Byte × List (List Byte)
  | 0, _, a, rs => (a, rs)
  | n + 1, t, a, rs =>
    let (a', rs') := wrapPass key t a rs
    wrapPasses key n (t + rs.length) a' rs'

/-- The default initial value of key wrap. -/
def wrapIv : List Byte := List.replicate 8 0xA6

/-- AES key wrap of a multiple of 8 bytes. -/
def wrap (key data : List Byte) : List Byte :=
  let rs := chunks 8 (data.length / 8) data
  let (a, rs) := wrapPasses key 6 1 wrapIv rs
  a ++ rs.flatten

/-- One pass of key unwrap, registers last first: `t` counts down. -/
def unwrapPass (key : List Byte) : Nat → List Byte → List (List Byte) → List Byte × List (List Byte)
  | _, a, [] => (a, [])
  | t, a, r :: rs =>
    let b := decrypt key (xorBytes a (toBe 8 t) ++ r)
    let (a', rs') := unwrapPass key (t - 1) (b.take 8) rs
    (a', b.drop 8 :: rs')

/-- Passes of key unwrap. -/
def unwrapPasses (key : List Byte) : Nat → Nat → List Byte → List (List Byte) → List Byte × List (List Byte)
  | 0, _, a, rs => (a, rs)
  | n + 1, t, a, rs =>
    let (a', rs') := unwrapPass key t a rs
    unwrapPasses key n (t - rs.length) a' rs'

/-- AES key unwrap: none where the integrity check fails. -/
def unwrap (key data : List Byte) : Option (List Byte) :=
  let n := data.length / 8 - 1
  let (a, rs) := unwrapPasses key 6 (6 * n) (data.take 8) (chunks 8 n (data.drop 8)).reverse
  if a = wrapIv then some rs.reverse.flatten else none

end Sys2Proof.Machine.Aes
end

