-- ==== Sys2Proof/Config.lean ====
section
/-! DEFINITION. What one part holds in fuses, and the values the spec leaves open. Nothing here has a body, so that no
proof can see a value: a statement about one holds whatever it is. -/

namespace Sys2Proof.Config

/-- DEVICE_SERIAL (0x1000:04), fused per part. -/
opaque deviceSerial : BitVec 64

/-- SILICON_STEP (0x1000:03), fixed per stepping. -/
opaque siliconStep : BitVec 16

/-- PCI_VENDOR_ID (0x1000:07), fused. -/
opaque pciVendorId : BitVec 16

/-- The fused MAC address of management lane `lane` (0x1100:02 and 0x1100:03). -/
opaque fusedMac : Nat → BitVec 48

/-- The fused default of EM_SEED`n` of copy `q` (R165). -/
opaque fusedSeed : Nat → Nat → BitVec 32

/-- The manufacturer code of the IDCODE register (R469). -/
opaque manufacturerCode : BitVec 11

/-- The key-encryption key, derived inside the key store from the fused secret and the life-cycle state (R83, R360). -/
opaque keyEncryptionKey : Nat → BitVec 256

/-- The 4 KiB stripe of the table image's region in which the golden image of a place stands (R183, R285): places are numbered as
2^22 × copy and the unit number, filter words from 2,113,536 on. -/
opaque imageStripe : Nat → Nat

/-- A free value: the `n`th value that the spec leaves open in a run, named by the plain counter `State.freeIx`. -/
opaque freeValue : Nat → BitVec 64

end Sys2Proof.Config
end

