-- ==== Sys2Proof/Machine/Dict.lean ====
section
/-! DEFINITION. The object dictionary's layout (R26-R31): every object of the spec's object tables, with its type, access
kind, default, allowed values and DOMAIN granule, and a name for the key of each.

A key is 256 × index + sub-index (R26). -/

namespace Sys2Proof.Machine

/-- The object types (table Object types, R27). -/
inductive Ty where
  | bool | u8 | u16 | u32 | u64 | i32 | enum8 | bits32 | octets | time64 | domain
  deriving DecidableEq, Repr

/-- The access kinds (table Access kinds, R28). -/
inductive Access where
  | const | ro | rw | wo | rwh
  deriving DecidableEq, Repr

/-- The values an object takes (step 11 of the table SOP check order). -/
inductive Check where
  | any
  | range (low high : Nat)
  | zeroOr (low high : Nat)
  /-- I32 in two's complement -/
  | signed (low high : Int)
  | oneOf (values : List Nat)
  /-- only bits of the mask may be 1 -/
  | bits (mask : Nat)
  | multiple (unit low high : Nat)
  deriving DecidableEq, Repr

/-- A family of objects of one row of an object table: `indices` indices from `index` at a distance of `step`, and `subs`
sub-indices from `sub` at each. -/
structure Family where
  index : Nat
  indices : Nat
  step : Nat
  sub : Nat
  subs : Nat
  ty : Ty
  /-- bytes of a value; for a DOMAIN the bytes of its region -/
  size : Nat
  access : Access
  default : Nat
  check : Check
  /-- DOMAIN granule; 0 otherwise -/
  granule : Nat
  deriving DecidableEq, Repr

namespace Dict

/-- Objects of indices 0x1000-0x1FFF, part 1. -/
def page1a : List Family := [
  ⟨0x1000, 1, 1, 0x01, 1, .u32, 4, .const, 1514668033, .any, 0⟩ /- VENDOR_CODE -/,
  ⟨0x1000, 1, 1, 0x02, 1, .u32, 4, .const, 9568, .any, 0⟩ /- PART_NUMBER -/,
  ⟨0x1000, 1, 1, 0x03, 1, .u16, 2, .const, 0, .any, 0⟩ /- SILICON_STEP -/,
  ⟨0x1000, 1, 1, 0x04, 1, .octets, 8, .const, 0, .any, 0⟩ /- DEVICE_SERIAL -/,
  ⟨0x1000, 1, 1, 0x05, 1, .u32, 4, .ro, 0, .any, 0⟩ /- MICROCODE_LEVEL -/,
  ⟨0x1000, 1, 1, 0x06, 1, .u16, 2, .const, 256, .any, 0⟩ /- DICTIONARY_LEVEL -/,
  ⟨0x1000, 1, 1, 0x07, 1, .u16, 2, .const, 0, .any, 0⟩ /- PCI_VENDOR_ID -/,
  ⟨0x1010, 1, 1, 0x01, 1, .enum8, 1, .ro, 0, .any, 0⟩ /- LIFE_STATE -/,
  ⟨0x1010, 1, 1, 0x02, 1, .u32, 4, .wo, 0, .any, 0⟩ /- LIFE_REQUEST -/,
  ⟨0x1010, 1, 1, 0x03, 1, .domain, 112, .rw, 0, .any, 16⟩ /- LIFE_AUTHORISATION -/,
  ⟨0x1010, 1, 1, 0x04, 1, .enum8, 1, .ro, 0, .any, 0⟩ /- LIFE_REQUEST_STATUS -/,
  ⟨0x1010, 1, 1, 0x05, 1, .bits32, 4, .wo, 0, .bits 0xF, 0⟩ /- LIFE_SUMMARY_CLEAR -/,
  ⟨0x10C0, 1, 1, 0x01, 1, .bits32, 4, .ro, 0, .any, 0⟩ /- DEVICE_SUMMARY -/,
  ⟨0x10C1, 1, 1, 0x01, 1, .bits32, 4, .ro, 0, .any, 0⟩ /- LIFE_SUMMARY -/,
  ⟨0x10C1, 1, 1, 0x02, 1, .bits32, 4, .ro, 0, .any, 0⟩ /- COMM_SUMMARY -/,
  ⟨0x10C1, 1, 1, 0x03, 1, .bits32, 4, .ro, 0, .any, 0⟩ /- CLOCK_SUMMARY -/,
  ⟨0x10C1, 1, 1, 0x04, 1, .bits32, 4, .ro, 0, .any, 0⟩ /- MODE_SUMMARY -/,
  ⟨0x10C1, 1, 1, 0x06, 1, .bits32, 4, .ro, 0, .any, 0⟩ /- PIPE_SUMMARY -/,
  ⟨0x10C1, 1, 1, 0x07, 1, .bits32, 4, .ro, 0, .any, 0⟩ /- TABLE_SUMMARY -/,
  ⟨0x10C1, 1, 1, 0x08, 1, .bits32, 4, .ro, 0, .any, 0⟩ /- RELIEF_SUMMARY -/,
  ⟨0x10C1, 1, 1, 0x09, 1, .bits32, 4, .ro, 0, .any, 0⟩ /- QUEUE_SUMMARY -/,
  ⟨0x10C1, 1, 1, 0x0A, 1, .bits32, 4, .ro, 0, .any, 0⟩ /- CIPHER_SUMMARY -/,
  ⟨0x10C1, 1, 1, 0x0B, 1, .bits32, 4, .ro, 0, .any, 0⟩ /- ATELIER_SUMMARY -/,
  ⟨0x10C1, 1, 1, 0x0C, 1, .bits32, 4, .ro, 0, .any, 0⟩ /- FAULT_SUMMARY -/,
  ⟨0x10C1, 1, 1, 0x0D, 1, .bits32, 4, .ro, 0, .any, 0⟩ /- COUNTER_SUMMARY -/,
  ⟨0x10C1, 1, 1, 0x0E, 1, .bits32, 4, .ro, 0, .any, 0⟩ /- RING_SUMMARY -/,
  ⟨0x10C1, 1, 1, 0x0F, 1, .bits32, 4, .ro, 0, .any, 0⟩ /- FABRIC_SUMMARY -/,
  ⟨0x10C2, 1, 1, 0x01, 4, .bits32, 4, .ro, 0, .any, 0⟩ /- PORT_SUMMARY -/,
  ⟨0x10F0, 1, 1, 0x01, 1, .domain, 0, .ro, 0, .any, 16⟩ /- OBJECT_DIRECTORY -/,
  ⟨0x10F0, 1, 1, 0x02, 1, .u32, 4, .ro, 0, .any, 0⟩ /- DIRECTORY_ENTRIES -/,
  ⟨0x1100, 1, 1, 0x01, 1, .u16, 2, .const, 34997, .any, 0⟩ /- SOP_ETHERTYPE -/,
  ⟨0x1100, 1, 1, 0x02, 1, .octets, 6, .rw, 0, .any, 0⟩ /- MG0_MAC -/,
  ⟨0x1100, 1, 1, 0x03, 1, .octets, 6, .rw, 0, .any, 0⟩ /- MG1_MAC -/,
  ⟨0x1100, 1, 1, 0x04, 1, .octets, 4, .rw, 0, .any, 0⟩ /- SOP_IPV4_ADDRESS -/,
  ⟨0x1100, 1, 1, 0x05, 1, .octets, 16, .rw, 0, .any, 0⟩ /- SOP_IPV6_ADDRESS -/,
  ⟨0x1100, 1, 1, 0x06, 1, .u16, 2, .rw, 49510, .any, 0⟩ /- SOP_UDP_PORT -/,
  ⟨0x1100, 1, 1, 0x07, 1, .bits32, 4, .rw, 15, .bits 0xF, 0⟩ /- SOP_CARRIAGE_ENABLE -/,
  ⟨0x1100, 1, 1, 0x08, 1, .u32, 4, .rw, 10000, .range 100 3600000, 0⟩ /- SESSION_IDLE_TIMEOUT -/,
  ⟨0x1100, 1, 1, 0x09, 1, .bool, 1, .rw, 0, .range 0 1, 0⟩ /- SOP_AUTH_REQUIRED -/,
  ⟨0x1100, 1, 1, 0x0A, 1, .u8, 1, .rw, 0, .range 0 63, 0⟩ /- SOP_KEY_SLOT -/]

/-- Objects of indices 0x1000-0x1FFF, part 2. -/
def page1b : List Family := [
  ⟨0x1100, 1, 1, 0x0B, 1, .bool, 1, .rw, 1, .range 0 1, 0⟩ /- PCIE_DIRECT_ENABLE -/,
  ⟨0x1100, 1, 1, 0x0C, 1, .enum8, 1, .rw, 0, .range 0 2, 0⟩ /- MG_LANE_RATE -/,
  ⟨0x1101, 1, 1, 0x01, 1, .u32, 4, .ro, 1, .any, 0⟩ /- SESSION0_NEXT_SEQ -/,
  ⟨0x1101, 1, 1, 0x02, 1, .u32, 4, .ro, 1, .any, 0⟩ /- COMM_EPOCH -/,
  ⟨0x1102, 1, 1, 0x01, 1, .u32, 4, .ro, 0, .any, 0⟩ /- SOP_CHECK_FAILS -/,
  ⟨0x1102, 1, 1, 0x02, 1, .u32, 4, .ro, 0, .any, 0⟩ /- SOP_AUTH_FAILS -/,
  ⟨0x1102, 1, 1, 0x03, 1, .u32, 4, .ro, 0, .any, 0⟩ /- SOP_MALFORMED -/,
  ⟨0x1102, 1, 1, 0x04, 1, .bits32, 4, .wo, 0, .bits 7, 0⟩ /- COMM_SUMMARY_CLEAR -/,
  ⟨0x1108, 8, 1, 0x01, 1, .enum8, 1, .ro, 0, .any, 0⟩ /- SESSION_STATE -/,
  ⟨0x1108, 8, 1, 0x02, 1, .enum8, 1, .ro, 0, .any, 0⟩ /- SESSION_PATH -/,
  ⟨0x1108, 8, 1, 0x03, 1, .octets, 18, .ro, 0, .any, 0⟩ /- SESSION_PEER -/,
  ⟨0x1108, 8, 1, 0x04, 1, .u32, 4, .ro, 0, .any, 0⟩ /- SESSION_NEXT_SEQ -/,
  ⟨0x1108, 8, 1, 0x05, 1, .u32, 4, .ro, 0, .any, 0⟩ /- SESSION_EPOCH -/,
  ⟨0x1108, 8, 1, 0x06, 1, .bool, 1, .ro, 0, .range 0 1, 0⟩ /- SESSION_AUTH -/,
  ⟨0x1108, 8, 1, 0x07, 1, .bool, 1, .wo, 0, .range 0 1, 0⟩ /- SESSION_FORCE_CLOSE -/,
  ⟨0x1110, 4, 1, 0x01, 1, .u32, 4, .rw, 0, .any, 0⟩ /- WINDOW_OBJECT -/,
  ⟨0x1110, 4, 1, 0x02, 1, .u64, 8, .rw, 0, .any, 0⟩ /- WINDOW_BASE -/,
  ⟨0x1120, 1, 1, 0x01, 1, .u32, 4, .ro, 0, .any, 0⟩ /- PCIE_LAST_ABORT -/,
  ⟨0x1120, 1, 1, 0x02, 1, .u32, 4, .ro, 0, .any, 0⟩ /- PCIE_ABORT_COUNT -/,
  ⟨0x1200, 1, 1, 0x01, 1, .enum8, 1, .ro, 0, .any, 0⟩ /- BOOT_STATE -/,
  ⟨0x1200, 1, 1, 0x02, 1, .enum8, 1, .ro, 0, .any, 0⟩ /- BOOT_IMAGE -/,
  ⟨0x1200, 1, 1, 0x03, 1, .u32, 4, .ro, 0, .any, 0⟩ /- BOOT_FAIL_DETAIL -/,
  ⟨0x1200, 1, 1, 0x04, 1, .enum8, 1, .wo, 0, .range 1 2, 0⟩ /- RESET_REQUEST -/,
  ⟨0x1200, 1, 1, 0x05, 1, .enum8, 1, .ro, 0, .any, 0⟩ /- LAST_RESET_CAUSE -/,
  ⟨0x1200, 1, 1, 0x06, 1, .u32, 4, .ro, 0, .any, 0⟩ /- BOOT_ELAPSED -/,
  ⟨0x1200, 1, 1, 0x07, 1, .bool, 1, .rw, 0, .range 0 1, 0⟩ /- WARM_KILN -/,
  ⟨0x1201, 1, 1, 0x01, 1, .domain, 393232, .rw, 0, .any, 16⟩ /- UPLOAD_IMAGE -/,
  ⟨0x1201, 1, 1, 0x02, 1, .bool, 1, .wo, 0, .range 0 1, 0⟩ /- UPLOAD_START -/,
  ⟨0x1203, 1, 1, 0x01, 1, .bits32, 4, .ro, 0, .any, 0⟩ /- DDR5_CHANNELS_IN_USE -/,
  ⟨0x1210, 1, 1, 0x01, 1, .bits32, 4, .ro, 0, .any, 0⟩ /- CLOCK_STATUS -/,
  ⟨0x1210, 1, 1, 0x02, 1, .bits32, 4, .wo, 0, .bits 0x1F, 0⟩ /- CLOCK_SUMMARY_CLEAR -/,
  ⟨0x1220, 1, 1, 0x01, 1, .i32, 4, .ro, 0, .any, 0⟩ /- DIE_TEMP -/,
  ⟨0x1220, 1, 1, 0x02, 1, .i32, 4, .rw, 105000, .any, 0⟩ /- TEMP_ALARM -/,
  ⟨0x1220, 1, 1, 0x03, 1, .bits32, 4, .ro, 0, .any, 0⟩ /- RAIL_STATUS -/,
  ⟨0x1230, 1, 1, 0x01, 1, .bool, 1, .rw, 0, .range 0 1, 0⟩ /- PPS_OUT_ENABLE -/,
  ⟨0x1230, 1, 1, 0x02, 1, .i32, 4, .rw, 0, .signed (-500000000) 499999999, 0⟩ /- PPS_OUT_OFFSET_NS -/,
  ⟨0x1230, 1, 1, 0x03, 1, .u32, 4, .rw, 100000, .range 1 500000, 0⟩ /- PPS_OUT_WIDTH_US -/,
  ⟨0x1230, 1, 1, 0x04, 1, .time64, 8, .ro, 0, .any, 0⟩ /- PPS_IN_TIME -/,
  ⟨0x1230, 1, 1, 0x05, 1, .u32, 4, .ro, 0, .any, 0⟩ /- PPS_IN_COUNT -/,
  ⟨0x1230, 1, 1, 0x06, 1, .i32, 4, .rw, 0, .signed (-100000) 100000, 0⟩ /- PPS_IN_DELAY_NS -/]

/-- Objects of indices 0x1000-0x1FFF, part 3. -/
def page1c : List Family := [
  ⟨0x1231, 1, 1, 0x01, 1, .bool, 1, .rw, 0, .range 0 1, 0⟩ /- TOD_TX_ENABLE -/,
  ⟨0x1231, 1, 1, 0x02, 1, .u8, 1, .rw, 0, .any, 0⟩ /- TOD_TX_FLAGS -/,
  ⟨0x1231, 1, 1, 0x03, 1, .octets, 16, .ro, 0, .any, 0⟩ /- TOD_RX_LAST -/,
  ⟨0x1231, 1, 1, 0x04, 1, .u32, 4, .ro, 0, .any, 0⟩ /- TOD_RX_COUNT -/,
  ⟨0x1231, 1, 1, 0x05, 1, .u32, 4, .ro, 0, .any, 0⟩ /- TOD_RX_ERRORS -/,
  ⟨0x1232, 1, 1, 0x01, 4, .u16, 2, .rw, 0, .any, 0⟩ /- RCLK_SOURCE -/,
  ⟨0x1240, 17, 1, 0x01, 1, .enum8, 1, .ro, 0, .any, 0⟩ /- SLEEP_DEPTH -/,
  ⟨0x1240, 17, 1, 0x02, 1, .enum8, 1, .rw, 0, .range 0 2, 0⟩ /- SLEEP_POLICY -/,
  ⟨0x1240, 17, 1, 0x03, 1, .u32, 4, .rw, 100, .range 10 1000000, 0⟩ /- RETAIN_IDLE_US -/,
  ⟨0x1240, 17, 1, 0x04, 1, .u32, 4, .ro, 0, .any, 0⟩ /- WAKE_COUNT -/,
  ⟨0x1400, 1, 1, 0x01, 1, .bits32, 4, .ro, 32, .any, 0⟩ /- MODE_ACTIVE -/,
  ⟨0x1400, 1, 1, 0x02, 1, .bits32, 4, .wo, 0, .bits 0xF, 0⟩ /- MODE_SUMMARY_CLEAR -/,
  ⟨0x1401, 1, 1, 0x01, 1, .bool, 1, .rw, 0, .range 0 1, 0⟩ /- SPILL_ENABLE -/,
  ⟨0x1401, 1, 1, 0x02, 1, .bool, 1, .rw, 1, .range 0 1, 0⟩ /- SLICE_ENABLE -/,
  ⟨0x1401, 1, 1, 0x03, 1, .bool, 1, .rw, 0, .range 0 1, 0⟩ /- CAPTURE_ENABLE -/,
  ⟨0x1401, 1, 1, 0x04, 1, .bool, 1, .rwh, 0, .range 0 1, 0⟩ /- FABRIC_ENABLE -/,
  ⟨0x1401, 1, 1, 0x05, 1, .u32, 4, .ro, 0, .any, 0⟩ /- STAGE_BANKS -/,
  ⟨0x1401, 1, 1, 0x06, 1, .u32, 4, .ro, 0, .any, 0⟩ /- FENCED_UNITS -/,
  ⟨0x1402, 1, 1, 0x01, 128, .bool, 1, .rw, 0, .range 0 1, 0⟩ /- CUT_ENABLE -/,
  ⟨0x1403, 1, 1, 0x01, 128, .bool, 1, .rwh, 0, .range 0 1, 0⟩ /- CIPHER_ENABLE -/,
  ⟨0x1404, 1, 1, 0x01, 128, .bool, 1, .rw, 0, .range 0 1, 0⟩ /- LEARN_ENABLE -/,
  ⟨0x1405, 1, 1, 0x01, 128, .bool, 1, .rw, 0, .range 0 1, 0⟩ /- TIME_ENABLE -/,
  ⟨0x1406, 1, 1, 0x01, 16, .bool, 1, .rw, 0, .range 0 1, 0⟩ /- SLEEP_ENABLE -/,
  ⟨0x1407, 1, 1, 0x01, 128, .bits32, 4, .ro, 32, .any, 0⟩ /- PORT_MODES_IN_FORCE -/,
  ⟨0x1410, 1, 1, 0x01, 128, .enum8, 1, .ro, 0, .any, 0⟩ /- FUNCTION_STATE -/,
  ⟨0x1411, 1, 1, 0x01, 128, .enum8, 1, .wo, 0, .range 1 4, 0⟩ /- FUNCTION_REQUEST -/,
  ⟨0x1412, 1, 1, 0x01, 16, .enum8, 1, .ro, 0, .any, 0⟩ /- FUNCTION_STATE -/,
  ⟨0x1413, 1, 1, 0x01, 16, .enum8, 1, .wo, 0, .range 1 4, 0⟩ /- FUNCTION_REQUEST -/,
  ⟨0x1414, 1, 1, 0x01, 16, .enum8, 1, .ro, 0, .any, 0⟩ /- FUNCTION_STATE -/,
  ⟨0x1415, 1, 1, 0x01, 16, .enum8, 1, .wo, 0, .range 1 4, 0⟩ /- FUNCTION_REQUEST -/,
  ⟨0x1416, 1, 1, 0x01, 17, .enum8, 1, .ro, 0, .any, 0⟩ /- FUNCTION_STATE -/,
  ⟨0x1417, 1, 1, 0x01, 17, .enum8, 1, .wo, 0, .range 1 4, 0⟩ /- FUNCTION_REQUEST -/,
  ⟨0x1418, 1, 1, 0x01, 4, .enum8, 1, .ro, 0, .any, 0⟩ /- FUNCTION_STATE -/,
  ⟨0x1419, 1, 1, 0x01, 4, .enum8, 1, .wo, 0, .range 1 4, 0⟩ /- FUNCTION_REQUEST -/,
  ⟨0x141A, 1, 1, 0x01, 1, .enum8, 1, .ro, 0, .any, 0⟩ /- FUNCTION_STATE -/,
  ⟨0x141B, 1, 1, 0x01, 1, .enum8, 1, .wo, 0, .range 1 4, 0⟩ /- FUNCTION_REQUEST -/,
  ⟨0x141C, 1, 1, 0x01, 6, .u32, 4, .rw, 1000, .range 10 1000000, 0⟩ /- DRAIN_LIMIT_US -/,
  ⟨0x141D, 1, 1, 0x01, 1, .u16, 2, .ro, 65535, .any, 0⟩ /- LAST_FORCED_DRAIN -/]

/-- Objects of indices 0x2000-0x2FFF, part 1. -/
def page2a : List Family := [
  ⟨0x2000, 128, 16, 0x01, 1, .u8, 1, .rwh, 0, .range 0 7, 0⟩ /- PORT_FIRST_LANE -/,
  ⟨0x2000, 128, 16, 0x02, 1, .u8, 1, .rwh, 1, .oneOf [1, 2, 4, 8], 0⟩ /- PORT_WIDTH -/,
  ⟨0x2000, 128, 16, 0x03, 1, .bits32, 4, .rwh, 0, .bits 0xFF, 0⟩ /- TX_POLARITY -/,
  ⟨0x2000, 128, 16, 0x04, 1, .bits32, 4, .rwh, 0, .bits 0xFF, 0⟩ /- RX_POLARITY -/,
  ⟨0x2000, 128, 16, 0x05, 1, .u8, 1, .rwh, 1, .any, 0⟩ /- TX_PRESET -/,
  ⟨0x2001, 128, 16, 0x01, 1, .bool, 1, .rwh, 1, .range 0 1, 0⟩ /- AN_ENABLE -/,
  ⟨0x2001, 128, 16, 0x02, 1, .bits32, 4, .rwh, 1048574, .bits 0xFFFFE, 0⟩ /- AN_ABILITY -/,
  ⟨0x2001, 128, 16, 0x03, 1, .bits32, 4, .rwh, 3, .bits 7, 0⟩ /- PD_RATES -/,
  ⟨0x2001, 128, 16, 0x04, 1, .u16, 2, .rwh, 80, .range 20 1000, 0⟩ /- AN_WAIT_MS -/,
  ⟨0x2001, 128, 16, 0x05, 1, .u16, 2, .rwh, 10, .range 2 100, 0⟩ /- PD_DWELL_MS -/,
  ⟨0x2001, 128, 16, 0x06, 1, .enum8, 1, .ro, 0, .any, 0⟩ /- AN_RESULT -/,
  ⟨0x2001, 128, 16, 0x07, 1, .octets, 6, .ro, 0, .any, 0⟩ /- PARTNER_BASE_PAGE -/,
  ⟨0x2002, 128, 16, 0x01, 1, .enum8, 1, .ro, 0, .any, 0⟩ /- LINK_STATE -/,
  ⟨0x2002, 128, 16, 0x02, 1, .u32, 4, .rw, 50, .range 0 10000, 0⟩ /- HOLD_TIME_US -/,
  ⟨0x2002, 128, 16, 0x03, 1, .u32, 4, .rw, 10, .range 0 1000000, 0⟩ /- LINK_UP_DEBOUNCE_US -/,
  ⟨0x2002, 128, 16, 0x04, 1, .enum8, 1, .rwh, 0, .range 0 1, 0⟩ /- TRAINING_MODE -/,
  ⟨0x2002, 128, 16, 0x05, 1, .u16, 2, .rwh, 1000, .range 100 10000, 0⟩ /- TRAINING_LIMIT_MS -/,
  ⟨0x2002, 128, 16, 0x06, 1, .u32, 4, .ro, 0, .any, 0⟩ /- LINK_DOWN_COUNT -/,
  ⟨0x2002, 128, 16, 0x07, 1, .u32, 4, .ro, 0, .any, 0⟩ /- HOLD_RESUMES -/,
  ⟨0x2002, 128, 16, 0x08, 1, .time64, 8, .ro, 0, .any, 0⟩ /- LAST_LINK_CHANGE -/,
  ⟨0x2003, 128, 16, 0x01, 1, .enum8, 1, .rwh, 0, .range 0 3, 0⟩ /- FEC_MODE -/,
  ⟨0x2003, 128, 16, 0x02, 1, .enum8, 1, .ro, 0, .any, 0⟩ /- FEC_IN_USE -/,
  ⟨0x2003, 128, 16, 0x03, 8, .u32, 4, .ro, 0, .any, 0⟩ /- FEC_LANE_SYMBOLS -/,
  ⟨0x2004, 128, 16, 0x01, 1, .enum8, 1, .ro, 0, .any, 0⟩ /- SPEED_IN_USE -/,
  ⟨0x2004, 128, 16, 0x02, 1, .u32, 4, .ro, 0, .any, 0⟩ /- PORT_DATA_RATE -/,
  ⟨0x2004, 128, 16, 0x03, 1, .enum8, 1, .rwh, 2, .range 1 19, 0⟩ /- PORT_SPEED -/,
  ⟨0x2005, 128, 16, 0x01, 1, .u16, 2, .rwh, 9216, .range 1518 16360, 0⟩ /- MAX_FRAME -/,
  ⟨0x2005, 128, 16, 0x02, 1, .enum8, 1, .rw, 0, .range 0 2, 0⟩ /- RX_FLOW_CONTROL -/,
  ⟨0x2005, 128, 16, 0x03, 1, .bits32, 4, .rw, 255, .bits 0xFF, 0⟩ /- PFC_CLASS_ENABLE -/,
  ⟨0x2005, 128, 16, 0x04, 1, .u32, 4, .ro, 0, .any, 0⟩ /- PAUSE_WATCHDOG_BREAKS -/,
  ⟨0x2005, 128, 16, 0x05, 1, .bits32, 4, .ro, 0, .any, 0⟩ /- PAUSED_CLASSES -/,
  ⟨0x2006, 128, 16, 0x01, 1, .domain, 64, .rw, 0, .any, 8⟩ /- GROUP_FILTER -/,
  ⟨0x2006, 128, 16, 0x02, 1, .bool, 1, .rw, 0, .range 0 1, 0⟩ /- GROUP_FILTER_BYPASS -/,
  ⟨0x2007, 128, 16, 0x01, 8, .u16, 2, .rw, 100, .range 0 10000, 0⟩ /- PAUSE_WATCHDOG_MS -/,
  ⟨0x2008, 128, 16, 0x01, 1, .u8, 1, .ro, 0, .any, 0⟩ /- UNDERRUN_STEP -/,
  ⟨0x2008, 128, 16, 0x02, 1, .u32, 4, .ro, 0, .any, 0⟩ /- CLEAN_FRAMES -/,
  ⟨0x2008, 128, 16, 0x03, 1, .bool, 1, .wo, 0, .range 0 1, 0⟩ /- UNDERRUN_STEP_RESET -/,
  ⟨0x2009, 128, 16, 0x01, 1, .enum8, 1, .rw, 0, .range 0 2, 0⟩ /- PTP_STEP -/,
  ⟨0x2009, 128, 16, 0x02, 1, .u32, 4, .rw, 0, .range 0 100000, 0⟩ /- RX_PHY_DELAY_NS -/,
  ⟨0x2009, 128, 16, 0x03, 1, .u32, 4, .rw, 0, .range 0 100000, 0⟩ /- TX_PHY_DELAY_NS -/]

/-- Objects of indices 0x2000-0x2FFF, part 2. -/
def page2b : List Family := [
  ⟨0x2009, 128, 16, 0x04, 1, .domain, 256, .ro, 0, .any, 16⟩ /- TS_RECORDS -/,
  ⟨0x2009, 128, 16, 0x05, 1, .u32, 4, .ro, 0, .any, 0⟩ /- TS_WRITE_COUNT -/,
  ⟨0x2009, 128, 16, 0x06, 1, .u32, 4, .rw, 0, .any, 0⟩ /- TS_READ_COUNT -/,
  ⟨0x200A, 128, 16, 0x01, 1, .bits32, 4, .ro, 0, .any, 0⟩ /- PORT_FLAGS -/,
  ⟨0x200A, 128, 16, 0x02, 1, .bits32, 4, .wo, 0, .bits 0xFFF, 0⟩ /- PORT_FLAGS_CLEAR -/,
  ⟨0x200B, 128, 16, 0x01, 1, .u64, 8, .ro, 0, .any, 0⟩ /- RX_OCTETS_OK -/,
  ⟨0x200B, 128, 16, 0x02, 1, .u64, 8, .ro, 0, .any, 0⟩ /- RX_FRAMES_OK -/,
  ⟨0x200B, 128, 16, 0x03, 1, .u64, 8, .ro, 0, .any, 0⟩ /- RX_UNICAST -/,
  ⟨0x200B, 128, 16, 0x04, 1, .u64, 8, .ro, 0, .any, 0⟩ /- RX_MULTICAST -/,
  ⟨0x200B, 128, 16, 0x05, 1, .u64, 8, .ro, 0, .any, 0⟩ /- RX_BROADCAST -/,
  ⟨0x200B, 128, 16, 0x06, 1, .u64, 8, .ro, 0, .any, 0⟩ /- RX_OCTETS_ALL -/,
  ⟨0x200B, 128, 16, 0x07, 1, .u64, 8, .ro, 0, .any, 0⟩ /- RX_FRAMES_ALL -/,
  ⟨0x200B, 128, 16, 0x08, 1, .u64, 8, .ro, 0, .any, 0⟩ /- RX_FCS_ERRORS -/,
  ⟨0x200B, 128, 16, 0x09, 1, .u64, 8, .ro, 0, .any, 0⟩ /- RX_RUNTS -/,
  ⟨0x200B, 128, 16, 0x0A, 1, .u64, 8, .ro, 0, .any, 0⟩ /- RX_FRAGMENTS -/,
  ⟨0x200B, 128, 16, 0x0B, 1, .u64, 8, .ro, 0, .any, 0⟩ /- RX_OVERSIZE -/,
  ⟨0x200B, 128, 16, 0x0C, 1, .u64, 8, .ro, 0, .any, 0⟩ /- RX_JABBERS -/,
  ⟨0x200B, 128, 16, 0x0D, 1, .u64, 8, .ro, 0, .any, 0⟩ /- RX_PCS_ERRORS -/,
  ⟨0x200B, 128, 16, 0x0E, 1, .u64, 8, .ro, 0, .any, 0⟩ /- RX_FEC_MARKED -/,
  ⟨0x200B, 128, 16, 0x0F, 1, .u64, 8, .ro, 0, .any, 0⟩ /- RX_FILTERED -/,
  ⟨0x200B, 128, 16, 0x10, 1, .u64, 8, .ro, 0, .any, 0⟩ /- RX_PAUSE -/,
  ⟨0x200B, 128, 16, 0x11, 1, .u64, 8, .ro, 0, .any, 0⟩ /- RX_PFC -/,
  ⟨0x200B, 128, 16, 0x12, 1, .u64, 8, .ro, 0, .any, 0⟩ /- RX_MAC_CONTROL_OTHER -/,
  ⟨0x200B, 128, 16, 0x13, 1, .u64, 8, .ro, 0, .any, 0⟩ /- RX_FIFO_DROPS -/,
  ⟨0x200B, 128, 16, 0x14, 1, .u64, 8, .ro, 0, .any, 0⟩ /- RX_HELD_DROPS -/,
  ⟨0x200B, 128, 16, 0x15, 1, .u64, 8, .ro, 0, .any, 0⟩ /- RX_64 -/,
  ⟨0x200B, 128, 16, 0x16, 1, .u64, 8, .ro, 0, .any, 0⟩ /- RX_65_127 -/,
  ⟨0x200B, 128, 16, 0x17, 1, .u64, 8, .ro, 0, .any, 0⟩ /- RX_128_255 -/,
  ⟨0x200B, 128, 16, 0x18, 1, .u64, 8, .ro, 0, .any, 0⟩ /- RX_256_511 -/,
  ⟨0x200B, 128, 16, 0x19, 1, .u64, 8, .ro, 0, .any, 0⟩ /- RX_512_1023 -/,
  ⟨0x200B, 128, 16, 0x1A, 1, .u64, 8, .ro, 0, .any, 0⟩ /- RX_1024_1518 -/,
  ⟨0x200B, 128, 16, 0x1B, 1, .u64, 8, .ro, 0, .any, 0⟩ /- RX_1519_MAX -/,
  ⟨0x200B, 128, 16, 0x1C, 1, .u64, 8, .ro, 0, .any, 0⟩ /- FEC_CORRECTED_CW -/,
  ⟨0x200B, 128, 16, 0x1D, 1, .u64, 8, .ro, 0, .any, 0⟩ /- FEC_UNCORRECTED_CW -/,
  ⟨0x200C, 128, 16, 0x01, 1, .u64, 8, .ro, 0, .any, 0⟩ /- TX_OCTETS_OK -/,
  ⟨0x200C, 128, 16, 0x02, 1, .u64, 8, .ro, 0, .any, 0⟩ /- TX_FRAMES_OK -/,
  ⟨0x200C, 128, 16, 0x03, 1, .u64, 8, .ro, 0, .any, 0⟩ /- TX_UNICAST -/,
  ⟨0x200C, 128, 16, 0x04, 1, .u64, 8, .ro, 0, .any, 0⟩ /- TX_MULTICAST -/,
  ⟨0x200C, 128, 16, 0x05, 1, .u64, 8, .ro, 0, .any, 0⟩ /- TX_BROADCAST -/,
  ⟨0x200C, 128, 16, 0x06, 1, .u64, 8, .ro, 0, .any, 0⟩ /- TX_STOMPED -/]

/-- Objects of indices 0x2000-0x2FFF, part 3. -/
def page2c : List Family := [
  ⟨0x200C, 128, 16, 0x07, 1, .u64, 8, .ro, 0, .any, 0⟩ /- TX_UNDERRUNS -/,
  ⟨0x200C, 128, 16, 0x08, 1, .u64, 8, .ro, 0, .any, 0⟩ /- TX_FLUSHED -/,
  ⟨0x200C, 128, 16, 0x09, 1, .u64, 8, .ro, 0, .any, 0⟩ /- TX_CUT_OFF -/,
  ⟨0x200C, 128, 16, 0x0A, 1, .u64, 8, .ro, 0, .any, 0⟩ /- TX_FORCED_DRAIN -/,
  ⟨0x200C, 128, 16, 0x0B, 1, .u64, 8, .ro, 0, .any, 0⟩ /- TX_64 -/,
  ⟨0x200C, 128, 16, 0x0C, 1, .u64, 8, .ro, 0, .any, 0⟩ /- TX_65_127 -/,
  ⟨0x200C, 128, 16, 0x0D, 1, .u64, 8, .ro, 0, .any, 0⟩ /- TX_128_255 -/,
  ⟨0x200C, 128, 16, 0x0E, 1, .u64, 8, .ro, 0, .any, 0⟩ /- TX_256_511 -/,
  ⟨0x200C, 128, 16, 0x0F, 1, .u64, 8, .ro, 0, .any, 0⟩ /- TX_512_1023 -/,
  ⟨0x200C, 128, 16, 0x10, 1, .u64, 8, .ro, 0, .any, 0⟩ /- TX_1024_1518 -/,
  ⟨0x200C, 128, 16, 0x11, 1, .u64, 8, .ro, 0, .any, 0⟩ /- TX_1519_MAX -/,
  ⟨0x200D, 128, 16, 0x01, 1, .bits32, 4, .ro, 0, .any, 0⟩ /- STATS_RX_HALF -/,
  ⟨0x200D, 128, 16, 0x02, 1, .bits32, 4, .ro, 0, .any, 0⟩ /- STATS_TX_HALF -/,
  ⟨0x200D, 128, 16, 0x03, 1, .bits32, 4, .wo, 0, .bits 0x1FFFFFFF, 0⟩ /- STATS_RX_HALF_CLEAR -/,
  ⟨0x200D, 128, 16, 0x04, 1, .bits32, 4, .wo, 0, .bits 0x1FFFF, 0⟩ /- STATS_TX_HALF_CLEAR -/,
  ⟨0x200D, 128, 16, 0x05, 1, .enum8, 1, .wo, 0, .range 1 3, 0⟩ /- STATS_CLEAR -/]

/-- Objects of indices 0x3000-0x3FFF. -/
def page3 : List Family := [
  ⟨0x3000, 17, 1, 0x01, 1, .u64, 8, .ro, 0, .any, 0⟩ /- PARSED_FRAMES -/,
  ⟨0x3000, 17, 1, 0x02, 1, .u64, 8, .ro, 0, .any, 0⟩ /- CONTINUATION_PASSES -/,
  ⟨0x3000, 17, 1, 0x03, 1, .u64, 8, .ro, 0, .any, 0⟩ /- PARSE_FAILURES -/,
  ⟨0x3000, 17, 1, 0x04, 1, .u64, 8, .ro, 0, .any, 0⟩ /- LATE_CONFLICTS -/,
  ⟨0x3000, 17, 1, 0x05, 1, .u64, 8, .ro, 0, .any, 0⟩ /- EXCEPTION_RECORDS -/,
  ⟨0x3000, 17, 1, 0x06, 1, .u64, 8, .ro, 0, .any, 0⟩ /- TTL_DROPS -/,
  ⟨0x3000, 17, 1, 0x07, 1, .bits32, 4, .ro, 0, .any, 0⟩ /- PIPE_FLAGS -/,
  ⟨0x3000, 17, 1, 0x08, 1, .bits32, 4, .wo, 0, .bits 7, 0⟩ /- PIPE_FLAGS_CLEAR -/,
  ⟨0x3090, 1, 1, 0x01, 128, .u8, 1, .rw, 0, .range 0 63, 0⟩ /- FIRST_TEMPLATE -/,
  ⟨0x3091, 1, 1, 0x01, 128, .enum8, 1, .rw, 0, .range 0 2, 0⟩ /- FAILURE_ACTION -/,
  ⟨0x3092, 1, 1, 0x01, 128, .bits32, 4, .rw, 15, .bits 0xF, 0⟩ /- SLOW_PATH_MASK -/,
  ⟨0x3093, 1, 1, 0x01, 128, .bool, 1, .rw, 1, .range 0 1, 0⟩ /- PARSE_CONTINUE -/,
  ⟨0x3094, 1, 1, 0x01, 128, .bool, 1, .rw, 1, .range 0 1, 0⟩ /- IPV4_CHECKSUM_CHECK -/,
  ⟨0x30A0, 1, 1, 0x01, 1, .enum8, 1, .rw, 0, .range 0 1, 0⟩ /- PARSE_GRAPH_SELECT -/,
  ⟨0x30A0, 1, 1, 0x02, 1, .bits32, 4, .ro, 1, .any, 0⟩ /- PARSE_GRAPH_BUSY -/,
  ⟨0x30A1, 1, 1, 0x01, 1, .domain, 1024, .rw, 0, .any, 16⟩ /- TEMPLATES_A -/,
  ⟨0x30A1, 1, 1, 0x02, 1, .domain, 4096, .rw, 0, .any, 8⟩ /- TRANSITIONS_A -/,
  ⟨0x30A2, 1, 1, 0x01, 1, .domain, 1024, .rw, 0, .any, 16⟩ /- TEMPLATES_B -/,
  ⟨0x30A2, 1, 1, 0x02, 1, .domain, 4096, .rw, 0, .any, 8⟩ /- TRANSITIONS_B -/,
  ⟨0x30A3, 1, 1, 0x01, 1, .bool, 1, .wo, 0, .range 0 1, 0⟩ /- STANDARD_GRAPH_LOAD -/]

/-- Objects of indices 0x4000-0x4FFF, part 1. -/
def page4a : List Family := [
  ⟨0x4000, 4, 1, 0x01, 1, .u32, 4, .rw, 0, .any, 0⟩ /- EM_SEED1 -/,
  ⟨0x4000, 4, 1, 0x02, 1, .u32, 4, .rw, 0, .any, 0⟩ /- EM_SEED2 -/,
  ⟨0x4000, 4, 1, 0x03, 1, .u32, 4, .ro, 0, .any, 0⟩ /- EM_UNITS_IN_USE -/,
  ⟨0x4000, 4, 1, 0x04, 1, .u32, 4, .ro, 0, .any, 0⟩ /- EM_OVERFLOW_IN_USE -/,
  ⟨0x4000, 4, 1, 0x05, 1, .u64, 8, .ro, 0, .any, 0⟩ /- EM_PARITY_RETRIES -/,
  ⟨0x4000, 4, 1, 0x06, 1, .u64, 8, .ro, 0, .any, 0⟩ /- EM_PARITY_MISSES -/,
  ⟨0x4000, 4, 1, 0x07, 1, .u64, 8, .ro, 0, .any, 0⟩ /- EM_LOST_PROBES -/,
  ⟨0x4000, 4, 1, 0x08, 1, .u64, 8, .ro, 0, .any, 0⟩ /- EM_REPLAYS -/,
  ⟨0x4000, 4, 1, 0x09, 1, .u32, 4, .ro, 0, .any, 0⟩ /- EM_RESTORED -/,
  ⟨0x4000, 4, 1, 0x0A, 1, .u32, 4, .ro, 0, .any, 0⟩ /- EM_LOST_UNITS -/,
  ⟨0x4000, 4, 1, 0x0B, 1, .domain, 33816576, .ro, 0, .any, 16⟩ /- EM_COPY_VIEW -/,
  ⟨0x4010, 1, 1, 0x01, 1, .bool, 1, .rw, 1, .range 0 1, 0⟩ /- EM_PARITY_RETRY -/,
  ⟨0x4010, 1, 1, 0x02, 1, .u8, 1, .rw, 4, .range 1 8, 0⟩ /- EM_RELOCATION_DEPTH -/,
  ⟨0x4010, 1, 1, 0x03, 1, .u16, 2, .rw, 256, .range 16 4096, 0⟩ /- EM_RELOCATION_BUDGET -/,
  ⟨0x4010, 1, 1, 0x04, 1, .u32, 4, .rw, 100, .range 10 10000, 0⟩ /- EM_SCRUB_PERIOD_MS -/,
  ⟨0x4010, 1, 1, 0x05, 1, .u64, 8, .ro, 0, .any, 0⟩ /- EM_COMMANDS_FAILED -/,
  ⟨0x4010, 1, 1, 0x06, 1, .bits32, 4, .wo, 0, .bits 0x1F1F, 0⟩ /- TABLE_SUMMARY_CLEAR -/,
  ⟨0x4020, 2, 1, 0x01, 12, .u32, 4, .rw, 0, .any, 0⟩ /- PROBE_LENGTH -/,
  ⟨0x4030, 1, 1, 0x01, 1, .u64, 8, .ro, 0, .any, 0⟩ /- PREFIX_CONTINUATIONS -/,
  ⟨0x4030, 1, 1, 0x02, 1, .u64, 8, .ro, 0, .any, 0⟩ /- PREFIX_FALSE_PROBES -/,
  ⟨0x4040, 1, 1, 0x01, 1, .domain, 2048, .rw, 0, .any, 16⟩ /- PORT_PROFILES -/,
  ⟨0x4040, 1, 1, 0x02, 1, .domain, 131072, .rw, 0, .any, 8⟩ /- BD_TABLE -/,
  ⟨0x4040, 1, 1, 0x03, 1, .domain, 131072, .rw, 0, .any, 8⟩ /- VRF_TABLE -/,
  ⟨0x4040, 1, 1, 0x04, 1, .domain, 2048, .rw, 0, .any, 32⟩ /- LOOKUP_PROFILES -/,
  ⟨0x4050, 1, 1, 0x01, 1, .u32, 4, .rw, 1000, .range 100 100000, 0⟩ /- LEARN_DEDUPE_US -/,
  ⟨0x4050, 1, 1, 0x02, 1, .u64, 8, .ro, 0, .any, 0⟩ /- LEARN_RECORDS -/,
  ⟨0x4050, 1, 1, 0x03, 1, .u64, 8, .ro, 0, .any, 0⟩ /- LEARN_SUPPRESSED -/,
  ⟨0x4080, 1, 1, 0x01, 1, .u8, 1, .ro, 0, .any, 0⟩ /- VERSION_CURRENT_SLOT -/,
  ⟨0x4080, 1, 1, 0x02, 1, .u32, 4, .ro, 1, .any, 0⟩ /- VERSION_CURRENT_NUMBER -/,
  ⟨0x4080, 1, 1, 0x03, 1, .u8, 1, .ro, 3, .any, 0⟩ /- VERSION_BUILDING_SLOT -/,
  ⟨0x4080, 1, 1, 0x04, 1, .enum8, 1, .ro, 0, .any, 0⟩ /- VERSION_COMMIT_STATE -/,
  ⟨0x4080, 1, 1, 0x05, 1, .u16, 2, .ro, 0, .any, 0⟩ /- VERSION_PENDING_TAG -/,
  ⟨0x4081, 1, 1, 0x01, 1, .bool, 1, .wo, 0, .range 0 1, 0⟩ /- VERSION_CANCEL -/,
  ⟨0x4081, 1, 1, 0x02, 1, .enum8, 1, .ro, 0, .any, 0⟩ /- VERSION_CANCEL_RESULT -/,
  ⟨0x4082, 1, 1, 0x01, 3, .enum8, 1, .ro, 0, .any, 0⟩ /- SLOT_STATE -/,
  ⟨0x4083, 1, 1, 0x01, 3, .u64, 8, .ro, 0, .any, 0⟩ /- SLOT_IN_FLIGHT -/,
  ⟨0x4084, 1, 1, 0x01, 3, .u32, 4, .ro, 0, .any, 0⟩ /- SLOT_VERSION -/,
  ⟨0x4085, 1, 1, 0x01, 3, .u32, 4, .ro, 0, .any, 0⟩ /- SLOT_CHANGES -/,
  ⟨0x4086, 1, 1, 0x01, 3, .time64, 8, .ro, 0, .any, 0⟩ /- SLOT_SINCE -/,
  ⟨0x4090, 1, 1, 0x01, 1, .u32, 4, .rw, 200, .range 10 10000, 0⟩ /- STALE_AGE_MS -/]

/-- Objects of indices 0x4000-0x4FFF, part 2. -/
def page4b : List Family := [
  ⟨0x4090, 1, 1, 0x02, 1, .u64, 8, .ro, 0, .any, 0⟩ /- STALE_DROPS -/,
  ⟨0x4090, 1, 1, 0x03, 1, .u64, 8, .ro, 0, .any, 0⟩ /- SWEPT_DROPS -/,
  ⟨0x4090, 1, 1, 0x04, 1, .u32, 4, .ro, 0, .any, 0⟩ /- COMMITS -/,
  ⟨0x4090, 1, 1, 0x05, 1, .u32, 4, .ro, 0, .any, 0⟩ /- AUDITS_CORRECTED -/]

/-- Objects of indices 0x5000-0x5FFF. -/
def page5 : List Family := [
  ⟨0x5000, 4, 1, 0x01, 1, .domain, 1024, .rwh, 0, .any, 32⟩ /- BANK_CONFIG -/,
  ⟨0x5000, 4, 1, 0x02, 1, .domain, 16384, .rwh, 0, .any, 256⟩ /- SEARCH_PROFILES -/,
  ⟨0x5010, 4, 1, 0x01, 32, .u32, 4, .ro, 0, .any, 0⟩ /- BANK_STATUS -/,
  ⟨0x5020, 4, 1, 0x01, 1, .u64, 8, .ro, 0, .any, 0⟩ /- SEARCHES -/,
  ⟨0x5020, 4, 1, 0x02, 1, .u64, 8, .ro, 0, .any, 0⟩ /- NEIGHBOUR_SEARCHES -/,
  ⟨0x5020, 4, 1, 0x03, 1, .u64, 8, .ro, 0, .any, 0⟩ /- SHADOW_MISMATCHES -/,
  ⟨0x5020, 4, 1, 0x04, 1, .u64, 8, .ro, 0, .any, 0⟩ /- READOUT_RETRIES -/,
  ⟨0x5020, 4, 1, 0x05, 1, .u64, 8, .ro, 0, .any, 0⟩ /- READOUT_FAILURES -/,
  ⟨0x5020, 4, 1, 0x06, 1, .u32, 4, .ro, 0, .any, 0⟩ /- ENTRIES_IN_USE -/,
  ⟨0x5030, 1, 1, 0x01, 1, .domain, 262144, .rw, 0, .any, 64⟩ /- RULE_STAGING -/,
  ⟨0x5030, 1, 1, 0x02, 1, .domain, 2097152, .ro, 0, .any, 64⟩ /- RULE_VIEW -/,
  ⟨0x5040, 1, 1, 0x01, 128, .u8, 1, .rw, 0, .range 0 63, 0⟩ /- RELIEF_PROFILE_FIRST -/,
  ⟨0x5041, 1, 1, 0x01, 128, .u8, 1, .rw, 0, .range 0 63, 0⟩ /- RELIEF_PROFILE_NEXT -/,
  ⟨0x5042, 1, 1, 0x01, 128, .enum8, 1, .rw, 0, .range 0 1, 0⟩ /- RELIEF_DEFAULT_ACTION -/,
  ⟨0x5050, 1, 1, 0x01, 1, .bits32, 4, .wo, 0, .bits 0x1F, 0⟩ /- RELIEF_SUMMARY_CLEAR -/,
  ⟨0x5050, 1, 1, 0x02, 1, .bool, 1, .rw, 1, .range 0 1, 0⟩ /- RELIEF_PARITY_RETRY -/]

/-- Objects of indices 0x6000-0x6FFF, part 1. -/
def page6a : List Family := [
  ⟨0x6000, 1, 1, 0x01, 1, .u32, 4, .const, 786432, .any, 0⟩ /- CELLS_TOTAL -/,
  ⟨0x6000, 1, 1, 0x02, 1, .u32, 4, .ro, 786432, .any, 0⟩ /- CELLS_FREE -/,
  ⟨0x6000, 1, 1, 0x03, 1, .u32, 4, .rw, 786432, .any, 0⟩ /- CELLS_FREE_LOW -/,
  ⟨0x6000, 1, 1, 0x04, 1, .u32, 4, .ro, 770048, .any, 0⟩ /- SHARED_FREE -/,
  ⟨0x6000, 1, 1, 0x05, 1, .u32, 4, .ro, 0, .any, 0⟩ /- GUARANTEE_RESERVED -/,
  ⟨0x6000, 1, 1, 0x06, 1, .u32, 4, .rw, 16384, .range 0 131072, 0⟩ /- HEADROOM_CELLS -/,
  ⟨0x6000, 1, 1, 0x07, 1, .u32, 4, .ro, 0, .any, 0⟩ /- POINTER_FAULTS -/,
  ⟨0x6000, 1, 1, 0x08, 1, .u32, 4, .ro, 0, .any, 0⟩ /- CELLS_LEAKED -/,
  ⟨0x6000, 1, 1, 0x09, 1, .u64, 8, .ro, 0, .any, 0⟩ /- LAST_CELL_LOSSES -/,
  ⟨0x6000, 1, 1, 0x0A, 1, .bits32, 4, .wo, 0, .bits 0x1F7F, 0⟩ /- QUEUE_SUMMARY_CLEAR -/,
  ⟨0x6001, 1, 1, 0x01, 6, .u32, 4, .rw, 0, .any, 0⟩ /- CLASS_QUOTA_CELLS -/,
  ⟨0x6002, 1, 1, 0x01, 6, .u32, 4, .ro, 0, .any, 0⟩ /- CLASS_CELLS_IN_USE -/,
  ⟨0x6003, 1, 1, 0x01, 32, .u16, 2, .ro, 24576, .any, 0⟩ /- BANK_FREE -/,
  ⟨0x6004, 1, 1, 0x01, 10, .u64, 8, .ro, 0, .any, 0⟩ /- BUFFER_DROPS -/,
  ⟨0x6010, 1, 1, 0x01, 1, .domain, 4096, .rw, 0, .any, 16⟩ /- BUFFER_PROFILES -/,
  ⟨0x6020, 1, 1, 0x01, 128, .u16, 2, .rw, 256, .multiple 64 64 16384, 0⟩ /- CUT_BASE_BYTES -/,
  ⟨0x6030, 1, 1, 0x01, 1, .u32, 4, .ro, 0, .any, 0⟩ /- SPILL_BINS_TOTAL -/,
  ⟨0x6030, 1, 1, 0x02, 1, .u32, 4, .ro, 0, .any, 0⟩ /- SPILL_BINS_FREE -/,
  ⟨0x6030, 1, 1, 0x03, 1, .u32, 4, .ro, 0, .any, 0⟩ /- SPILLED_VOQS -/,
  ⟨0x6030, 1, 1, 0x04, 1, .u16, 2, .rw, 20, .range 1 1000, 0⟩ /- BIN_FLUSH_US -/,
  ⟨0x6030, 1, 1, 0x05, 1, .u32, 4, .rw, 32768, .range 1024 131072, 0⟩ /- SPILL_STAGING_CELLS -/,
  ⟨0x6030, 1, 1, 0x06, 1, .u32, 4, .ro, 0, .any, 0⟩ /- BINS_RETIRED -/,
  ⟨0x6030, 1, 1, 0x07, 1, .u64, 8, .ro, 0, .any, 0⟩ /- DDR5_REREADS -/,
  ⟨0x6030, 1, 1, 0x08, 1, .u32, 4, .rw, 1024, .range 16 1048576, 0⟩ /- CHANNEL_RETIRE_LIMIT -/,
  ⟨0x6030, 1, 1, 0x09, 1, .u64, 8, .ro, 0, .any, 0⟩ /- SPILL_BYTES_WRITTEN -/,
  ⟨0x6030, 1, 1, 0x0A, 1, .u64, 8, .ro, 0, .any, 0⟩ /- SPILL_BYTES_RETURNED -/,
  ⟨0x6030, 1, 1, 0x0B, 1, .u16, 2, .rw, 256, .range 64 4096, 0⟩ /- SPILL_RETURN_CELLS -/,
  ⟨0x6050, 1, 1, 0x01, 1, .domain, 1048640, .ro, 0, .any, 8⟩ /- VOQ_BUFFER_STATE -/,
  ⟨0x6100, 1, 1, 0x01, 128, .enum8, 1, .rw, 0, .range 0 3, 0⟩ /- CLASS_SOURCE -/,
  ⟨0x6101, 1, 1, 0x01, 128, .u8, 1, .rw, 0, .range 0 7, 0⟩ /- DEFAULT_CLASS -/,
  ⟨0x6102, 1, 1, 0x01, 128, .u8, 1, .rw, 0, .range 0 15, 0⟩ /- CLASS_MAP_SELECT -/,
  ⟨0x6103, 1, 1, 0x01, 1, .domain, 1024, .rw, 0, .any, 64⟩ /- CLASS_MAPS -/,
  ⟨0x6110, 1, 1, 0x01, 1, .domain, 131080, .rw, 0, .any, 8⟩ /- VOQ_PROFILE -/,
  ⟨0x6110, 1, 1, 0x02, 1, .domain, 524288, .ro, 0, .any, 4⟩ /- VOQ_CREDIT -/,
  ⟨0x6111, 1, 1, 0x01, 1, .u32, 4, .rw, 4096, .multiple 256 512 65536, 0⟩ /- CREDIT_QUANTUM_BYTES -/,
  ⟨0x6111, 1, 1, 0x02, 1, .u16, 2, .rw, 125, .range 100 200, 0⟩ /- GRANT_RATE_PERCENT -/,
  ⟨0x6112, 1, 1, 0x01, 128, .u32, 4, .rw, 32768, .range 4096 4194304, 0⟩ /- CREDIT_TARGET_BYTES -/,
  ⟨0x6113, 1, 1, 0x01, 128, .i32, 4, .rw, 20, .signed (-64) 64, 0⟩ /- SHAPE_ADJUST -/,
  ⟨0x6200, 16, 1, 0x01, 1, .domain, 18976, .rwh, 0, .any, 4⟩ /- SCHED_TREE -/,
  ⟨0x6200, 16, 1, 0x02, 1, .domain, 113856, .rw, 0, .any, 24⟩ /- SCHED_RATES -/]

/-- Objects of indices 0x6000-0x6FFF, part 2. -/
def page6b : List Family := [
  ⟨0x6200, 16, 1, 0x03, 1, .domain, 37952, .ro, 0, .any, 8⟩ /- SCHED_BUCKETS -/,
  ⟨0x6220, 1, 1, 0x01, 1, .domain, 524288, .rw, 0, .any, 2⟩ /- NH_QUEUE_SET -/,
  ⟨0x6221, 1, 1, 0x01, 1, .u64, 8, .ro, 0, .any, 0⟩ /- SET_MISMATCHES -/,
  ⟨0x6300, 1, 1, 0x01, 1, .domain, 8388608, .rw, 0, .any, 32⟩ /- POLICERS -/,
  ⟨0x6300, 1, 1, 0x02, 1, .domain, 4194304, .ro, 0, .any, 16⟩ /- POLICER_STATE -/,
  ⟨0x6301, 1, 1, 0x01, 1, .u64, 8, .ro, 0, .any, 0⟩ /- TREE_FORCED_DRAINS -/,
  ⟨0x6301, 1, 1, 0x02, 1, .u64, 8, .ro, 0, .any, 0⟩ /- UNASSIGNED_DROPS -/,
  ⟨0x6301, 1, 1, 0x03, 1, .u64, 8, .ro, 0, .any, 0⟩ /- POLICER_RED_DROPS -/,
  ⟨0x6301, 1, 1, 0x04, 1, .u64, 8, .ro, 0, .any, 0⟩ /- POLICER_YELLOW_DROPS -/,
  ⟨0x6301, 1, 1, 0x05, 1, .u64, 8, .ro, 0, .any, 0⟩ /- POLICER_REPLAYS -/,
  ⟨0x6400, 1, 1, 0x01, 1, .domain, 524288, .ro, 0, .any, 8⟩ /- EGRESS_QUEUE_STATE -/,
  ⟨0x6800, 17, 1, 0x01, 1, .u64, 8, .ro, 0, .any, 0⟩ /- RECIRC_PASSES -/,
  ⟨0x6800, 17, 1, 0x02, 1, .u64, 8, .ro, 0, .any, 0⟩ /- RECIRC_DROPS -/,
  ⟨0x6800, 17, 1, 0x03, 1, .u16, 2, .ro, 0, .any, 0⟩ /- RECIRC_DEPTH -/,
  ⟨0x6800, 17, 1, 0x04, 1, .u16, 2, .rw, 0, .range 0 0, 0⟩ /- RECIRC_DEPTH_PEAK -/,
  ⟨0x6820, 1, 1, 0x01, 1, .domain, 4194304, .rw, 0, .any, 16⟩ /- NEXT_HOP_TABLE -/,
  ⟨0x6820, 1, 1, 0x02, 1, .domain, 4194304, .rw, 0, .any, 128⟩ /- ENCAP_TABLE -/,
  ⟨0x6820, 1, 1, 0x03, 1, .domain, 2048, .rw, 0, .any, 8⟩ /- SMAC_TABLE -/,
  ⟨0x6821, 1, 1, 0x01, 1, .u64, 8, .ro, 0, .any, 0⟩ /- NEXT_HOP_DROPS -/,
  ⟨0x6821, 1, 1, 0x02, 1, .u64, 8, .ro, 0, .any, 0⟩ /- EDIT_DROPS -/,
  ⟨0x6821, 1, 1, 0x03, 1, .u64, 8, .ro, 0, .any, 0⟩ /- EGRESS_TTL_DROPS -/,
  ⟨0x6830, 1, 1, 0x01, 1, .domain, 524288, .rw, 0, .any, 8⟩ /- GROUP_TABLE -/,
  ⟨0x6830, 1, 1, 0x02, 1, .domain, 8388608, .rw, 0, .any, 8⟩ /- REPLICATION_LIST -/,
  ⟨0x6830, 1, 1, 0x03, 1, .u64, 8, .ro, 0, .any, 0⟩ /- CAST_COPIES -/,
  ⟨0x6830, 1, 1, 0x04, 1, .u64, 8, .ro, 0, .any, 0⟩ /- CAST_PRUNED -/,
  ⟨0x6830, 1, 1, 0x05, 1, .u64, 8, .ro, 0, .any, 0⟩ /- CAST_INVALID_ENTRIES -/,
  ⟨0x6830, 1, 1, 0x06, 1, .u64, 8, .ro, 0, .any, 0⟩ /- GROUP_EMPTY_DROPS -/,
  ⟨0x6840, 1, 1, 0x01, 128, .enum8, 1, .rw, 0, .range 0 2, 0⟩ /- CAPTURE_INGRESS_MODE -/,
  ⟨0x6841, 1, 1, 0x01, 128, .enum8, 1, .rw, 0, .range 0 2, 0⟩ /- CAPTURE_EGRESS_MODE -/,
  ⟨0x6842, 1, 1, 0x01, 128, .u32, 4, .rw, 1024, .range 1 16777216, 0⟩ /- SAMPLE_ONE_IN -/,
  ⟨0x6843, 1, 1, 0x01, 1, .u16, 2, .rw, 64, .range 1 1024, 0⟩ /- CAPTURE_RING_MIB -/,
  ⟨0x6843, 1, 1, 0x02, 1, .u32, 4, .rw, 495397697, .any, 0⟩ /- SAMPLE_SEED -/,
  ⟨0x6843, 1, 1, 0x03, 1, .u64, 8, .ro, 0, .any, 0⟩ /- CAPTURE_RECORDS -/]

/-- Objects of indices 0x7000-0x7FFF. -/
def page7 : List Family := [
  ⟨0x7000, 17, 1, 0x01, 1, .u8, 1, .ro, 20, .any, 0⟩ /- UNITS_WORKING -/,
  ⟨0x7000, 17, 1, 0x02, 1, .u16, 2, .ro, 0, .any, 0⟩ /- LINE_CONTEXTS -/,
  ⟨0x7000, 17, 1, 0x03, 1, .bool, 1, .ro, 1, .range 0 1, 0⟩ /- JOBS_ALLOWED -/,
  ⟨0x7000, 17, 1, 0x04, 1, .u64, 8, .ro, 0, .any, 0⟩ /- JOB_SUSPENSIONS -/,
  ⟨0x7011, 1, 1, 0x01, 16, .u8, 1, .rwh, 105, .range 100 150, 0⟩ /- LINE_HEADROOM_PERCENT -/,
  ⟨0x7020, 1, 1, 0x01, 128, .octets, 32, .rwh, 0, .any, 0⟩ /- SECY_CONFIG -/,
  ⟨0x7021, 1, 1, 0x01, 128, .u8, 1, .rw, 0, .range 0 3, 0⟩ /- TX_ENCODING_AN -/,
  ⟨0x7022, 1, 1, 0x01, 1, .domain, 8192, .rw, 0, .any, 16⟩ /- RX_SC_TABLE -/,
  ⟨0x7023, 1, 1, 0x01, 1, .domain, 81920, .rw, 0, .any, 32⟩ /- SA_TABLE -/,
  ⟨0x7024, 1, 1, 0x01, 1, .domain, 16384, .ro, 0, .any, 8⟩ /- SECY_COUNTERS -/,
  ⟨0x7030, 1, 1, 0x01, 1, .domain, 64, .wo, 0, .any, 64⟩ /- KEY_LOAD -/,
  ⟨0x7030, 1, 1, 0x02, 1, .enum8, 1, .ro, 0, .any, 0⟩ /- KEY_LOAD_STATUS -/,
  ⟨0x7030, 1, 1, 0x03, 1, .u16, 2, .wo, 0, .any, 0⟩ /- KEY_ERASE -/,
  ⟨0x7030, 1, 1, 0x04, 1, .domain, 4160, .ro, 0, .any, 4⟩ /- KEY_SLOT_STATE -/,
  ⟨0x7030, 1, 1, 0x05, 1, .bool, 1, .rw, 1, .range 0 1, 0⟩ /- KEY_CLEAR_LOAD -/,
  ⟨0x7030, 1, 1, 0x06, 1, .u32, 4, .ro, 0, .any, 0⟩ /- KEY_LOADS -/,
  ⟨0x7040, 1, 1, 0x01, 1, .domain, 1048576, .rw, 0, .any, 16⟩ /- JOB_BUFFER -/,
  ⟨0x7040, 1, 1, 0x02, 1, .u16, 2, .wo, 0, .any, 0⟩ /- JOB_ABORT -/,
  ⟨0x7040, 1, 1, 0x03, 1, .enum8, 1, .ro, 0, .any, 0⟩ /- JOB_ABORT_RESULT -/,
  ⟨0x7040, 1, 1, 0x04, 1, .u8, 1, .ro, 0, .any, 0⟩ /- JOBS_IN_PROGRESS -/,
  ⟨0x7050, 1, 1, 0x01, 1, .bits32, 4, .wo, 0, .bits 0x7F, 0⟩ /- CIPHER_SUMMARY_CLEAR -/]

/-- Objects of indices 0x8000-0x8FFF. -/
def page8 : List Family := [
  ⟨0x8000, 8, 1, 0x01, 1, .enum8, 1, .ro, 0, .any, 0⟩ /- SEQ_STATE -/,
  ⟨0x8000, 8, 1, 0x02, 1, .u32, 4, .ro, 0, .any, 0⟩ /- SEQ_IMAGE_LEVEL -/,
  ⟨0x8000, 8, 1, 0x03, 1, .u8, 1, .ro, 0, .any, 0⟩ /- SEQ_QUEUE_DEPTH -/,
  ⟨0x8000, 8, 1, 0x04, 1, .u64, 8, .ro, 0, .any, 0⟩ /- SEQ_ROUTINES -/,
  ⟨0x8000, 8, 1, 0x05, 1, .u8, 1, .ro, 0, .any, 0⟩ /- SEQ_COVER -/,
  ⟨0x8010, 1, 1, 0x01, 1, .domain, 393216, .rw, 0, .any, 16⟩ /- RELOAD_IMAGE -/,
  ⟨0x8010, 1, 1, 0x02, 1, .enum8, 1, .wo, 0, .range 1 2, 0⟩ /- RELOAD_START -/,
  ⟨0x8010, 1, 1, 0x03, 1, .enum8, 1, .ro, 0, .any, 0⟩ /- RELOAD_STATUS -/,
  ⟨0x8010, 1, 1, 0x04, 1, .u8, 1, .ro, 255, .any, 0⟩ /- RELOAD_SEQUENCER -/,
  ⟨0x8011, 1, 1, 0x01, 1, .u32, 4, .ro, 0, .any, 0⟩ /- ROUTINE_RESTARTS -/,
  ⟨0x8011, 1, 1, 0x02, 1, .u32, 4, .ro, 0, .any, 0⟩ /- CONTROL_WORDS_REPAIRED -/,
  ⟨0x8011, 1, 1, 0x03, 1, .u32, 4, .ro, 0, .any, 0⟩ /- SLOW_BUSY_ANSWERS -/,
  ⟨0x8011, 1, 1, 0x04, 1, .u32, 4, .ro, 0, .any, 0⟩ /- IMAGE_HOLD_LEVEL -/,
  ⟨0x8011, 1, 1, 0x05, 1, .bits32, 4, .wo, 0, .bits 0x3F, 0⟩ /- ATELIER_SUMMARY_CLEAR -/]

/-- Objects of indices 0x9000-0x9FFF. -/
def page9 : List Family := [
  ⟨0x9000, 1, 1, 0x01, 1, .octets, 16, .ro, 0, .any, 0⟩ /- FIRST_ERROR -/,
  ⟨0x9000, 1, 1, 0x02, 1, .u16, 2, .ro, 65535, .any, 0⟩ /- FIRST_ERROR_UNIT -/,
  ⟨0x9000, 1, 1, 0x03, 1, .enum8, 1, .ro, 3, .any, 0⟩ /- FIRST_ERROR_CLASS -/,
  ⟨0x9000, 1, 1, 0x04, 1, .bool, 1, .wo, 0, .range 0 1, 0⟩ /- FIRST_ERROR_CLEAR -/,
  ⟨0x9001, 1, 1, 0x01, 1, .u16, 2, .wo, 0, .any, 0⟩ /- FAULT_ACK -/,
  ⟨0x9001, 1, 1, 0x02, 1, .u32, 4, .rw, 1000, .zeroOr 10 3600000, 0⟩ /- CORRECTED_AUTO_ACK_MS -/,
  ⟨0x9001, 1, 1, 0x03, 1, .bits32, 4, .wo, 0, .bits 0xFFF, 0⟩ /- FAULT_SUMMARY_CLEAR -/,
  ⟨0x9001, 1, 1, 0x04, 1, .bool, 1, .rw, 1, .range 0 1, 0⟩ /- PATINA_CORRECTED -/,
  ⟨0x9002, 1, 1, 0x01, 1, .u64, 8, .ro, 0, .any, 0⟩ /- FAULTS_CORRECTED -/,
  ⟨0x9002, 1, 1, 0x02, 1, .u64, 8, .ro, 0, .any, 0⟩ /- FAULTS_CONTAINED -/,
  ⟨0x9002, 1, 1, 0x03, 1, .u64, 8, .ro, 0, .any, 0⟩ /- FAULTS_FATAL -/,
  ⟨0x9002, 1, 1, 0x04, 1, .u64, 8, .ro, 0, .any, 0⟩ /- ESCALATIONS -/,
  ⟨0x9002, 1, 1, 0x05, 1, .u64, 8, .ro, 0, .any, 0⟩ /- CONSEQUENTIAL_FAULTS -/,
  ⟨0x9002, 1, 1, 0x06, 10, .u64, 8, .ro, 0, .any, 0⟩ /- FAULT_DROPS -/,
  ⟨0x9003, 1, 1, 0x01, 1, .domain, 16384, .ro, 0, .any, 4⟩ /- UNIT_FAULT_STATE -/,
  ⟨0x9010, 1, 1, 0x01, 1, .u32, 4, .wo, 0, .any, 0⟩ /- FENCE_REQUEST -/,
  ⟨0x9010, 1, 1, 0x02, 1, .enum8, 1, .ro, 0, .any, 0⟩ /- FENCE_RESULT -/,
  ⟨0x9020, 1, 1, 0x01, 16, .u8, 1, .ro, 0, .any, 0⟩ /- GROUP_PIPE -/,
  ⟨0x9021, 1, 1, 0x01, 16, .bool, 1, .wo, 0, .range 0 1, 0⟩ /- GROUP_RETURN -/,
  ⟨0x9022, 1, 1, 0x01, 1, .u32, 4, .ro, 0, .any, 0⟩ /- TAKEOVERS -/,
  ⟨0x9022, 1, 1, 0x02, 1, .u32, 4, .ro, 0, .any, 0⟩ /- LAST_TAKEOVER_NS -/,
  ⟨0x9030, 1, 1, 0x01, 1, .u32, 4, .wo, 0, .any, 0⟩ /- INJECT -/,
  ⟨0x9030, 1, 1, 0x02, 1, .u8, 1, .ro, 0, .any, 0⟩ /- INJECT_PENDING -/,
  ⟨0x9040, 1, 1, 0x01, 4, .i32, 4, .ro, 0, .any, 0⟩ /- TIMING_MARGIN_PS -/,
  ⟨0x9041, 1, 1, 0x01, 1, .i32, 4, .rw, 20, .signed 0 200, 0⟩ /- MARGIN_ALARM_PS -/,
  ⟨0x9100, 1, 1, 0x01, 1, .u16, 2, .rw, 10, .range 10 1000, 0⟩ /- SLICE_PERIOD_MS -/,
  ⟨0x9100, 1, 1, 0x02, 1, .u16, 2, .ro, 0, .any, 0⟩ /- SWEEP_POSITION -/,
  ⟨0x9100, 1, 1, 0x03, 1, .u32, 4, .ro, 0, .any, 0⟩ /- SWEEPS_COMPLETED -/,
  ⟨0x9100, 1, 1, 0x04, 1, .u8, 1, .ro, 0, .any, 0⟩ /- SLICES_RUNNING -/,
  ⟨0x9100, 1, 1, 0x05, 1, .u16, 2, .wo, 0, .any, 0⟩ /- SLICE_REQUEST -/,
  ⟨0x9100, 1, 1, 0x06, 1, .enum8, 1, .ro, 0, .any, 0⟩ /- SLICE_REQUEST_RESULT -/,
  ⟨0x9100, 1, 1, 0x07, 1, .octets, 24, .ro, 0, .any, 0⟩ /- LAST_FAILURE -/,
  ⟨0x9110, 1, 1, 0x01, 14, .u64, 8, .ro, 0, .any, 0⟩ /- SLICES_PASSED -/,
  ⟨0x9111, 1, 1, 0x01, 14, .u64, 8, .ro, 0, .any, 0⟩ /- SLICES_SKIPPED -/,
  ⟨0x9112, 1, 1, 0x01, 14, .u32, 4, .ro, 0, .any, 0⟩ /- SLICES_FAILED -/,
  ⟨0x9120, 1, 1, 0x01, 16, .u16, 2, .ro, 0, .any, 0⟩ /- REGION_NEXT -/]

/-- Objects of indices 0xA000-0xAFFF. -/
def pageA : List Family := [
  ⟨0xA000, 1, 1, 0x01, 1, .domain, 33554432, .rw, 0, .any, 16⟩ /- FLOW_COUNTERS -/,
  ⟨0xA000, 1, 1, 0x02, 1, .bool, 1, .rw, 0, .range 0 1, 0⟩ /- FLOW_READ_CLEAR -/,
  ⟨0xA000, 1, 1, 0x03, 1, .u16, 2, .rw, 100, .range 10 10000, 0⟩ /- FLOW_FLUSH_US -/,
  ⟨0xA000, 1, 1, 0x04, 1, .u64, 8, .ro, 0, .any, 0⟩ /- FLOW_INCREMENTS_LOST -/,
  ⟨0xA000, 1, 1, 0x05, 1, .u32, 4, .ro, 0, .any, 0⟩ /- FLOW_PAIRS_UNAVAILABLE -/,
  ⟨0xA000, 1, 1, 0x06, 1, .u32, 4, .ro, 0, .any, 0⟩ /- FLOW_VALUES_LOST -/,
  ⟨0xA000, 1, 1, 0x07, 1, .u32, 4, .ro, 0, .any, 0⟩ /- FLOW_LAST_LOST -/,
  ⟨0xA000, 1, 1, 0x08, 1, .bits32, 4, .wo, 0, .bits 0x1F, 0⟩ /- COUNTER_SUMMARY_CLEAR -/,
  ⟨0xA010, 1, 1, 0x01, 1, .domain, 1048576, .rw, 0, .any, 4⟩ /- NH_COUNTER_MAP -/,
  ⟨0xA100, 1, 1, 0x01, 1, .domain, 8192, .rw, 0, .any, 8⟩ /- CALIPER_EVENTS -/,
  ⟨0xA100, 1, 1, 0x02, 1, .bool, 1, .rw, 0, .range 0 1, 0⟩ /- CALIPER_FREEZE -/,
  ⟨0xA100, 1, 1, 0x03, 1, .bool, 1, .wo, 0, .range 0 1, 0⟩ /- CALIPER_CLEAR_ALL -/,
  ⟨0xA100, 1, 1, 0x04, 1, .time64, 8, .ro, 0, .any, 0⟩ /- CALIPER_FROZEN_AT -/]

/-- Objects of indices 0xB000-0xBFFF, part 1. -/
def pageBa : List Family := [
  ⟨0xB000, 1, 1, 0x01, 1, .domain, 2097152, .ro, 0, .any, 32⟩ /- RING_RECORDS -/,
  ⟨0xB000, 1, 1, 0x02, 1, .u16, 2, .const, 32, .any, 0⟩ /- RING_RECORD_BYTES -/,
  ⟨0xB000, 1, 1, 0x03, 1, .u32, 4, .const, 65536, .any, 0⟩ /- RING_CAPACITY -/,
  ⟨0xB000, 1, 1, 0x04, 1, .u32, 4, .ro, 0, .any, 0⟩ /- RING_HEAD -/,
  ⟨0xB000, 1, 1, 0x05, 1, .u32, 4, .rw, 0, .any, 0⟩ /- RING_TAIL -/,
  ⟨0xB000, 1, 1, 0x06, 1, .u32, 4, .rw, 32768, .any, 0⟩ /- RING_WATERMARK -/,
  ⟨0xB000, 1, 1, 0x07, 1, .bits32, 4, .ro, 0, .any, 0⟩ /- RING_STATUS -/,
  ⟨0xB000, 1, 1, 0x08, 1, .bits32, 4, .wo, 0, .bits 7, 0⟩ /- RING_STATUS_CLEAR -/,
  ⟨0xB000, 1, 1, 0x09, 1, .u32, 4, .ro, 0, .any, 0⟩ /- RING_DROPPED -/,
  ⟨0xB010, 1, 1, 0x01, 1, .domain, 2097152, .ro, 0, .any, 256⟩ /- RING_RECORDS -/,
  ⟨0xB010, 1, 1, 0x02, 1, .u16, 2, .const, 256, .any, 0⟩ /- RING_RECORD_BYTES -/,
  ⟨0xB010, 1, 1, 0x03, 1, .u32, 4, .const, 8192, .any, 0⟩ /- RING_CAPACITY -/,
  ⟨0xB010, 1, 1, 0x04, 1, .u32, 4, .ro, 0, .any, 0⟩ /- RING_HEAD -/,
  ⟨0xB010, 1, 1, 0x05, 1, .u32, 4, .rw, 0, .any, 0⟩ /- RING_TAIL -/,
  ⟨0xB010, 1, 1, 0x06, 1, .u32, 4, .rw, 4096, .any, 0⟩ /- RING_WATERMARK -/,
  ⟨0xB010, 1, 1, 0x07, 1, .bits32, 4, .ro, 0, .any, 0⟩ /- RING_STATUS -/,
  ⟨0xB010, 1, 1, 0x08, 1, .bits32, 4, .wo, 0, .bits 7, 0⟩ /- RING_STATUS_CLEAR -/,
  ⟨0xB010, 1, 1, 0x09, 1, .u32, 4, .ro, 0, .any, 0⟩ /- RING_DROPPED -/,
  ⟨0xB020, 1, 1, 0x01, 1, .domain, 0, .ro, 0, .any, 192⟩ /- RING_RECORDS -/,
  ⟨0xB020, 1, 1, 0x02, 1, .u16, 2, .const, 192, .any, 0⟩ /- RING_RECORD_BYTES -/,
  ⟨0xB020, 1, 1, 0x03, 1, .u32, 4, .ro, 349525, .any, 0⟩ /- RING_CAPACITY -/,
  ⟨0xB020, 1, 1, 0x04, 1, .u32, 4, .ro, 0, .any, 0⟩ /- RING_HEAD -/,
  ⟨0xB020, 1, 1, 0x05, 1, .u32, 4, .rw, 0, .any, 0⟩ /- RING_TAIL -/,
  ⟨0xB020, 1, 1, 0x06, 1, .u32, 4, .rw, 174762, .any, 0⟩ /- RING_WATERMARK -/,
  ⟨0xB020, 1, 1, 0x07, 1, .bits32, 4, .ro, 0, .any, 0⟩ /- RING_STATUS -/,
  ⟨0xB020, 1, 1, 0x08, 1, .bits32, 4, .wo, 0, .bits 7, 0⟩ /- RING_STATUS_CLEAR -/,
  ⟨0xB020, 1, 1, 0x09, 1, .u32, 4, .ro, 0, .any, 0⟩ /- RING_DROPPED -/,
  ⟨0xB030, 1, 1, 0x01, 1, .domain, 65536, .ro, 0, .any, 16⟩ /- RING_RECORDS -/,
  ⟨0xB030, 1, 1, 0x02, 1, .u16, 2, .const, 16, .any, 0⟩ /- RING_RECORD_BYTES -/,
  ⟨0xB030, 1, 1, 0x03, 1, .u32, 4, .const, 4096, .any, 0⟩ /- RING_CAPACITY -/,
  ⟨0xB030, 1, 1, 0x04, 1, .u32, 4, .ro, 0, .any, 0⟩ /- RING_HEAD -/,
  ⟨0xB030, 1, 1, 0x05, 1, .u32, 4, .rw, 0, .any, 0⟩ /- RING_TAIL -/,
  ⟨0xB030, 1, 1, 0x06, 1, .u32, 4, .rw, 2048, .any, 0⟩ /- RING_WATERMARK -/,
  ⟨0xB030, 1, 1, 0x07, 1, .bits32, 4, .ro, 0, .any, 0⟩ /- RING_STATUS -/,
  ⟨0xB030, 1, 1, 0x08, 1, .bits32, 4, .wo, 0, .bits 7, 0⟩ /- RING_STATUS_CLEAR -/,
  ⟨0xB030, 1, 1, 0x09, 1, .u32, 4, .ro, 0, .any, 0⟩ /- RING_DROPPED -/,
  ⟨0xB040, 1, 1, 0x01, 1, .domain, 16384, .ro, 0, .any, 16⟩ /- RING_RECORDS -/,
  ⟨0xB040, 1, 1, 0x02, 1, .u16, 2, .const, 16, .any, 0⟩ /- RING_RECORD_BYTES -/,
  ⟨0xB040, 1, 1, 0x03, 1, .u32, 4, .const, 1024, .any, 0⟩ /- RING_CAPACITY -/,
  ⟨0xB040, 1, 1, 0x04, 1, .u32, 4, .ro, 0, .any, 0⟩ /- RING_HEAD -/]

/-- Objects of indices 0xB000-0xBFFF, part 2. -/
def pageBb : List Family := [
  ⟨0xB040, 1, 1, 0x05, 1, .u32, 4, .rw, 0, .any, 0⟩ /- RING_TAIL -/,
  ⟨0xB040, 1, 1, 0x06, 1, .u32, 4, .rw, 512, .any, 0⟩ /- RING_WATERMARK -/,
  ⟨0xB040, 1, 1, 0x07, 1, .bits32, 4, .ro, 0, .any, 0⟩ /- RING_STATUS -/,
  ⟨0xB040, 1, 1, 0x08, 1, .bits32, 4, .wo, 0, .bits 7, 0⟩ /- RING_STATUS_CLEAR -/,
  ⟨0xB040, 1, 1, 0x09, 1, .u32, 4, .ro, 0, .any, 0⟩ /- RING_DROPPED -/,
  ⟨0xB050, 1, 1, 0x01, 1, .domain, 262144, .ro, 0, .any, 32⟩ /- RING_RECORDS -/,
  ⟨0xB050, 1, 1, 0x02, 1, .u16, 2, .const, 32, .any, 0⟩ /- RING_RECORD_BYTES -/,
  ⟨0xB050, 1, 1, 0x03, 1, .u32, 4, .const, 8192, .any, 0⟩ /- RING_CAPACITY -/,
  ⟨0xB050, 1, 1, 0x04, 1, .u32, 4, .ro, 0, .any, 0⟩ /- RING_HEAD -/,
  ⟨0xB050, 1, 1, 0x05, 1, .u32, 4, .rw, 0, .any, 0⟩ /- RING_TAIL -/,
  ⟨0xB050, 1, 1, 0x06, 1, .u32, 4, .rw, 4096, .any, 0⟩ /- RING_WATERMARK -/,
  ⟨0xB050, 1, 1, 0x07, 1, .bits32, 4, .ro, 0, .any, 0⟩ /- RING_STATUS -/,
  ⟨0xB050, 1, 1, 0x08, 1, .bits32, 4, .wo, 0, .bits 7, 0⟩ /- RING_STATUS_CLEAR -/,
  ⟨0xB050, 1, 1, 0x09, 1, .u32, 4, .ro, 0, .any, 0⟩ /- RING_DROPPED -/,
  ⟨0xB080, 1, 1, 0x01, 1, .domain, 131072, .rw, 0, .any, 32⟩ /- RING_RECORDS -/,
  ⟨0xB080, 1, 1, 0x02, 1, .u16, 2, .const, 32, .any, 0⟩ /- RING_RECORD_BYTES -/,
  ⟨0xB080, 1, 1, 0x03, 1, .u32, 4, .const, 4096, .any, 0⟩ /- RING_CAPACITY -/,
  ⟨0xB080, 1, 1, 0x04, 1, .u32, 4, .rw, 0, .any, 0⟩ /- RING_HEAD -/,
  ⟨0xB080, 1, 1, 0x05, 1, .u32, 4, .ro, 0, .any, 0⟩ /- RING_TAIL -/,
  ⟨0xB080, 1, 1, 0x06, 1, .u32, 4, .rw, 2048, .any, 0⟩ /- RING_WATERMARK -/,
  ⟨0xB080, 1, 1, 0x07, 1, .bits32, 4, .ro, 0, .any, 0⟩ /- RING_STATUS -/,
  ⟨0xB080, 1, 1, 0x08, 1, .bits32, 4, .wo, 0, .bits 7, 0⟩ /- RING_STATUS_CLEAR -/,
  ⟨0xB080, 1, 1, 0x09, 1, .u32, 4, .ro, 0, .any, 0⟩ /- RING_DROPPED -/,
  ⟨0xB090, 1, 1, 0x01, 1, .domain, 65536, .rw, 0, .any, 64⟩ /- RING_RECORDS -/,
  ⟨0xB090, 1, 1, 0x02, 1, .u16, 2, .const, 64, .any, 0⟩ /- RING_RECORD_BYTES -/,
  ⟨0xB090, 1, 1, 0x03, 1, .u32, 4, .const, 1024, .any, 0⟩ /- RING_CAPACITY -/,
  ⟨0xB090, 1, 1, 0x04, 1, .u32, 4, .rw, 0, .any, 0⟩ /- RING_HEAD -/,
  ⟨0xB090, 1, 1, 0x05, 1, .u32, 4, .ro, 0, .any, 0⟩ /- RING_TAIL -/,
  ⟨0xB090, 1, 1, 0x06, 1, .u32, 4, .rw, 512, .any, 0⟩ /- RING_WATERMARK -/,
  ⟨0xB090, 1, 1, 0x07, 1, .bits32, 4, .ro, 0, .any, 0⟩ /- RING_STATUS -/,
  ⟨0xB090, 1, 1, 0x08, 1, .bits32, 4, .wo, 0, .bits 7, 0⟩ /- RING_STATUS_CLEAR -/,
  ⟨0xB090, 1, 1, 0x09, 1, .u32, 4, .ro, 0, .any, 0⟩ /- RING_DROPPED -/]

/-- Objects of indices 0xC000-0xCFFF. -/
def pageC : List Family := [
  ⟨0xC000, 1, 1, 0x01, 1, .u16, 2, .rwh, 0, .range 0 4095, 0⟩ /- DEVICE_ID -/,
  ⟨0xC000, 1, 1, 0x02, 1, .enum8, 1, .rwh, 0, .range 0 1, 0⟩ /- FABRIC_TOPOLOGY -/,
  ⟨0xC000, 1, 1, 0x03, 1, .enum8, 1, .rwh, 0, .range 0 1, 0⟩ /- FABRIC_LANE_RATE -/,
  ⟨0xC000, 1, 1, 0x04, 1, .octets, 20, .rwh, 1461501637330902918203684832716283019655932542975, .any, 0⟩ /- FABRIC_LANE_ENABLE -/,
  ⟨0xC000, 1, 1, 0x05, 1, .u16, 2, .rw, 32, .range 8 1024, 0⟩ /- CELL_FILL_NS -/,
  ⟨0xC000, 1, 1, 0x06, 1, .u32, 4, .rw, 2000, .range 200 100000, 0⟩ /- REORDER_TIMEOUT_NS -/,
  ⟨0xC000, 1, 1, 0x07, 1, .u16, 2, .rw, 10, .range 1 1000, 0⟩ /- REQUEST_REFRESH_US -/,
  ⟨0xC000, 1, 1, 0x08, 1, .u32, 4, .rw, 100, .range 1 1000000, 0⟩ /- UNREACHABLE_HOLD_US -/,
  ⟨0xC000, 1, 1, 0x09, 1, .u8, 1, .rw, 137, .range 1 160, 0⟩ /- MIN_WORKING_LANES -/,
  ⟨0xC000, 1, 1, 0x0A, 1, .u8, 1, .ro, 0, .any, 0⟩ /- WORKING_LANES -/,
  ⟨0xC001, 1, 1, 0x01, 1, .domain, 65536, .rwh, 0, .any, 4⟩ /- SYSTEM_PORT_MAP -/,
  ⟨0xC002, 1, 1, 0x01, 1, .domain, 1280, .ro, 0, .any, 8⟩ /- LANE_STATUS -/,
  ⟨0xC003, 1, 1, 0x01, 1, .u64, 8, .ro, 0, .any, 0⟩ /- CELLS_SENT -/,
  ⟨0xC003, 1, 1, 0x02, 1, .u64, 8, .ro, 0, .any, 0⟩ /- CELLS_RECEIVED -/,
  ⟨0xC003, 1, 1, 0x03, 1, .u64, 8, .ro, 0, .any, 0⟩ /- CELLS_LOST -/,
  ⟨0xC003, 1, 1, 0x04, 1, .u64, 8, .ro, 0, .any, 0⟩ /- CELLS_LATE -/,
  ⟨0xC003, 1, 1, 0x05, 1, .u64, 8, .ro, 0, .any, 0⟩ /- CELLS_MISROUTED -/,
  ⟨0xC004, 1, 1, 0x01, 6, .u64, 8, .ro, 0, .any, 0⟩ /- FABRIC_DROPS -/,
  ⟨0xC005, 1, 1, 0x01, 1, .bits32, 4, .wo, 0, .bits 0x3F, 0⟩ /- FABRIC_SUMMARY_CLEAR -/]

/-- The object families whose indices lie in a page of 4,096 indices (table Index map, R31). -/
def page : Nat → List Family
  | 1 => page1a ++ page1b ++ page1c
  | 2 => page2a ++ page2b ++ page2c
  | 3 => page3
  | 4 => page4a ++ page4b
  | 5 => page5
  | 6 => page6a ++ page6b
  | 7 => page7
  | 8 => page8
  | 9 => page9
  | 10 => pageA
  | 11 => pageBa ++ pageBb
  | 12 => pageC
  | _ => []

/-- Whether an index and sub-index belong to a family. -/
def Family.has (f : Family) (index sub : Nat) : Bool :=
  f.index ≤ index && (index - f.index) % f.step == 0 && (index - f.index) / f.step < f.indices &&
    f.sub ≤ sub && sub - f.sub < f.subs

/-- The family of an object, if the dictionary has one (R26). Sub-index 0x00 belongs to none. -/
def find (index sub : Nat) : Option Family :=
  (page (index / 4096)).find? fun f => Family.has f index sub

/-- The highest sub-index in use at an index (R26); 0 at an index not in use. -/
def highest (index : Nat) : Nat :=
  (page (index / 4096)).foldl (fun m f => if Family.has f index f.sub then max m (f.sub + f.subs - 1) else m) 0

/-- The key of an object (R26). -/
def key (index sub : Nat) : Nat := 256 * index + sub

/-- The Reset column of the field map SecY configuration (R351). -/
def secyReset : Nat :=
  field 251 1 + field 250 1 + field 248 1 + field 247 1 + field 112 0x888E

/-- The value an object holds at reset: the Default column, a fused value, or the expression the table gives. -/
def reset (k : Nat) : Nat :=
  let index := k / 256
  let sub := k % 256
  if index = 0x1000 ∧ sub = 3 then Config.siliconStep.toNat /- SILICON_STEP -/ else
  if index = 0x1000 ∧ sub = 4 then Config.deviceSerial.toNat /- DEVICE_SERIAL -/ else
  if index = 0x1000 ∧ sub = 7 then Config.pciVendorId.toNat /- PCI_VENDOR_ID -/ else
  if index = 0x1100 ∧ sub = 2 then (Config.fusedMac 0).toNat /- MG0_MAC -/ else
  if index = 0x1100 ∧ sub = 3 then (Config.fusedMac 1).toNat /- MG1_MAC -/ else
  if 0x2000 ≤ index ∧ index < 0x2800 ∧ index % 16 = 0 ∧ sub = 1 then (index - 0x2000) / 16 % 8 /- PORT_FIRST_LANE -/ else
  if 0x4000 ≤ index ∧ index < 0x4004 ∧ sub = 1 then (Config.fusedSeed (index - 0x4000) 1).toNat /- EM_SEED1 -/ else
  if 0x4000 ≤ index ∧ index < 0x4004 ∧ sub = 2 then (Config.fusedSeed (index - 0x4000) 2).toNat /- EM_SEED2 -/ else
  if index = 0x6001 ∧ 1 ≤ sub ∧ sub < 7 then [786432, 786432, 65536, 32768, 8192, 4096].getD (sub - 1) 0 /- CLASS_QUOTA_CELLS -/ else
  if index = 0x7020 ∧ 1 ≤ sub ∧ sub < 129 then secyReset /- SECY_CONFIG -/ else
  if 0x8000 ≤ index ∧ index < 0x8008 ∧ sub = 5 then index - 0x8000 /- SEQ_COVER -/ else
  if index = 0x9020 ∧ 1 ≤ sub ∧ sub < 17 then sub - 1 /- GROUP_PIPE -/ else
  match find index sub with
  | some f => f.default
  | none => 0

end Dict

/-! Keys, by object name. -/

namespace Obj

/-- VENDOR_CODE (0x1000:01). -/
def vendorCode : Nat := Dict.key 0x1000 1
/-- PART_NUMBER (0x1000:02). -/
def partNumber : Nat := Dict.key 0x1000 2
/-- SILICON_STEP (0x1000:03). -/
def siliconStep : Nat := Dict.key 0x1000 3
/-- DEVICE_SERIAL (0x1000:04). -/
def deviceSerial : Nat := Dict.key 0x1000 4
/-- MICROCODE_LEVEL (0x1000:05). -/
def microcodeLevel : Nat := Dict.key 0x1000 5
/-- DICTIONARY_LEVEL (0x1000:06). -/
def dictionaryLevel : Nat := Dict.key 0x1000 6
/-- PCI_VENDOR_ID (0x1000:07). -/
def pciVendorId : Nat := Dict.key 0x1000 7
/-- LIFE_STATE (0x1010:01). -/
def lifeState : Nat := Dict.key 0x1010 1
/-- LIFE_REQUEST (0x1010:02). -/
def lifeRequest : Nat := Dict.key 0x1010 2
/-- LIFE_AUTHORISATION (0x1010:03). -/
def lifeAuthorisation : Nat := Dict.key 0x1010 3
/-- LIFE_REQUEST_STATUS (0x1010:04). -/
def lifeRequestStatus : Nat := Dict.key 0x1010 4
/-- LIFE_SUMMARY_CLEAR (0x1010:05). -/
def lifeSummaryClear : Nat := Dict.key 0x1010 5
/-- DEVICE_SUMMARY (0x10C0:01). -/
def deviceSummary : Nat := Dict.key 0x10C0 1
/-- LIFE_SUMMARY (0x10C1:01). -/
def lifeSummary : Nat := Dict.key 0x10C1 1
/-- COMM_SUMMARY (0x10C1:02). -/
def commSummary : Nat := Dict.key 0x10C1 2
/-- CLOCK_SUMMARY (0x10C1:03). -/
def clockSummary : Nat := Dict.key 0x10C1 3
/-- MODE_SUMMARY (0x10C1:04). -/
def modeSummary : Nat := Dict.key 0x10C1 4
/-- PIPE_SUMMARY (0x10C1:06). -/
def pipeSummary : Nat := Dict.key 0x10C1 6
/-- TABLE_SUMMARY (0x10C1:07). -/
def tableSummary : Nat := Dict.key 0x10C1 7
/-- RELIEF_SUMMARY (0x10C1:08). -/
def reliefSummary : Nat := Dict.key 0x10C1 8
/-- QUEUE_SUMMARY (0x10C1:09). -/
def queueSummary : Nat := Dict.key 0x10C1 9
/-- CIPHER_SUMMARY (0x10C1:0A). -/
def cipherSummary : Nat := Dict.key 0x10C1 10
/-- ATELIER_SUMMARY (0x10C1:0B). -/
def atelierSummary : Nat := Dict.key 0x10C1 11
/-- FAULT_SUMMARY (0x10C1:0C). -/
def faultSummary : Nat := Dict.key 0x10C1 12
/-- COUNTER_SUMMARY (0x10C1:0D). -/
def counterSummary : Nat := Dict.key 0x10C1 13
/-- RING_SUMMARY (0x10C1:0E). -/
def ringSummary : Nat := Dict.key 0x10C1 14
/-- FABRIC_SUMMARY (0x10C1:0F). -/
def fabricSummary : Nat := Dict.key 0x10C1 15
/-- PORT_SUMMARY (0x10C2:01–04). -/
def portSummary (n : Nat) : Nat := Dict.key 0x10C2 (1 + n)
/-- OBJECT_DIRECTORY (0x10F0:01). -/
def objectDirectory : Nat := Dict.key 0x10F0 1
/-- DIRECTORY_ENTRIES (0x10F0:02). -/
def directoryEntries : Nat := Dict.key 0x10F0 2
/-- SOP_ETHERTYPE (0x1100:01). -/
def sopEthertype : Nat := Dict.key 0x1100 1
/-- MG0_MAC (0x1100:02). -/
def mg0Mac : Nat := Dict.key 0x1100 2
/-- MG1_MAC (0x1100:03). -/
def mg1Mac : Nat := Dict.key 0x1100 3
/-- SOP_IPV4_ADDRESS (0x1100:04). -/
def sopIpv4Address : Nat := Dict.key 0x1100 4
/-- SOP_IPV6_ADDRESS (0x1100:05). -/
def sopIpv6Address : Nat := Dict.key 0x1100 5
/-- SOP_UDP_PORT (0x1100:06). -/
def sopUdpPort : Nat := Dict.key 0x1100 6
/-- SOP_CARRIAGE_ENABLE (0x1100:07). -/
def sopCarriageEnable : Nat := Dict.key 0x1100 7
/-- SESSION_IDLE_TIMEOUT (0x1100:08). -/
def sessionIdleTimeout : Nat := Dict.key 0x1100 8
/-- SOP_AUTH_REQUIRED (0x1100:09). -/
def sopAuthRequired : Nat := Dict.key 0x1100 9
/-- SOP_KEY_SLOT (0x1100:0A). -/
def sopKeySlot : Nat := Dict.key 0x1100 10
/-- PCIE_DIRECT_ENABLE (0x1100:0B). -/
def pcieDirectEnable : Nat := Dict.key 0x1100 11
/-- MG_LANE_RATE (0x1100:0C). -/
def mgLaneRate : Nat := Dict.key 0x1100 12
/-- SESSION0_NEXT_SEQ (0x1101:01). -/
def session0NextSeq : Nat := Dict.key 0x1101 1
/-- COMM_EPOCH (0x1101:02). -/
def commEpoch : Nat := Dict.key 0x1101 2
/-- SOP_CHECK_FAILS (0x1102:01). -/
def sopCheckFails : Nat := Dict.key 0x1102 1
/-- SOP_AUTH_FAILS (0x1102:02). -/
def sopAuthFails : Nat := Dict.key 0x1102 2
/-- SOP_MALFORMED (0x1102:03). -/
def sopMalformed : Nat := Dict.key 0x1102 3
/-- COMM_SUMMARY_CLEAR (0x1102:04). -/
def commSummaryClear : Nat := Dict.key 0x1102 4
/-- SESSION_STATE (0x1108+s−1:01). -/
def sessionState (n : Nat) : Nat := Dict.key (0x1108 + n) 1
/-- SESSION_PATH (0x1108+s−1:02). -/
def sessionPath (n : Nat) : Nat := Dict.key (0x1108 + n) 2
/-- SESSION_PEER (0x1108+s−1:03). -/
def sessionPeer (n : Nat) : Nat := Dict.key (0x1108 + n) 3
/-- SESSION_NEXT_SEQ (0x1108+s−1:04). -/
def sessionNextSeq (n : Nat) : Nat := Dict.key (0x1108 + n) 4
/-- SESSION_EPOCH (0x1108+s−1:05). -/
def sessionEpoch (n : Nat) : Nat := Dict.key (0x1108 + n) 5
/-- SESSION_AUTH (0x1108+s−1:06). -/
def sessionAuth (n : Nat) : Nat := Dict.key (0x1108 + n) 6
/-- SESSION_FORCE_CLOSE (0x1108+s−1:07). -/
def sessionForceClose (n : Nat) : Nat := Dict.key (0x1108 + n) 7
/-- WINDOW_OBJECT (0x1110+w:01). -/
def windowObject (n : Nat) : Nat := Dict.key (0x1110 + n) 1
/-- WINDOW_BASE (0x1110+w:02). -/
def windowBase (n : Nat) : Nat := Dict.key (0x1110 + n) 2
/-- PCIE_LAST_ABORT (0x1120:01). -/
def pcieLastAbort : Nat := Dict.key 0x1120 1
/-- PCIE_ABORT_COUNT (0x1120:02). -/
def pcieAbortCount : Nat := Dict.key 0x1120 2
/-- BOOT_STATE (0x1200:01). -/
def bootState : Nat := Dict.key 0x1200 1
/-- BOOT_IMAGE (0x1200:02). -/
def bootImage : Nat := Dict.key 0x1200 2
/-- BOOT_FAIL_DETAIL (0x1200:03). -/
def bootFailDetail : Nat := Dict.key 0x1200 3
/-- RESET_REQUEST (0x1200:04). -/
def resetRequest : Nat := Dict.key 0x1200 4
/-- LAST_RESET_CAUSE (0x1200:05). -/
def lastResetCause : Nat := Dict.key 0x1200 5
/-- BOOT_ELAPSED (0x1200:06). -/
def bootElapsed : Nat := Dict.key 0x1200 6
/-- WARM_KILN (0x1200:07). -/
def warmKiln : Nat := Dict.key 0x1200 7
/-- UPLOAD_IMAGE (0x1201:01). -/
def uploadImage : Nat := Dict.key 0x1201 1
/-- UPLOAD_START (0x1201:02). -/
def uploadStart : Nat := Dict.key 0x1201 2
/-- DDR5_CHANNELS_IN_USE (0x1203:01). -/
def ddr5ChannelsInUse : Nat := Dict.key 0x1203 1
/-- CLOCK_STATUS (0x1210:01). -/
def clockStatus : Nat := Dict.key 0x1210 1
/-- CLOCK_SUMMARY_CLEAR (0x1210:02). -/
def clockSummaryClear : Nat := Dict.key 0x1210 2
/-- DIE_TEMP (0x1220:01). -/
def dieTemp : Nat := Dict.key 0x1220 1
/-- TEMP_ALARM (0x1220:02). -/
def tempAlarm : Nat := Dict.key 0x1220 2
/-- RAIL_STATUS (0x1220:03). -/
def railStatus : Nat := Dict.key 0x1220 3
/-- PPS_OUT_ENABLE (0x1230:01). -/
def ppsOutEnable : Nat := Dict.key 0x1230 1
/-- PPS_OUT_OFFSET_NS (0x1230:02). -/
def ppsOutOffsetNs : Nat := Dict.key 0x1230 2
/-- PPS_OUT_WIDTH_US (0x1230:03). -/
def ppsOutWidthUs : Nat := Dict.key 0x1230 3
/-- PPS_IN_TIME (0x1230:04). -/
def ppsInTime : Nat := Dict.key 0x1230 4
/-- PPS_IN_COUNT (0x1230:05). -/
def ppsInCount : Nat := Dict.key 0x1230 5
/-- PPS_IN_DELAY_NS (0x1230:06). -/
def ppsInDelayNs : Nat := Dict.key 0x1230 6
/-- TOD_TX_ENABLE (0x1231:01). -/
def todTxEnable : Nat := Dict.key 0x1231 1
/-- TOD_TX_FLAGS (0x1231:02). -/
def todTxFlags : Nat := Dict.key 0x1231 2
/-- TOD_RX_LAST (0x1231:03). -/
def todRxLast : Nat := Dict.key 0x1231 3
/-- TOD_RX_COUNT (0x1231:04). -/
def todRxCount : Nat := Dict.key 0x1231 4
/-- TOD_RX_ERRORS (0x1231:05). -/
def todRxErrors : Nat := Dict.key 0x1231 5
/-- RCLK_SOURCE (0x1232:k+1). -/
def rclkSource (n : Nat) : Nat := Dict.key 0x1232 (1 + n)
/-- SLEEP_DEPTH (0x1240+p:01). -/
def sleepDepth (n : Nat) : Nat := Dict.key (0x1240 + n) 1
/-- SLEEP_POLICY (0x1240+p:02). -/
def sleepPolicy (n : Nat) : Nat := Dict.key (0x1240 + n) 2
/-- RETAIN_IDLE_US (0x1240+p:03). -/
def retainIdleUs (n : Nat) : Nat := Dict.key (0x1240 + n) 3
/-- WAKE_COUNT (0x1240+p:04). -/
def wakeCount (n : Nat) : Nat := Dict.key (0x1240 + n) 4
/-- MODE_ACTIVE (0x1400:01). -/
def modeActive : Nat := Dict.key 0x1400 1
/-- MODE_SUMMARY_CLEAR (0x1400:02). -/
def modeSummaryClear : Nat := Dict.key 0x1400 2
/-- SPILL_ENABLE (0x1401:01). -/
def spillEnable : Nat := Dict.key 0x1401 1
/-- SLICE_ENABLE (0x1401:02). -/
def sliceEnable : Nat := Dict.key 0x1401 2
/-- CAPTURE_ENABLE (0x1401:03). -/
def captureEnable : Nat := Dict.key 0x1401 3
/-- FABRIC_ENABLE (0x1401:04). -/
def fabricEnable : Nat := Dict.key 0x1401 4
/-- STAGE_BANKS (0x1401:05). -/
def stageBanks : Nat := Dict.key 0x1401 5
/-- FENCED_UNITS (0x1401:06). -/
def fencedUnits : Nat := Dict.key 0x1401 6
/-- CUT_ENABLE (0x1402:p+1). -/
def cutEnable (n : Nat) : Nat := Dict.key 0x1402 (1 + n)
/-- CIPHER_ENABLE (0x1403:p+1). -/
def cipherEnable (n : Nat) : Nat := Dict.key 0x1403 (1 + n)
/-- LEARN_ENABLE (0x1404:p+1). -/
def learnEnable (n : Nat) : Nat := Dict.key 0x1404 (1 + n)
/-- TIME_ENABLE (0x1405:p+1). -/
def timeEnable (n : Nat) : Nat := Dict.key 0x1405 (1 + n)
/-- SLEEP_ENABLE (0x1406:g+1). -/
def sleepEnable (n : Nat) : Nat := Dict.key 0x1406 (1 + n)
/-- PORT_MODES_IN_FORCE (0x1407:p+1). -/
def portModesInForce (n : Nat) : Nat := Dict.key 0x1407 (1 + n)
/-- FUNCTION_STATE (0x1410:k+1). -/
def functionStatePort (n : Nat) : Nat := Dict.key 0x1410 (1 + n)
/-- FUNCTION_STATE (0x1412:k+1). -/
def functionStateSched (n : Nat) : Nat := Dict.key 0x1412 (1 + n)
/-- FUNCTION_STATE (0x1414:k+1). -/
def functionStateCipher (n : Nat) : Nat := Dict.key 0x1414 (1 + n)
/-- FUNCTION_STATE (0x1416:k+1). -/
def functionStatePipe (n : Nat) : Nat := Dict.key 0x1416 (1 + n)
/-- FUNCTION_STATE (0x1418:k+1). -/
def functionStateRelief (n : Nat) : Nat := Dict.key 0x1418 (1 + n)
/-- FUNCTION_STATE (0x141A:k+1). -/
def functionStateFabric : Nat := Dict.key 0x141A 1
/-- FUNCTION_REQUEST (0x1411:k+1). -/
def functionRequestPort (n : Nat) : Nat := Dict.key 0x1411 (1 + n)
/-- FUNCTION_REQUEST (0x1413:k+1). -/
def functionRequestSched (n : Nat) : Nat := Dict.key 0x1413 (1 + n)
/-- FUNCTION_REQUEST (0x1415:k+1). -/
def functionRequestCipher (n : Nat) : Nat := Dict.key 0x1415 (1 + n)
/-- FUNCTION_REQUEST (0x1417:k+1). -/
def functionRequestPipe (n : Nat) : Nat := Dict.key 0x1417 (1 + n)
/-- FUNCTION_REQUEST (0x1419:k+1). -/
def functionRequestRelief (n : Nat) : Nat := Dict.key 0x1419 (1 + n)
/-- FUNCTION_REQUEST (0x141B:k+1). -/
def functionRequestFabric : Nat := Dict.key 0x141B 1
/-- DRAIN_LIMIT_US (0x141C:01–06). -/
def drainLimitUs (n : Nat) : Nat := Dict.key 0x141C (1 + n)
/-- LAST_FORCED_DRAIN (0x141D:01). -/
def lastForcedDrain : Nat := Dict.key 0x141D 1
/-- PORT_FIRST_LANE (i+0x0:01). -/
def portFirstLane (n : Nat) : Nat := Dict.key (0x2000 + 16 * n) 1
/-- PORT_WIDTH (i+0x0:02). -/
def portWidth (n : Nat) : Nat := Dict.key (0x2000 + 16 * n) 2
/-- TX_POLARITY (i+0x0:03). -/
def txPolarity (n : Nat) : Nat := Dict.key (0x2000 + 16 * n) 3
/-- RX_POLARITY (i+0x0:04). -/
def rxPolarity (n : Nat) : Nat := Dict.key (0x2000 + 16 * n) 4
/-- TX_PRESET (i+0x0:05). -/
def txPreset (n : Nat) : Nat := Dict.key (0x2000 + 16 * n) 5
/-- AN_ENABLE (i+0x1:01). -/
def anEnable (n : Nat) : Nat := Dict.key (0x2001 + 16 * n) 1
/-- AN_ABILITY (i+0x1:02). -/
def anAbility (n : Nat) : Nat := Dict.key (0x2001 + 16 * n) 2
/-- PD_RATES (i+0x1:03). -/
def pdRates (n : Nat) : Nat := Dict.key (0x2001 + 16 * n) 3
/-- AN_WAIT_MS (i+0x1:04). -/
def anWaitMs (n : Nat) : Nat := Dict.key (0x2001 + 16 * n) 4
/-- PD_DWELL_MS (i+0x1:05). -/
def pdDwellMs (n : Nat) : Nat := Dict.key (0x2001 + 16 * n) 5
/-- AN_RESULT (i+0x1:06). -/
def anResult (n : Nat) : Nat := Dict.key (0x2001 + 16 * n) 6
/-- PARTNER_BASE_PAGE (i+0x1:07). -/
def partnerBasePage (n : Nat) : Nat := Dict.key (0x2001 + 16 * n) 7
/-- LINK_STATE (i+0x2:01). -/
def linkState (n : Nat) : Nat := Dict.key (0x2002 + 16 * n) 1
/-- HOLD_TIME_US (i+0x2:02). -/
def holdTimeUs (n : Nat) : Nat := Dict.key (0x2002 + 16 * n) 2
/-- LINK_UP_DEBOUNCE_US (i+0x2:03). -/
def linkUpDebounceUs (n : Nat) : Nat := Dict.key (0x2002 + 16 * n) 3
/-- TRAINING_MODE (i+0x2:04). -/
def trainingMode (n : Nat) : Nat := Dict.key (0x2002 + 16 * n) 4
/-- TRAINING_LIMIT_MS (i+0x2:05). -/
def trainingLimitMs (n : Nat) : Nat := Dict.key (0x2002 + 16 * n) 5
/-- LINK_DOWN_COUNT (i+0x2:06). -/
def linkDownCount (n : Nat) : Nat := Dict.key (0x2002 + 16 * n) 6
/-- HOLD_RESUMES (i+0x2:07). -/
def holdResumes (n : Nat) : Nat := Dict.key (0x2002 + 16 * n) 7
/-- LAST_LINK_CHANGE (i+0x2:08). -/
def lastLinkChange (n : Nat) : Nat := Dict.key (0x2002 + 16 * n) 8
/-- FEC_MODE (i+0x3:01). -/
def fecMode (n : Nat) : Nat := Dict.key (0x2003 + 16 * n) 1
/-- FEC_IN_USE (i+0x3:02). -/
def fecInUse (n : Nat) : Nat := Dict.key (0x2003 + 16 * n) 2
/-- FEC_LANE_SYMBOLS (i+0x3:03–0A). -/
def fecLaneSymbols (n m : Nat) : Nat := Dict.key (0x2003 + 16 * n) (3 + m)
/-- SPEED_IN_USE (i+0x4:01). -/
def speedInUse (n : Nat) : Nat := Dict.key (0x2004 + 16 * n) 1
/-- PORT_DATA_RATE (i+0x4:02). -/
def portDataRate (n : Nat) : Nat := Dict.key (0x2004 + 16 * n) 2
/-- PORT_SPEED (i+0x4:03). -/
def portSpeed (n : Nat) : Nat := Dict.key (0x2004 + 16 * n) 3
/-- MAX_FRAME (i+0x5:01). -/
def maxFrame (n : Nat) : Nat := Dict.key (0x2005 + 16 * n) 1
/-- RX_FLOW_CONTROL (i+0x5:02). -/
def rxFlowControl (n : Nat) : Nat := Dict.key (0x2005 + 16 * n) 2
/-- PFC_CLASS_ENABLE (i+0x5:03). -/
def pfcClassEnable (n : Nat) : Nat := Dict.key (0x2005 + 16 * n) 3
/-- PAUSE_WATCHDOG_BREAKS (i+0x5:04). -/
def pauseWatchdogBreaks (n : Nat) : Nat := Dict.key (0x2005 + 16 * n) 4
/-- PAUSED_CLASSES (i+0x5:05). -/
def pausedClasses (n : Nat) : Nat := Dict.key (0x2005 + 16 * n) 5
/-- GROUP_FILTER (i+0x6:01). -/
def groupFilter (n : Nat) : Nat := Dict.key (0x2006 + 16 * n) 1
/-- GROUP_FILTER_BYPASS (i+0x6:02). -/
def groupFilterBypass (n : Nat) : Nat := Dict.key (0x2006 + 16 * n) 2
/-- PAUSE_WATCHDOG_MS (i+0x7:01–08). -/
def pauseWatchdogMs (n m : Nat) : Nat := Dict.key (0x2007 + 16 * n) (1 + m)
/-- UNDERRUN_STEP (i+0x8:01). -/
def underrunStep (n : Nat) : Nat := Dict.key (0x2008 + 16 * n) 1
/-- CLEAN_FRAMES (i+0x8:02). -/
def cleanFrames (n : Nat) : Nat := Dict.key (0x2008 + 16 * n) 2
/-- UNDERRUN_STEP_RESET (i+0x8:03). -/
def underrunStepReset (n : Nat) : Nat := Dict.key (0x2008 + 16 * n) 3
/-- PTP_STEP (i+0x9:01). -/
def ptpStep (n : Nat) : Nat := Dict.key (0x2009 + 16 * n) 1
/-- RX_PHY_DELAY_NS (i+0x9:02). -/
def rxPhyDelayNs (n : Nat) : Nat := Dict.key (0x2009 + 16 * n) 2
/-- TX_PHY_DELAY_NS (i+0x9:03). -/
def txPhyDelayNs (n : Nat) : Nat := Dict.key (0x2009 + 16 * n) 3
/-- TS_RECORDS (i+0x9:04). -/
def tsRecords (n : Nat) : Nat := Dict.key (0x2009 + 16 * n) 4
/-- TS_WRITE_COUNT (i+0x9:05). -/
def tsWriteCount (n : Nat) : Nat := Dict.key (0x2009 + 16 * n) 5
/-- TS_READ_COUNT (i+0x9:06). -/
def tsReadCount (n : Nat) : Nat := Dict.key (0x2009 + 16 * n) 6
/-- PORT_FLAGS (i+0xA:01). -/
def portFlags (n : Nat) : Nat := Dict.key (0x200A + 16 * n) 1
/-- PORT_FLAGS_CLEAR (i+0xA:02). -/
def portFlagsClear (n : Nat) : Nat := Dict.key (0x200A + 16 * n) 2
/-- RX_OCTETS_OK (i+0xB:01). -/
def rxOctetsOk (n : Nat) : Nat := Dict.key (0x200B + 16 * n) 1
/-- RX_FRAMES_OK (i+0xB:02). -/
def rxFramesOk (n : Nat) : Nat := Dict.key (0x200B + 16 * n) 2
/-- RX_UNICAST (i+0xB:03). -/
def rxUnicast (n : Nat) : Nat := Dict.key (0x200B + 16 * n) 3
/-- RX_MULTICAST (i+0xB:04). -/
def rxMulticast (n : Nat) : Nat := Dict.key (0x200B + 16 * n) 4
/-- RX_BROADCAST (i+0xB:05). -/
def rxBroadcast (n : Nat) : Nat := Dict.key (0x200B + 16 * n) 5
/-- RX_OCTETS_ALL (i+0xB:06). -/
def rxOctetsAll (n : Nat) : Nat := Dict.key (0x200B + 16 * n) 6
/-- RX_FRAMES_ALL (i+0xB:07). -/
def rxFramesAll (n : Nat) : Nat := Dict.key (0x200B + 16 * n) 7
/-- RX_FCS_ERRORS (i+0xB:08). -/
def rxFcsErrors (n : Nat) : Nat := Dict.key (0x200B + 16 * n) 8
/-- RX_RUNTS (i+0xB:09). -/
def rxRunts (n : Nat) : Nat := Dict.key (0x200B + 16 * n) 9
/-- RX_FRAGMENTS (i+0xB:0A). -/
def rxFragments (n : Nat) : Nat := Dict.key (0x200B + 16 * n) 10
/-- RX_OVERSIZE (i+0xB:0B). -/
def rxOversize (n : Nat) : Nat := Dict.key (0x200B + 16 * n) 11
/-- RX_JABBERS (i+0xB:0C). -/
def rxJabbers (n : Nat) : Nat := Dict.key (0x200B + 16 * n) 12
/-- RX_PCS_ERRORS (i+0xB:0D). -/
def rxPcsErrors (n : Nat) : Nat := Dict.key (0x200B + 16 * n) 13
/-- RX_FEC_MARKED (i+0xB:0E). -/
def rxFecMarked (n : Nat) : Nat := Dict.key (0x200B + 16 * n) 14
/-- RX_FILTERED (i+0xB:0F). -/
def rxFiltered (n : Nat) : Nat := Dict.key (0x200B + 16 * n) 15
/-- RX_PAUSE (i+0xB:10). -/
def rxPause (n : Nat) : Nat := Dict.key (0x200B + 16 * n) 16
/-- RX_PFC (i+0xB:11). -/
def rxPfc (n : Nat) : Nat := Dict.key (0x200B + 16 * n) 17
/-- RX_MAC_CONTROL_OTHER (i+0xB:12). -/
def rxMacControlOther (n : Nat) : Nat := Dict.key (0x200B + 16 * n) 18
/-- RX_FIFO_DROPS (i+0xB:13). -/
def rxFifoDrops (n : Nat) : Nat := Dict.key (0x200B + 16 * n) 19
/-- RX_HELD_DROPS (i+0xB:14). -/
def rxHeldDrops (n : Nat) : Nat := Dict.key (0x200B + 16 * n) 20
/-- RX_64 (i+0xB:15). -/
def rx64 (n : Nat) : Nat := Dict.key (0x200B + 16 * n) 21
/-- RX_65_127 (i+0xB:16). -/
def rx65127 (n : Nat) : Nat := Dict.key (0x200B + 16 * n) 22
/-- RX_128_255 (i+0xB:17). -/
def rx128255 (n : Nat) : Nat := Dict.key (0x200B + 16 * n) 23
/-- RX_256_511 (i+0xB:18). -/
def rx256511 (n : Nat) : Nat := Dict.key (0x200B + 16 * n) 24
/-- RX_512_1023 (i+0xB:19). -/
def rx5121023 (n : Nat) : Nat := Dict.key (0x200B + 16 * n) 25
/-- RX_1024_1518 (i+0xB:1A). -/
def rx10241518 (n : Nat) : Nat := Dict.key (0x200B + 16 * n) 26
/-- RX_1519_MAX (i+0xB:1B). -/
def rx1519Max (n : Nat) : Nat := Dict.key (0x200B + 16 * n) 27
/-- FEC_CORRECTED_CW (i+0xB:1C). -/
def fecCorrectedCw (n : Nat) : Nat := Dict.key (0x200B + 16 * n) 28
/-- FEC_UNCORRECTED_CW (i+0xB:1D). -/
def fecUncorrectedCw (n : Nat) : Nat := Dict.key (0x200B + 16 * n) 29
/-- TX_OCTETS_OK (i+0xC:01). -/
def txOctetsOk (n : Nat) : Nat := Dict.key (0x200C + 16 * n) 1
/-- TX_FRAMES_OK (i+0xC:02). -/
def txFramesOk (n : Nat) : Nat := Dict.key (0x200C + 16 * n) 2
/-- TX_UNICAST (i+0xC:03). -/
def txUnicast (n : Nat) : Nat := Dict.key (0x200C + 16 * n) 3
/-- TX_MULTICAST (i+0xC:04). -/
def txMulticast (n : Nat) : Nat := Dict.key (0x200C + 16 * n) 4
/-- TX_BROADCAST (i+0xC:05). -/
def txBroadcast (n : Nat) : Nat := Dict.key (0x200C + 16 * n) 5
/-- TX_STOMPED (i+0xC:06). -/
def txStomped (n : Nat) : Nat := Dict.key (0x200C + 16 * n) 6
/-- TX_UNDERRUNS (i+0xC:07). -/
def txUnderruns (n : Nat) : Nat := Dict.key (0x200C + 16 * n) 7
/-- TX_FLUSHED (i+0xC:08). -/
def txFlushed (n : Nat) : Nat := Dict.key (0x200C + 16 * n) 8
/-- TX_CUT_OFF (i+0xC:09). -/
def txCutOff (n : Nat) : Nat := Dict.key (0x200C + 16 * n) 9
/-- TX_FORCED_DRAIN (i+0xC:0A). -/
def txForcedDrain (n : Nat) : Nat := Dict.key (0x200C + 16 * n) 10
/-- TX_64 (i+0xC:0B). -/
def tx64 (n : Nat) : Nat := Dict.key (0x200C + 16 * n) 11
/-- TX_65_127 (i+0xC:0C). -/
def tx65127 (n : Nat) : Nat := Dict.key (0x200C + 16 * n) 12
/-- TX_128_255 (i+0xC:0D). -/
def tx128255 (n : Nat) : Nat := Dict.key (0x200C + 16 * n) 13
/-- TX_256_511 (i+0xC:0E). -/
def tx256511 (n : Nat) : Nat := Dict.key (0x200C + 16 * n) 14
/-- TX_512_1023 (i+0xC:0F). -/
def tx5121023 (n : Nat) : Nat := Dict.key (0x200C + 16 * n) 15
/-- TX_1024_1518 (i+0xC:10). -/
def tx10241518 (n : Nat) : Nat := Dict.key (0x200C + 16 * n) 16
/-- TX_1519_MAX (i+0xC:11). -/
def tx1519Max (n : Nat) : Nat := Dict.key (0x200C + 16 * n) 17
/-- STATS_RX_HALF (i+0xD:01). -/
def statsRxHalf (n : Nat) : Nat := Dict.key (0x200D + 16 * n) 1
/-- STATS_TX_HALF (i+0xD:02). -/
def statsTxHalf (n : Nat) : Nat := Dict.key (0x200D + 16 * n) 2
/-- STATS_RX_HALF_CLEAR (i+0xD:03). -/
def statsRxHalfClear (n : Nat) : Nat := Dict.key (0x200D + 16 * n) 3
/-- STATS_TX_HALF_CLEAR (i+0xD:04). -/
def statsTxHalfClear (n : Nat) : Nat := Dict.key (0x200D + 16 * n) 4
/-- STATS_CLEAR (i+0xD:05). -/
def statsClear (n : Nat) : Nat := Dict.key (0x200D + 16 * n) 5
/-- PARSED_FRAMES (0x3000+p:01). -/
def parsedFrames (n : Nat) : Nat := Dict.key (0x3000 + n) 1
/-- CONTINUATION_PASSES (0x3000+p:02). -/
def continuationPasses (n : Nat) : Nat := Dict.key (0x3000 + n) 2
/-- PARSE_FAILURES (0x3000+p:03). -/
def parseFailures (n : Nat) : Nat := Dict.key (0x3000 + n) 3
/-- LATE_CONFLICTS (0x3000+p:04). -/
def lateConflicts (n : Nat) : Nat := Dict.key (0x3000 + n) 4
/-- EXCEPTION_RECORDS (0x3000+p:05). -/
def exceptionRecords (n : Nat) : Nat := Dict.key (0x3000 + n) 5
/-- TTL_DROPS (0x3000+p:06). -/
def ttlDrops (n : Nat) : Nat := Dict.key (0x3000 + n) 6
/-- PIPE_FLAGS (0x3000+p:07). -/
def pipeFlags (n : Nat) : Nat := Dict.key (0x3000 + n) 7
/-- PIPE_FLAGS_CLEAR (0x3000+p:08). -/
def pipeFlagsClear (n : Nat) : Nat := Dict.key (0x3000 + n) 8
/-- FIRST_TEMPLATE (0x3090:p+1). -/
def firstTemplate (n : Nat) : Nat := Dict.key 0x3090 (1 + n)
/-- FAILURE_ACTION (0x3091:p+1). -/
def failureAction (n : Nat) : Nat := Dict.key 0x3091 (1 + n)
/-- SLOW_PATH_MASK (0x3092:p+1). -/
def slowPathMask (n : Nat) : Nat := Dict.key 0x3092 (1 + n)
/-- PARSE_CONTINUE (0x3093:p+1). -/
def parseContinue (n : Nat) : Nat := Dict.key 0x3093 (1 + n)
/-- IPV4_CHECKSUM_CHECK (0x3094:p+1). -/
def ipv4ChecksumCheck (n : Nat) : Nat := Dict.key 0x3094 (1 + n)
/-- PARSE_GRAPH_SELECT (0x30A0:01). -/
def parseGraphSelect : Nat := Dict.key 0x30A0 1
/-- PARSE_GRAPH_BUSY (0x30A0:02). -/
def parseGraphBusy : Nat := Dict.key 0x30A0 2
/-- TEMPLATES_A (0x30A1:01). -/
def templatesA : Nat := Dict.key 0x30A1 1
/-- TRANSITIONS_A (0x30A1:02). -/
def transitionsA : Nat := Dict.key 0x30A1 2
/-- TEMPLATES_B (0x30A2:01). -/
def templatesB : Nat := Dict.key 0x30A2 1
/-- TRANSITIONS_B (0x30A2:02). -/
def transitionsB : Nat := Dict.key 0x30A2 2
/-- STANDARD_GRAPH_LOAD (0x30A3:01). -/
def standardGraphLoad : Nat := Dict.key 0x30A3 1
/-- EM_SEED1 (0x4000+q:01). -/
def emSeed1 (n : Nat) : Nat := Dict.key (0x4000 + n) 1
/-- EM_SEED2 (0x4000+q:02). -/
def emSeed2 (n : Nat) : Nat := Dict.key (0x4000 + n) 2
/-- EM_UNITS_IN_USE (0x4000+q:03). -/
def emUnitsInUse (n : Nat) : Nat := Dict.key (0x4000 + n) 3
/-- EM_OVERFLOW_IN_USE (0x4000+q:04). -/
def emOverflowInUse (n : Nat) : Nat := Dict.key (0x4000 + n) 4
/-- EM_PARITY_RETRIES (0x4000+q:05). -/
def emParityRetries (n : Nat) : Nat := Dict.key (0x4000 + n) 5
/-- EM_PARITY_MISSES (0x4000+q:06). -/
def emParityMisses (n : Nat) : Nat := Dict.key (0x4000 + n) 6
/-- EM_LOST_PROBES (0x4000+q:07). -/
def emLostProbes (n : Nat) : Nat := Dict.key (0x4000 + n) 7
/-- EM_REPLAYS (0x4000+q:08). -/
def emReplays (n : Nat) : Nat := Dict.key (0x4000 + n) 8
/-- EM_RESTORED (0x4000+q:09). -/
def emRestored (n : Nat) : Nat := Dict.key (0x4000 + n) 9
/-- EM_LOST_UNITS (0x4000+q:0A). -/
def emLostUnits (n : Nat) : Nat := Dict.key (0x4000 + n) 10
/-- EM_COPY_VIEW (0x4000+q:0B). -/
def emCopyView (n : Nat) : Nat := Dict.key (0x4000 + n) 11
/-- EM_PARITY_RETRY (0x4010:01). -/
def emParityRetry : Nat := Dict.key 0x4010 1
/-- EM_RELOCATION_DEPTH (0x4010:02). -/
def emRelocationDepth : Nat := Dict.key 0x4010 2
/-- EM_RELOCATION_BUDGET (0x4010:03). -/
def emRelocationBudget : Nat := Dict.key 0x4010 3
/-- EM_SCRUB_PERIOD_MS (0x4010:04). -/
def emScrubPeriodMs : Nat := Dict.key 0x4010 4
/-- EM_COMMANDS_FAILED (0x4010:05). -/
def emCommandsFailed : Nat := Dict.key 0x4010 5
/-- TABLE_SUMMARY_CLEAR (0x4010:06). -/
def tableSummaryClear : Nat := Dict.key 0x4010 6
/-- PROBE_LENGTH (0x4020+f:j+1). -/
def probeLength (n m : Nat) : Nat := Dict.key (0x4020 + n) (1 + m)
/-- PREFIX_CONTINUATIONS (0x4030:01). -/
def prefixContinuations : Nat := Dict.key 0x4030 1
/-- PREFIX_FALSE_PROBES (0x4030:02). -/
def prefixFalseProbes : Nat := Dict.key 0x4030 2
/-- PORT_PROFILES (0x4040:01). -/
def portProfiles : Nat := Dict.key 0x4040 1
/-- BD_TABLE (0x4040:02). -/
def bdTable : Nat := Dict.key 0x4040 2
/-- VRF_TABLE (0x4040:03). -/
def vrfTable : Nat := Dict.key 0x4040 3
/-- LOOKUP_PROFILES (0x4040:04). -/
def lookupProfiles : Nat := Dict.key 0x4040 4
/-- LEARN_DEDUPE_US (0x4050:01). -/
def learnDedupeUs : Nat := Dict.key 0x4050 1
/-- LEARN_RECORDS (0x4050:02). -/
def learnRecords : Nat := Dict.key 0x4050 2
/-- LEARN_SUPPRESSED (0x4050:03). -/
def learnSuppressed : Nat := Dict.key 0x4050 3
/-- VERSION_CURRENT_SLOT (0x4080:01). -/
def versionCurrentSlot : Nat := Dict.key 0x4080 1
/-- VERSION_CURRENT_NUMBER (0x4080:02). -/
def versionCurrentNumber : Nat := Dict.key 0x4080 2
/-- VERSION_BUILDING_SLOT (0x4080:03). -/
def versionBuildingSlot : Nat := Dict.key 0x4080 3
/-- VERSION_COMMIT_STATE (0x4080:04). -/
def versionCommitState : Nat := Dict.key 0x4080 4
/-- VERSION_PENDING_TAG (0x4080:05). -/
def versionPendingTag : Nat := Dict.key 0x4080 5
/-- VERSION_CANCEL (0x4081:01). -/
def versionCancel : Nat := Dict.key 0x4081 1
/-- VERSION_CANCEL_RESULT (0x4081:02). -/
def versionCancelResult : Nat := Dict.key 0x4081 2
/-- SLOT_STATE (0x4082:s+1). -/
def slotState (n : Nat) : Nat := Dict.key 0x4082 (1 + n)
/-- SLOT_IN_FLIGHT (0x4083:s+1). -/
def slotInFlight (n : Nat) : Nat := Dict.key 0x4083 (1 + n)
/-- SLOT_VERSION (0x4084:s+1). -/
def slotVersion (n : Nat) : Nat := Dict.key 0x4084 (1 + n)
/-- SLOT_CHANGES (0x4085:s+1). -/
def slotChanges (n : Nat) : Nat := Dict.key 0x4085 (1 + n)
/-- SLOT_SINCE (0x4086:s+1). -/
def slotSince (n : Nat) : Nat := Dict.key 0x4086 (1 + n)
/-- STALE_AGE_MS (0x4090:01). -/
def staleAgeMs : Nat := Dict.key 0x4090 1
/-- STALE_DROPS (0x4090:02). -/
def staleDrops : Nat := Dict.key 0x4090 2
/-- SWEPT_DROPS (0x4090:03). -/
def sweptDrops : Nat := Dict.key 0x4090 3
/-- COMMITS (0x4090:04). -/
def commits : Nat := Dict.key 0x4090 4
/-- AUDITS_CORRECTED (0x4090:05). -/
def auditsCorrected : Nat := Dict.key 0x4090 5
/-- BANK_CONFIG (0x5000+q:01). -/
def bankConfig (n : Nat) : Nat := Dict.key (0x5000 + n) 1
/-- SEARCH_PROFILES (0x5000+q:02). -/
def searchProfiles (n : Nat) : Nat := Dict.key (0x5000 + n) 2
/-- BANK_STATUS (0x5010+q:b+1). -/
def bankStatus (n m : Nat) : Nat := Dict.key (0x5010 + n) (1 + m)
/-- SEARCHES (0x5020+q:01). -/
def searches (n : Nat) : Nat := Dict.key (0x5020 + n) 1
/-- NEIGHBOUR_SEARCHES (0x5020+q:02). -/
def neighbourSearches (n : Nat) : Nat := Dict.key (0x5020 + n) 2
/-- SHADOW_MISMATCHES (0x5020+q:03). -/
def shadowMismatches (n : Nat) : Nat := Dict.key (0x5020 + n) 3
/-- READOUT_RETRIES (0x5020+q:04). -/
def readoutRetries (n : Nat) : Nat := Dict.key (0x5020 + n) 4
/-- READOUT_FAILURES (0x5020+q:05). -/
def readoutFailures (n : Nat) : Nat := Dict.key (0x5020 + n) 5
/-- ENTRIES_IN_USE (0x5020+q:06). -/
def entriesInUse (n : Nat) : Nat := Dict.key (0x5020 + n) 6
/-- RULE_STAGING (0x5030:01). -/
def ruleStaging : Nat := Dict.key 0x5030 1
/-- RULE_VIEW (0x5030:02). -/
def ruleView : Nat := Dict.key 0x5030 2
/-- RELIEF_PROFILE_FIRST (0x5040:p+1). -/
def reliefProfileFirst (n : Nat) : Nat := Dict.key 0x5040 (1 + n)
/-- RELIEF_PROFILE_NEXT (0x5041:p+1). -/
def reliefProfileNext (n : Nat) : Nat := Dict.key 0x5041 (1 + n)
/-- RELIEF_DEFAULT_ACTION (0x5042:p+1). -/
def reliefDefaultAction (n : Nat) : Nat := Dict.key 0x5042 (1 + n)
/-- RELIEF_SUMMARY_CLEAR (0x5050:01). -/
def reliefSummaryClear : Nat := Dict.key 0x5050 1
/-- RELIEF_PARITY_RETRY (0x5050:02). -/
def reliefParityRetry : Nat := Dict.key 0x5050 2
/-- CELLS_TOTAL (0x6000:01). -/
def cellsTotal : Nat := Dict.key 0x6000 1
/-- CELLS_FREE (0x6000:02). -/
def cellsFree : Nat := Dict.key 0x6000 2
/-- CELLS_FREE_LOW (0x6000:03). -/
def cellsFreeLow : Nat := Dict.key 0x6000 3
/-- SHARED_FREE (0x6000:04). -/
def sharedFree : Nat := Dict.key 0x6000 4
/-- GUARANTEE_RESERVED (0x6000:05). -/
def guaranteeReserved : Nat := Dict.key 0x6000 5
/-- HEADROOM_CELLS (0x6000:06). -/
def headroomCells : Nat := Dict.key 0x6000 6
/-- POINTER_FAULTS (0x6000:07). -/
def pointerFaults : Nat := Dict.key 0x6000 7
/-- CELLS_LEAKED (0x6000:08). -/
def cellsLeaked : Nat := Dict.key 0x6000 8
/-- LAST_CELL_LOSSES (0x6000:09). -/
def lastCellLosses : Nat := Dict.key 0x6000 9
/-- QUEUE_SUMMARY_CLEAR (0x6000:0A). -/
def queueSummaryClear : Nat := Dict.key 0x6000 10
/-- CLASS_QUOTA_CELLS (0x6001:k+1). -/
def classQuotaCells (n : Nat) : Nat := Dict.key 0x6001 (1 + n)
/-- CLASS_CELLS_IN_USE (0x6002:k+1). -/
def classCellsInUse (n : Nat) : Nat := Dict.key 0x6002 (1 + n)
/-- BANK_FREE (0x6003:b+1). -/
def bankFree (n : Nat) : Nat := Dict.key 0x6003 (1 + n)
/-- BUFFER_DROPS (0x6004:c−0x7F). -/
def bufferDrops (n : Nat) : Nat := Dict.key 0x6004 (1 + n)
/-- BUFFER_PROFILES (0x6010:01). -/
def bufferProfiles : Nat := Dict.key 0x6010 1
/-- CUT_BASE_BYTES (0x6020:p+1). -/
def cutBaseBytes (n : Nat) : Nat := Dict.key 0x6020 (1 + n)
/-- SPILL_BINS_TOTAL (0x6030:01). -/
def spillBinsTotal : Nat := Dict.key 0x6030 1
/-- SPILL_BINS_FREE (0x6030:02). -/
def spillBinsFree : Nat := Dict.key 0x6030 2
/-- SPILLED_VOQS (0x6030:03). -/
def spilledVoqs : Nat := Dict.key 0x6030 3
/-- BIN_FLUSH_US (0x6030:04). -/
def binFlushUs : Nat := Dict.key 0x6030 4
/-- SPILL_STAGING_CELLS (0x6030:05). -/
def spillStagingCells : Nat := Dict.key 0x6030 5
/-- BINS_RETIRED (0x6030:06). -/
def binsRetired : Nat := Dict.key 0x6030 6
/-- DDR5_REREADS (0x6030:07). -/
def ddr5Rereads : Nat := Dict.key 0x6030 7
/-- CHANNEL_RETIRE_LIMIT (0x6030:08). -/
def channelRetireLimit : Nat := Dict.key 0x6030 8
/-- SPILL_BYTES_WRITTEN (0x6030:09). -/
def spillBytesWritten : Nat := Dict.key 0x6030 9
/-- SPILL_BYTES_RETURNED (0x6030:0A). -/
def spillBytesReturned : Nat := Dict.key 0x6030 10
/-- SPILL_RETURN_CELLS (0x6030:0B). -/
def spillReturnCells : Nat := Dict.key 0x6030 11
/-- VOQ_BUFFER_STATE (0x6050:01). -/
def voqBufferState : Nat := Dict.key 0x6050 1
/-- CLASS_SOURCE (0x6100:p+1). -/
def classSource (n : Nat) : Nat := Dict.key 0x6100 (1 + n)
/-- DEFAULT_CLASS (0x6101:p+1). -/
def defaultClass (n : Nat) : Nat := Dict.key 0x6101 (1 + n)
/-- CLASS_MAP_SELECT (0x6102:p+1). -/
def classMapSelect (n : Nat) : Nat := Dict.key 0x6102 (1 + n)
/-- CLASS_MAPS (0x6103:01). -/
def classMaps : Nat := Dict.key 0x6103 1
/-- VOQ_PROFILE (0x6110:01). -/
def voqProfile : Nat := Dict.key 0x6110 1
/-- VOQ_CREDIT (0x6110:02). -/
def voqCredit : Nat := Dict.key 0x6110 2
/-- CREDIT_QUANTUM_BYTES (0x6111:01). -/
def creditQuantumBytes : Nat := Dict.key 0x6111 1
/-- GRANT_RATE_PERCENT (0x6111:02). -/
def grantRatePercent : Nat := Dict.key 0x6111 2
/-- CREDIT_TARGET_BYTES (0x6112:p+1). -/
def creditTargetBytes (n : Nat) : Nat := Dict.key 0x6112 (1 + n)
/-- SHAPE_ADJUST (0x6113:p+1). -/
def shapeAdjust (n : Nat) : Nat := Dict.key 0x6113 (1 + n)
/-- SCHED_TREE (0x6200+g:01). -/
def schedTree (n : Nat) : Nat := Dict.key (0x6200 + n) 1
/-- SCHED_RATES (0x6200+g:02). -/
def schedRates (n : Nat) : Nat := Dict.key (0x6200 + n) 2
/-- SCHED_BUCKETS (0x6200+g:03). -/
def schedBuckets (n : Nat) : Nat := Dict.key (0x6200 + n) 3
/-- NH_QUEUE_SET (0x6220:01). -/
def nhQueueSet : Nat := Dict.key 0x6220 1
/-- SET_MISMATCHES (0x6221:01). -/
def setMismatches : Nat := Dict.key 0x6221 1
/-- POLICERS (0x6300:01). -/
def policers : Nat := Dict.key 0x6300 1
/-- POLICER_STATE (0x6300:02). -/
def policerState : Nat := Dict.key 0x6300 2
/-- TREE_FORCED_DRAINS (0x6301:01). -/
def treeForcedDrains : Nat := Dict.key 0x6301 1
/-- UNASSIGNED_DROPS (0x6301:02). -/
def unassignedDrops : Nat := Dict.key 0x6301 2
/-- POLICER_RED_DROPS (0x6301:03). -/
def policerRedDrops : Nat := Dict.key 0x6301 3
/-- POLICER_YELLOW_DROPS (0x6301:04). -/
def policerYellowDrops : Nat := Dict.key 0x6301 4
/-- POLICER_REPLAYS (0x6301:05). -/
def policerReplays : Nat := Dict.key 0x6301 5
/-- EGRESS_QUEUE_STATE (0x6400:01). -/
def egressQueueState : Nat := Dict.key 0x6400 1
/-- RECIRC_PASSES (0x6800+p:01). -/
def recircPasses (n : Nat) : Nat := Dict.key (0x6800 + n) 1
/-- RECIRC_DROPS (0x6800+p:02). -/
def recircDrops (n : Nat) : Nat := Dict.key (0x6800 + n) 2
/-- RECIRC_DEPTH (0x6800+p:03). -/
def recircDepth (n : Nat) : Nat := Dict.key (0x6800 + n) 3
/-- RECIRC_DEPTH_PEAK (0x6800+p:04). -/
def recircDepthPeak (n : Nat) : Nat := Dict.key (0x6800 + n) 4
/-- NEXT_HOP_TABLE (0x6820:01). -/
def nextHopTable : Nat := Dict.key 0x6820 1
/-- ENCAP_TABLE (0x6820:02). -/
def encapTable : Nat := Dict.key 0x6820 2
/-- SMAC_TABLE (0x6820:03). -/
def smacTable : Nat := Dict.key 0x6820 3
/-- NEXT_HOP_DROPS (0x6821:01). -/
def nextHopDrops : Nat := Dict.key 0x6821 1
/-- EDIT_DROPS (0x6821:02). -/
def editDrops : Nat := Dict.key 0x6821 2
/-- EGRESS_TTL_DROPS (0x6821:03). -/
def egressTtlDrops : Nat := Dict.key 0x6821 3
/-- GROUP_TABLE (0x6830:01). -/
def groupTable : Nat := Dict.key 0x6830 1
/-- REPLICATION_LIST (0x6830:02). -/
def replicationList : Nat := Dict.key 0x6830 2
/-- CAST_COPIES (0x6830:03). -/
def castCopies : Nat := Dict.key 0x6830 3
/-- CAST_PRUNED (0x6830:04). -/
def castPruned : Nat := Dict.key 0x6830 4
/-- CAST_INVALID_ENTRIES (0x6830:05). -/
def castInvalidEntries : Nat := Dict.key 0x6830 5
/-- GROUP_EMPTY_DROPS (0x6830:06). -/
def groupEmptyDrops : Nat := Dict.key 0x6830 6
/-- CAPTURE_INGRESS_MODE (0x6840:p+1). -/
def captureIngressMode (n : Nat) : Nat := Dict.key 0x6840 (1 + n)
/-- CAPTURE_EGRESS_MODE (0x6841:p+1). -/
def captureEgressMode (n : Nat) : Nat := Dict.key 0x6841 (1 + n)
/-- SAMPLE_ONE_IN (0x6842:p+1). -/
def sampleOneIn (n : Nat) : Nat := Dict.key 0x6842 (1 + n)
/-- CAPTURE_RING_MIB (0x6843:01). -/
def captureRingMib : Nat := Dict.key 0x6843 1
/-- SAMPLE_SEED (0x6843:02). -/
def sampleSeed : Nat := Dict.key 0x6843 2
/-- CAPTURE_RECORDS (0x6843:03). -/
def captureRecords : Nat := Dict.key 0x6843 3
/-- UNITS_WORKING (0x7000+p:01). -/
def unitsWorking (n : Nat) : Nat := Dict.key (0x7000 + n) 1
/-- LINE_CONTEXTS (0x7000+p:02). -/
def lineContexts (n : Nat) : Nat := Dict.key (0x7000 + n) 2
/-- JOBS_ALLOWED (0x7000+p:03). -/
def jobsAllowed (n : Nat) : Nat := Dict.key (0x7000 + n) 3
/-- JOB_SUSPENSIONS (0x7000+p:04). -/
def jobSuspensions (n : Nat) : Nat := Dict.key (0x7000 + n) 4
/-- LINE_HEADROOM_PERCENT (0x7011:g+1). -/
def lineHeadroomPercent (n : Nat) : Nat := Dict.key 0x7011 (1 + n)
/-- SECY_CONFIG (0x7020:p+1). -/
def secyConfig (n : Nat) : Nat := Dict.key 0x7020 (1 + n)
/-- TX_ENCODING_AN (0x7021:p+1). -/
def txEncodingAn (n : Nat) : Nat := Dict.key 0x7021 (1 + n)
/-- RX_SC_TABLE (0x7022:01). -/
def rxScTable : Nat := Dict.key 0x7022 1
/-- SA_TABLE (0x7023:01). -/
def saTable : Nat := Dict.key 0x7023 1
/-- SECY_COUNTERS (0x7024:01). -/
def secyCounters : Nat := Dict.key 0x7024 1
/-- KEY_LOAD (0x7030:01). -/
def keyLoad : Nat := Dict.key 0x7030 1
/-- KEY_LOAD_STATUS (0x7030:02). -/
def keyLoadStatus : Nat := Dict.key 0x7030 2
/-- KEY_ERASE (0x7030:03). -/
def keyErase : Nat := Dict.key 0x7030 3
/-- KEY_SLOT_STATE (0x7030:04). -/
def keySlotState : Nat := Dict.key 0x7030 4
/-- KEY_CLEAR_LOAD (0x7030:05). -/
def keyClearLoad : Nat := Dict.key 0x7030 5
/-- KEY_LOADS (0x7030:06). -/
def keyLoads : Nat := Dict.key 0x7030 6
/-- JOB_BUFFER (0x7040:01). -/
def jobBuffer : Nat := Dict.key 0x7040 1
/-- JOB_ABORT (0x7040:02). -/
def jobAbort : Nat := Dict.key 0x7040 2
/-- JOB_ABORT_RESULT (0x7040:03). -/
def jobAbortResult : Nat := Dict.key 0x7040 3
/-- JOBS_IN_PROGRESS (0x7040:04). -/
def jobsInProgress : Nat := Dict.key 0x7040 4
/-- CIPHER_SUMMARY_CLEAR (0x7050:01). -/
def cipherSummaryClear : Nat := Dict.key 0x7050 1
/-- SEQ_STATE (0x8000+s:01). -/
def seqState (n : Nat) : Nat := Dict.key (0x8000 + n) 1
/-- SEQ_IMAGE_LEVEL (0x8000+s:02). -/
def seqImageLevel (n : Nat) : Nat := Dict.key (0x8000 + n) 2
/-- SEQ_QUEUE_DEPTH (0x8000+s:03). -/
def seqQueueDepth (n : Nat) : Nat := Dict.key (0x8000 + n) 3
/-- SEQ_ROUTINES (0x8000+s:04). -/
def seqRoutines (n : Nat) : Nat := Dict.key (0x8000 + n) 4
/-- SEQ_COVER (0x8000+s:05). -/
def seqCover (n : Nat) : Nat := Dict.key (0x8000 + n) 5
/-- RELOAD_IMAGE (0x8010:01). -/
def reloadImage : Nat := Dict.key 0x8010 1
/-- RELOAD_START (0x8010:02). -/
def reloadStart : Nat := Dict.key 0x8010 2
/-- RELOAD_STATUS (0x8010:03). -/
def reloadStatus : Nat := Dict.key 0x8010 3
/-- RELOAD_SEQUENCER (0x8010:04). -/
def reloadSequencer : Nat := Dict.key 0x8010 4
/-- ROUTINE_RESTARTS (0x8011:01). -/
def routineRestarts : Nat := Dict.key 0x8011 1
/-- CONTROL_WORDS_REPAIRED (0x8011:02). -/
def controlWordsRepaired : Nat := Dict.key 0x8011 2
/-- SLOW_BUSY_ANSWERS (0x8011:03). -/
def slowBusyAnswers : Nat := Dict.key 0x8011 3
/-- IMAGE_HOLD_LEVEL (0x8011:04). -/
def imageHoldLevel : Nat := Dict.key 0x8011 4
/-- ATELIER_SUMMARY_CLEAR (0x8011:05). -/
def atelierSummaryClear : Nat := Dict.key 0x8011 5
/-- FIRST_ERROR (0x9000:01). -/
def firstError : Nat := Dict.key 0x9000 1
/-- FIRST_ERROR_UNIT (0x9000:02). -/
def firstErrorUnit : Nat := Dict.key 0x9000 2
/-- FIRST_ERROR_CLASS (0x9000:03). -/
def firstErrorClass : Nat := Dict.key 0x9000 3
/-- FIRST_ERROR_CLEAR (0x9000:04). -/
def firstErrorClear : Nat := Dict.key 0x9000 4
/-- FAULT_ACK (0x9001:01). -/
def faultAck : Nat := Dict.key 0x9001 1
/-- CORRECTED_AUTO_ACK_MS (0x9001:02). -/
def correctedAutoAckMs : Nat := Dict.key 0x9001 2
/-- FAULT_SUMMARY_CLEAR (0x9001:03). -/
def faultSummaryClear : Nat := Dict.key 0x9001 3
/-- PATINA_CORRECTED (0x9001:04). -/
def patinaCorrected : Nat := Dict.key 0x9001 4
/-- FAULTS_CORRECTED (0x9002:01). -/
def faultsCorrected : Nat := Dict.key 0x9002 1
/-- FAULTS_CONTAINED (0x9002:02). -/
def faultsContained : Nat := Dict.key 0x9002 2
/-- FAULTS_FATAL (0x9002:03). -/
def faultsFatal : Nat := Dict.key 0x9002 3
/-- ESCALATIONS (0x9002:04). -/
def escalations : Nat := Dict.key 0x9002 4
/-- CONSEQUENTIAL_FAULTS (0x9002:05). -/
def consequentialFaults : Nat := Dict.key 0x9002 5
/-- FAULT_DROPS (0x9002:c+6). -/
def faultDrops (n : Nat) : Nat := Dict.key 0x9002 (6 + n)
/-- UNIT_FAULT_STATE (0x9003:01). -/
def unitFaultState : Nat := Dict.key 0x9003 1
/-- FENCE_REQUEST (0x9010:01). -/
def fenceRequest : Nat := Dict.key 0x9010 1
/-- FENCE_RESULT (0x9010:02). -/
def fenceResult : Nat := Dict.key 0x9010 2
/-- GROUP_PIPE (0x9020:g+1). -/
def groupPipe (n : Nat) : Nat := Dict.key 0x9020 (1 + n)
/-- GROUP_RETURN (0x9021:g+1). -/
def groupReturn (n : Nat) : Nat := Dict.key 0x9021 (1 + n)
/-- TAKEOVERS (0x9022:01). -/
def takeovers : Nat := Dict.key 0x9022 1
/-- LAST_TAKEOVER_NS (0x9022:02). -/
def lastTakeoverNs : Nat := Dict.key 0x9022 2
/-- INJECT (0x9030:01). -/
def inject : Nat := Dict.key 0x9030 1
/-- INJECT_PENDING (0x9030:02). -/
def injectPending : Nat := Dict.key 0x9030 2
/-- TIMING_MARGIN_PS (0x9040:q+1). -/
def timingMarginPs (n : Nat) : Nat := Dict.key 0x9040 (1 + n)
/-- MARGIN_ALARM_PS (0x9041:01). -/
def marginAlarmPs : Nat := Dict.key 0x9041 1
/-- SLICE_PERIOD_MS (0x9100:01). -/
def slicePeriodMs : Nat := Dict.key 0x9100 1
/-- SWEEP_POSITION (0x9100:02). -/
def sweepPosition : Nat := Dict.key 0x9100 2
/-- SWEEPS_COMPLETED (0x9100:03). -/
def sweepsCompleted : Nat := Dict.key 0x9100 3
/-- SLICES_RUNNING (0x9100:04). -/
def slicesRunning : Nat := Dict.key 0x9100 4
/-- SLICE_REQUEST (0x9100:05). -/
def sliceRequest : Nat := Dict.key 0x9100 5
/-- SLICE_REQUEST_RESULT (0x9100:06). -/
def sliceRequestResult : Nat := Dict.key 0x9100 6
/-- LAST_FAILURE (0x9100:07). -/
def lastFailure : Nat := Dict.key 0x9100 7
/-- SLICES_PASSED (0x9110:k). -/
def slicesPassed (n : Nat) : Nat := Dict.key 0x9110 n
/-- SLICES_SKIPPED (0x9111:k). -/
def slicesSkipped (n : Nat) : Nat := Dict.key 0x9111 n
/-- SLICES_FAILED (0x9112:k). -/
def slicesFailed (n : Nat) : Nat := Dict.key 0x9112 n
/-- REGION_NEXT (0x9120:c+1). -/
def regionNext (n : Nat) : Nat := Dict.key 0x9120 (1 + n)
/-- FLOW_COUNTERS (0xA000:01). -/
def flowCounters : Nat := Dict.key 0xA000 1
/-- FLOW_READ_CLEAR (0xA000:02). -/
def flowReadClear : Nat := Dict.key 0xA000 2
/-- FLOW_FLUSH_US (0xA000:03). -/
def flowFlushUs : Nat := Dict.key 0xA000 3
/-- FLOW_INCREMENTS_LOST (0xA000:04). -/
def flowIncrementsLost : Nat := Dict.key 0xA000 4
/-- FLOW_PAIRS_UNAVAILABLE (0xA000:05). -/
def flowPairsUnavailable : Nat := Dict.key 0xA000 5
/-- FLOW_VALUES_LOST (0xA000:06). -/
def flowValuesLost : Nat := Dict.key 0xA000 6
/-- FLOW_LAST_LOST (0xA000:07). -/
def flowLastLost : Nat := Dict.key 0xA000 7
/-- COUNTER_SUMMARY_CLEAR (0xA000:08). -/
def counterSummaryClear : Nat := Dict.key 0xA000 8
/-- NH_COUNTER_MAP (0xA010:01). -/
def nhCounterMap : Nat := Dict.key 0xA010 1
/-- CALIPER_EVENTS (0xA100:01). -/
def caliperEvents : Nat := Dict.key 0xA100 1
/-- CALIPER_FREEZE (0xA100:02). -/
def caliperFreeze : Nat := Dict.key 0xA100 2
/-- CALIPER_CLEAR_ALL (0xA100:03). -/
def caliperClearAll : Nat := Dict.key 0xA100 3
/-- CALIPER_FROZEN_AT (0xA100:04). -/
def caliperFrozenAt : Nat := Dict.key 0xA100 4
/-- RING_RECORDS (0xB000+0x10·r:01). -/
def ringRecords (r : Nat) : Nat := Dict.key (0xB000 + 16 * r) 1
/-- RING_RECORD_BYTES (0xB000+0x10·r:02). -/
def ringRecordBytes (r : Nat) : Nat := Dict.key (0xB000 + 16 * r) 2
/-- RING_CAPACITY (0xB000+0x10·r:03). -/
def ringCapacity (r : Nat) : Nat := Dict.key (0xB000 + 16 * r) 3
/-- RING_HEAD (0xB000+0x10·r:04). -/
def ringHead (r : Nat) : Nat := Dict.key (0xB000 + 16 * r) 4
/-- RING_TAIL (0xB000+0x10·r:05). -/
def ringTail (r : Nat) : Nat := Dict.key (0xB000 + 16 * r) 5
/-- RING_WATERMARK (0xB000+0x10·r:06). -/
def ringWatermark (r : Nat) : Nat := Dict.key (0xB000 + 16 * r) 6
/-- RING_STATUS (0xB000+0x10·r:07). -/
def ringStatus (r : Nat) : Nat := Dict.key (0xB000 + 16 * r) 7
/-- RING_STATUS_CLEAR (0xB000+0x10·r:08). -/
def ringStatusClear (r : Nat) : Nat := Dict.key (0xB000 + 16 * r) 8
/-- RING_DROPPED (0xB000+0x10·r:09). -/
def ringDropped (r : Nat) : Nat := Dict.key (0xB000 + 16 * r) 9
/-- DEVICE_ID (0xC000:01). -/
def deviceId : Nat := Dict.key 0xC000 1
/-- FABRIC_TOPOLOGY (0xC000:02). -/
def fabricTopology : Nat := Dict.key 0xC000 2
/-- FABRIC_LANE_RATE (0xC000:03). -/
def fabricLaneRate : Nat := Dict.key 0xC000 3
/-- FABRIC_LANE_ENABLE (0xC000:04). -/
def fabricLaneEnable : Nat := Dict.key 0xC000 4
/-- CELL_FILL_NS (0xC000:05). -/
def cellFillNs : Nat := Dict.key 0xC000 5
/-- REORDER_TIMEOUT_NS (0xC000:06). -/
def reorderTimeoutNs : Nat := Dict.key 0xC000 6
/-- REQUEST_REFRESH_US (0xC000:07). -/
def requestRefreshUs : Nat := Dict.key 0xC000 7
/-- UNREACHABLE_HOLD_US (0xC000:08). -/
def unreachableHoldUs : Nat := Dict.key 0xC000 8
/-- MIN_WORKING_LANES (0xC000:09). -/
def minWorkingLanes : Nat := Dict.key 0xC000 9
/-- WORKING_LANES (0xC000:0A). -/
def workingLanes : Nat := Dict.key 0xC000 10
/-- SYSTEM_PORT_MAP (0xC001:01). -/
def systemPortMap : Nat := Dict.key 0xC001 1
/-- LANE_STATUS (0xC002:01). -/
def laneStatus : Nat := Dict.key 0xC002 1
/-- CELLS_SENT (0xC003:01). -/
def cellsSent : Nat := Dict.key 0xC003 1
/-- CELLS_RECEIVED (0xC003:02). -/
def cellsReceived : Nat := Dict.key 0xC003 2
/-- CELLS_LOST (0xC003:03). -/
def cellsLost : Nat := Dict.key 0xC003 3
/-- CELLS_LATE (0xC003:04). -/
def cellsLate : Nat := Dict.key 0xC003 4
/-- CELLS_MISROUTED (0xC003:05). -/
def cellsMisrouted : Nat := Dict.key 0xC003 5
/-- FABRIC_DROPS (0xC004:c−0xBF). -/
def fabricDrops (n : Nat) : Nat := Dict.key 0xC004 (1 + n)
/-- FABRIC_SUMMARY_CLEAR (0xC005:01). -/
def fabricSummaryClear : Nat := Dict.key 0xC005 1

end Obj

end Sys2Proof.Machine
end

