-- ==== Sys2Proof/Machine/Defaults.lean ====
section
/-! DEFINITION. What the bytes of DOMAIN regions hold at reset: 0 wherever the Reset column of the region's field map gives no
other value (R71), and the standard parse graph in copy A (R154). -/

namespace Sys2Proof.Machine.Defaults

/-- The template of a header in the format of the field map Template (R140). -/
def template (cls count terminal unknown fixedLen lenBit lenWidth lenScale lenAdd nextBit nextWidth regionBit regionWidth
    regionFromEnd base entries : Nat) : Nat :=
  field 127 1 + field 123 cls + field 122 count + field 121 terminal + field 119 unknown + field 110 fixedLen +
    field 99 lenBit + field 95 lenWidth + field 92 lenScale + field 84 lenAdd + field 73 nextBit + field 68 nextWidth +
    field 57 regionBit + field 52 regionWidth + field 51 regionFromEnd + field 42 base + field 38 entries

/-- The templates of the table Standard graph (R154). -/
def standardTemplates : List Nat := [
  template 1 1 0 0 14 0 0 0 0 96 16 0 0 0 0 8,
  template 2 1 0 0 4 0 0 0 0 16 16 0 0 0 8 8,
  template 3 1 0 0 4 0 0 0 0 23 1 0 0 0 16 2,
  template 0 0 0 0 0 0 0 0 0 0 4 0 0 0 18 3,
  template 0 1 0 0 4 0 0 0 0 0 0 0 0 0 21 1,
  template 4 1 0 0 20 4 4 2 0 72 8 16 16 0 22 6,
  template 5 1 0 1 40 0 0 0 0 48 8 32 16 1 28 10,
  template 6 1 0 1 8 8 8 3 8 0 8 0 0 0 38 9,
  template 7 1 0 1 8 8 8 3 8 0 8 0 0 0 47 9,
  template 8 1 0 1 8 0 0 0 0 0 8 0 0 0 56 9,
  template 0 0 0 1 0 0 0 0 0 0 4 0 0 0 65 1,
  template 0 1 0 0 4 2 1 2 4 16 16 0 0 0 66 4,
  template 9 1 0 0 8 0 0 0 0 16 16 32 16 0 70 2,
  template 10 1 1 0 20 96 4 2 0 0 0 0 0 0 72 0,
  template 0 1 0 0 8 0 0 0 0 0 0 0 0 0 72 1,
  template 12 1 1 0 34 0 0 0 0 0 0 0 0 0 73 0,
  template 11 1 1 0 8 0 0 0 0 0 0 0 0 0 73 0]

/-- A transition entry in the format of the field map Transition entry (R141). -/
def transition (value mask next tunnel : Nat) : Nat :=
  field 63 1 + field 62 tunnel + field 56 next + field 16 value + mask

/-- A transition on one exact value. -/
def onValue (value next : Nat) : Nat := transition value 0xFFFF next 0

/-- A transition on one exact value, one tunnel level deeper. -/
def onTunnel (value next : Nat) : Nat := transition value 0xFFFF next 1

/-- The transitions of an Ethernet or VLAN header. -/
def etherTypes : List Nat :=
  [onValue 0x8100 1, onValue 0x88A8 1, onValue 0x9100 1, onValue 0x8847 2, onValue 0x8848 2, onValue 0x0800 5,
   onValue 0x86DD 6, onValue 0x88F7 15]

/-- The transitions of an IPv6 header without the hop-by-hop one. -/
def ipv6Next : List Nat :=
  [onValue 43 8, onValue 60 8, onValue 44 9, onValue 6 13, onValue 17 12, onValue 58 16, onTunnel 4 5, onTunnel 41 6,
   onValue 47 10]

/-- Transition entries 0-72 of the table Standard graph (R154). -/
def standardTransitions : List Nat :=
  etherTypes ++ etherTypes ++ [onValue 0 2, onValue 1 3] ++ [onTunnel 4 5, onTunnel 6 6, onValue 0 4] ++
    [transition 0 0 0 1] ++ [onValue 1 16, onTunnel 4 5, onValue 6 13, onValue 17 12, onTunnel 41 6, onValue 47 10] ++
    (onValue 0 7 :: ipv6Next) ++ ipv6Next ++ ipv6Next ++ ipv6Next ++ [transition 0 0xD 11 0] ++
    [onTunnel 0x0800 5, onTunnel 0x86DD 6, onTunnel 0x6558 0, onTunnel 0x8847 2] ++ [onValue 4789 14, onValue 319 15] ++
    [transition 0 0 0 1]

/-- Byte `off` of a region of records of `n` bytes stored most significant byte first. -/
def recordByte (n : Nat) (value : Nat → Nat) (off : Nat) : Nat :=
  value (off / n) / 256 ^ (n - 1 - off % n) % 256

/-- A tree entry's reset value: the default tree (R311). -/
def treeEntry (n : Nat) : Nat :=
  if n < 8 then field 23 (64 * n)
  else if n < 136 then field 23 ((n - 8) / 16) + field 19 4
  else if n < 648 then field 23 ((n - 136) / 4) + field 19 4
  else field 19 4

/-- Byte `off` of the region of an object at reset. -/
def domainByte (index sub off : Nat) : Nat :=
  if index = 0x30A1 then
    if sub = 1 then recordByte 16 (fun i => standardTemplates.getD i 0) off
    else recordByte 8 (fun i => standardTransitions.getD i 0) off
  else if index = 0x4040 ∧ sub = 2 then recordByte 8 (fun _ => field 34 0xFFFF) off
  else if 0x5000 ≤ index ∧ index < 0x5004 ∧ sub = 1 then recordByte 32 (fun _ => field 254 2) off
  else if index = 0x6010 then recordByte 16 (fun _ => field 88 0xBFFFF + field 84 7) off
  else if 0x6200 ≤ index ∧ index < 0x6210 ∧ sub = 1 then recordByte 4 treeEntry off
  else if 0x6200 ≤ index ∧ index < 0x6210 ∧ sub = 2 then recordByte 24 (fun _ => field 184 1 + field 178 3) off
  else if index = 0x6220 then 0xFF
  else if index = 0x6820 ∧ sub = 1 then recordByte 16 (fun _ => field 126 2 + field 6 0xFFFF) off
  else if index = 0x7023 then recordByte 32 (fun _ => field 128 1) off
  else 0

/-- The address in `State.dom` of byte `off` of the region of the object with a key. -/
def domAddr (key off : Nat) : Nat := key * 2 ^ 32 + off

/-- What an unlisted byte of `State.dom` reads as. -/
def dom (addr : Nat) : Byte :=
  let key := addr / 2 ^ 32
  BitVec.ofNat 8 (domainByte (key / 256) (key % 256) (addr % 2 ^ 32))

end Sys2Proof.Machine.Defaults
end

