-- ==== Sys2Proof/Machine/Sparse.lean ====
section
/-! DEFINITION. Sparse maps from numbers to values in one canonical form: keys strictly ascending, no value equal to what an
unlisted key reads as. Equal maps are equal data. -/

namespace Sys2Proof.Machine.Sparse

/-- The value listed under a key. -/
def find? {α : Type} : List (Nat × α) → Nat → Option α
  | [], _ => none
  | (k, v) :: m, i => if i = k then some v else find? m i

/-- The value at a key: the one listed, else what an unlisted key reads as. -/
def get {α : Type} (d : Nat → α) (m : List (Nat × α)) (i : Nat) : α := (find? m i).getD (d i)

/-- The map without a key. -/
def erase {α : Type} : List (Nat × α) → Nat → List (Nat × α)
  | [], _ => []
  | (k, v) :: m, i => if k < i then (k, v) :: erase m i else if k = i then m else (k, v) :: m

/-- The map with a key listed. -/
def insert {α : Type} : List (Nat × α) → Nat → α → List (Nat × α)
  | [], i, x => [(i, x)]
  | (k, v) :: m, i, x =>
    if k < i then (k, v) :: insert m i x else if k = i then (i, x) :: m else (i, x) :: (k, v) :: m

/-- The map with the value at a key set; setting the value an unlisted key reads as removes the entry. -/
def set {α : Type} [DecidableEq α] (d : Nat → α) (m : List (Nat × α)) (i : Nat) (x : α) : List (Nat × α) :=
  if x = d i then erase m i else insert m i x

/-- The canonical form: keys ascending above `low`, and no entry that reads as if unlisted. -/
def wfFrom {α : Type} [DecidableEq α] (d : Nat → α) : Nat → List (Nat × α) → Bool
  | _, [] => true
  | low, (k, v) :: m => decide (low ≤ k) && decide (v ≠ d k) && wfFrom d (k + 1) m

/-- The canonical form. -/
def wf {α : Type} [DecidableEq α] (d : Nat → α) (m : List (Nat × α)) : Bool := wfFrom d 0 m

/-- `n` values at consecutive keys. -/
def getN {α : Type} (d : Nat → α) (m : List (Nat × α)) : Nat → Nat → List α
  | _, 0 => []
  | i, n + 1 => get d m i :: getN d m (i + 1) n

/-- The map with values set at consecutive keys. -/
def setN {α : Type} [DecidableEq α] (d : Nat → α) : List (Nat × α) → Nat → List α → List (Nat × α)
  | m, _, [] => m
  | m, i, x :: xs => setN d (set d m i x) (i + 1) xs

/-- The map without the keys that satisfy a condition. -/
def dropKeys {α : Type} (p : Nat → Bool) (m : List (Nat × α)) : List (Nat × α) := m.filter fun e => !p e.1

end Sys2Proof.Machine.Sparse
end

