-- ==== Sys2Proof/Machine/State.lean ====
section
/-! DEFINITION. The state of the block, as plain data, and the state right after power reaches VDD_AON.

Two sparse maps hold what the object dictionary gives: `obj` the objects by index and sub-index, `dom` the bytes of the
DOMAIN regions. Each lists only what differs from the object's reset value, in ascending order. The other fields hold
the state the spec gives the blocks beside the dictionary. -/

namespace Sys2Proof.Machine

/-- Why a step stops the run. -/
inductive Fault where
  /-- Raised where a command is a misuse of the table Undefined cases (R477), named by its identifier. The spec bounds no
  outcome. Safe: nothing is claimed of what follows. -/
  | unbounded (identifier : String)
  deriving DecidableEq, Repr

/-- Why a step has no meaning. -/
inductive Refusal where
  /-- The command's row has no meaning yet. Safe. -/
  | notModelled (mnemonic : String)
  deriving DecidableEq, Repr

/-- What the block last sent or returned (R28, R46, R52, R39, R467). -/
inductive Answer where
  | none
  /-- a SOP message sent on a path from an own address (the lane's MAC address, or the IP address and SOP_UDP_PORT) to a peer, with
  its tags (R38, R56) -/
  | sop (path : Path) (source peer : List Byte) (tags : List (BitVec 16)) (message : List Byte)
  /-- a received SOP message was discarded without a response (R46) -/
  | discarded
  /-- the request waits in the slow queue (R37, R432) -/
  | queued
  /-- the bytes of a PCIe read completion, at ascending addresses (R51, R52) -/
  | completion (bytes : List Byte)
  /-- the abort code of an access that carries no message of its own (table SOP abort codes) -/
  | code (abort : Nat)
  /-- an ARP reply or neighbour advertisement on a management lane, for an address (R39) -/
  | resolved (lane : Nat) (address : List Byte)
  /-- bytes returned over SMBus, and the packet error code that one more clocked byte returns (R466, R467) -/
  | smbus (bytes : List Byte) (pec : Nat)
  /-- an SMBus byte not acknowledged (R467) -/
  | nack
  deriving DecidableEq, Repr

/-- The kinds of reset sequence (R70, R480, R79). -/
inductive SeqKind where
  | cold | railReturn | lifeChange | warm
  deriving DecidableEq, Repr

/-- Where a reset sequence stands (tables Cold boot; R79, R481). -/
inductive BootStep where
  /-- no sequence runs -/
  | idle
  /-- waiting for the rails of groups 2 and 3 -/
  | rails
  /-- held while COLD_N is low -/
  | coldHeld
  /-- held while WARM_N is low -/
  | warmHeld
  /-- the sequence has ended with WARM_N low, and READY waits for it to rise (R72) -/
  | readyHeld
  /-- waiting for SYS_REFCLK and the PLLs -/
  | clocks
  /-- the PLLs have been started -/
  | plls
  /-- the board configuration block is being read -/
  | config
  /-- image slot 1 (A), 2 (B) or the upload (3) is being read -/
  | imageRead (image : Nat)
  /-- its signature is being checked -/
  | imageCheck (image : Nat)
  | training | ddr5Reset | ddr5Reinit | ddr5Wipe | kiln
  deriving DecidableEq, Repr

/-- The Plinth's reset control and life-cycle fuses (03). -/
structure Boot where
  /-- VDD_AON is in range -/
  powered : Bool
  step : BootStep
  kind : SeqKind
  /-- the SRAM wipe of the present sequence still runs -/
  sramWiping : Bool
  /-- the DDR5 wipe ended before the SRAM wipe did -/
  ddr5Wiped : Bool
  /-- a running loss of PLL lock holds the fast domains (R68) -/
  pllHold : Bool
  /-- the clock count at which the present sequence's reset was released -/
  released : Nat
  /-- the image last read, and the configuration block accepted -/
  image : List Byte
  config : List Byte
  /-- the DDR5 channels whose training values are held -/
  trained : Nat
  /-- the channels the fixed DDR5 regions are striped over, as they were in use at READY (R285) -/
  striped : Nat
  /-- the life-cycle state in the fuses, and the target of a blow in progress -/
  fuses : Nat
  blowing : Option Nat
  deriving DecidableEq, Repr

/-- The state of the test access port (R469). -/
inductive Tap where
  | testLogicReset | extestPulse | extestTrain
  deriving DecidableEq, Repr

/-- Input pins and their latches: reset pins, SMBus straps (R455, R466), TAP (R469). -/
structure Pins where
  coldN : Bool
  warmN : Bool
  /-- WARM_N fell where a warm cause is ignored, and is still low (R72) -/
  warmIgnored : Bool
  perstN : Bool
  trstN : Bool
  straps : BitVec 2
  /-- SD_REFCLKs in use that have stopped (R87) -/
  sdLost : BitVec 8
  tap : Tap
  deriving DecidableEq, Repr

/-- A SOP session (R47–R49). -/
structure Session where
  isOpen : Bool
  path : Path
  peer : List Byte
  nextSeq : Nat
  epoch : Nat
  auth : Bool
  idleMs : Nat
  /-- the stored response, as sent -/
  stored : Option (List Byte)
  deriving DecidableEq, Repr

/-- A key in the key store (R358): its length and bytes. -/
structure Key where
  is256 : Bool
  bytes : List Byte
  deriving DecidableEq, Repr

/-- A SOP request that waits: in the slow queue of sequencer 5 (R432), or for its turn behind one of its path that stands there (R32);
with the GMAC key, for an authenticated one, and the epoch latched as its processing began (R43). -/
structure SlowRequest where
  /-- the Atelier serves it -/
  atelier : Bool
  opcode : Nat
  message : SopMessage
  key : Option Key
  epoch : Nat
  deriving DecidableEq, Repr

/-- The SOP engine and the mailbox (02). -/
structure Sop where
  sessions : List Session
  /-- the stored response of session 0 and the peer it was given to (R49) -/
  stored0 : Option (List Byte)
  peer0 : Path × List Byte
  slow : List SlowRequest
  mboxBusy : Bool
  mboxDone : Bool
  mboxDiscarded : Bool
  mboxLength : Nat
  deriving DecidableEq, Repr

/-- A passage of a function: from DRAINING or STARTING to the state it leads to (R94). -/
inductive FnGoal where
  | hold | run
  deriving DecidableEq, Repr

/-- One class's pause on a port (R121–R123). -/
structure Pause where
  paused : Bool
  quanta : Nat
  ignoring : Bool
  deriving DecidableEq, Repr

/-- What a protected frame has latched as it started (R354, R358): the SecY configuration, the SA record as it then stood with
its PN, and the key. -/
structure Seal where
  config : Nat
  record : Nat
  an : Nat
  pn : Nat
  key : Key
  deriving DecidableEq, Repr

/-- A frame in transmission on a port (R22, R117, R124). -/
structure Tx where
  copy : Nat
  /-- it started before its tail arrived -/
  cut : Bool
  /-- it is protected (R354) -/
  protect : Option Seal
  /-- its egress timestamp, and whether TIME was in force as it started (R89, R129) -/
  stamp : Nat
  timed : Bool
  deriving DecidableEq, Repr

/-- The port-scoped modes that a frame takes from its port as it starts there (R89). -/
structure PortModes where
  cut : Bool
  learn : Bool
  time : Bool
  deriving DecidableEq, Repr

/-- None of them in force. -/
def PortModes.off : PortModes := { cut := false, learn := false, time := false }

/-- The MAC and link state of a port that no object shows (05). -/
structure PortSt where
  /-- the resolved row of the table Port speeds and FEC code, before and while UP -/
  row : Nat
  fec : Nat
  anResult : Nat
  /-- the parallel-detect rate being tried: 0 10.3125, 1 1.25, 2 25.78125 Gb/s -/
  tryRate : Nat
  /-- pages were exchanged with no common row since arbitration last started (R110) -/
  exchanged : Bool
  holdRunning : Bool
  flushed : Bool
  remoteFault : Bool
  /-- the frame in reception: the bytes so far, and its number once in the ingress FIFO -/
  rxBytes : List Byte
  rxFrame : Option Nat
  rxActive : Bool
  /-- the code that its head has met at the MAC, if any, and the cipher's, which yields to what the MAC still finds (R23, R97, R115) -/
  rxCode : Option Nat
  rxLater : Option Nat
  /-- the modes and the ingress timestamp that it has taken (R89, R129) -/
  rxModes : PortModes
  rxTime : Nat
  /-- what a protected frame in reception has latched; `an` is its SA record's number here (R353, R358) -/
  rxSeal : Option Seal
  tx : Option Tx
  pauses : List Pause
  deriving DecidableEq, Repr

/-- What no object shows of a pipe (01, 03, 10, 12). -/
structure PipeSt where
  /-- the depth that a wake in progress ends at: 0 awake, 1 GATED -/
  waking : Option Nat
  /-- position in the window of 16 ingress slots (R13) -/
  window : Nat
  /-- slots of the present clock used, ingress and egress (R426) -/
  slotsIn : Nat
  slotsOut : Nat
  /-- sampling registers (R265) -/
  sampleIn : BitVec 32
  sampleOut : BitVec 32
  /-- port after which the ready-port rotation starts (R303) -/
  lastPort : Nat
  /-- the group whose front frames were granted last, while two groups are served (R386) -/
  lastGroup : Nat
  deriving DecidableEq, Repr

/-- Where a frame came from. -/
inductive Source where
  | front | host | atelier | fabric (device : Nat)
  deriving DecidableEq, Repr

/-- A forwarding result (R176, R208): a next hop, a drop, a flood, or a miss that ends the frame. -/
inductive Forward where
  | nextHop (n : Nat) | drop | flood (group : Nat) | miss (code : Nat)
  deriving DecidableEq, Repr

/-- The instance whose key gave a forwarding result (R242): its class, offset and template. -/
structure KeyedAt where
  cls : Nat
  offset : Nat
  template : Nat
  deriving DecidableEq, Repr

/-- A prefix lookup whose candidates are not all probed (R179): the candidate mask, the continue-index, the allowance of its
profile, and what its hit would give. -/
structure PrefixWork where
  keyType : Nat
  address : Nat
  mask : Nat
  index : Nat
  allowance : Nat
  forward : Bool
  place : KeyedAt
  entropy : Nat
  deriving DecidableEq, Repr

/-- What the probes of a pass give (R174-R179). -/
structure LookupGain where
  /-- the result of the first FORWARD descriptor that hits, and where its key was taken from -/
  forward : Option (Forward × Option KeyedAt)
  /-- the outcome that the first FORWARD descriptor issued gives where none hits in any pass -/
  missed : Option (Forward × Option KeyedAt)
  /-- META of probe descriptors 0–7 and of the forwarding result -/
  metas : List Nat
  forwardMeta : Nat
  entropy : Nat
  /-- candidates that remain for another pass, and none left to run it -/
  more : Option PrefixWork
  limit : Bool
  /-- a LEARN descriptor issued -/
  learned : Bool
  deriving DecidableEq, Repr

/-- What a replayed pass has done already (R172): its probes below a descriptor, with whether a prefix descriptor is among them; all its
probes; or all but metering. -/
inductive Kept where
  | probe (gain : LookupGain) (descriptor : Nat) (prefixed : Bool)
  | search (gain : LookupGain)
  | police
  deriving DecidableEq, Repr

/-- Why a frame goes round again, with what it resumes (R147, R179). -/
inductive Resume where
  | parse (template offset level : Nat) (region : Option Nat)
  | lookup (work : PrefixWork)
  deriving DecidableEq, Repr

/-- Where a stored frame stands. -/
inductive FrameLoc where
  | fifo (pipe : Nat) | inject (pipe : Nat) | recirc (pipe : Nat) | replay (pipe : Nat)
  /-- its pass's search set is in flight on the stopped array of a quadrant (R214); its probes are in `Frame.kept` -/
  | searching (pipe array : Nat)
  /-- its copies stand in queues, ports or the fabric -/
  | copies
  /-- a replication walk holds it, with the group entry read at its start and the list entries read since (R260) -/
  | walking (entry read : Nat)
  /-- its passes are over, and its end waits for its tail (R23); `Frame.late` is its code -/
  | ending
  deriving DecidableEq, Repr

/-- Port settings latched at a frame's first pass (R156, 08 Objects). -/
structure Latched where
  firstTemplate : Nat
  failureAction : Nat
  slowMask : Nat
  parseContinue : Bool
  checksum : Bool
  reliefFirst : Nat
  reliefNext : Nat
  deriving DecidableEq, Repr

/-- What a frame carries to egress (R242), beside its next hop. -/
structure Context where
  fwdClass : Nat
  fwdOffset : Nat
  labelStart : Nat
  labelDepth : Nat
  level1 : Option Nat
  level2 : Option Nat
  level3 : Option Nat
  entropy : Nat
  deriving DecidableEq, Repr

/-- A colour (R298). -/
inductive Colour where
  | green | yellow | red
  deriving DecidableEq, Repr

/-- A frame inside the engine. -/
structure Frame where
  id : Nat
  source : Source
  port : Nat
  loc : FrameLoc
  /-- destination address to FCS, as the parser sees it; while reception goes on, the bytes so far -/
  bytes : List Byte
  /-- the tail has arrived -/
  complete : Bool
  /-- the code of a condition found late (R24) -/
  late : Option Nat
  ingressTime : Nat
  /-- the modes it took from its port as its reception started -/
  modes : PortModes
  stamp : Option Nat
  stampClock : Nat
  pass : Nat
  resume : Option Resume
  graphB : Bool
  latched : Latched
  cls : Nat
  colour : Colour
  bd : Nat
  vrf : Nat
  vlan : Option Nat
  parseFlags : Nat
  /-- codes found that end the frame when its last pass ends (R176, R208) -/
  codes : List Nat
  forward : Option Forward
  fwdRedirect : Bool
  /-- the forwarding result is a miss outcome, which a later pass's replaces (R176) -/
  fwdMiss : Bool
  fwdTemplate : Nat
  /-- a pass has issued a LEARN descriptor (R188) -/
  learned : Bool
  kept : Option Kept
  policer : Option Nat
  context : Context
  retained : List Byte
  /-- the furthest region end beyond the windows, to be checked at the tail; the frame with its tail, while it waits for that
  check (R146) -/
  lateRegion : Option Nat
  tail : Option (List Byte)
  /-- its exception record with the pipe of the pass, held until the tail tells FRAME_LENGTH (R151) -/
  record : Option (Nat × List Byte)
  cells : List Nat
  cellClass : Nat
  refs : Nat
  /-- recorded headers of every pass, as class, offset and length (R246) -/
  headers : List (Nat × Nat × Nat)
  /-- a walk has made a copy of it (R262) -/
  copied : Bool
  /-- SOURCE_CUT and SOURCE_SPEED of a frame from the fabric (R329) -/
  crossed : Option (Bool × Nat)
  deriving DecidableEq, Repr

/-- Where a copy of a frame waits or goes. -/
inductive CopyLoc where
  /-- on-die part of a VOQ; waiting in spill staging; in a DDR5 bin -/
  | voq (n : Nat) | staged (n : Nat) | bin (n bin : Nat)
  | repl (c : Nat)
  | egress (n : Nat)
  /-- chosen by the scheduler, waiting for or in the transmit MAC of a port -/
  | selected (port : Nat) | transmit (port : Nat)
  /-- appended to the stream for a device -/
  | fabric (device : Nat)
  deriving DecidableEq, Repr

/-- What Chisel has read for a copy: the next-hop entry, and of its encapsulation the control word, labels and image, with the source
address (R243, R245). -/
structure Rewrite where
  entry : Nat
  control : Nat
  stack : List Byte
  image : List Byte
  smac : List Byte
  deriving DecidableEq, Repr

/-- A copy of a frame: the frame itself where it is unicast, a Cast copy otherwise (R260). Copies of one queue stand in
arrival order in `State.copies`. -/
structure Copy where
  id : Nat
  frame : Nat
  loc : CopyLoc
  cls : Nat
  nextHop : Option Nat
  group : Option Nat
  /-- the VOQ it passed through, if any -/
  voq : Option Nat
  /-- egress port, once known -/
  port : Nat
  /-- it was returned from DDR5 (R284) -/
  returned : Bool
  /-- a Cast copy holds a reference (R262) -/
  cast : Bool
  /-- once Chisel has released it, the edited frame so far, its FCS apart, and what Chisel read for it (R219) -/
  edited : List Byte
  rewrite : Option Rewrite
  deriving DecidableEq, Repr

/-- A single or double unit of the exact-match store (R161), whose first half stands at unit number `n` of a copy
(EM_COPY_VIEW's numbering), with its whole key. -/
structure EmUnit where
  copy : Nat
  n : Nat
  visible : Nat
  keyType : Nat
  key : Nat
  result : Nat
  deriving DecidableEq, Repr

/-- An entry of the dedupe cache (R189). -/
structure Dedupe where
  set : Nat
  way : Nat
  bd : Nat
  mac : Nat
  port : Nat
  time : Nat
  deriving DecidableEq, Repr

/-- A learn event that waits for its frame to check good (R188). -/
structure Learn where
  frame : Nat
  /-- the pipe of the pass that raised it -/
  pipe : Nat
  miss : Bool
  port : Nat
  entryPort : Nat
  bd : Nat
  mac : Nat
  vlan : Option Nat
  slot : Nat
  time : Nat
  /-- the clock in which the frame checked good -/
  ready : Option Nat
  deriving DecidableEq, Repr

/-- The fields of a command record of ring 8 (field map Command record). -/
structure TableCommand where
  tag : Nat
  op : Nat
  versioned : Bool
  keyType : Nat
  key : Nat
  result : Nat
  deriving DecidableEq, Repr

/-- An INSERT, MODIFY or DELETE whose copies are being written (R167, R170). -/
structure EmWriting where
  command : TableCommand
  /-- the slot it acts on -/
  slot : Nat
  /-- the copies not yet written, ascending -/
  copies : List Nat
  /-- the copies that take a new unit, with the place planned for it -/
  places : List (Nat × Nat)
  moves : Nat
  /-- the change log gained this command's entry -/
  logged : Bool
  deriving DecidableEq, Repr

/-- The exact-match store (07). -/
structure Em where
  /-- the units as the golden image gives them (R183) -/
  units : List EmUnit
  /-- places whose part of the golden image a failed DDR5 burst has lost, numbered as in `corrupt` (R183) -/
  imageLost : List Nat
  /-- places whose on-die copy is corrupt, as 2^22 × copy + the unit number of the bucket or overflow unit, or 2,113,536
  plus the filter word -/
  corrupt : List Nat
  /-- hit bits that are 1, as 2^22 × copy + n (R187) -/
  hits : List Nat
  /-- filter counts that are not 0, by 2^25 × copy + bit (R178) -/
  bloom : List (Nat × Nat)
  dedupe : List Dedupe
  learns : List Learn
  /-- the table command that is writing its copies -/
  writing : Option EmWriting
  deriving DecidableEq, Repr

/-- A rule at a bank and position, or the part of a cascade rule that one bank of its group holds (R201, R206). -/
structure Rule where
  /-- where it stands -/
  bank : Nat
  position : Nat
  visible : Nat
  key : Nat
  care : Nat
  result : Nat
  /-- the bank and position the host wrote it to, the lead bank for a cascade rule, and its bank's place in the group -/
  homeBank : Nat
  homeIndex : Nat
  member : Nat
  deriving DecidableEq, Repr

/-- The service of a bank that is not at home, and the form a SPARE bank has taken as a guest (table Bank status). -/
structure BankSt where
  state : Nat
  guests : List Nat
  taken : Option Nat
  deriving DecidableEq, Repr

/-- The Relief arrays (08). -/
structure Relief where
  /-- the rule table in DDR5 -/
  table : List Rule
  /-- each quadrant's shadow and array, guests included -/
  shadows : List (Nat × Rule)
  arrays : List (Nat × Rule)
  /-- banks, as 32 × quadrant + bank, that are not simply at home -/
  banks : List (Nat × BankSt)
  /-- banks whose shadow comparison is suspended -/
  suspended : List Nat
  /-- a pipe of pair 0–1 or 2–3 has left OFF since READY (R213) -/
  armed : List Bool
  deriving DecidableEq, Repr

/-- A slot's state (table Slot states). -/
inductive SlotState where
  | free | building | current | draining | retiring | priming
  deriving DecidableEq, Repr

/-- A logged position (R229). -/
inductive LogKey where
  | unit (keyType key : Nat) | rule (bank position : Nat)
  deriving DecidableEq, Repr

/-- A version slot (09). -/
structure SlotSt where
  state : SlotState
  number : Nat
  inFlight : Nat
  log : List LogKey
  since : Nat
  /-- the core clock at which the slot entered its present state, which bounds DRAINING (R237) -/
  entered : Nat
  deriving DecidableEq, Repr

/-- The Maquette's commit (VERSION_COMMIT_STATE). -/
inductive Commit where
  | none | pending (tag : Nat) | priming (tag : Nat)
  deriving DecidableEq, Repr

/-- The Maquette (09). -/
structure Versions where
  slots : List SlotSt
  commit : Commit
  /-- an ABORT taken from ring 8 whose log is being applied, by its TAG (R230) -/
  aborting : Option Nat
  deriving DecidableEq, Repr

/-- A cell in use (R271, R276): the frames it holds (two when paired) and the class it is charged to. -/
structure CellUse where
  cell : Nat
  first : Option Nat
  second : Option Nat
  paired : Bool
  cls : Nat
  deriving DecidableEq, Repr

/-- A DDR5 spill bin in use (R286): its number as 2^24 × channel + place, and the copies with bytes in it, oldest first. -/
structure Bin where
  bin : Nat
  voq : Nat
  filled : Nat
  isOpen : Bool
  copies : List Nat
  deriving DecidableEq, Repr

/-- The Armature (11). -/
structure Armature where
  cells : List CellUse
  /-- rotating pointer of each bitmap bank (R274) -/
  pointers : List Nat
  /-- cells whose pointers came back and whose banks have not yet applied the free, in the order of return (R272) -/
  frees : List Nat
  /-- grants of the present clock and of those after it: bank, clock (R272) -/
  grants : List (Nat × Nat)
  /-- the clock after each requester port's last request: port, clock (R273) -/
  asked : List (Nat × Nat)
  /-- F as it stood at the end of the previous clock (R280) -/
  shared : Nat
  /-- halves open for pairing: writer port, cell, clock opened (R276) -/
  halves : List (Nat × Nat × Nat)
  bins : List Bin
  /-- bins retired since reset, as bin numbers, and the channel of the last bin taken -/
  retired : List Nat
  lastChannel : Nat
  /-- the channels' write queues: a bin, and the clock by which it is written (R286, R291) -/
  writes : List (Nat × Nat)
  /-- channels whose last burst was a read (R424) -/
  reading : List Nat
  /-- VOQs in the spill state -/
  spilled : List Nat
  deriving DecidableEq, Repr

/-- A node of an egress tree or an egress queue (R306–R310). Buckets are in 2^-16 byte. -/
structure Node where
  c : Int
  p : Int
  carryC : Nat
  carryP : Nat
  /-- rates in force, latched at a refill (R310) -/
  cir : Nat
  cbs : Nat
  pir : Nat
  pbs : Nat
  deficit : Int
  ptr : Nat
  virtual : Nat
  finish : Nat
  deriving DecidableEq, Repr

/-- A policer's buckets in 2^-16 byte with the remainders carried, and the clock of its last use (R313). -/
structure Policer where
  tc : Int
  te : Int
  carryC : Nat
  carryE : Nat
  last : Nat
  deriving DecidableEq, Repr

/-- Queues, schedulers and policers (12). -/
structure Queues where
  /-- VOQ credit balances that differ from one quantum of 4,096 bytes -/
  credit : List (Nat × Int)
  /-- amounts of the VOQs' last grants that differ from it (R300) -/
  granted : List (Nat × Nat)
  /-- VOQs that may pass, in the order in which they became able to (R300) -/
  able : List Nat
  nodes : List (Nat × Node)
  policers : List (Nat × Policer)
  /-- list blocks that a write of a group entry stopped naming: first entry, number of entries, clock (UB-RW-2) -/
  unnamed : List (Nat × Nat × Nat)
  /-- request flags of remote sources, as 2^15 × port + 2^12 × class + device (R339) -/
  requests : List Nat
  /-- per port, the class last granted; per 8 × port + class, the source last granted (R301) -/
  lastClass : List (Nat × Nat)
  lastSource : List (Nat × Nat)
  /-- per port, the clock from which GRANT_RATE_PERCENT lets it grant again (R301) -/
  grantFrom : List (Nat × Nat)
  deriving DecidableEq, Repr

/-- A fabric lane's state (table Fabric lane states). -/
inductive LaneState where
  | disabled | training | hello | up | fenced
  deriving DecidableEq, Repr

/-- A formed data cell (R330, R332): it waits for a lane, or stands in a lane's transmit queue. -/
structure WaitingCell where
  device : Nat
  cell : List Byte
  copies : List Nat
  /-- the copies whose last byte it carries -/
  ends : List Nat
  deriving DecidableEq, Repr

/-- A fabric lane (13). -/
structure FLane where
  state : LaneState
  peerDevice : Nat
  peerLane : Nat
  peerRole : Bool
  credit : Nat
  /-- LINK_CREDIT owed to the peer (R326, R327) -/
  owed : Nat
  retrains : Nat
  /-- devices reached: bit d (R328) -/
  reach : Nat
  /-- INITIAL_CREDIT of the peer's HELLO (R327) -/
  initial : Nat
  /-- consecutive control cells of 31 identical HELLO words received in HELLO, up to the 4 that accept a boundary (R322) -/
  hellos : Nat
  /-- held in HELLO by R322 -/
  mismatch : Bool
  /-- the cell that the lane sent last, empty before the first (R325) -/
  sent : List Byte
  /-- cells in the transmit queue, oldest first -/
  queue : List WaitingCell
  deriving DecidableEq, Repr

/-- The open cell of a stream at its source (R330). -/
structure OpenCell where
  payload : List Byte
  firstRecord : Nat
  /-- copies with bytes in the cell; the copy of open length the stream carries alone (R331) -/
  copies : List Nat
  openFrame : Option Nat
  /-- FRAME_END and LATE_BAD of the frame of open length that ends in the cell -/
  frameEnd : Bool
  lateBad : Bool
  /-- the clock at which its first byte was placed -/
  opened : Nat
  deriving DecidableEq, Repr

/-- A stream at its destination (R337): the bytes of the frame in progress, header included, and the frame itself where it
has been enqueued before its tail (R338). -/
structure RxStream where
  buffer : List Byte
  resync : Bool
  frame : Option Nat
  deriving DecidableEq, Repr

/-- The fabric interface (13). Streams are numbered 32 × device + stream. -/
structure Fabric where
  lanes : List FLane
  streams : List (Nat × OpenCell)
  waiting : List WaitingCell
  /-- devices whose waiting cells were discarded, not reached again since (R332) -/
  cutOff : List Nat
  sequence : List (Nat × Nat)
  lanePointer : List (Nat × Nat)
  expected : List (Nat × Nat)
  reorder : List (Nat × Nat × List Byte)
  rx : List (Nat × RxStream)
  /-- end-to-end and lane words waiting to be sent, oldest first -/
  words : List (BitVec 64)
  deriving DecidableEq, Repr

/-- A crypto job in progress (14). -/
structure Job where
  id : Nat
  record : List Byte
  key : Key
  pipe : Nat
  /-- contexts it holds while it is not suspended -/
  contexts : Nat
  suspended : Bool
  suspensions : Nat
  /-- the clock of its last suspension (R364) -/
  since : Nat
  /-- it must end with this status at its next block boundary (R361, R366, R349) -/
  doom : Option Nat
  deriving DecidableEq, Repr

/-- The cipher, the key store and the jobs (14). Link slots are 0–4,095, job slots 4,096–4,159. -/
structure Cipher where
  keys : List (Nat × Key)
  load : Option (List Byte)
  clearLocked : Bool
  jobs : List Job
  /-- completions of ended jobs that wait for room on ring 4, and tags whose ring 9 record completes ABORTED -/
  ended : List (List Byte)
  aborted : List Nat
  deriving DecidableEq, Repr

/-- The fault state of a unit (15). -/
structure UnitSt where
  fenced : Bool
  pendingC : Bool
  pendingU : Bool
  cause : Nat
  faults : Nat
  /-- the clock at which its reaction shadow ends once it is not isolated (R375) -/
  shadowUntil : Nat
  deriving DecidableEq, Repr

/-- A takeover in progress or waiting (R383, R384). -/
structure Takeover where
  group : Nat
  pipe : Nat
  started : Nat
  neighbour : Bool
  deriving DecidableEq, Repr

/-- Faults, fences, takeovers and the Patina's counters (15). -/
structure Faults where
  units : List (Nat × UnitSt)
  takeovers : List Takeover
  returns : List Nat
  release : Option (Nat × Bool)
  /-- an armed injection: unit, checker, mask, no reaction (R389) -/
  inject : Option (Nat × Nat × Nat × Bool)
  sequence : Nat
  /-- quadrants whose margin is below the alarm since it was last above (R391) -/
  below : List Bool
  /-- clock until which faults of fast domains are consequential after READY (R375) -/
  readyShadow : Nat
  deriving DecidableEq, Repr

/-- A running slice (16). -/
structure SliceRun where
  slice : Nat
  part : Nat
  requested : Bool
  deriving DecidableEq, Repr

/-- The Kiln (16). -/
structure Kiln where
  running : List SliceRun
  queued : Option Nat
  /-- the SIGNATURE slice has failed once, and runs again after the reload (R405) -/
  retry : Bool
  deriving DecidableEq, Repr

/-- A line of the accumulate cache (R419). -/
structure FlowLine where
  packets : Nat
  octets : Nat
  deriving DecidableEq, Repr

/-- An increment that waits in the queue of its pair's bank, and the clock it came in (R419). -/
structure FlowWait where
  pair : Nat
  packets : Nat
  octets : Nat
  came : Nat
  deriving DecidableEq, Repr

/-- A saved state of a sequencer (R433, R437). -/
structure TrapFrame where
  pc : BitVec 14
  /-- the word at `pc` is a WAIT word that has run its operations -/
  waiting : Bool
  z : Bool
  c : Bool
  n : Bool
  v : Bool
  regs : List (BitVec 64)
  level : Nat
  deriving DecidableEq, Repr

/-- A trap: its level and cause (R437). -/
structure Trap where
  level : Nat
  cause : Nat
  deriving DecidableEq, Repr

/-- Why a sequencer is out of service, if it is (R431). -/
inductive Service where
  | inService | releasing | loading | underTest
  deriving DecidableEq, Repr

/-- A microcode sequencer (18). -/
structure Seq where
  pc : BitVec 14
  z : Bool
  c : Bool
  n : Bool
  v : Bool
  regs : List (BitVec 64)
  level : Nat
  running : Option Nat
  /-- the checkpoint record of the running routine (R433) -/
  checkpoint : Option TrapFrame
  frames : List (Option TrapFrame)
  traps : List Trap
  /-- requests of its own kind waiting, oldest first: the checkpoint record of one that has begun (R433) -/
  queue : List (Option TrapFrame)
  /-- whose queue it serves next: its own where none, else that of the sequencer it covers (R431) -/
  turn : Option Nat
  busError : Bool
  /-- a WAIT word has run its operations and repeats -/
  waiting : Bool
  /-- the word that ended last bars a trap (NO_TRAP) -/
  noTrap : Bool
  store : List (BitVec 144)
  service : Service
  loadRetried : Bool
  deriving DecidableEq, Repr

/-- The Atelier (18). -/
structure Atelier where
  seqs : List Seq
  hold : List Byte
  staging : List Byte
  reloading : Bool
  fromHold : Bool
  loaded : List Nat
  flashRead : Bool
  deriving DecidableEq, Repr

/-- Timing pins (19). -/
structure Timing where
  ppsOut : Bool
  /-- the last second k pulsed, and the time of its edge -/
  lastPulse : Option Int
  lastEdge : Int
  /-- the second k whose instant the timebase stood at or past when PPS_OUT was last judged -/
  base : Int
  /-- a time-of-day message is due for the last edge (R472) -/
  todDue : Bool
  /-- clock of the last accepted PPS_IN edge -/
  lastIn : Option Nat
  /-- the time-of-day message last started on TOD_TXD -/
  sent : List Byte
  deriving DecidableEq, Repr

/-- The whole machine. -/
structure State where
  /-- commands that wait, first in, first out -/
  pending : List Instr
  /-- core clocks of 0.625 ns since VDD_AON entered its range: the free-running count (R234) -/
  clock : Nat
  /-- the device timebase less the free-running count, in ns (R8, R471) -/
  timebase : Int
  /-- MODEL'S OWN: how many free values the run has taken -/
  freeIx : Nat
  /-- dictionary objects that differ from their default, by 256 × index + sub-index -/
  obj : List (Nat × Nat)
  /-- DOMAIN bytes that differ from reset, by 2^32 × (256 × index + sub-index) + offset -/
  dom : List Host.Cell
  answer : Answer
  boot : Boot
  pins : Pins
  sop : Sop
  goals : List (Nat × FnGoal)
  /-- values still in force of settings written since their function left RUN, by key (R94, R99) -/
  frozen : List (Nat × Nat)
  /-- the same for bytes of RWH DOMAIN regions, by the addresses of `dom` -/
  frozenDom : List Host.Cell
  ports : List PortSt
  pipes : List PipeSt
  frames : List Frame
  copies : List Copy
  nextId : Nat
  /-- the clock at which the capture writer last took a record (R267) -/
  captured : Option Nat
  em : Em
  relief : Relief
  versions : Versions
  arm : Armature
  queues : Queues
  fabric : Fabric
  cipher : Cipher
  faults : Faults
  kiln : Kiln
  flow : List (Nat × FlowLine)
  /-- pairs whose banks have accepted an increment of them in this clock (R419) -/
  flowServed : List Nat
  flowWaiting : List FlowWait
  atelier : Atelier
  timing : Timing
  deriving DecidableEq, Repr

/-- A port with no link and no frame. -/
def PortSt.reset : PortSt :=
  { row := 0, fec := 0, anResult := 0, tryRate := 0, exchanged := false, holdRunning := false, flushed := false, remoteFault := false,
    rxBytes := [], rxFrame := none, rxActive := false, rxCode := none, rxLater := none, rxModes := .off, rxTime := 0,
    rxSeal := none, tx := none,
    pauses := List.replicate 8 { paused := false, quanta := 0, ignoring := false } }

/-- The register a half-pipe is loaded with from a seed: half 0 ingress, 1 egress (R265). -/
def sampleStart (seed pipe half : Nat) : BitVec 32 :=
  let v := BitVec.ofNat 32 seed ^^^ BitVec.ofNat 32 ((2 * pipe + half + 1) * 0x9E3779B9)
  if v = 0 then 1 else v

/-- A pipe at rest, its sampling registers loaded from a seed (R265). -/
def PipeSt.reset (seed pipe : Nat) : PipeSt :=
  { waking := none, window := 0, slotsIn := 0, slotsOut := 0, sampleIn := sampleStart seed pipe 0,
    sampleOut := sampleStart seed pipe 1, lastPort := 7, lastGroup := 0 }

/-- A version slot with no version (R221). -/
def SlotSt.free : SlotSt := { state := .free, number := 0, inFlight := 0, log := [], since := 0, entered := 0 }

/-- A sequencer with no image loaded. -/
def Seq.reset : Seq :=
  { pc := 0, z := false, c := false, n := false, v := false, regs := List.replicate 16 0, level := 0, running := none,
    checkpoint := none, frames := [none, none], traps := [], queue := [], turn := none, busError := false, waiting := false, noTrap := false,
    store := [], service := .inService, loadRetried := false }

/-- A fabric lane out of use (R321). -/
def FLane.reset : FLane :=
  { state := .disabled, peerDevice := 0, peerLane := 0, peerRole := false, credit := 0, owed := 0, retrains := 0, reach := 0,
    initial := 0, hellos := 0, mismatch := false, sent := [], queue := [] }

/-- The exact-match store with no unit (R71). -/
def Em.reset : Em :=
  { units := [], imageLost := [], corrupt := [], hits := [], bloom := [], dedupe := [], learns := [], writing := none }

/-- The Relief arrays with no rule (R71). -/
def Relief.reset : Relief := { table := [], shadows := [], arrays := [], banks := [], suspended := [], armed := [false, false] }

/-- The Maquette after reset: slot 0 CURRENT with version 1, the others FREE (R221). -/
def Versions.reset : Versions :=
  { slots := [{ SlotSt.free with state := .current, number := 1 }, .free, .free], commit := .none, aborting := none }

/-- The Armature with every cell free (R274). -/
def Armature.reset : Armature :=
  { cells := [], pointers := List.replicate 32 0, halves := [], frees := [], grants := [], asked := [], shared := 770048,
    bins := [], retired := [], lastChannel := 15, writes := [], reading := [], spilled := [] }

/-- Queues, schedulers and policers after reset: every credit balance is one quantum (R300). -/
def Queues.reset : Queues :=
  { credit := [], granted := [], able := [], nodes := [], policers := [], unnamed := [], requests := [], lastClass := [], lastSource := [], grantFrom := [] }

/-- The fabric interface with every lane out of use. -/
def Fabric.reset : Fabric :=
  { lanes := List.replicate 160 .reset, streams := [], waiting := [], cutOff := [], sequence := [], lanePointer := [], expected := [],
    reorder := [], rx := [], words := [] }

/-- An empty key store with no job (R358). -/
def Cipher.reset : Cipher := { keys := [], load := none, clearLocked := false, jobs := [], ended := [], aborted := [] }

/-- No unit fenced, no fault pending. -/
def Faults.reset : Faults :=
  { units := [], takeovers := [], returns := [], release := none, inject := none, sequence := 0,
    below := List.replicate 4 false, readyShadow := 0 }

/-- No slice running. -/
def Kiln.reset : Kiln := { running := [], queued := none, retry := false }

/-- Eight sequencers with empty stores and no image held. -/
def Atelier.reset : Atelier :=
  { seqs := List.replicate 8 .reset, hold := [], staging := [], reloading := false, fromHold := false, loaded := [],
    flashRead := false }

/-- The SOP engine with every session free. -/
def Sop.reset : Sop :=
  { sessions := List.replicate 8 { isOpen := false, path := .mg0Eth, peer := [], nextSeq := 0, epoch := 0, auth := false,
                                   idleMs := 0, stored := none },
    stored0 := none, peer0 := (.mailbox, []), slow := [], mboxBusy := false, mboxDone := false, mboxDiscarded := false,
    mboxLength := 0 }

/-- The timing pins at rest. -/
def Timing.reset : Timing := { ppsOut := false, lastPulse := none, lastEdge := 0, base := 0, todDue := false, lastIn := none, sent := [] }

/-- SAMPLE_SEED's default (R265). -/
def defaultSeed : Nat := 0x1D872B41

/-- The machine right after VDD_AON has entered its range with no other supply in range (R65, R70): every object at its
default (R71), BOOT_STATE WAIT_RAILS, COLD_N low, and no command waiting. -/
def State.reset : State :=
  { pending := [], clock := 0, timebase := 0, freeIx := 0, obj := [], dom := [], answer := .none,
    boot := { powered := true, step := .rails, kind := .cold, sramWiping := false, ddr5Wiped := false, pllHold := false, released := 0,
              image := [], config := [], trained := 0, striped := 0, fuses := 2, blowing := none },
    pins := { coldN := false, warmN := true, warmIgnored := false, perstN := true, trstN := true, straps := 0, sdLost := 0, tap := .testLogicReset },
    sop := .reset, goals := [], frozen := [], frozenDom := [], ports := List.replicate 128 .reset,
    pipes := (List.range 17).map (PipeSt.reset defaultSeed), frames := [], copies := [], nextId := 0, captured := none, em := .reset,
    relief := .reset, versions := .reset, arm := .reset, queues := .reset, fabric := .reset, cipher := .reset,
    faults := .reset, kiln := .reset, flow := [], flowServed := [], flowWaiting := [], atelier := .reset, timing := .reset }

end Sys2Proof.Machine
end

