-- ==== Sys2Proof/Machine/Ops.lean ====
section
/-! DEFINITION. The named operations over the dictionary's objects and regions, counters, flags, rings, the timebase, the
Caliper and the Patina. -/

namespace Sys2Proof.Machine

/-! ### Objects and regions -/

/-- The value of a stored object. -/
def State.obj? (s : State) (k : Nat) : Nat := Sparse.get Dict.reset s.obj k

/-- A stored object set. -/
def State.put (s : State) (k v : Nat) : State := { s with obj := Sparse.set Dict.reset s.obj k v }

/-- Bytes of a DOMAIN region. -/
def State.bytes (s : State) (k off n : Nat) : List Byte := Sparse.getN Defaults.dom s.dom (Defaults.domAddr k off) n

/-- Bytes of a DOMAIN region set. -/
def State.putBytes (s : State) (k off : Nat) (b : List Byte) : State :=
  { s with dom := Sparse.setN Defaults.dom s.dom (Defaults.domAddr k off) b }

/-- Record `i` of a region of records of `n` bytes stored most significant byte first. -/
def State.record (s : State) (k n i : Nat) : Nat := beNat (s.bytes k (n * i) n)

/-- Record `i` of such a region set. -/
def State.putRecord (s : State) (k n i v : Nat) : State := s.putBytes k (n * i) (toBe n v)

/-- The value in force of a setting that its function may hold frozen (R94, R99). -/
def State.inForce (s : State) (k : Nat) : Nat := (Sparse.find? s.frozen k).getD (s.obj? k)

/-- Bytes in force of an RWH DOMAIN region (R94). -/
def State.bytesInForce (s : State) (k off n : Nat) : List Byte :=
  (List.range n).map fun i =>
    let a := Defaults.domAddr k (off + i)
    (Sparse.find? s.frozenDom a).getD (Sparse.get Defaults.dom s.dom a)

/-- The canonical form of both maps of the dictionary. -/
def State.dictWf (s : State) : Bool := Sparse.wf Dict.reset s.obj && Sparse.wf Defaults.dom s.dom

/-! ### Counters and flags -/

/-- The value after an increment of a counter that saturates at all ones of `w` bits (R415). -/
def satAdd (w v n : Nat) : Nat := min (v + n) (2 ^ w - 1)

/-- A saturating U32 counter incremented (R415). -/
def State.bump32 (s : State) (k : Nat) : State := s.put k (satAdd 32 (s.obj? k) 1)

/-- A wrapping counter of 32 bits incremented (R414). -/
def State.wrap32 (s : State) (k : Nat) : State := s.put k ((s.obj? k + 1) % 2 ^ 32)

/-- A wrapping counter of 64 bits increased (R414). -/
def State.add64 (s : State) (k n : Nat) : State := s.put k ((s.obj? k + n) % 2 ^ 64)

/-- A wrapping counter of 64 bits incremented. -/
def State.bump64 (s : State) (k : Nat) : State := s.add64 k 1

/-- An event flag set in the object that holds it (R58). -/
def State.flag (s : State) (k n : Nat) : State := s.put k (setBit (s.obj? k) n)

/-- Event flags cleared where the written value has a 1 (R58). -/
def State.clearFlags (s : State) (k value : Nat) : State := s.put k (clearBits (s.obj? k) value)

/-! ### Time and free values -/

/-- TIME64: nanoseconds of the device timebase (R8), interpolated from the core clock of 0.625 ns. -/
def State.time (s : State) : Nat := (((s.clock * 5 / 8 : Nat) + s.timebase) % (2 ^ 64 : Nat)).toNat

/-- A free value of `w` bits, and the state that has taken it. -/
def State.free (s : State) (w : Nat) : Nat × State :=
  ((Config.freeValue s.freeIx).toNat % 2 ^ w, { s with freeIx := s.freeIx + 1 })

/-! ### The Caliper (R424, R425) -/

/-- A record of the Caliper for a count (R424). -/
def caliperRecord (count : Nat) : Nat := field 63 (b2n (count == 2 ^ 48 - 1)) + count

/-- Events added to a Caliper counter, unless the Caliper is frozen. -/
def State.countN (s : State) (event n : Nat) : State :=
  if s.obj? Obj.caliperFreeze = 1 ∨ n = 0 then s else
    let c := bits (s.record Obj.caliperEvents 8 event) 47 0
    let c' := satAdd 48 c n
    let s := s.putRecord Obj.caliperEvents 8 event (caliperRecord c')
    if c' = 2 ^ 48 - 1 ∧ c ≠ c' then s.flag Obj.counterSummary 0 else s

/-- One event added to a Caliper counter. -/
def State.count (s : State) (event : Nat) : State := s.countN event 1

/-! ### Rings (R60-R62) -/

/-- The ring's direction: true where the device fills it (table Rings). -/
def ringToHost (r : Nat) : Bool := r < 8

/-- Records a ring holds. Ring 2's capacity follows CAPTURE_RING_MIB (R268). -/
def State.ringCapacity (s : State) (r : Nat) : Nat :=
  if r = 2 then s.obj? Obj.captureRingMib * 1048576 / 192 else s.obj? (Obj.ringCapacity r)

/-- A ring pointer advanced by one place (R61). -/
def ringNext (capacity p : Nat) : Nat :=
  let pos := bits p 30 0
  if pos + 1 = capacity then field 31 (1 - bits p 31 31) else p + 1

/-- Records in a ring (R61). -/
def ringOccupancy (capacity head tail : Nat) : Nat :=
  if bits head 31 31 = bits tail 31 31 then bits head 30 0 - bits tail 30 0
  else capacity + bits head 30 0 - bits tail 30 0

/-- The ring holds no record. -/
def State.ringEmpty (s : State) (r : Nat) : Bool := s.obj? (Obj.ringHead r) == s.obj? (Obj.ringTail r)

/-- The ring has no free slot. -/
def State.ringFull (s : State) (r : Nat) : Bool :=
  let h := s.obj? (Obj.ringHead r)
  let t := s.obj? (Obj.ringTail r)
  bits h 30 0 == bits t 30 0 && bits h 31 31 != bits t 31 31

/-- A record written at HEAD of a device-to-host ring, or dropped where the ring is full (R62). -/
def State.ringPush (s : State) (r : Nat) (rec : List Byte) : State :=
  if s.ringFull r then (s.bump32 (Obj.ringDropped r)).flag (Obj.ringStatus r) 2
  else
    let h := s.obj? (Obj.ringHead r)
    let n := s.obj? (Obj.ringRecordBytes r)
    (s.putBytes (Obj.ringRecords r) (n * bits h 30 0) (padTo n rec)).put (Obj.ringHead r) (ringNext (s.ringCapacity r) h)

/-- The record at TAIL of a host-to-device ring. -/
def State.ringFront (s : State) (r : Nat) : List Byte :=
  let n := s.obj? (Obj.ringRecordBytes r)
  s.bytes (Obj.ringRecords r) (n * bits (s.obj? (Obj.ringTail r)) 30 0) n

/-- The record at TAIL taken (R62). -/
def State.ringTake (s : State) (r : Nat) : State :=
  s.put (Obj.ringTail r) (ringNext (s.ringCapacity r) (s.obj? (Obj.ringTail r)))

/-! ### The Patina (R390) -/

/-- An entry of the trouble log: the fields of the Patina record but TIME and SEQUENCE. -/
structure Trouble where
  kind : Nat
  cls : Nat := 3
  escalated : Bool := false
  consequential : Bool := false
  injected : Bool := false
  first : Bool := false
  unit : Nat := 0
  master : Nat := 0
  access : Nat := 0
  checker : Nat := 0
  address : Nat := 0
  reaction : Nat := 0
  detail : Nat := 0
  deriving DecidableEq, Repr

/-- The Patina record of an entry (field map Patina record). -/
def Trouble.record (t : Trouble) (time sequence : Nat) : Nat :=
  field 192 (time % 2 ^ 64) + field 188 (t.kind % 16) + field 186 (t.cls % 4) + field 185 (b2n t.escalated) +
    field 184 (b2n t.consequential) + field 183 (b2n t.injected) + field 182 (b2n t.first) + field 170 (t.unit % 4096) +
    field 158 (t.master % 4096) + field 154 (t.access % 16) + field 150 (t.checker % 16) +
    field 102 (t.address % 2 ^ 48) + field 94 (t.reaction % 256) + field 78 (t.detail % 65536) +
    field 62 (sequence % 65536)

/-- An entry written to the Patina. Records that the ring drops have used their number (DESIGN CHOICE). -/
def State.log (s : State) (t : Trouble) : State :=
  let s' := s.ringPush 5 (toBe 32 (t.record s.time s.faults.sequence))
  { s' with faults := { s'.faults with sequence := (s'.faults.sequence + 1) % 65536 } }

/-! ### Functions (R92, R93) -/

/-- A function's number (table Functions). -/
def fnNumber : Fn → Nat
  | .port p => p.val
  | .sched g => 0x100 + g.val
  | .cipher g => 0x180 + g.val
  | .pipe p => 0x200 + p.val
  | .relief q => 0x300 + q.val
  | .fabric => 0x400

/-- The key of the state object of the function with a number. -/
def fnStateKey (n : Nat) : Nat :=
  if n < 0x100 then Obj.functionStatePort n
  else if n < 0x180 then Obj.functionStateSched (n - 0x100)
  else if n < 0x200 then Obj.functionStateCipher (n - 0x180)
  else if n < 0x300 then Obj.functionStatePipe (n - 0x200)
  else if n < 0x400 then Obj.functionStateRelief (n - 0x300)
  else Obj.functionStateFabric

/-- The state of the function with a number: 0 OFF, 1 HOLD, 2 RUN, 3 FENCED, 4 DRAINING, 5 STARTING (R93). -/
def State.fn (s : State) (n : Nat) : Nat := s.obj? (fnStateKey n)

/-- The function reads RUN. -/
def State.runs (s : State) (n : Nat) : Bool := s.fn n == 2

/-- Numbers of functions by kind. -/
def Fn.portNo (p : Nat) : Nat := p
/-- The number of a scheduler tree. -/
def Fn.schedNo (g : Nat) : Nat := 0x100 + g
/-- The number of a cipher. -/
def Fn.cipherNo (g : Nat) : Nat := 0x180 + g
/-- The number of a pipe. -/
def Fn.pipeNo (p : Nat) : Nat := 0x200 + p
/-- The number of a Relief quadrant. -/
def Fn.reliefNo (q : Nat) : Nat := 0x300 + q
/-- The number of the fabric interface. -/
def Fn.fabricNo : Nat := 0x400

/-- Every function's number (table Functions). -/
def Fn.numbers : List Nat :=
  List.range 128 ++ (List.range 16).map Fn.schedNo ++ (List.range 16).map Fn.cipherNo ++
    (List.range 17).map Fn.pipeNo ++ (List.range 4).map Fn.reliefNo ++ [0x400]

/-- The pipe that serves a port group; 0xFF for none (R383). -/
def State.groupPipe (s : State) (g : Nat) : Nat := s.obj? (Obj.groupPipe g)

/-- The groups a pipe serves, in ascending order. -/
def State.groupsOf (s : State) (pipe : Nat) : List Nat := (List.range 16).filter fun g => s.groupPipe g == pipe

/-- The pipe that serves a port (R7). -/
def State.portPipe (s : State) (p : Nat) : Nat := s.groupPipe (p / 8)

/-- The quadrant whose copies a port's frames are looked up in (R7, R12). -/
def portQuadrant (p : Nat) : Nat := p / 32

/-! ### BOOT_STATE -/

/-- The device is READY. -/
def State.ready (s : State) : Bool := s.obj? Obj.bootState == 6

/-! ### Codes -/

/-- The lowest code of the conditions that hold, where one stage finds several in the same clock (R23). -/
def lowestCode (conditions : List (Bool × Nat)) : Option Nat := ((conditions.filter fun c => c.1).map fun c => c.2).min?

/-! ### Lists by position -/

/-- The element of a list at a place changed. -/
def modifyAt {α : Type} (l : List α) (i : Nat) (f : α → α) : List α := l.modify i f

/-- A port's state. -/
def State.port (s : State) (p : Nat) : PortSt := s.ports.getD p .reset

/-- A port's state changed. -/
def State.setPort (s : State) (p : Nat) (f : PortSt → PortSt) : State := { s with ports := modifyAt s.ports p f }

/-- A pipe's state. -/
def State.pipe (s : State) (p : Nat) : PipeSt := s.pipes.getD p (.reset 0 0)

/-- A pipe's state changed. -/
def State.setPipe (s : State) (p : Nat) (f : PipeSt → PipeSt) : State := { s with pipes := modifyAt s.pipes p f }

/-! ### Outcomes -/

/-- The outcome of a command that goes on. -/
abbrev Result := Host.Outcome State Fault Refusal

/-- A misuse of the table Undefined cases (R477). -/
def undefinedCase (identifier : String) : Result := .fault (.unbounded identifier)

end Sys2Proof.Machine
end

