-- ==== Sys2Proof/Machine/Frames.lean ====
section
/-! DEFINITION. Frames and their copies: where they stand, the cells they hold, and how they end with a disposition code
(R21-R24, R232, R262, R271-R282). -/

namespace Sys2Proof.Machine

/-! ### Finding and changing frames and copies -/

/-- The frame with a number. -/
def State.frame? (s : State) (id : Nat) : Option Frame := s.frames.find? fun f => f.id == id

/-- A frame changed. -/
def State.setFrame (s : State) (id : Nat) (g : Frame → Frame) : State :=
  { s with frames := s.frames.map fun f => if f.id = id then g f else f }

/-- The copy with a number. -/
def State.copy? (s : State) (id : Nat) : Option Copy := s.copies.find? fun c => c.id == id

/-- A copy changed. -/
def State.setCopy (s : State) (id : Nat) (g : Copy → Copy) : State :=
  { s with copies := s.copies.map fun c => if c.id = id then g c else c }

/-- A copy stands in the spill staging buffer. -/
def Copy.isStaged (c : Copy) : Bool :=
  match c.loc with
  | .staged _ => true
  | _ => false

/-- The copies at a place, in arrival order. -/
def State.copiesAt (s : State) (loc : CopyLoc) : List Copy := s.copies.filter fun c => c.loc == loc

/-- The frame's search set is in flight on the stopped array of quadrant `q` (R214). -/
def Frame.searchingOn (f : Frame) (q : Nat) : Bool :=
  match f.loc with
  | .searching _ a => a == q
  | _ => false

/-- The frames at a place, in arrival order. -/
def State.framesAt (s : State) (loc : FrameLoc) : List Frame := s.frames.filter fun f => f.loc == loc

/-- A frame moved to the tail of a place. -/
def State.moveFrame (s : State) (id : Nat) (loc : FrameLoc) : State :=
  match s.frame? id with
  | some f => { s with frames := s.frames.filter (fun g => g.id != id) ++ [{ f with loc := loc }] }
  | none => s

/-- A copy moved to the tail of a place. -/
def State.moveCopy (s : State) (id : Nat) (loc : CopyLoc) : State :=
  match s.copy? id with
  | some c => { s with copies := s.copies.filter (fun d => d.id != id) ++ [{ c with loc := loc }] }
  | none => s

/-- A new frame. Its number is the state's next one. -/
def State.addFrame (s : State) (f : Frame) : State :=
  { s with frames := s.frames ++ [{ f with id := s.nextId }], nextId := s.nextId + 1 }

/-- A new copy. Its number is the state's next one. -/
def State.addCopy (s : State) (c : Copy) : State :=
  { s with copies := s.copies ++ [{ c with id := s.nextId }], nextId := s.nextId + 1 }

/-- The stored length S of a frame: the frame as the parser sees it, FCS included (R271). -/
def Frame.stored (f : Frame) : Nat := f.bytes.length

/-- The stored length S of a frame as metering and shaping use it. While the frame's reception goes on S is not known, and the spec
states nothing in its place: a free value. -/
def State.lengthOf (s : State) (f : Frame) : Nat × State := if f.complete then (f.stored, s) else s.free 14

/-- The cells a frame of stored length S occupies (R271). -/
def cellsFor (stored : Nat) : Nat := ceilDiv stored 256

/-- The pipe a frame's passes run in. -/
def State.framePipe (s : State) (f : Frame) : Nat :=
  match f.loc with
  | .fifo p => p
  | .inject p => p
  | .recirc p => p
  | .replay p => p
  | .searching p _ => p
  | .copies => s.portPipe f.port
  | .walking _ _ => s.portPipe f.port
  | .ending => s.portPipe f.port

/-! ### Cells (R271-R278) -/

/-- Cells of a bitmap bank (R272). -/
def bankCells : Nat := 24576

/-- A unit reads fenced (15). -/
def State.fenced (s : State) (u : Nat) : Bool :=
  match Sparse.find? s.faults.units u with
  | some x => x.fenced
  | none => false

/-- A DDR5 channel is in use. -/
def State.channelInUse (s : State) (c : Nat) : Bool := bit (s.obj? Obj.ddr5ChannelsInUse) c && !s.fenced (0x420 + c)

/-- The channel of stripe `n` of a fixed DDR5 region: stripes go round the channels in use at READY (R285), from the lowest
(DESIGN CHOICE: the spec gives no channel for a region's first stripe). -/
def State.stripeChannel (s : State) (n : Nat) : Nat :=
  let cs := bitList 16 s.boot.striped
  cs.getD (n % max 1 cs.length) 0

/-- Stripe `n` of a fixed region lies in a channel that was in use at READY and is no more (R285). -/
def State.stripeLost (s : State) (n : Nat) : Bool :=
  let c := s.stripeChannel n
  bit s.boot.striped c && !s.channelInUse c

/-- Bursts read on a DDR5 channel (R424). -/
def State.ddr5Read (s : State) (c n : Nat) : State :=
  let s := { s with arm := { s.arm with reading := c :: s.arm.reading.filter fun x => x != c } }
  s.countN (0x190 + c) n

/-- Bursts written on a DDR5 channel; where its last burst was a read, the channel turns round (R424). -/
def State.ddr5Write (s : State) (c n : Nat) : State :=
  let turns := s.arm.reading.contains c
  let s := { s with arm := { s.arm with reading := s.arm.reading.filter fun x => x != c } }
  (s.countN (0x1A0 + c) n).countN (0x1B0 + c) (b2n turns)

/-- A slice runs on a unit: its number's low 12 bits name it (R396). -/
def State.sliceOn (s : State) (u : Nat) : Bool := s.kiln.running.any fun r => r.slice % 4096 == u

/-- A slice of a kind runs on a unit. -/
def State.kindOn (s : State) (kind u : Nat) : Bool := s.kiln.running.any fun r => r.slice == 4096 * kind + u

/-- Cells in use of a bank. -/
def State.bankUsed (s : State) (b : Nat) : Nat := (s.arm.cells.filter fun c => c.cell / bankCells == b).length

/-- The free count that a bank publishes: 0 while it is fenced (R380) or under test (R397). -/
def State.bankFree (s : State) (b : Nat) : Nat := if s.fenced (0x400 + b) || s.kindOn 13 (0x400 + b) then 0 else bankCells - s.bankUsed b

/-- CELLS_FREE: cells free in the bitmap. -/
def State.cellsFree (s : State) : Nat := ((List.range 32).map s.bankFree).sum

/-- Cells charged to a requester class (R273). -/
def State.classCells (s : State) (k : Nat) : Nat := (s.arm.cells.filter fun c => c.cls == k).length

/-- The lowest number from `c` on that an ascending list of cells in use lacks. -/
def lowestFree : Nat → List CellUse → Nat
  | c, [] => c
  | c, u :: us => if u.cell < c then lowestFree c us else if u.cell = c then lowestFree (c + 1) us else c

/-- A use of a cell placed in cell order. -/
def insertCell (u : CellUse) : List CellUse → List CellUse
  | [] => [u]
  | v :: vs => if u.cell < v.cell then u :: v :: vs else v :: insertCell u vs

/-- The free count that a bank publishes for clock `t`, as it stood at the end of the clock before: grants made in `t` and later do
not show (R272). -/
def State.published (s : State) (t b : Nat) : Nat :=
  if s.fenced (0x400 + b) || s.kindOn 13 (0x400 + b) then 0
  else bankCells - s.bankUsed b + (s.arm.grants.filter fun g => g.1 == b && decide (t ≤ g.2)).length

/-- The bank that port `r` names in clock `t`: the first from (r + t) mod 32 whose published count is not 0 (R274). -/
def State.nameBank (s : State) (r t : Nat) : Option Nat :=
  ((List.range 32).map fun i => (r + t + i) % 32).find? fun b => s.published t b != 0

/-- CELLS_FREE_LOW follows the lowest free count. -/
def State.noteFree (s : State) : State := s.put Obj.cellsFreeLow (min (s.obj? Obj.cellsFreeLow) s.cellsFree)

/-- The writer or reader that asks for a frame's cells: its requester port and class (table Requester ports), and the ports that ask
beside it in the clocks from its first request on. -/
structure Writer where
  port : Nat
  cls : Nat
  rivals : List (List Nat)
  deriving DecidableEq, Repr

/-- A bank's rotating pointer moves to the port after the winner (R274). -/
def State.turnPointer (s : State) (b winner : Nat) : State :=
  { s with arm := { s.arm with pointers := modifyAt s.arm.pointers b fun _ => (winner + 1) % 37 } }

/-- A cell granted by a bank to port `r` for a frame and class in clock `t` (R272, R274). -/
def State.grantCell (s : State) (b r t frame cls : Nat) : State :=
  let c := lowestFree (b * bankCells) s.arm.cells
  let u : CellUse := { cell := c, first := some frame, second := none, paired := false, cls := cls }
  let s := { s with arm := { s.arm with cells := insertCell u s.arm.cells, grants := s.arm.grants ++ [(b, t)] } }
  let s := (s.turnPointer b r).setFrame frame fun f => { f with cells := f.cells ++ [c], cellClass := cls }
  (s.count (0x168 + b)).noteFree

/-- A requester class that drops where it finds no cell (R275, R278): all but SPILL_RETURN and ATELIER, which wait. -/
def droppingClass (cls : Nat) : Bool := cls != 2 && cls != 5

/-- The port that a bank grants among those that name it: the first in ascending order from its rotating pointer, wrapping after 36
(R274). -/
def State.winner (s : State) (b : Nat) (ports : List Nat) : Option Nat :=
  let pointer := s.arm.pointers.getD b 0
  ((List.range 37).map fun i => (pointer + i) % 37).find? fun r => ports.contains r

/-- The port that wins the bank which the writer names in clock `t`, against the `rivals` that name it too; none where the bank has
made its one grant of the clock already. Two commands of one clock ask in the order of the queue (DESIGN CHOICE, log entry 114). -/
def State.arbitrate (s : State) (w : Writer) (b t : Nat) (rivals : List Nat) : Option Nat :=
  if s.arm.grants.contains (b, t) then none
  else s.winner b (w.port :: rivals.filter fun r => s.nameBank r t == some b)

/-- The next clock in which a requester port may ask: at most once a clock (R273). -/
def State.nextAsk (s : State) (r : Nat) : Nat := max s.clock ((Sparse.find? s.arm.asked r).getD 0)

/-- A cell asked for from clock `t` on, clock by clock, until a bank grants it or `tries` clocks are over: the state after it, and the
rivals of the clocks that follow or the code that drops the frame (R274, R275). -/
def State.askCell (s : State) (w : Writer) (frame : Nat) : Nat → Nat → List (List Nat) → State × Except Nat (List (List Nat))
  | 0, _, _ => (s, .error 0x85)
  | tries + 1, t, rivals =>
    let s := { s with arm := { s.arm with asked := Sparse.set (fun _ => 0) s.arm.asked w.port (t + 1) } }
    match s.nameBank w.port t with
    | none => if droppingClass w.cls then (s, .error 0x83) else s.askCell w frame tries (t + 1) rivals.tail
    | some b =>
      match s.arbitrate w b t (rivals.headD []) with
      | some r =>
        if r = w.port then (s.grantCell b w.port t frame w.cls, .ok rivals.tail)
        else
          let s := (s.turnPointer b r).count (0x188 + w.cls)
          if s.published t b = 1 && droppingClass w.cls then (s, .error 0x84)
          else s.askCell w frame tries (t + 1) rivals.tail
      | none =>
        let s := s.count (0x188 + w.cls)
        if s.published t b = 1 && droppingClass w.cls then (s, .error 0x84)
        else s.askCell w frame tries (t + 1) rivals.tail

/-- The clocks in which a request names a bank before it is given up: 4 (R275); ports 34 to 36 go on past every rival and every grant
that is known. -/
def State.askClocks (s : State) (w : Writer) : Nat := if droppingClass w.cls then 4 else w.rivals.length + s.arm.grants.length + 1

/-- A requester class whose frames a queue admits at their first cell (R281): all but SPILL_RETURN, RECIRC and ATELIER. -/
def admittedClass (cls : Nat) : Bool := cls == 0 || cls == 1 || cls == 4

/-- One cell requested for a frame: the state after it, and the rivals that are left or the code that drops the frame, if one does
(R275, R278, R281). A later cell draws on its queue's unused guarantee, the shared pool and the headroom: `others` cells are kept for
other queues' guarantees. The cells that a pass that goes round or a spill return asks for leave those too (DESIGN CHOICE, log entry
114). -/
def State.requestCell (s : State) (w : Writer) (frame others : Nat) : State × Except Nat (List (List Nat)) :=
  let first := admittedClass w.cls && (s.frame? frame).any fun f => f.cells.isEmpty
  if s.classCells w.cls + 1 > s.obj? (Obj.classQuotaCells w.cls) then (s, .error 0x82)
  else if !first && decide (s.cellsFree ≤ others) then (s, .error 0x83)
  else s.askCell w frame (s.askClocks w) (s.nextAsk w.port) w.rivals

/-- `n` cells requested in consecutive clocks; the cells granted before a refusal stay with the frame. -/
def State.requestCells (s : State) (w : Writer) (frame others : Nat) : Nat → State × Option Nat
  | 0 => (s, none)
  | n + 1 =>
    match s.requestCell w frame others with
    | (s, .error c) => (s, some c)
    | (s, .ok rivals) => s.requestCells { w with rivals := rivals } frame others n

/-- The half open for port `r`, opened within the last 8 core clocks (R276). -/
def State.openHalf (s : State) (r : Nat) : Option Nat :=
  (s.arm.halves.find? fun h => h.1 == r && s.clock ≤ h.2.2 + 8).map fun h => h.2.1

/-- A small frame put into the free half of a cell. -/
def State.pairCell (s : State) (cell r frame : Nat) : State :=
  let s := { s with arm := { s.arm with
    cells := s.arm.cells.map (fun (u : CellUse) => if u.cell = cell then { u with second := some frame, paired := true } else u),
    halves := s.arm.halves.filter fun h => h.1 != r } }
  s.setFrame frame fun f => { f with cells := [cell] }

/-- The other half of a cell opened for port `r` (R276). -/
def State.openCell (s : State) (cell r : Nat) : State :=
  { s with arm := { s.arm with halves := (s.arm.halves.filter fun h => h.1 != r) ++ [(r, cell, s.clock)] } }

/-- A frame written into cells: the state, and the code that drops it, if one does (R271-R276, R278). -/
def State.writeCells (s : State) (w : Writer) (frame others stored : Nat) : State × Option Nat :=
  if stored ≤ 128 ∧ w.port ≤ 33 then
    match s.openHalf w.port with
    | some c => (s.pairCell c w.port frame, none)
    | none =>
      match s.requestCell w frame others with
      | (s', .error c) => (s', some c)
      | (s', .ok _) =>
        match (s'.frame? frame).bind fun f => f.cells.head? with
        | some c => (s'.openCell c w.port, none)
        | none => (s', none)
  else s.requestCells w frame others (cellsFor stored)

/-- A cell pointer (field map Cell pointer): the byte address of a frame's data in the buffer (R271). -/
def cellPointer (cell : Nat) (half : Bool) : Nat := field 8 cell + field 7 (b2n half)

/-- The use of a cell. -/
def State.cellUse (s : State) (cell : Nat) : Option CellUse := s.arm.cells.find? fun u => u.cell == cell

/-- A pointer returned for freeing is bad (R277). -/
def State.badPointer (s : State) (p : Nat) : Bool :=
  decide (786431 < bits p 27 8) || bits p 31 28 != 0 || bits p 6 0 != 0 ||
    (bit p 7 && !((s.cellUse (bits p 27 8)).any CellUse.paired))

/-- The pointer of the cell of a frame that starts in it (R271, R276). -/
def State.pointerOf (s : State) (frame cell : Nat) : Nat :=
  cellPointer cell ((s.cellUse cell).any fun u => u.second == some frame)

/-- A cell's use given up by a frame. -/
def CellUse.release (frame : Nat) (u : CellUse) : CellUse :=
  { u with first := if u.first = some frame then none else u.first,
           second := if u.second = some frame then none else u.second }

/-- A frame returns a pointer: a bad one frees nothing; else the frame gives up the cell, which waits for its bank to free it once no
frame holds it (R272, R276, R277). -/
def State.returnPointer (s : State) (frame p : Nat) : State :=
  if s.badPointer p then s
  else
    let c := bits p 27 8
    let cells := s.arm.cells.map fun (u : CellUse) => if u.cell = c then u.release frame else u
    let held := (cells.find? fun u => u.cell == c).all fun u => u.first.isSome || u.second.isSome
    { s with arm := { s.arm with cells := cells, halves := s.arm.halves.filter fun h => h.2.1 != c,
                                 frees := if held || s.arm.frees.contains c then s.arm.frees else s.arm.frees ++ [c] } }

/-- Every cell of a frame released. -/
def State.freeCells (s : State) (frame : Nat) : State :=
  match s.frame? frame with
  | none => s
  | some f => (f.cells.foldl (fun s c => s.returnPointer frame (s.pointerOf frame c)) s).setFrame frame fun f => { f with cells := [] }

/-- The frees that the banks apply at the end of a clock: the first of each bank that is not under test (R272, R397). -/
def State.dueFrees (s : State) : List Nat :=
  (List.range 32).filterMap fun b =>
    if s.kindOn 13 (0x400 + b) then none else s.arm.frees.find? fun c => c / bankCells == b

/-- The end of a clock in the bitmap: each bank frees at most one cell, and the grants and requests of the clock are over (R272,
R273). -/
def State.applyFrees (s : State) : State :=
  let due := s.dueFrees
  { s with arm := { s.arm with
    cells := s.arm.cells.filter fun u => !due.contains u.cell,
    frees := s.arm.frees.filter fun c => !due.contains c,
    grants := s.arm.grants.filter fun g => decide (s.clock < g.2),
    asked := s.arm.asked.filter fun e => decide (s.clock + 1 < e.2) } }

/-! ### In-flight counts (R232) -/

/-- A slot's state changed. -/
def State.setSlot (s : State) (slot : Nat) (g : SlotSt → SlotSt) : State :=
  { s with versions := { s.versions with slots := modifyAt s.versions.slots slot g } }

/-- A version slot. -/
def State.slot (s : State) (slot : Nat) : SlotSt := s.versions.slots.getD slot .free

/-- The slot in a state, if any. -/
def State.slotIn (s : State) (st : SlotState) : Option Nat :=
  (List.range 3).find? fun i => (s.slot i).state == st

/-- The current slot (R220). -/
def State.currentSlot (s : State) : Nat := (s.slotIn .current).getD 0

/-- A frame stamped with the current slot (R223, R232). -/
def State.stamp (s : State) (frame : Nat) : State :=
  let cur := s.currentSlot
  let clock := s.clock
  (s.setFrame frame fun f => { f with stamp := some cur, stampClock := clock }).setSlot cur fun x =>
    { x with inFlight := x.inFlight + 1 }

/-! ### Endings -/

/-- A code counted: the Caliper's event (R424) and the counters and flags the code's chapter gives it. `pipe` is the pipe
of the frame. MAC codes are also counted at the port, in 05. -/
def State.code (s : State) (pipe code : Nat) : State :=
  let s := s.count (0x200 + code)
  if code = 0x2C then s.bump64 (Obj.ttlDrops pipe)
  else if code = 0x43 then s.flag Obj.tableSummary 4
  else if code = 0x60 then (s.bump64 Obj.staleDrops).flag Obj.tableSummary 11
  else if code = 0x61 then (s.bump64 Obj.sweptDrops).flag Obj.tableSummary 11
  else if code = 0x64 then s.bump64 (Obj.recircDrops pipe)
  else if code = 0x65 then s.bump64 Obj.nextHopDrops
  else if code = 0x66 then s.bump64 Obj.groupEmptyDrops
  else if code = 0x67 ∨ code = 0x69 then s.bump64 Obj.editDrops
  else if code = 0x68 then s.bump64 Obj.egressTtlDrops
  else if 0x80 ≤ code ∧ code ≤ 0x89 then
    let s := s.bump64 (Obj.bufferDrops (code - 0x80))
    let s := if code = 0x84 then s.bump64 Obj.lastCellLosses else s
    if 0x83 ≤ code ∧ code ≤ 0x85 then s.flag Obj.queueSummary 1
    else if code = 0x86 ∨ code = 0x87 then s.flag Obj.queueSummary 6
    else s
  else if code = 0x90 then s.bump64 Obj.treeForcedDrains
  else if code = 0x91 then (s.bump64 Obj.unassignedDrops).flag Obj.queueSummary 8
  else if code = 0xA0 then s.bump64 Obj.policerRedDrops
  else if code = 0xA1 then s.bump64 Obj.policerYellowDrops
  else if 0xB0 ≤ code ∧ code ≤ 0xB4 then s.flag Obj.cipherSummary 3
  else if code = 0xB5 ∨ code = 0xB6 then s.flag Obj.cipherSummary 6
  else if 0xC0 ≤ code ∧ code ≤ 0xC5 then
    let s := s.bump64 (Obj.fabricDrops (code - 0xC0))
    if code = 0xC1 ∨ code = 0xC3 ∨ code = 0xC5 then s.flag Obj.fabricSummary 4 else s
  else if 0xD0 ≤ code ∧ code ≤ 0xD9 then (s.bump64 (Obj.faultDrops (code - 0xD0))).flag Obj.faultSummary 11
  else s

/-- A frame leaves the engine: its cells are freed and its slot's in-flight count falls (R232, R262). -/
def State.retire (s : State) (frame : Nat) : State :=
  match s.frame? frame with
  | none => s
  | some f =>
    let s := s.freeCells frame
    let s := match f.stamp with
      | some i => s.setSlot i fun x => { x with inFlight := x.inFlight - 1 }
      | none => s
    { s with frames := s.frames.filter (fun g => g.id != frame),
             em := { s.em with learns := s.em.learns.filter fun l => !(l.frame == frame && l.ready.isNone) } }

/-- A frame that has no copies ends with a code. -/
def State.endFrame (s : State) (frame code : Nat) : State :=
  match s.frame? frame with
  | none => s
  | some f => (s.code (s.framePipe f) code).retire frame

/-- A frame that has no copies ends in the ingress half with a code. While its reception goes on, a condition found at its tail
still outranks the code (R23): it frees its cells, and its end waits for the tail. -/
def State.endIngress (s : State) (frame code : Nat) : State :=
  match s.frame? frame with
  | none => s
  | some f =>
    if f.complete then s.endFrame frame code
    else (s.freeCells frame).setFrame frame fun f => { f with loc := .ending, late := some code }

/-- A reference of a stored frame released; the frame leaves the engine with the last (R262). -/
def State.releaseRef (s : State) (frame : Nat) : State :=
  match s.frame? frame with
  | none => s
  | some f =>
    if f.refs ≤ 1 then s.retire frame else s.setFrame frame fun f => { f with refs := f.refs - 1 }

/-- A copy ends with a code (R21, R22): it releases its reference, and a frame that was its own copy leaves the engine. -/
def State.endCopy (s : State) (copy code : Nat) : State :=
  match s.copy? copy with
  | none => s
  | some c =>
    let s := s.code (s.portPipe c.port) code
    let s := { s with copies := s.copies.filter fun d => d.id != copy }
    if c.cast then s.releaseRef c.frame else s.retire c.frame

/-- Every copy of a list ends with a code. -/
def State.endCopies (s : State) (cs : List Copy) (code : Nat) : State := cs.foldl (fun s c => s.endCopy c.id code) s

/-- Every frame of a list ends with a code. -/
def State.endFrames (s : State) (fs : List Frame) (code : Nat) : State := fs.foldl (fun s f => s.endFrame f.id code) s

/-- The age of a frame in nanoseconds since its stamp, by the free-running count (R234). -/
def State.age (s : State) (f : Frame) : Nat := (s.clock - f.stampClock) * 5 / 8

/-- A frame is older than STALE_AGE_MS (R234). -/
def State.stale (s : State) (f : Frame) : Bool := s.age f > s.obj? Obj.staleAgeMs * 1000000

end Sys2Proof.Machine
end

