-- ==== Sys2Proof/Machine/Seqs.lean ====
section
/-! DEFINITION. The sequencers as the blocks that give them work see them: who is in service, who covers whom, requests, traps and
restarts (R430-R433, R437, R440). The work itself is the effect of the commands that name it; here stands what a request or a
trap does to a sequencer. -/

namespace Sys2Proof.Machine

/-- A sequencer. -/
def State.seq (s : State) (n : Nat) : Seq := s.atelier.seqs.getD n .reset

/-- A sequencer changed. -/
def State.setSeq (s : State) (n : Nat) (f : Seq → Seq) : State :=
  { s with atelier := { s.atelier with seqs := modifyAt s.atelier.seqs n f } }

/-- A sequencer neither released, loading nor under test. -/
def Seq.serves (q : Seq) : Bool :=
  match q.service with
  | .inService => true
  | _ => false

/-- A sequencer is in service (R431). -/
def State.inService (s : State) (n : Nat) : Bool := !s.fenced (0x5A0 + n) && (s.seq n).serves

/-- The sequencer that does the work of sequencer `n`: itself while it is in service, else its cover (R431). -/
def State.coverOf (s : State) (n : Nat) : Option Nat := ((List.range 8).map fun i => (n + i) % 8).find? s.inService

/-- A request of a kind joins its home sequencer's queue of 32 (R430). -/
def State.request (s : State) (kind : Nat) : State :=
  s.setSeq kind fun q => if q.queue.length < 32 then { q with queue := q.queue ++ [none] } else q

/-- A trap is raised for a home sequencer; its cover takes it where it is out of service (R431, R437). -/
def State.raiseTrap (s : State) (home level cause : Nat) : State :=
  match s.coverOf home with
  | some n => s.setSeq n fun q => { q with traps := q.traps ++ [{ level := level, cause := cause }] }
  | none => s

/-- A fault trap for the fault reactions of sequencer 3 (R437). -/
def State.faultTrap (s : State) (cause : Nat) : State := s.raiseTrap 3 2 cause

/-- A restart of a routine is counted (R433). -/
def State.countRestart (s : State) : State := (s.bump32 Obj.routineRestarts).flag Obj.atelierSummary 4

/-- A sequencer at a saved state. -/
def Seq.resumed (q : Seq) (f : TrapFrame) : Seq :=
  { q with pc := f.pc, z := f.z, c := f.c, n := f.n, v := f.v, regs := f.regs, level := f.level, waiting := f.waiting }

/-- The running state of a sequencer. -/
def Seq.saved (q : Seq) (pc : BitVec 14) : TrapFrame :=
  { pc := pc, waiting := q.waiting, z := q.z, c := q.c, n := q.n, v := q.v, regs := q.regs, level := q.level }

/-- A sequencer begins a routine, at its checkpoint if it has one (R430, R433). -/
def Seq.enter (q : Seq) (kind : Nat) (checkpoint : Option TrapFrame) : Seq :=
  let q := { q with running := some kind, checkpoint := checkpoint, pc := BitVec.ofNat 14 kind, level := 0, waiting := false, noTrap := false }
  match checkpoint with
  | some f => q.resumed f
  | none => q

/-- The running routine of a sequencer restarts from its last checkpoint, or from its entry (R440). A trap that interrupts it is
left, with its frames (DESIGN CHOICE: a trap keeps no checkpoint). -/
def State.restartRoutine (s : State) (n : Nat) : State :=
  match (s.seq n).running with
  | some k => (s.setSeq n fun q => { q.enter k q.checkpoint with frames := [none, none] }).countRestart
  | none => s.setSeq n fun q => { q with level := 0, frames := [none, none], waiting := false, noTrap := false }

/-- The running routine of a sequencer goes back to the front of its own kind's queue, with its checkpoint record. -/
def State.putBack (s : State) (n : Nat) : State :=
  let q := s.seq n
  let s := s.setSeq n fun q => { q with running := none, checkpoint := none, waiting := false, noTrap := false }
  match q.running with
  | some k => s.setSeq k fun x => { x with queue := q.checkpoint :: x.queue }
  | none => s

/-- The pending traps of a sequencer out of service pass to its cover (R442). -/
def State.passTraps (s : State) (n : Nat) : State :=
  match s.coverOf n with
  | some c => (s.setSeq n fun q => { q with traps := [] }).setSeq c fun x => { x with traps := x.traps ++ (s.seq n).traps }
  | none => s

/-- What a sequencer that leaves service leaves to its cover: its routine, ahead of the queue of its kind, and its traps. Its
frames are discarded (R431, R440, R442). -/
def State.passWork (s : State) (n : Nat) : State :=
  ((s.putBack n).setSeq n fun q => { q with frames := [none, none], level := 0, turn := none }).passTraps n

end Sys2Proof.Machine
end

