-- ==== Sys2Proof/Machine/Mac.lean ====
section
/-! DEFINITION. What the MAC of a port does to its statistics and to the frame in transmission (R98, R114-R118, R124, R126,
R133, R134). -/

namespace Sys2Proof.Machine

/-! ### Statistics (R133, R134) -/

/-- A 40-bit MAC counter increased: it wraps, and its half-range bit is set where bit [39] changes (R133). -/
def State.stat (s : State) (key half bitNo n : Nat) : State :=
  let v := s.obj? key
  let v' := (v + n) % 2 ^ 40
  let s := s.put key v'
  if bit v 39 = bit v' 39 then s else s.flag half bitNo

/-- The receive counter at a sub-index of i+0xB increased. -/
def State.rxStat (s : State) (p sub n : Nat) : State := s.stat (Obj.rxOctetsOk p + (sub - 1)) (Obj.statsRxHalf p) (sub - 1) n

/-- The transmit counter at a sub-index of i+0xC increased. -/
def State.txStat (s : State) (p sub n : Nat) : State := s.stat (Obj.txOctetsOk p + (sub - 1)) (Obj.statsTxHalf p) (sub - 1) n

/-- The destination address of a frame: 0 unicast, 1 multicast, 2 broadcast (R134). -/
def destKind (b : List Byte) : Nat :=
  if b.take 6 = List.replicate 6 0xFF then 2 else if ((b.getD 0 0).toNat % 2 = 1) then 1 else 0

/-- The size bin of a frame of `l` bytes, 0 to 6. -/
def sizeBin (l : Nat) : Nat :=
  if l ≤ 64 then 0 else if l ≤ 127 then 1 else if l ≤ 255 then 2 else if l ≤ 511 then 3 else if l ≤ 1023 then 4
  else if l ≤ 1518 then 5 else 6

/-- A good received frame counted (R134). -/
def State.rxGood (s : State) (p : Nat) (b : List Byte) : State :=
  ((s.rxStat p 1 b.length).rxStat p 2 1).rxStat p (3 + destKind b) 1

/-- A frame delimited by the MAC, with MAX_FRAME for its size bin. -/
def State.rxDelimited (s : State) (p l maxFrame : Nat) : State :=
  let s := (s.rxStat p 6 l).rxStat p 7 1
  if 64 ≤ l ∧ l ≤ maxFrame then s.rxStat p (0x15 + sizeBin l) 1 else s

/-- A frame sent with a correct FCS counted, and CLEAN_FRAMES with it (R125, R134). -/
def State.txGood (s : State) (p : Nat) (b : List Byte) : State :=
  let s := ((s.txStat p 1 b.length).txStat p 2 1).txStat p (3 + destKind b) 1
  let s := s.txStat p (0x0B + sizeBin b.length) 1
  s.put (Obj.cleanFrames p) (min (s.obj? (Obj.cleanFrames p) + 1) (2 ^ 20))

/-! ### Codes at a port (R132) -/

/-- The receive statistic of a code at the port that received the frame. -/
def State.rxCode (s : State) (p code : Nat) : State :=
  if code = 0x05 then s.rxStat p 0x0D 1
  else if code = 0x06 then s.rxStat p 0x13 1
  else if code = 0x07 then s.rxStat p 0x14 1
  else if code = 0x08 then s.rxStat p 0x0F 1
  else if code = 0x0F then s.rxStat p 0x0E 1
  else s

/-- The transmit statistic of a code at the port a frame or copy was bound for. -/
def State.txCode (s : State) (p code : Nat) : State :=
  if code = 0x0B then s.txStat p 7 1
  else if code = 0x0C then s.txStat p 8 1
  else if code = 0x0D then s.txStat p 9 1
  else if code = 0x0E then s.txStat p 0x0A 1
  else s

/-- A copy at an egress port ends with a code, counted at the port as well. -/
def State.endAtPort (s : State) (p copy code : Nat) : State := (s.txCode p code).endCopy copy code

/-- Every copy of a list ends at a port with a code. -/
def State.endAllAtPort (s : State) (p : Nat) (cs : List Copy) (code : Nat) : State :=
  cs.foldl (fun s c => s.endAtPort p c.id code) s

/-! ### The frame in transmission -/

/-- The frame in transmission on a port is stomped with a code (R117); nothing happens where none is. A cut-off is counted
the same way, since R126 calls it a stomp on a dead wire. -/
def State.stomp (s : State) (p code : Nat) : State :=
  match (s.port p).tx with
  | none => s
  | some t => ((s.setPort p fun x => { x with tx := none }).txStat p 6 1).endAtPort p t.copy code

/-- The bytes on the wire of a frame stomped after `sent` bytes (R117). -/
def stompedBytes (b : List Byte) (sent : Nat) : List Byte :=
  let body := padTo (max sent 60) (b.take sent)
  body ++ (fcs body).map fun x => ~~~x

/-- The pause timers and watchdogs of a port cleared (R123). -/
def State.clearPauses (s : State) (p : Nat) : State :=
  (s.setPort p fun x => { x with pauses := List.replicate 8 { paused := false, quanta := 0, ignoring := false } }).put
    (Obj.pausedClasses p) 0

end Sys2Proof.Machine
end

