-- ==== Sys2Proof/Machine/QueueOps.lean ====
section
/-! DEFINITION. Queues and the egress trees: which queue belongs to which port, what a queue holds, and whether it admits a
frame (R279-R282, R297-R299, R302, R311, R382). -/

namespace Sys2Proof.Machine

/-! ### Trees (R297, R311) -/

/-- The tree entry in force of local node `n` of group `g`. -/
def State.treeEntry (s : State) (g n : Nat) : Nat := beNat (s.bytesInForce (Obj.schedTree g) (4 * n) 4)

/-- LINK of a node: a group's port, a set's group, a port's default set. -/
def State.treeLink (s : State) (g n : Nat) : Nat := bits (s.treeEntry g n) 31 23

/-- MODE of a node: 0 strict plus weighted, 1 virtual finish time. -/
def State.treeMode (s : State) (g n : Nat) : Nat := bits (s.treeEntry g n) 22 22

/-- PRIORITY of a node: 0–3 strict, 4 weighted (5–7 act as 4). -/
def State.treePriority (s : State) (g n : Nat) : Nat := min (bits (s.treeEntry g n) 21 19) 4

/-- The local index of port `k`, group node `j`, set `j`, queue `j` in a tree. -/
def groupNode (j : Nat) : Nat := 8 + j
/-- The local index of a set. -/
def setNode (j : Nat) : Nat := 136 + j
/-- The local index of a queue. -/
def queueNode (j : Nat) : Nat := 648 + j

/-- The parent of a node below the ports, by local index. -/
def State.treeParent (s : State) (g n : Nat) : Nat :=
  if n < 136 then s.treeLink g n % 8
  else if n < 648 then groupNode (s.treeLink g n % 128)
  else setNode ((n - 648) / 8)

/-- The front port whose tree holds egress queue `n`. -/
def State.queuePort (s : State) (n : Nat) : Nat :=
  let g := n / 4096
  8 * g + s.treeParent g (s.treeParent g (setNode (n % 4096 / 8)))

/-- The front port of set `t`. -/
def State.setPortOf (s : State) (t : Nat) : Nat := s.queuePort (8 * t)

/-- The default set of a port. -/
def State.defaultSet (s : State) (p : Nat) : Nat := 512 * (p / 8) + s.treeLink (p / 8) (p % 8)

/-- The egress queue of a frame with next hop `nh` for port `p` and class `c` (R302): the queue, and whether NH_QUEUE_SET
named a set of another port. A copy without a next hop takes the port's default set. -/
def State.egressQueue (s : State) (nh : Option Nat) (p c : Nat) : Nat × Bool :=
  let t := match nh with
    | some n => beNat (s.bytes Obj.nhQueueSet (2 * n) 2)
    | none => 0xFFFF
  if t = 0xFFFF then (8 * s.defaultSet p + c, false)
  else if t < 8192 ∧ s.setPortOf t = p then (8 * t + c, false)
  else (8 * s.defaultSet p + c, true)

/-! ### What a queue holds -/

/-- The copies selected for a port and not yet started (R126). -/
def State.selected (s : State) (p : Nat) : List Copy := s.copiesAt (.selected p)

/-- The copies in the egress queues of a port, those selected first. -/
def State.egressCopies (s : State) (p : Nat) : List Copy :=
  s.selected p ++ s.copies.filter fun c => match c.loc with
    | .egress n => s.queuePort n == p
    | _ => false

/-- Every frame and copy in a port's egress queues ends with a code. -/
def State.flushPort (s : State) (p code : Nat) : State := s.endAllAtPort p (s.egressCopies p) code

/-- The cells of a copy's frame (R282). -/
def State.copyCells (s : State) (c : Copy) : Nat := ((s.frame? c.frame).map fun f => cellsFor f.stored).getD 0

/-- The cells charged to the queue at a place. -/
def State.queueCells (s : State) (loc : CopyLoc) : Nat := ((s.copiesAt loc).map s.copyCells).sum

/-- The stored bytes of the copies at a place. -/
def State.queueBytes (s : State) (loc : CopyLoc) : Nat :=
  ((s.copiesAt loc).map fun c => ((s.frame? c.frame).map Frame.stored).getD 0).sum

/-! ### Buffer profiles (R279, R280) -/

/-- A rates record (field map Rates record). -/
def State.ratesRecord (s : State) (g n : Nat) : Nat := s.record (Obj.schedRates g) 24 n

/-- The buffer profile a queue names. -/
def State.profileOf (s : State) (loc : CopyLoc) : Nat :=
  match loc with
  | .voq v => beNat (s.bytes Obj.voqProfile v 1)
  | .repl c => beNat (s.bytes Obj.voqProfile (131072 + c) 1)
  | .egress n => bits (s.ratesRecord (n / 4096) (queueNode (n % 4096))) 177 170
  | _ => 0

/-- A buffer profile record. -/
def State.profile (s : State) (n : Nat) : Nat := s.record Obj.bufferProfiles 16 n

/-- GUARANTEE_CELLS of a profile record. -/
def profileGuarantee (r : Nat) : Nat := bits r 127 108
/-- MAX_CELLS of a profile record. -/
def profileMax (r : Nat) : Nat := bits r 107 88
/-- ALPHA_CODE of a profile record. -/
def profileAlpha (r : Nat) : Nat := bits r 87 84
/-- SPILL_THRESHOLD_CELLS of a profile record. -/
def profileThreshold (r : Nat) : Nat := bits r 83 64
/-- SPILL_MAX_BINS of a profile record. -/
def profileMaxBins (r : Nat) : Nat := bits r 63 40

/-- The number of queues (table Queue kinds). -/
def queueCount : Nat := 131072 + 8 + 65536

/-- Queues that name a profile other than 0, as places: those with a byte listed in VOQ_PROFILE or in the profile field of
SCHED_RATES. -/
def State.profiledQueues (s : State) : List CopyLoc :=
  (s.dom.filterMap fun e =>
    let k := e.1 / 2 ^ 32
    let off := e.1 % 2 ^ 32
    if k = Obj.voqProfile then some (if off < 131072 then CopyLoc.voq off else .repl (off - 131072))
    else
      let g := k / 256 - 0x6200
      if 0x6200 ≤ k / 256 ∧ g < 16 ∧ k % 256 = 2 ∧ 648 ≤ off / 24 ∧ (off % 24 = 1 ∨ off % 24 = 2) then
        some (.egress (4096 * g + (off / 24 - 648)))
      else none).eraseDups

/-- GUARANTEE_RESERVED: the sum of GUARANTEE_CELLS over every queue (R280). -/
def State.guaranteeReserved (s : State) : Nat :=
  let base := profileGuarantee (s.profile 0)
  let named := s.profiledQueues
  (named.map fun q => profileGuarantee (s.profile (s.profileOf q))).sum + (queueCount - named.length) * base

/-- The queues that hold copies on-die. -/
def State.heldQueues (s : State) : List CopyLoc :=
  (s.copies.filterMap fun c => match c.loc with
    | .voq n => some (.voq n)
    | .repl n => some (.repl n)
    | .egress n => some (.egress n)
    | _ => none).eraseDups

/-- GUARANTEE_CELLS of a queue. -/
def State.guarantee (s : State) (q : CopyLoc) : Nat := profileGuarantee (s.profile (s.profileOf q))

/-- The cells kept for the queues' unused guarantees (R280). -/
def State.guaranteeUnused (s : State) : Nat :=
  s.guaranteeReserved - (s.heldQueues.map fun q => min (s.guarantee q) (s.queueCells q)).sum

/-- The cells kept for the unused guarantees of all queues but one; of every queue where the place is none (R281). -/
def State.keptForOthers (s : State) (q : CopyLoc) : Nat :=
  match q with
  | .voq _ => s.guaranteeUnused - (s.guarantee q - s.queueCells q)
  | .repl _ => s.guaranteeUnused - (s.guarantee q - s.queueCells q)
  | .egress _ => s.guaranteeUnused - (s.guarantee q - s.queueCells q)
  | _ => s.guaranteeUnused

/-- The shared free count F of the state (R280); it is read as it stood at the end of the previous clock, in `arm.shared`. -/
def State.sharedFree (s : State) : Nat := s.cellsFree - s.guaranteeUnused - s.obj? Obj.headroomCells

/-- The admission of a frame to a queue (R281): the code that refuses it, if one does. `count - guarantee < α × F`, with
α = 2^(code - 7), is compared without fractions. -/
def State.admission (s : State) (q : CopyLoc) : Option Nat :=
  let r := s.profile (s.profileOf q)
  let count := s.queueCells q
  let f := s.arm.shared
  if profileMax r ≤ count then some 0x81
  else if count < profileGuarantee r then none
  else if 0 < f ∧ (count - profileGuarantee r) * 2 ^ 7 < 2 ^ profileAlpha r * f then none
  else some 0x80

/-! ### Replication groups (R258, R263) -/

/-- A group entry. -/
def State.groupEntry (s : State) (g : Nat) : Nat := s.record Obj.groupTable 8 g

/-- A group is valid (R258). -/
def groupValid (e : Nat) : Bool :=
  bit e 63 && bits e 41 29 != 0 && decide (bits e 41 29 ≤ 4096) && decide (bits e 61 42 + bits e 41 29 ≤ 1048576)

/-- The list block that a group entry names: its first list entry and their number. -/
def groupBlock (e : Nat) : Nat × Nat := (bits e 61 42, bits e 41 29)

/-- A list entry lies in a block. -/
def inBlock (i : Nat) (b : Nat × Nat) : Bool := decide (b.1 ≤ i) && decide (i < b.1 + b.2)

/-- A valid group names a list entry. -/
def State.listNamed (s : State) (i : Nat) : Bool :=
  s.dom.any fun e => e.1 / 2 ^ 32 == Obj.groupTable &&
    (let g := s.groupEntry (e.1 % 2 ^ 32 / 8)
     groupValid g && inBlock i (groupBlock g))

/-- The blocks that groups `first` to `first + n - 1` name. -/
def State.blocksOf (s : State) (first n : Nat) : List (Nat × Nat) :=
  (((List.range n).map fun i => s.groupEntry (first + i)).filter groupValid).map groupBlock

/-- Blocks that a write of group entries stops naming, with its clock; those a microsecond old are forgotten (UB-RW-2). -/
def State.stopNaming (s : State) (blocks : List (Nat × Nat)) : State :=
  { s with queues := { s.queues with unnamed :=
      (s.queues.unnamed.filter fun e => decide (s.clock ≤ e.2.2 + 1600)) ++ blocks.map fun b => (b.1, b.2, s.clock) } }

/-- List entries `first` to `first + n - 1` touch a block that no group names any more, within a microsecond of the write that stopped
naming it (UB-RW-2). -/
def State.rewritesEarly (s : State) (first n : Nat) : Bool :=
  (List.range n).any fun i => !s.listNamed (first + i) &&
    s.queues.unnamed.any fun e => inBlock (first + i) (e.1, e.2.1) && decide (s.clock ≤ e.2.2 + 1600)

/-! ### System ports (R299, R323) -/

/-- The system port map applies: FABRIC_ENABLE is in force and the interface is not OFF. A held or fenced interface keeps
its map, since R97 lets VOQs to remote engines accumulate (DEDUCED). -/
def State.fabricMapped (s : State) : Bool := s.inForce Obj.fabricEnable == 1 && s.fn Fn.fabricNo != 0

/-- DEVICE_ID in force. -/
def State.deviceId (s : State) : Nat := s.inForce Obj.deviceId

/-- Where a system port leads: a local front port, a port of another device, or nowhere. -/
inductive SystemPort where
  | local (port : Nat) | remote (device port : Nat) | unassigned
  deriving DecidableEq, Repr

/-- The meaning of a system port (R299, R323). -/
def State.systemPort (s : State) (n : Nat) : SystemPort :=
  if s.fabricMapped then
    let e := beNat (s.bytesInForce Obj.systemPortMap (4 * n) 4)
    if bits e 31 31 = 0 then .unassigned
    else if bits e 30 19 = s.deviceId then .local (bits e 18 12)
    else .remote (bits e 30 19) (bits e 18 12)
  else if n < 128 then .local n else .unassigned

/-! ### Nodes (R306, R307) -/

/-- A node whose buckets are empty and whose rates are 0. -/
def Node.reset : Node :=
  { c := 0, p := 0, carryC := 0, carryP := 0, cir := 0, cbs := 0, pir := 0, pbs := 0, deficit := 0, ptr := 0,
    virtual := 0, finish := 0 }

/-- The state of local node `n` of group `g`. -/
def State.node (s : State) (g n : Nat) : Node := (Sparse.find? s.queues.nodes (4744 * g + n)).getD .reset

/-- A node's state changed. -/
def State.putNode (s : State) (g n : Nat) (x : Node) : State :=
  { s with queues := { s.queues with nodes := Sparse.set (fun _ => Node.reset) s.queues.nodes (4744 * g + n) x } }

/-- The local numbers of the queues of group `g` that hold frames, ascending. -/
def State.groupQueues (s : State) (g : Nat) : List Nat :=
  ((s.copies.filterMap fun c => match c.loc with
    | .egress n => if n / 4096 = g then some (n % 4096) else none
    | _ => none).eraseDups).mergeSort

/-- The nodes from a queue up to the node below its port, by local index. -/
def State.treePath (s : State) (g j : Nat) : List Nat :=
  let t := setNode (j / 8)
  [queueNode j, t, s.treeParent g t]

/-- A node holds frames below it. -/
def State.nodeHolds (s : State) (g n : Nat) : Bool := (s.groupQueues g).any fun j => (s.treePath g j).contains n

/-- The greater of two 48-bit tags, compared modulo 2^48. -/
def maxTag (a b : Nat) : Nat := if (b + 2 ^ 48 - a) % 2 ^ 48 < 2 ^ 47 then b else a

/-- The parents of nodes, each once. -/
def State.parentsOf (s : State) (g : Nat) (ns : List Nat) : List Nat := ((ns.map (s.treeParent g)).eraseDups).mergeSort

/-- The children of a node that hold frames. -/
def State.heldUnder (s : State) (g n : Nat) : List Nat :=
  let q := (s.groupQueues g).map queueNode
  let l := if n < 8 then s.parentsOf g (s.parentsOf g q) else if n < 136 then s.parentsOf g q else q
  l.filter fun c => s.treeParent g c == n

/-- A ring's member at a place or next after it (R306). -/
def ringMember (ring : List Nat) (ptr : Nat) : Option Nat := (ring.find? fun c => ptr ≤ c).orElse fun _ => ring.head?

/-- The ring's member after one of it, in ascending order, wrapping to the first (R306). -/
def nextMember (ring : List Nat) (c : Nat) : Nat := (ringMember ring (c + 1)).getD 0

/-- The ring of a node: its weighted children that hold frames, ascending (R306). -/
def State.ring (s : State) (g n : Nat) : List Nat := (s.heldUnder g n).filter fun c => s.treePriority g c == 4

/-- A queue is about to gain a frame: each node of its path that held none becomes backlogged (R307) and joins its parent's
ring with what is left of its deficit, while the parent's pointer stays at the member it names (R306). -/
def State.joinTree (s : State) (q : Nat) : State :=
  let g := q / 4096
  (s.treePath g (q % 4096)).foldl (fun a n =>
    if s.nodeHolds g n then a
    else
      let p := s.treeParent g n
      let x := a.node g n
      let y := a.node g p
      (a.putNode g p { y with ptr := (ringMember (s.ring g p) y.ptr).getD y.ptr }).putNode g n
        { x with finish := maxTag x.finish y.virtual, deficit := min x.deficit 0 }) s

/-! ### Arrivals at egress (R127, R282, R302, R382) -/

/-- The codes that end an arrival at a port's egress queues, where the port, its tree, its cipher or its pipe is lost to
it, or the port has been flushed (R127, R382). -/
def State.refuseEgress (s : State) (p : Nat) : List Nat :=
  let g := p / 8
  let cipher := s.fn (Fn.cipherNo g) == 3 && s.inForce (Obj.cipherEnable p) == 1
  (if (s.port p).flushed then [0x0C] else []) ++
    (if s.fn p == 3 || s.fn (Fn.schedNo g) == 3 || cipher then [0xD3] else []) ++
    (if s.groupPipe g == 0xFF then [0xD7] else [])

/-- The egress queue that a frame or copy with next hop `nh` enters at port `p` with class `c` (R302, R281), or the code that
refuses it: of those that do, the lowest (R23). -/
def State.placeAtEgress (s : State) (nh : Option Nat) (p c : Nat) : State × Except Nat Nat :=
  let (q, mismatch) := s.egressQueue nh p c
  let s := if mismatch then (s.bump64 Obj.setMismatches).flag Obj.queueSummary 10 else s
  match (s.refuseEgress p ++ (s.admission (.egress q)).toList).min? with
  | some code => (s, .error code)
  | none => (s, .ok q)

/-- A copy put into egress queue `q` of port `p`. -/
def State.putAtEgress (s : State) (copy p c q : Nat) : State :=
  ((s.joinTree q).setCopy copy fun x => { x with port := p, cls := c }).moveCopy copy (.egress q)

/-- A copy enters egress port `p` with next hop `nh` and class `c`: it is enqueued, or ends with a code. -/
def State.enterEgress (s : State) (copy : Nat) (nh : Option Nat) (p c : Nat) : State :=
  match s.placeAtEgress nh p c with
  | (s, .error code) => s.endAtPort p copy code
  | (s, .ok q) => s.putAtEgress copy p c q

end Sys2Proof.Machine
end

