-- ==== Sys2Proof/Machine/Cells.lean ====
section
/-! DEFINITION. The cell former: streams of frames cut into data cells at their source engine (R324, R329-R331).

Streams are numbered 32 × device + STREAM; `Fabric.streams` lists the open cells, oldest first. -/

namespace Sys2Proof.Machine

/-- The header of a data cell (field map Data cell header) with no control word. -/
def dataHeader (dest source sequence stream firstRecord fill : Nat) (frameEnd lateBad : Bool) : Nat :=
  field 127 1 + field 115 (dest % 4096) + field 103 (source % 4096) + field 87 (sequence % 65536) +
    field 82 (stream % 32) + field 74 (firstRecord % 256) + field 66 (fill % 256) + field 65 (b2n frameEnd) +
    field 64 (b2n lateBad)

/-- What the header of a frame carries across the fabric (field map Frame header). -/
structure FrameHeader where
  length : Nat
  groupValid : Bool
  nextHop : Nat
  systemPort : Nat
  cls : Nat
  speed : Nat
  cut : Bool
  timed : Bool
  ingressTime : Nat
  context : Context
  deriving DecidableEq, Repr

/-- An offset as the header carries it: 511 where it is above 510 (R329). -/
def carriedOffset (n : Nat) : Nat := min n 511

/-- A level's start, 0 for none. -/
def levelStart : Option Nat → Nat
  | some n => carriedOffset n
  | none => 0

/-- The 20 bytes of a frame header. -/
def FrameHeader.bytes (h : FrameHeader) : List Byte :=
  toBe 20 (field 146 (h.length % 16384) + field 145 (b2n h.groupValid) + field 127 (h.nextHop % 2 ^ 18) +
    field 113 (h.systemPort % 16384) + field 110 (h.cls % 8) + field 105 (h.speed % 32) + field 104 (b2n h.cut) +
    field 103 (b2n h.timed) + field 71 (h.ingressTime % 2 ^ 32) + field 57 (h.context.entropy % 2 ^ 14) +
    field 53 (h.context.fwdClass % 16) + field 44 (carriedOffset h.context.fwdOffset) +
    field 35 (carriedOffset h.context.labelStart) + field 29 (h.context.labelDepth % 64) +
    field 20 (levelStart h.context.level1) + field 11 (levelStart h.context.level2) + field 2 (levelStart h.context.level3))

/-- The open cell of a stream. -/
def State.openCellOf (s : State) (key : Nat) : Option OpenCell := Sparse.find? s.fabric.streams key

/-- The open cell of a stream put in place, keeping its age. -/
def State.putOpenCell (s : State) (key : Nat) (c : OpenCell) : State :=
  { s with fabric := { s.fabric with streams :=
      if (Sparse.find? s.fabric.streams key).isSome then s.fabric.streams.map fun e => if e.1 = key then (key, c) else e
      else s.fabric.streams ++ [(key, c)] } }

/-- An open cell with nothing in it. -/
def OpenCell.fresh (clock : Nat) : OpenCell :=
  { payload := [], firstRecord := 0xFF, copies := [], openFrame := none, frameEnd := false, lateBad := false,
    opened := clock }

/-- The open cell of a stream is formed: it takes its SEQUENCE and waits for a lane (R330, R332). The frame of open length,
if its stream carries one, goes on in the next cell. -/
def State.formCell (s : State) (key : Nat) (going : Option Nat) : State :=
  match s.openCellOf key with
  | none => s
  | some c =>
    let dev := key / 32
    let seq := (Sparse.find? s.fabric.sequence dev).getD 0
    let h := dataHeader dev s.deviceId seq (key % 32) c.firstRecord c.payload.length c.frameEnd c.lateBad
    let cell := toBe 16 h ++ padTo 240 c.payload
    let w : WaitingCell := { device := dev, cell := cell, copies := c.copies,
                             ends := c.copies.filter fun i => some i != going }
    let f := s.fabric
    let s := { s with fabric := { f with
      waiting := f.waiting ++ [w],
      sequence := Sparse.set (fun _ => 0) f.sequence dev ((seq + 1) % 65536),
      streams := f.streams.filter fun e => e.1 != key } }
    match c.openFrame with
    | some i => if c.frameEnd then s else
      s.putOpenCell key { OpenCell.fresh s.clock with openFrame := some i }
    | none => s

/-- The oldest open cell is formed at once where the pool of 4,096 is full (R330). -/
def State.poolOpenCell (s : State) : State :=
  let cells := s.fabric.streams.filter fun e => !e.2.payload.isEmpty
  if cells.length < 4096 then s
  else match cells.head? with
    | some e => s.formCell e.1 e.2.openFrame
    | none => s

/-- Bytes of a copy placed in a stream's cells. A cell that is full is formed as soon as another byte follows it. -/
def State.pour (s : State) (key copy : Nat) (begins : Bool) : Nat → List Byte → State
  | 0, _ => s
  | fuel + 1, b =>
    if b.isEmpty then s
    else
      let s := if (s.openCellOf key).isNone then s.poolOpenCell else s
      let c := (s.openCellOf key).getD (.fresh s.clock)
      if 240 ≤ c.payload.length then
        (s.formCell key (if begins then none else some copy)).pour key copy begins fuel b
      else
        let n := 240 - c.payload.length
        let c := { c with
          payload := c.payload ++ b.take n,
          firstRecord := if begins ∧ c.firstRecord = 0xFF then c.payload.length else c.firstRecord,
          copies := if c.copies.contains copy then c.copies else c.copies ++ [copy],
          opened := if c.payload.isEmpty then s.clock else c.opened }
        (s.putOpenCell key c).pour key copy false fuel (b.drop n)

/-- The cells of a stream are full up to a byte: a full open cell that no open frame holds is formed. -/
def State.settleCell (s : State) (key : Nat) : State :=
  match s.openCellOf key with
  | some c => if 240 ≤ c.payload.length then s.formCell key none else s
  | none => s

/-- A whole frame appended to its stream (R330). -/
def State.appendFrame (s : State) (key copy : Nat) (h : FrameHeader) (b : List Byte) : State :=
  (s.pour key copy true (b.length + 300) (h.bytes ++ b)).settleCell key

/-- The first bytes of a frame of open length appended; its stream carries only it until its tail comes, and a cell that they fill is
formed (R330, R331). -/
def State.appendOpen (s : State) (key copy : Nat) (h : FrameHeader) (b : List Byte) : State :=
  let s := s.pour key copy true (b.length + 300) (h.bytes ++ b)
  match s.openCellOf key with
  | some c =>
    let s := s.putOpenCell key { c with openFrame := some copy }
    if 240 ≤ c.payload.length then s.formCell key (some copy) else s
  | none => s

/-- The rest of a frame of open length, with FRAME_END in the cell of its last byte, and LATE_BAD where it is bad
(R331). -/
def State.appendTail (s : State) (key copy : Nat) (b : List Byte) (bad : Bool) : State :=
  let s := s.pour key copy false (b.length + 300) b
  match s.openCellOf key with
  | some c => (s.putOpenCell key { c with openFrame := none, frameEnd := true, lateBad := bad }).settleCell key
  | none => s

/-- The stream that carries a copy's frame of open length, if one does. -/
def State.openStream (s : State) (copy : Nat) : Option Nat :=
  (s.fabric.streams.find? fun e => e.2.openFrame == some copy).map fun e => e.1

/-- A frame of open length that will get no more bytes is closed as bad (R342). -/
def State.closeBad (s : State) (copy : Nat) : State :=
  match s.openStream copy with
  | none => s
  | some key =>
    match s.openCellOf key with
    | some c => if c.payload.isEmpty then s.appendTail key copy [0] true else s.appendTail key copy [] true
    | none => s

/-! ### Frames ended by a condition while copies of them stand anywhere (R24, R117, R331) -/

/-- A copy of a frame ends with a condition: stomped where it is on the wire, marked LATE_BAD where it has entered the
fabric, dropped otherwise. `code` drops it, `headCode` ends it once its head has left. -/
def State.failCopy (s : State) (c : Copy) (code headCode : Nat) : State :=
  match c.loc with
  | .transmit p => s.stomp p headCode
  | .selected p => s.endAtPort p c.id code
  | .fabric _ => ((s.setFrame c.frame fun f => { f with late := some headCode }).closeBad c.id)
  | _ => s.endCopy c.id code

/-- A frame ends with a condition at every place where it or a copy of it stands. -/
def State.failFrame (s : State) (frame code headCode : Nat) : State :=
  match s.frame? frame with
  | none => s
  | some f =>
    let cs := s.copies.filter fun c => c.frame == frame
    let s := cs.foldl (fun s c => s.failCopy c code headCode) s
    match f.loc with
    | .copies => s
    | .walking _ _ => (s.releaseRef frame).setFrame frame fun f => { f with loc := .copies }
    | _ => s.endFrame frame code

end Sys2Proof.Machine
end

