-- ==== Sys2Proof/Machine/Boot.lean ====
section
/-! DEFINITION. Power, resets, the boot sequences and the life-cycle fuses (03). -/

namespace Sys2Proof.Machine

/-! ### Sessions -/

/-- Session `n` (1–8) changed. -/
def State.setSession (s : State) (n : Nat) (f : Session → Session) : State :=
  { s with sop := { s.sop with sessions := modifyAt s.sop.sessions (n - 1) f } }

/-- A session with nobody on it. -/
def Session.free : Session :=
  { isOpen := false, path := .mg0Eth, peer := [], nextSeq := 0, epoch := 0, auth := false, idleMs := 0, stored := none }

/-- A session closed: its number is free at once (R48). -/
def State.closeSession (s : State) (n : Nat) : State := s.setSession n fun _ => Session.free

/-- Every session that meets a condition closed. -/
def State.closeSessions (s : State) (p : Session → Bool) : State :=
  { s with sop := { s.sop with sessions := s.sop.sessions.map fun x => if x.isOpen && p x then Session.free else x } }

/-! ### Units out of service -/

/-- A unit's fault state. -/
def UnitSt.clean : UnitSt :=
  { fenced := false, pendingC := false, pendingU := false, cause := 0, faults := 0, shadowUntil := 0 }

/-- The fault state of a unit. -/
def State.unitSt (s : State) (u : Nat) : UnitSt := (Sparse.find? s.faults.units u).getD .clean

/-- The fault state of a unit changed. -/
def State.setUnit (s : State) (u : Nat) (f : UnitSt → UnitSt) : State :=
  { s with faults := { s.faults with units := Sparse.set (fun _ => UnitSt.clean) s.faults.units u (f (s.unitSt u)) } }

/-- A unit marked fenced for a cause (field map Unit fault state). -/
def State.markFenced (s : State) (u cause : Nat) : State := s.setUnit u fun x => { x with fenced := true, cause := cause }

/-! ### What resets wipe and keep (R71, R480) -/

/-- The last digit-pair range an object lies in. -/
def keyIndex (k : Nat) : Nat := k / 256

/-- Objects that describe the board and the die, which no reset writes. -/
def physicalKey (k : Nat) : Bool := k == Obj.clockStatus || k == Obj.dieTemp || k == Obj.railStatus

/-- The objects of the Patina's ring and of range 0x1100–0x11FF (R390, R71). -/
def heldKey (k : Nat) : Bool :=
  (0x1100 ≤ keyIndex k && keyIndex k ≤ 0x11FF) || k == Obj.ringHead 5 || k == Obj.ringTail 5 || k == Obj.ringDropped 5 ||
    k == Obj.ringRecords 5 || k == Obj.ringWatermark 5 || k == Obj.ringStatus 5

/-- The objects that a warm reset keeps beside those: the row WARM_KILN of the table What each reset wipes. -/
def warmKey (k : Nat) : Bool :=
  k == Obj.warmKiln || k == Obj.keyClearLoad || k == Obj.bootImage || k == Obj.microcodeLevel || k == Obj.imageHoldLevel ||
    (List.range 8).any fun n => k == Obj.seqImageLevel n

/-- An object that a kind of reset keeps. -/
def keptKey (kind : SeqKind) (k : Nat) : Bool :=
  physicalKey k ||
    match kind with
    | .cold => false
    | .lifeChange => false
    | .railReturn => heldKey k
    | .warm => heldKey k || warmKey k

/-- Mailbox RAM lies under this key of `dom` (R55). -/
def mailboxKey : Nat := 0x1000000

/-- The key store is fenced. -/
def State.keyStoreFenced (s : State) : Bool := s.fenced 0x5B0

/-- The header of an image. -/
def imageHeader (image : List Byte) : Nat := beAt (padTo 16 (image.take 16)) 0 16

/-- WORD_COUNT of an image. -/
def imageWords (image : List Byte) : Nat := bits (imageHeader image) 63 48

/-- The microwords of an image, as they stand in a control store. -/
def imageStore (image : List Byte) : List (BitVec 144) :=
  (List.range (imageWords image)).map fun i => BitVec.ofNat 144 (beAt image (16 + 18 * i) 18)

/-- Sequencer state after a reset that keeps its control store. -/
def Seq.restarted (q : Seq) : Seq := { Seq.reset with store := q.store }

/-- The Atelier after a warm reset: stores and image hold kept; a reload in progress is abandoned, and every store is loaded from
the hold (R439, R444). -/
def Atelier.restarted (a : Atelier) : Atelier :=
  let seqs := a.seqs.map Seq.restarted
  { Atelier.reset with
    hold := a.hold,
    seqs := if a.reloading then seqs.map (fun (q : Seq) => { q with store := imageStore a.hold }) else seqs }

/-- What a warm reset that abandons a reload leaves in the objects (R444). -/
def State.abandonReload (s : State) : State :=
  (List.range 8).foldl (fun s n => s.put (Obj.seqImageLevel n) (s.obj? Obj.imageHoldLevel)) (s.put Obj.reloadStatus 9)

/-- The Patina, the sessions and the mailbox outlive a kind of reset (R71, R390). -/
def SeqKind.held : SeqKind → Bool
  | .railReturn => true
  | .warm => true
  | _ => false

/-- The kind of reset is a warm one. -/
def SeqKind.isWarm : SeqKind → Bool
  | .warm => true
  | _ => false

/-- Everything as right after power-on, but what a kind of reset keeps. -/
def State.wipedBase (s : State) (kind : SeqKind) : State :=
  let r := State.reset
  let held := kind.held
  let warm := kind.isWarm
  let fence := warm && s.keyStoreFenced
  { r with
    pending := s.pending, clock := s.clock, timebase := s.timebase, freeIx := s.freeIx, answer := s.answer,
    pins := s.pins,
    obj := s.obj.filter fun e => keptKey kind e.1 ||
      (fence && (List.range 16).any fun g => e.1 == Obj.functionStateCipher g),
    dom := s.dom.filter fun e => keptKey kind (e.1 / 2 ^ 32) || (held && e.1 / 2 ^ 32 == mailboxKey),
    boot := { s.boot with
      sramWiping := false, ddr5Wiped := false, pllHold := false, image := if warm then s.boot.image else [],
      config := if warm then s.boot.config else [], trained := if warm then s.boot.trained else 0, striped := 0,
      blowing := match kind with
        | .lifeChange => none
        | _ => s.boot.blowing },
    sop := if held then { s.sop with slow := [], mboxBusy := false } else r.sop,
    cipher := if warm then { r.cipher with keys := s.cipher.keys, clearLocked := s.cipher.clearLocked } else r.cipher,
    atelier := if warm then s.atelier.restarted else r.atelier,
    faults := { r.faults with
      sequence := if held then s.faults.sequence else 0,
      units := if fence then (s.faults.units.filter fun e => e.2.fenced && (e.1 == 0x5B0 || 0x5D0 ≤ e.1 && e.1 ≤ 0x5DF)).map
        fun e => (e.1, { UnitSt.clean with fenced := true, cause := e.2.cause }) else [] } }

/-- The state that a reset leaves, before its causes are recorded: everything as right after power-on, but what the kind of
reset keeps. -/
def State.wiped (s : State) (kind : SeqKind) : State :=
  let base := s.wipedBase kind
  match kind with
  | .railReturn => base.closeSessions fun x => x.auth
  | .warm => if s.atelier.reloading then base.abandonReload else base
  | _ => base

/-- Every function reads OFF while the fast domains are held in reset (R482); ciphers stay FENCED with the key store. -/
def State.functionsOff (s : State) : State :=
  { s with goals := [],
           obj := s.obj.filter fun e => !(Fn.numbers.any fun n => e.1 == fnStateKey n &&
             !(s.keyStoreFenced && 0x180 ≤ n && n < 0x200)) }

/-- Every fast domain is held in reset (R68, R69, R480): beside its functions, nothing that it has in hand goes on. -/
def State.holdDomains (s : State) : State :=
  let r := State.reset
  { s.functionsOff with
    ports := r.ports, pipes := r.pipes, frames := [], copies := [], queues := r.queues, fabric := r.fabric, kiln := r.kiln,
    flowServed := [], flowWaiting := [],
    cipher := { s.cipher with jobs := [], ended := [], aborted := [] },
    faults := { s.faults with takeovers := [], returns := [], release := none } }

/-! ### Sequences (R72, R75, R79) -/

/-- BOOT_STATE set, with the step of the sequence. -/
def State.bootTo (s : State) (step : BootStep) (code : Nat) : State :=
  ({ s with boot := { s.boot with step := step } } : State).put Obj.bootState code

/-- Every rail of groups 2 and 3 is in range (R65). RAIL_STATUS lists the rails in the order of the table Supply groups. -/
def State.railsIn (s : State) : Bool := bits (s.obj? Obj.railStatus) 6 2 == 31

/-- SYS_REFCLK is present. -/
def State.refclk (s : State) : Bool := bit (s.obj? Obj.clockStatus) 0

/-- Both PLLs are locked. -/
def State.pllsIn (s : State) : Bool := bits (s.obj? Obj.clockStatus) 2 1 == 3

/-- WARM_N is low for a cause that was not ignored (R72). -/
def State.warmHolds (s : State) : Bool := !s.pins.warmN && !s.pins.warmIgnored

/-- BLANK or SCRAPPED: the fast domains never start (R80). -/
def State.neverStarts (s : State) : Bool := s.boot.fuses == 0 || s.boot.fuses == 4

/-- The sequence is a warm one. -/
def State.warmSequence (s : State) : Bool :=
  match s.boot.kind with
  | .warm => true
  | _ => false

/-- A sequence that waits goes as far as rails, pins, life cycle and clocks let it (R65, R67, R72, R75, R80, R481): a warm one finds
its PLLs running, a cold one starts them. `released`, from which BOOT_ELAPSED counts, is the clock at which nothing of these holds the
sequence any more, and BOOT_STATE reads WAIT_CLOCKS from t = 0 until the PLLs lock (DESIGN CHOICE, log entry 107). -/
def State.tryStart (s : State) : State :=
  if !s.railsIn then s.bootTo .rails 0
  else if !s.pins.coldN then s.bootTo .coldHeld 9
  else if s.warmSequence && s.warmHolds then s.bootTo .warmHeld 9
  else if !s.warmSequence && s.neverStarts then s.bootTo .idle 10
  else if !s.refclk || s.warmSequence && !s.pllsIn then s.bootTo .clocks 1
  else
    let s := { s with boot := { s.boot with released := s.clock } }
    if s.warmSequence then ({ s with boot := { s.boot with sramWiping := true } } : State).bootTo .ddr5Reset 3
    else s.bootTo .plls 1

/-- A reset begins for a cause of LAST_RESET_CAUSE (R70, R71): the device is wiped, the cause recorded, and the sequence
started or left waiting. A rail-return reset wrote its record at the loss (R480). -/
def State.beginReset (s : State) (kind : SeqKind) (cause : Nat) : State :=
  let s := s.wiped kind
  let s := ({ s with boot := { s.boot with kind := kind } } : State).put Obj.lastResetCause cause
  let s := match kind with
    | .railReturn => s
    | _ => s.log { kind := 11, unit := 0x5B1, detail := cause }
  s.tryStart

/-- A reset sequence runs or waits. -/
def State.sequenceRuns (s : State) : Bool :=
  match s.boot.step with
  | .idle => false
  | _ => true

/-- A warm cause is ignored (R72): in NO_IMAGE, KILN_FAILED and NOT_STARTED, in the wait of R480, and without power. -/
def State.ignoresWarm (s : State) : Bool :=
  let b := s.obj? Obj.bootState
  !s.boot.powered || b == 7 || b == 8 || b == 10 ||
    match s.boot.step, s.boot.kind with
    | .rails, .railReturn => true
    | _, _ => false

/-- A warm cause (R72): it starts a warm sequence, is absorbed into one that runs, or is ignored. One that arises while a running loss
of a PLL's lock holds the fast domains finds no sequence running and starts one, which waits for the clocks (DEDUCED, log entry 107). -/
def State.warmCause (s : State) (cause : Nat) : State :=
  if s.sequenceRuns || s.ignoresWarm then s else s.beginReset .warm cause

/-- The device becomes READY, or waits in IN_RESET for WARM_N (R72, R75). -/
def State.becomeReady (s : State) : State :=
  if s.warmHolds then s.bootTo .readyHeld 9
  else
    let s := s.bootTo .idle 6
    let s := { s with boot := { s.boot with striped := s.obj? Obj.ddr5ChannelsInUse },
                      faults := { s.faults with readyShadow := s.clock + 256 } }
    s.put Obj.bootElapsed (min ((s.clock - s.boot.released) * 5 / 8 / 1000) (2 ^ 32 - 1))

/-- Both wipes of the sequence have ended: the power-on Kiln pass, or READY (R75, R79). -/
def State.wipesEnded (s : State) : State :=
  if s.warmSequence && s.obj? Obj.warmKiln == 0 then s.becomeReady else s.bootTo .kiln 5

/-! ### Flash contents (R73, R74, R76) -/

/-- What is wrong with a board configuration block, by the codes of BOOT_FAIL_DETAIL [7:0]; 0 where nothing is. -/
def configDefect (b : List Byte) : Nat :=
  let v := beNat (padTo 16 b)
  if bits v 127 96 ≠ 0x45564243 then 1
  else if 15 < bits v 95 88 ∨ bits v 87 80 < 25 ∨ 100 < bits v 87 80 ∨ bits v 63 62 = 3 ∨ bits v 59 48 ≠ 0 ∨
      bits v 47 40 < 1 ∨ 32 < bits v 47 40 ∨ bits v 39 32 ≠ 0 then 6
  else if bits v 31 0 ≠ crc32c (b.take 12) then 2
  else 0

/-- DDR5_FITTED of the accepted block. -/
def State.fitted (s : State) : Nat := bits (beNat (padTo 16 s.boot.config)) 79 64

/-- GIB_PER_CHANNEL of the accepted block. -/
def State.gibPerChannel (s : State) : Nat := bits (beNat (padTo 16 s.boot.config)) 47 40

/-- IMAGE_LEVEL of an image. -/
def imageLevel (image : List Byte) : Nat := bits (imageHeader image) 95 64

/-- GOLDEN_BYTES of an image. -/
def imageGolden (image : List Byte) : Nat := bits (imageHeader image) 47 32

/-- The length of an image from its header. -/
def imageLength (image : List Byte) : Nat := 16 + 18 * imageWords image + imageGolden image + 96

/-- What is wrong with an image before its signature: 1 magic, 3 length; 0 where nothing is. A field outside its range
makes the length unusable (DEDUCED). -/
def imageDefect (image : List Byte) : Nat :=
  if bits (imageHeader image) 127 96 ≠ 0x45564C52 then 1
  else if imageWords image < 1 ∨ 16384 < imageWords image ∨ imageGolden image % 4 ≠ 0 ∨
      393216 < imageLength image ∨ image.length < imageLength image then 3
  else 0

/-- LIFE_MASK of an image allows a life-cycle state. -/
def imageAllows (image : List Byte) (life : Nat) : Bool := life < 4 && bit (imageHeader image) (31 - life)

/-- An accepted image loaded into every control store and the image hold (R439), by its BOOT_IMAGE code. -/
def State.loadImage (s : State) (code : Nat) : State :=
  let image := s.boot.image
  let store := imageStore image
  let s := { s with atelier := { s.atelier with
    hold := image.take (imageLength image),
    seqs := s.atelier.seqs.map fun (q : Seq) => { q with store := store } } }
  let s := ((s.put Obj.bootImage code).put Obj.microcodeLevel (imageLevel image)).put Obj.imageHoldLevel (imageLevel image)
  (List.range 8).foldl (fun s n => s.put (Obj.seqImageLevel n) (imageLevel image)) s

/-- A change of image: the flag and the Patina record of R76. -/
def State.imageChange (s : State) (code : Nat) : State :=
  (s.flag Obj.lifeSummary 1).log { kind := 9, unit := 0x5B1, detail := code }

/-- The boot ends in NO_IMAGE for a cause of BOOT_FAIL_DETAIL. -/
def State.noImage (s : State) (source cause : Nat) : State :=
  (s.put Obj.bootFailDetail (field 24 source + cause)).bootTo .idle 7

/-- An image is rejected: image B follows image A, and NO_IMAGE follows the others (R76). -/
def State.rejectImage (s : State) (image cause : Nat) : State :=
  if image = 1 then (s.imageChange 2).bootTo (.imageRead 2) 2
  else if image = 2 then s.noImage 3 cause
  else s.noImage 4 cause

/-- The signature and LIFE_MASK of an image judged (R76). -/
def State.judgeImage (s : State) (image : Nat) (good : Bool) : State :=
  if !good then s.rejectImage image 4
  else if !imageAllows s.boot.image s.boot.fuses then s.rejectImage image 5
  else
    let s := (s.loadImage image).bootTo .training 3
    if image = 3 then s.imageChange 3 else s

/-- UPLOAD_START in NO_IMAGE (R77): the uploaded block and image are checked from t = 0.25 ms with no flash read: the block and the
image's magic and length as the check starts, the signature and LIFE_MASK as it ends (IMAGE_VERIFIED). -/
def State.upload (s : State) : State :=
  let block := s.bytes Obj.uploadImage 0 16
  let s := { s with boot := { s.boot with sramWiping := true, ddr5Wiped := false, kind := .cold } }
  let d := configDefect block
  if d ≠ 0 then s.noImage 4 d
  else
    let image := s.bytes Obj.uploadImage 16 393216
    let s := { s with boot := { s.boot with config := block, image := image } }
    let e := imageDefect image
    if e ≠ 0 then s.noImage 4 e else s.bootTo (.imageCheck 3) 2

/-! ### Power and pins -/

/-- POWER_ON (R65, R70): VDD_AON enters its range; the SMBus straps are sampled and a cold reset begins. Nothing of an
earlier use is left but the fuses. -/
def execPowerOn (straps : BitVec 2) (s : State) : Result :=
  .next { State.reset with
    pending := s.pending, freeIx := s.freeIx, pins := { s.pins with straps := straps, sdLost := 0, warmIgnored := false },
    boot := { State.reset.boot with fuses := s.boot.fuses } }

/-- RAIL_LOSS (R480): rail 2 + `rail` of RAIL_STATUS leaves its range. Power of the key store is lost with group 2. -/
def execRailLoss (rail : Fin 5) (s : State) : Result :=
  if !s.boot.powered then .next s
  else
    let s := s.put Obj.railStatus (s.obj? Obj.railStatus - if bit (s.obj? Obj.railStatus) (2 + rail.val) then 2 ^ (2 + rail.val) else 0)
    match s.boot.step with
    | .rails => .next s
    | _ =>
      let s := s.holdDomains.closeSessions fun x => x.auth
      let s := { s with cipher := Cipher.reset, boot := { s.boot with kind := .railReturn, sramWiping := false,
                                                                      ddr5Wiped := false, pllHold := false } }
      .next ((s.bootTo .rails 0).log { kind := 11, unit := 0x5B1, detail := 7 })

/-- RAIL_RETURN (R480): every rail of groups 2 and 3 is in range. After a loss a rail-return reset begins; otherwise the
cold sequence that waits in WAIT_RAILS goes on (R65). -/
def execRailReturn (s : State) : Result :=
  if !s.boot.powered then .next s
  else
    match s.boot.step with
    | .rails =>
      let s := s.put Obj.railStatus (putBits (s.obj? Obj.railStatus) 6 2 31)
      match s.boot.kind with
      | .railReturn => .next (s.beginReset .railReturn 7)
      | _ => .next s.tryStart
    | _ => .next s

/-- COLD_N_LOW (R72): a cold reset begins, and is held while the pin is low. -/
def execColdNLow (s : State) : Result :=
  let s := { s with pins := { s.pins with coldN := false } }
  if s.boot.powered then .next (s.beginReset .cold 1) else .next s

/-- COLD_N_RISE (R75): the cold boot sequence starts at t = 0. -/
def execColdNRise (s : State) : Result :=
  let s := { s with pins := { s.pins with coldN := true } }
  match s.boot.step with
  | .coldHeld => .next s.tryStart
  | _ => .next s

/-- WARM_N_LOW (R72): a warm reset begins and is held, or the cause is absorbed or ignored. -/
def execWarmNLow (s : State) : Result :=
  let s := { s with pins := { s.pins with warmN := false, warmIgnored := s.ignoresWarm } }
  if s.pins.coldN then .next (s.warmCause 2) else .next s

/-- WARM_N_RISE (R72, R79): the warm sequence starts, or READY is reached without wiping again. -/
def execWarmNRise (s : State) : Result :=
  let s := { s with pins := { s.pins with warmN := true, warmIgnored := false } }
  match s.boot.step with
  | .warmHeld => .next s.tryStart
  | .readyHeld => .next s.becomeReady
  | _ => .next s

/-! ### Clocks -/

/-- What a loss of a clock leaves in CLOCK_STATUS and CLOCK_SUMMARY [1] (R87). CLOCK_SUMMARY [0] follows CLOCK_STATUS [0] at every
read. A PLL without SYS_REFCLK has no lock; while the device runs its loss of lock is reported by itself (DEDUCED). -/
def State.loseClock (s : State) (source : ClockSource) : State :=
  let v := s.obj? Obj.clockStatus
  let v' := match source with
    | .sysRefclk => clearBits v (if s.ready then 1 else 7)
    | .corePll => clearBits v 2
    | .ddr5Pll => clearBits v 4
  let s := s.put Obj.clockStatus v'
  if bits v 2 1 = bits v' 2 1 then s else s.flag Obj.clockSummary 1

/-- A sequence that runs or waits is abandoned for a loss of clocks, and waits in WAIT_CLOCKS (R481), one that WARM_N holds included
(DEDUCED: it waits). The waits for the rails and for COLD_N come before its clocks are needed. -/
def State.abandonForClocks (s : State) : State :=
  match s.boot.step with
  | .idle => s
  | .rails => s
  | .coldHeld => s
  | _ => { s with boot := { s.boot with sramWiping := false, ddr5Wiped := false } }.bootTo .clocks 1

/-- CLOCK_LOSS_BEFORE_READY (R481, R87). -/
def execClockLossBeforeReady (source : ClockSource) (s : State) : Result :=
  if !s.boot.powered then .next s else .next (s.loseClock source).abandonForClocks

/-- CLOCKS_STABLE (R481, R67): SYS_REFCLK has been stable for 1 ms with both PLLs locked, as CLOCK_STATUS shows; the sequence that
waits for it restarts from its beginning. -/
def execClocksStable (s : State) : Result :=
  if !s.boot.powered then .next s
  else
    let s := s.put Obj.clockStatus (putBits (s.obj? Obj.clockStatus) 2 0 7)
    match s.boot.step with
    | .clocks => .next s.tryStart
    | _ => .next s

/-- PLLS_LOCKED (R75): the SRAM wipe and the flash read start. The PLLs lock to SYS_REFCLK, so the event shows it present
to a sequence that waited for it. -/
def State.pllsLocked (s : State) : State :=
  let s := s.put Obj.clockStatus (putBits (s.obj? Obj.clockStatus) 2 0 7)
  ({ s with boot := { s.boot with sramWiping := true, ddr5Wiped := false } } : State).bootTo .config 2

/-- PLLS_LOCKED (R75). -/
def execPllsLocked (s : State) : Result :=
  match s.boot.step with
  | .plls => .next s.pllsLocked
  | .clocks => if s.warmSequence then .next s else
      .next ({ s with boot := { s.boot with released := s.clock } } : State).pllsLocked
  | _ => .next s

/-- PLL_LOCK_RESTORED (R68): a warm reset runs. -/
def execPllLockRestored (s : State) : Result :=
  if s.boot.pllHold then
    .next ((s.put Obj.clockStatus (putBits (s.obj? Obj.clockStatus) 2 0 7)).beginReset .warm 6)
  else .next s

/-- SD_REFCLK_LOSS (R87). -/
def execSdRefclkLoss (clock : Fin 8) (s : State) : Result :=
  let s := { s with pins := { s.pins with sdLost := BitVec.ofNat 8 (setBit s.pins.sdLost.toNat clock.val) } }
  .next (s.put Obj.clockStatus (clearBits (s.obj? Obj.clockStatus) (2 ^ (8 + clock.val))))

/-- SD_REFCLK_RETURN (R87). -/
def execSdRefclkReturn (clock : Fin 8) (s : State) : Result :=
  let s := { s with pins := { s.pins with sdLost := BitVec.ofNat 8 (clearBits s.pins.sdLost.toNat (2 ^ clock.val)) } }
  .next (s.put Obj.clockStatus (setBit (s.obj? Obj.clockStatus) (8 + clock.val)))

/-- DIE_TEMP_UPDATE (R87). CLOCK_SUMMARY [3] follows DIE_TEMP at every read. -/
def execDieTempUpdate (millidegrees : BitVec 32) (s : State) : Result := .next (s.put Obj.dieTemp millidegrees.toNat)

/-! ### Boot -/

/-- CONFIG_BLOCK_READ (R76). -/
def execConfigBlockRead (block : List Byte) (s : State) : Result :=
  match s.boot.step with
  | .config =>
    let d := configDefect block
    if d ≠ 0 then .next (s.noImage 1 d)
    else .next ({ s with boot := { s.boot with config := block } }.bootTo (.imageRead 1) 2)
  | _ => .next s

/-- IMAGE_READ_END (R75): the read of an image ends; its magic and length are judged (R76). -/
def execImageReadEnd (image : List Byte) (s : State) : Result :=
  match s.boot.step with
  | .imageRead n =>
    let s := { s with boot := { s.boot with image := image.take 393216 } }
    let d := imageDefect image
    if d ≠ 0 then .next (s.rejectImage n d) else .next (s.bootTo (.imageCheck n) 2)
  | _ => .next s

/-- IMAGE_VERIFIED (R76): the signature check of an image ends with a verdict. -/
def execImageVerified (signatureGood : Bool) (s : State) : Result :=
  match s.boot.step with
  | .imageCheck n => .next (s.judgeImage n signatureGood)
  | _ => .next s

/-- SRAM_WIPE_END (R75). -/
def execSramWipeEnd (s : State) : Result :=
  let done := s.boot.ddr5Wiped && s.boot.sramWiping
  let s := { s with boot := { s.boot with sramWiping := false } }
  if done then .next s.wipesEnded else .next s

/-- The fitted channels that hold no training values are fenced (R78). -/
def State.fenceUntrained (s : State) : State :=
  (List.range 16).foldl (fun s c =>
    if bit s.fitted c && !bit s.boot.trained c then
      (s.markFenced (0x420 + c) 4).log { kind := 2, unit := 0x420 + c, reaction := 1 }
    else s) s

/-- DDR5_TRAINING_END (R78): the channels that failed training, by bit. -/
def execDdr5TrainingEnd (failed : BitVec 16) (s : State) : Result :=
  match s.boot.step with
  | .training =>
    let trained := clearBits s.fitted failed.toNat
    let s := { s with boot := { s.boot with trained := trained } }
    .next ((s.fenceUntrained.put Obj.ddr5ChannelsInUse trained).bootTo .ddr5Wipe 4)
  | _ => .next s

/-- DDR5_RESET_RELEASE (R79). -/
def execDdr5ResetRelease (s : State) : Result :=
  match s.boot.step with
  | .ddr5Reset => .next (s.bootTo .ddr5Reinit 3)
  | _ => .next s

/-- DDR5_REINIT_END (R79): the devices run on their kept training values; a fitted channel without any stays fenced. -/
def execDdr5ReinitEnd (s : State) : Result :=
  match s.boot.step with
  | .ddr5Reinit => .next ((s.fenceUntrained.put Obj.ddr5ChannelsInUse s.boot.trained).bootTo .ddr5Wipe 4)
  | _ => .next s

/-- DDR5_WIPE_END (R75, R79): the sequence goes on once the SRAM wipe has ended too. -/
def execDdr5WipeEnd (s : State) : Result :=
  match s.boot.step with
  | .ddr5Wipe =>
    if s.boot.ddr5Wiped then .next s
    else
      let s := { s with boot := { s.boot with ddr5Wiped := true } }
      if s.boot.sramWiping then .next s else .next s.wipesEnded
  | _ => .next s

/-! ### Pin states (R69) -/

/-- The columns of the table Pin states (R69), and the boundary register, which the pins follow while an instruction that drives
them is loaded (R469). -/
inductive PinColumn where
  | absent | held | running | boundary
  deriving DecidableEq, Repr

/-- The column that holds. The pins run from the start of training on, and in READY; R69 names the rest held (DEDUCED). -/
def State.pinColumn (s : State) : PinColumn :=
  if !s.boot.powered then .absent
  else if s.pins.tap ≠ .testLogicReset then .boundary
  else if 3 ≤ s.obj? Obj.bootState ∧ s.obj? Obj.bootState ≤ 6 then .running
  else .held

/-! ### Life cycle (R81, R82) -/

/-- The transitions of the table Life-cycle transitions: whether one exists, and whether it needs a record. -/
def lifeTransition (present target : Nat) : Option Bool :=
  if present = 0 ∧ target = 1 then some true
  else if present = 1 ∧ target = 2 then some true
  else if present = 2 ∧ target = 3 then some false
  else if present < 4 ∧ target = 4 then some false
  else none

/-- LIFE_AUTHORISATION holds a record for a transition, its signature apart (R81). -/
def State.lifeRecord (s : State) (target : Nat) : Bool :=
  let b := s.bytes Obj.lifeAuthorisation 0 16
  beAt b 0 8 == s.obj? Obj.deviceSerial && beAt b 8 1 == s.boot.fuses && beAt b 9 1 == target && beAt b 10 6 == 0

/-- A request of the right form judged (R81, R82). A second request while the fuses are being blown is not allowed
(DESIGN CHOICE). -/
def State.lifeRequest (s : State) (target : Nat) (signatureGood : Bool) : State :=
  let reject := fun code => (s.put Obj.lifeRequestStatus code).flag Obj.lifeSummary 2
  if s.boot.blowing.isSome then s.flag Obj.lifeSummary 2
  else match lifeTransition s.boot.fuses target with
    | none => reject 2
    | some needs =>
      if needs && !(s.lifeRecord target && signatureGood) then reject 3
      else ({ s with boot := { s.boot with blowing := some target } } : State).put Obj.lifeRequestStatus 1

/-- FUSE_BLOW_END (R82): a cold reset follows as a life-cycle change. -/
def execFuseBlowEnd (s : State) : Result :=
  match s.boot.blowing with
  | some t => .next ({ s with boot := { s.boot with fuses := t } }.beginReset .lifeChange 5)
  | none => .next s

/-- The life-cycle fuses after a loss of power: where they are being blown, they read as the old state or the new one (R82); which is a
free value. -/
def State.fusesAtLoss (s : State) : Nat × State :=
  match s.boot.blowing with
  | some t =>
    let (x, s) := s.free 1
    (if x = 1 then t else s.boot.fuses, s)
  | none => (s.boot.fuses, s)

/-- POWER_REMOVAL (R66): VDD_AON leaves its range; the device is unpowered and keeps its fuses alone. Alone while a rail of
group 2 or 3 is in range, it is UB-BOOT-2. -/
def execPowerRemoval (every : Bool) (s : State) : Result :=
  if !every && bits (s.obj? Obj.railStatus) 6 2 != 0 then undefinedCase "UB-BOOT-2"
  else
    let (f, s) := s.fusesAtLoss
    .next { State.reset with
      pending := s.pending, freeIx := s.freeIx, pins := s.pins,
      boot := { State.reset.boot with powered := false, fuses := f } }

end Sys2Proof.Machine
end

