-- ==== Sys2Proof/Machine/Links.lean ====
section
/-! DEFINITION. Port shapes, bringing a link up and down, pauses, and starting transmission (R105-R113, R121-R128). -/

namespace Sys2Proof.Machine

/-! ### Port shapes (R105-R107) -/

/-- The table Port speeds by code: rate in Mb/s, lanes, and the FEC codes allowed as a bit mask. -/
def speedRows : List (Nat × Nat × Nat) :=
  [(0, 0, 0), (1000, 1, 1), (10000, 1, 3), (25000, 1, 7), (40000, 4, 3), (50000, 2, 5), (50000, 2, 8), (50000, 1, 8),
   (100000, 4, 5), (100000, 4, 8), (100000, 2, 8), (100000, 1, 8), (200000, 4, 8), (200000, 2, 8), (200000, 1, 8),
   (400000, 8, 8), (400000, 4, 8), (400000, 2, 8), (800000, 8, 8), (800000, 4, 8)]

/-- The data rate of a row, in Mb/s. -/
def rowRate (r : Nat) : Nat := (speedRows.getD r (0, 0, 0)).1

/-- The lanes of a row. -/
def rowLanes (r : Nat) : Nat := (speedRows.getD r (0, 0, 0)).2.1

/-- A row allows a FEC code. -/
def rowAllows (r fec : Nat) : Bool := bit (speedRows.getD r (0, 0, 0)).2.2 fec

/-- Rows a port may offer: those of AN_ABILITY with its lane count (R110). -/
def State.offeredRows (s : State) (p : Nat) : List Nat :=
  (bitList 20 (s.inForce (Obj.anAbility p))).filter fun r => 1 ≤ r && rowLanes r == s.inForce (Obj.portWidth p)

/-- A port's written settings meet R105 and R107. -/
def State.portShapeGood (s : State) (p : Nat) : Bool :=
  let w := s.obj? (Obj.portWidth p)
  let f := s.obj? (Obj.portFirstLane p)
  let shape := (w == 1 || w == 2 || w == 4 || w == 8) && f % w == 0 && f + w ≤ 8
  let r := s.obj? (Obj.portSpeed p)
  if s.obj? (Obj.anEnable p) = 0 then shape && 1 ≤ r && rowLanes r == w && rowAllows r (s.obj? (Obj.fecMode p))
  else shape && (((bitList 20 (s.obj? (Obj.anAbility p))).any fun r => 1 ≤ r && rowLanes r == w) ||
    (w == 1 && s.obj? (Obj.pdRates p) != 0))

/-- The front lanes of a port by its written settings (R105). -/
def State.portLanes (s : State) (p : Nat) : List Nat :=
  (List.range (s.obj? (Obj.portWidth p))).map fun i => p / 8 * 8 + s.obj? (Obj.portFirstLane p) + i

/-! ### Link states (table Link states) -/

/-- LINK_STATE of a port. -/
def State.link (s : State) (p : Nat) : Nat := s.obj? (Obj.linkState p)

/-- LINK_STATE set. -/
def State.setLink (s : State) (p v : Nat) : State := s.put (Obj.linkState p) v

/-- The row in use no longer shows (SPEED_IN_USE, PORT_DATA_RATE, FEC_IN_USE). -/
def State.clearSpeed (s : State) (p : Nat) : State :=
  ((s.put (Obj.speedInUse p) 0).put (Obj.portDataRate p) 0).put (Obj.fecInUse p) 0

/-- Training, or what stands for it where TRAINING_MODE is 1 (R112). -/
def State.toTraining (s : State) (p : Nat) : State := s.setLink p (if s.inForce (Obj.trainingMode p) = 1 then 4 else 3)

/-- Bring-up of a link (R109). -/
def State.startLink (s : State) (p : Nat) : State :=
  let s := s.clearSpeed p
  let s := s.setPort p fun x => { x with exchanged := false }
  if s.inForce (Obj.anEnable p) = 1 then s.setLink p 1
  else
    let r := s.inForce (Obj.portSpeed p)
    let f := s.inForce (Obj.fecMode p)
    (s.setPort p fun x => { x with row := r, fec := f, anResult := 3 }).toTraining p

/-- A port in OFF or FENCED has no link (R109). -/
def State.disableLink (s : State) (p : Nat) : State :=
  ((s.clearSpeed p).setPort p fun x => { x with holdRunning := false, remoteFault := false, exchanged := false }).setLink p 0

/-! ### Pauses (R121-R123) -/

/-- A pause of a class that is not paused. -/
def Pause.none : Pause := { paused := false, quanta := 0, ignoring := false }

/-- The pause state of a class on a port. -/
def State.pause (s : State) (p c : Nat) : Pause := (s.port p).pauses.getD c .none

/-- The pause state of a class set, and PAUSED_CLASSES with it. -/
def State.setPause (s : State) (p c : Nat) (f : Pause → Pause) : State :=
  let s := s.setPort p fun x => { x with pauses := modifyAt x.pauses c f }
  s.put (Obj.pausedClasses p) (((List.range 8).map fun i => if (s.pause p i).paused then 2 ^ i else 0).sum)

/-- A class's pause timer takes a time in quanta; 0 ends the pause (R122). Control frames ignored under R123 change
nothing. -/
def State.pauseFor (s : State) (p c quanta : Nat) : State :=
  if (s.pause p c).ignoring then s
  else s.setPause p c fun x => { x with paused := quanta != 0, quanta := quanta }

/-! ### Modes (R89) -/

/-- The port-scoped modes in force for a port: its settings, while its function reads RUN. -/
def State.modesAt (s : State) (p : Nat) : PortModes :=
  let on := fun key => s.runs p && s.inForce key == 1
  { cut := on (Obj.cutEnable p), learn := on (Obj.learnEnable p), time := on (Obj.timeEnable p) }

/-! ### Starting transmission -/

/-- CIPHER is in force on a port's settings. -/
def State.cipherOn (s : State) (p : Nat) : Bool := s.inForce (Obj.cipherEnable p) == 1

/-- Frames may start on a port: its function is in RUN with the link UP (R97, R304), and on a CIPHER port so is the cipher
of its group. -/
def State.mayTransmit (s : State) (p : Nat) : Bool :=
  s.ready && s.link p == 5 && s.runs p && (!s.cipherOn p || s.runs (Fn.cipherNo (p / 8)))

/-- The copy that starts next on a port: the first selected one whose class is not paused (R122, R126). -/
def State.nextToStart (s : State) (p : Nat) : Option Copy := (s.selected p).find? fun c => !(s.pause p c.cls).paused

/-- The frame of a copy has arrived whole. -/
def State.copyComplete (s : State) (c : Copy) : Bool := ((s.frame? c.frame).map Frame.complete).getD true

/-! ### Protecting a frame (R351-R354) -/

/-- The SecY configuration in force of a port (field map SecY configuration). -/
def State.secy (s : State) (p : Nat) : Nat := s.inForce (Obj.secyConfig p)

/-- SUITE is an XPN suite. -/
def secyXpn (c : Nat) : Bool := bit c 255
/-- SUITE uses keys of 256 bits. -/
def secy256 (c : Nat) : Bool := bit c 254

/-- A frame's Ethertype is one of the uncontrolled port (R357). -/
def secyBypass (c : Nat) (b : List Byte) : Bool :=
  let e := beAt b 12 2
  e != 0 && (bits c 127 112 == e || bits c 111 96 == e || bits c 95 80 == e || bits c 79 64 == e)

/-- A counter of SECY_COUNTERS incremented. -/
def State.secyCount (s : State) (p i : Nat) : State :=
  let off := 128 * p + 8 * i
  s.putBytes Obj.secyCounters off (toBe 8 (beNat (s.bytes Obj.secyCounters off 8) + 1))

/-- An SA record (field map SA record). -/
def State.saRecord (s : State) (i : Nat) : Nat := s.record Obj.saTable 32 i

/-- The key in a slot of the key store: every slot reads empty while it is fenced (table Units). -/
def State.keyAt (s : State) (slot : Nat) : Option Key := if s.keyStoreFenced then none else Sparse.find? s.cipher.keys slot

/-- The key of an SA, where it is VALID and its slot holds a key of the suite's length. -/
def State.saKey (s : State) (c r : Nat) : Option Key :=
  if bit r 255 then (s.keyAt (bits r 254 243)).filter fun k => k.is256 == secy256 c else none

/-- NEXT_PN of an SA record. -/
def saPn (c r : Nat) : Nat := if secyXpn c then bits r 191 128 else bits r 159 128

/-- NEXT_PN of an SA record set; a NEXT_PN that has passed the suite's largest PN reads 0 (DESIGN CHOICE: the field can hold no
larger value). -/
def State.putPn (s : State) (c i pn : Nat) : State :=
  s.putBytes Obj.saTable (32 * i + 8) (toBe 8 (if secyXpn c then pn else pn % 2 ^ 32))

/-- The transmit SA of a port taken for a frame that starts (R354): what the frame latches, or nothing where the SA cannot be
used. NEXT_PN increases in the same clock. -/
def State.takeSeal (s : State) (p : Nat) : Option (State × Seal) :=
  let c := s.secy p
  let an := s.obj? (Obj.txEncodingAn p)
  let i := 20 * p + an % 4
  let r := s.saRecord i
  let pn := saPn c r
  match s.saKey c r with
  | none => none
  | some k =>
    if pn = 0 then none
    else
      let warn := if secyXpn c then 0xC000000000000000 else 0xC0000000
      let s := s.putPn c i (pn + 1)
      let s := if pn ≤ warn ∧ warn < pn + 1 then s.flag Obj.cipherSummary 2 else s
      some (s, { config := c, record := r, an := an, pn := pn, key := k })

/-- A selected copy starts to transmit on a port: none where its transmit SA cannot be used, which ends it with 0xB5. -/
def State.beginTx (s : State) (p : Nat) (c : Copy) (cut : Bool) : State :=
  let go := fun (s : State) (protect : Option Seal) =>
    let stamp := s.time + s.obj? (Obj.txPhyDelayNs p)
    let timed := (s.modesAt p).time
    (s.setCopy c.id fun x => { x with loc := .transmit p }).setPort p fun x =>
      { x with tx := some { copy := c.id, cut := cut, protect := protect, stamp := stamp, timed := timed } }
  if !s.cipherOn p then go s none
  else if secyBypass (s.secy p) c.edited then go (s.secyCount p 9) none
  else match s.takeSeal p with
    | some (s, x) => go (s.secyCount p 8) (some x)
    | none => (s.secyCount p 10).endAtPort p c.id 0xB5

/-- A port whose MAC is free starts the next selected frame that is held whole, passing over those that it ends. -/
def State.startNext (s : State) (p : Nat) : Nat → State
  | 0 => s
  | n + 1 =>
    if s.mayTransmit p ∧ (s.port p).tx = none then
      match s.nextToStart p with
      | some c => if s.copyComplete c then (s.beginTx p c false).startNext p n else s
      | none => s
    else s

/-- A port whose MAC is free starts the next selected frame that is held whole. -/
def State.startTx (s : State) (p : Nat) : State := s.startNext p ((s.selected p).length + 1)

/-- The ports of a list start what waits for them. -/
def State.startPorts (s : State) (ps : List Nat) : State := ps.foldl (fun s p => s.startTx p) s

/-- The ports for which a frame's copies are selected. -/
def State.selectedPorts (s : State) (frame : Nat) : List Nat :=
  ((s.copies.filter fun c => c.frame == frame).filterMap fun c =>
    match c.loc with
    | .selected p => some p
    | _ => none).eraseDups

/-- A frame ends with a condition, and the ports that had selected it go on with what waits behind it. -/
def State.loseFrame (s : State) (frame code headCode : Nat) : State :=
  (s.failFrame frame code headCode).startPorts (s.selectedPorts frame)

/-! ### Link loss (R126-R128) -/

/-- The link leaves HOLDING without reaching UP (table Link states). -/
def State.leaveHolding (s : State) (p : Nat) : State := if s.link p = 6 then s.startLink p else s

/-- The flush of R126 step 5. -/
def State.linkDownFlush (s : State) (p : Nat) : State :=
  let s := (s.flushPort p 0x0C).flag (Obj.portFlags p) 7
  s.setPort p fun x => { x with flushed := true, holdRunning := false }

/-- The frame in reception on a port ends with a code (R126), or with the one that its head has met first (R115). -/
def State.endReception (s : State) (p code headCode : Nat) : State :=
  let x := s.port p
  if x.rxActive then
    let s := s.setPort p fun x => { x with rxActive := false, rxFrame := none, rxBytes := [], rxCode := none, rxLater := none, rxSeal := none }
    match x.rxFrame with
    | some f => (s.rxCode p code).loseFrame f code headCode
    | none => (s.rxCode p (x.rxCode.getD code)).code (s.portPipe p) (x.rxCode.getD code)
  else s

/-! ### The commands -/

/-- The row that both ends name (R110): the highest rate, and of equal rates the lowest code. -/
def commonRow (own partner : List Nat) : Option Nat :=
  (own.filter fun r => partner.contains r).foldl (fun best r =>
    match best with
    | none => some r
    | some b => if rowRate b < rowRate r then some r else some b) none

/-- The FEC of a negotiated row (R110). -/
def resolvedFec (r : Nat) (pages : Pages) : Nat :=
  if rowAllows r 3 then 3
  else if rowAllows r 2 ∧ pages.requestsRs528 then 2
  else if rowAllows r 1 ∧ pages.requestsBaseR then 1
  else 0

/-- PAGES_RECEIVED (R110, R111, R126, R128). -/
def execPagesReceived (port : Port) (pages : Pages) (s : State) : Result :=
  let p := port.val
  if !s.ready then .next s
  else if s.link p = 1 then
    let s := s.put (Obj.partnerBasePage p) pages.basePage.toNat
    match commonRow (s.offeredRows p) (bitList 20 pages.rows.toNat) with
    | none => .next ((s.flag (Obj.portFlags p) 11).setPort p fun x => { x with exchanged := true })
    | some r => .next ((s.setPort p fun x => { x with row := r, fec := resolvedFec r pages, anResult := 1,
                                                      exchanged := false }).toTraining p)
  else if s.link p = 2 then .next ((s.put (Obj.partnerBasePage p) pages.basePage.toNat).setLink p 1)
  else if s.link p = 6 then
    let s := if s.runs p then s.linkDownFlush p else s
    .next (s.leaveHolding p)
  else .next s

/-- The first enabled parallel-detect rate from a place on, in the order of R111. -/
def State.nextRate (s : State) (p i : Nat) : Option Nat :=
  (bitList 3 (s.inForce (Obj.pdRates p))).find? fun b => i ≤ b

/-- AN_WAIT_EXPIRY (R110). -/
def execAnWaitExpiry (port : Port) (s : State) : Result :=
  let p := port.val
  if s.link p ≠ 1 then .next s
  else if (s.port p).exchanged then .next (s.setPort p fun x => { x with exchanged := false })
  else if s.inForce (Obj.portWidth p) = 1 then
    match s.nextRate p 0 with
    | some b => .next ((s.setPort p fun x => { x with tryRate := b }).setLink p 2)
    | none => .next s
  else .next s

/-- PD_DWELL_EXPIRY (R111). -/
def execPdDwellExpiry (port : Port) (s : State) : Result :=
  let p := port.val
  if s.link p ≠ 2 then .next s
  else match s.nextRate p ((s.port p).tryRate + 1) with
    | some b => .next (s.setPort p fun x => { x with tryRate := b })
    | none => .next (s.setLink p 1)

/-- RATE_DETECTED (R111): the link runs with no FEC and without training. -/
def execRateDetected (port : Port) (s : State) : Result :=
  let p := port.val
  if s.link p ≠ 2 then .next s
  else
    let row := if (s.port p).tryRate = 0 then 2 else if (s.port p).tryRate = 1 then 1 else 3
    .next ((s.setPort p fun x => { x with row := row, fec := 0, anResult := 2 }).setLink p 4)

/-- TRAINING_COMPLETE (R112). -/
def execTrainingComplete (port : Port) (s : State) : Result :=
  if s.link port.val = 3 then .next (s.setLink port.val 4) else .next s

/-- TRAINING_LIMIT_EXPIRY (R112). -/
def execTrainingLimitExpiry (port : Port) (s : State) : Result :=
  let p := port.val
  if s.link p ≠ 3 then .next s
  else
    let s := s.flag (Obj.portFlags p) 8
    if s.inForce (Obj.anEnable p) = 1 then .next (s.setLink p 1) else .next s

/-- LINK_UP (R109, R126): the row in use shows, and the queues resume. AN_RESULT is written here alone and outlives the link, FEC_IN_USE
shows 0 whenever the link is brought up anew, and HOLD_RESUMES counts every return from HOLDING, one without a hold timer included
(DESIGN CHOICE, log entry 109). -/
def execLinkUp (port : Port) (s : State) : Result :=
  let p := port.val
  if s.link p = 4 ∨ s.link p = 6 then
    let x := s.port p
    let s := if s.link p = 6 then s.bump32 (Obj.holdResumes p) else s
    let s := (s.setLink p 5).put (Obj.lastLinkChange p) s.time
    let s := ((s.put (Obj.speedInUse p) x.row).put (Obj.portDataRate p) (rowRate x.row)).put (Obj.fecInUse p) x.fec
    let s := s.put (Obj.anResult p) x.anResult
    .next ((s.setPort p fun y => { y with flushed := false, holdRunning := false, remoteFault := false }).startTx p)
  else .next s

/-- The link of a port is lost for a cause: it enters HOLDING (R113, R126, R127). Remote fault is received from then on, or no more, in
whatever state a link that is not DISABLED is. -/
def State.loseLink (s : State) (p : Nat) (cause : LossCause) : State :=
  let s := if s.link p = 0 then s else s.setPort p fun x => { x with remoteFault := cause == .remoteFault }
  if s.link p ≠ 5 then s
  else
    let s := ((s.setLink p 6).bump32 (Obj.linkDownCount p)).put (Obj.lastLinkChange p) s.time
    let s := s.flag (Obj.portFlags p) 1
    let s := (s.stomp p 0x0D).endReception p 0x05 0x05
    let s := s.clearPauses p
    let s := s.setPort p fun x => { x with holdRunning := s.runs p }
    if s.runs p ∧ s.obj? (Obj.holdTimeUs p) = 0 then (s.linkDownFlush p).leaveHolding p else s

/-- LINK_LOSS (R113, R126, R127). -/
def execLinkLoss (port : Port) (cause : LossCause) (s : State) : Result := .next (s.loseLink port.val cause)

/-- HOLD_TIME_EXPIRY (R126, R128). -/
def execHoldTimeExpiry (port : Port) (s : State) : Result :=
  let p := port.val
  if (s.port p).holdRunning ∧ s.runs p then .next ((s.linkDownFlush p).leaveHolding p) else .next s

/-- PAUSE_TIMER_EXPIRY (R122). -/
def execPauseTimerExpiry (port : Port) (cls : TrafficClass) (s : State) : Result :=
  let p := port.val
  if (s.pause p cls.val).paused then
    .next ((s.setPause p cls.val fun x => { x with paused := false, quanta := 0 }).startTx p)
  else .next s

/-- PAUSE_WATCHDOG_EXPIRY (R123). -/
def execPauseWatchdogExpiry (port : Port) (cls : TrafficClass) (s : State) : Result :=
  let p := port.val
  if (s.pause p cls.val).paused ∧ s.obj? (Obj.pauseWatchdogMs p cls.val) ≠ 0 then
    let s := s.setPause p cls.val fun x => { x with paused := false, quanta := 0, ignoring := true }
    let s := (s.bump32 (Obj.pauseWatchdogBreaks p)).flag (Obj.portFlags p) 5
    .next ((s.log { kind := 8, unit := 0x040 + p, detail := field 4 p + cls.val }).startTx p)
  else .next s

/-- PAUSE_WATCHDOG_IGNORE_END (R123). -/
def execPauseWatchdogIgnoreEnd (port : Port) (cls : TrafficClass) (s : State) : Result :=
  .next (s.setPause port.val cls.val fun x => { x with ignoring := false })

/-- The cut-through start threshold T of a port (R124, R284). -/
def State.cutThreshold (s : State) (p : Nat) : Nat := s.obj? (Obj.cutBaseBytes p) + 64 * s.obj? (Obj.underrunStep p)

/-- TRANSMIT_UNDERRUN (R124). -/
def execTransmitUnderrun (port : Port) (s : State) : Result :=
  let p := port.val
  match (s.port p).tx with
  | none => .next s
  | some t =>
    match s.copy? t.copy with
    | none => .next s
    | some c =>
      if t.cut ∧ ¬ s.copyComplete c then
        let raise := decide (s.cutThreshold p < s.inForce (Obj.maxFrame p))
        let s := ((s.stomp p 0x0B).flag (Obj.portFlags p) 6).put (Obj.cleanFrames p) 0
        let s := if raise then s.put (Obj.underrunStep p) (min (s.obj? (Obj.underrunStep p) + 1) 255) else s
        .next (s.startTx p)
      else .next s

/-- CLEAN_FRAMES_LIMIT (R125). -/
def execCleanFramesLimit (port : Port) (s : State) : Result :=
  let p := port.val
  if s.obj? (Obj.cleanFrames p) < 2 ^ 20 then .next s
  else .next ((s.put (Obj.underrunStep p) (s.obj? (Obj.underrunStep p) - 1)).put (Obj.cleanFrames p) 0)

/-! ### What writes to a port's action objects do -/

/-- UNDERRUN_STEP_RESET (R125). -/
def State.underrunStepReset (s : State) (p : Nat) : State := (s.put (Obj.underrunStep p) 0).put (Obj.cleanFrames p) 0

/-- `n` objects from a key set to 0. -/
def State.zeroFrom (s : State) (key n : Nat) : State := (List.range n).foldl (fun s i => s.put (key + i) 0) s

/-- STATS_CLEAR: 1 receive, 2 transmit, 3 both; the half-range bits are cleared with the counters (R133). -/
def State.statsClear (s : State) (p v : Nat) : State :=
  let s := if bit v 0 then (s.zeroFrom (Obj.rxOctetsOk p) 29).put (Obj.statsRxHalf p) 0 else s
  if bit v 1 then (s.zeroFrom (Obj.txOctetsOk p) 17).put (Obj.statsTxHalf p) 0 else s

end Sys2Proof.Machine
end

