-- ==== Sys2Proof/Machine/Parser.lean ====
section
/-! DEFINITION. The parser: header templates, the walk over a window of a frame, and what it finds (06). -/

namespace Sys2Proof.Machine

/-- A field of `width` bits at a wire bit offset of a byte string; bits from byte `limit` on read as zero (R139). -/
def wireField (b : List Byte) (limit off width : Nat) : Nat :=
  let n := (off % 8 + width + 7) / 8
  let v := beNat (padTo n (slice (b.take limit) (off / 8) n))
  v / 2 ^ (8 * n - off % 8 - width) % 2 ^ width

/-- A recorded header (R138). -/
structure Instance where
  template : Nat
  cls : Nat
  offset : Nat
  length : Nat
  level : Nat
  deriving DecidableEq, Repr

/-- How a walk ended. -/
inductive WalkEnd where
  | complete
  | stop (template offset level : Nat)
  | fail (code offset template : Nat)
  deriving DecidableEq, Repr

/-- A slow-path cause found by a walk: its code, and the header that raised it. -/
structure Cause where
  code : Nat
  offset : Nat
  template : Nat
  deriving DecidableEq, Repr

/-- What a walk has found so far: the header vector, its regions, outermost first, and the retained block. -/
structure Parse where
  instances : List Instance
  flags : Nat
  causes : List Cause
  regions : List Nat
  lateRegion : Option Nat
  retained : List Byte
  fragment : Bool
  ended : WalkEnd
  deriving DecidableEq, Repr

/-- What a walk reads: the frame, the window, and the settings latched for the frame (R137, R143, R156). -/
structure ParseInput where
  bytes : List Byte
  windowStart : Nat
  windowEnd : Nat
  /-- the frame end, where it lies within the window -/
  frameEnd : Option Nat
  startLevel : Nat
  checksum : Bool
  template : Nat → Nat
  transition : Nat → Nat

/-- VALID of a template (field map Template). -/
def tplValid (t : Nat) : Bool := bit t 127
/-- CLASS; codes 13–15 act as 0. -/
def tplClass (t : Nat) : Nat := if 12 < bits t 126 123 then 0 else bits t 126 123
/-- COUNT_INSTANCE. -/
def tplCount (t : Nat) : Bool := bit t 122
/-- TERMINAL. -/
def tplTerminal (t : Nat) : Bool := bit t 121
/-- UNKNOWN_ACTION; 3 acts as 2. -/
def tplUnknown (t : Nat) : Nat := min (bits t 120 119) 2
/-- SLOW_PATH. -/
def tplSlow (t : Nat) : Bool := bit t 118
/-- FIXED_LEN. -/
def tplFixed (t : Nat) : Nat := bits t 117 110
/-- LEN_FIELD_WIDTH. -/
def tplLenWidth (t : Nat) : Nat := bits t 98 95
/-- NEXT_FIELD_WIDTH; 17–31 act as 16. -/
def tplNextWidth (t : Nat) : Nat := min (bits t 72 68) 16
/-- REGION_FIELD_WIDTH; 17–31 act as 16. -/
def tplRegionWidth (t : Nat) : Nat := min (bits t 56 52) 16
/-- RETAIN_BYTES; 17–31 act as 16. -/
def tplRetain (t : Nat) : Nat := min (bits t 31 27) 16

/-- The bytes up to the last bit of a field, 0 for a field of width 0. -/
def fieldReach (off width : Nat) : Nat := if width = 0 then 0 else (off + width + 7) / 8

/-- field_bytes of R143. -/
def tplFieldBytes (t : Nat) : Nat :=
  max (fieldReach (bits t 109 99) (tplLenWidth t))
    (max (fieldReach (bits t 83 73) (tplNextWidth t)) (fieldReach (bits t 67 57) (tplRegionWidth t)))

/-- A field of a header at an offset of the frame. -/
def ParseInput.field (i : ParseInput) (off w width : Nat) : Nat := wireField i.bytes i.windowEnd (8 * off + w) width

/-- header_length of R143. -/
def ParseInput.headerLength (i : ParseInput) (t off : Nat) : Nat :=
  if tplLenWidth t = 0 then tplFixed t
  else i.field off (bits t 109 99) (tplLenWidth t) * 2 ^ bits t 94 92 + bits t 91 84

/-- first_match of R141 over entries from a place on. -/
def ParseInput.match_ (i : ParseInput) (v : Nat) : Nat → Nat → Option Nat
  | _, 0 => none
  | base, n + 1 =>
    let e := i.transition base
    if bit e 63 ∧ Nat.land v (bits e 15 0) = Nat.land (bits e 31 16) (bits e 15 0) then some e
    else i.match_ v (base + 1) n

/-- An offset lies beyond a frame end that is known. -/
def ParseInput.beyondFrame (i : ParseInput) (off : Nat) : Bool :=
  match i.frameEnd with
  | some e => e < off
  | none => false

/-- The internet checksum of an IPv4 header comes out right. -/
def checksumGood (b : List Byte) : Bool :=
  let rec sum : List Byte → Nat
    | x :: y :: r => 256 * x.toNat + y.toNat + sum r
    | [x] => 256 * x.toNat
    | [] => 0
  let v := sum b
  v != 0 && v % 65535 == 0

/-- Recording an instance would break a limit of R144. -/
def Parse.full (p : Parse) (startLevel cls level : Nat) : Bool :=
  24 ≤ p.instances.length || (cls == 3 && 16 ≤ (p.instances.filter fun x => x.cls == 3).length) ||
    (cls == 2 && 3 ≤ (p.instances.filter fun x => x.cls == 2).length) || startLevel + 3 < level

/-- An instance recorded, its bytes retained (R148), and its slow-path cause raised. -/
def ParseInput.record (i : ParseInput) (p : Parse) (no t off hl level : Nat) : Parse :=
  let want := (List.range (tplRetain t)).map fun k => BitVec.ofNat 8 (i.field (off + bits t 37 32 + k) 0 8)
  let room := 64 - p.retained.length
  { p with
    instances := p.instances ++ [{ template := no, cls := tplClass t, offset := off, length := hl, level := level }],
    retained := p.retained ++ want.take room,
    flags := if room < want.length then setBit p.flags 8 else p.flags,
    causes := if tplSlow t then p.causes ++ [{ code := 0x2B, offset := off, template := no }] else p.causes }

/-- A walk ended. -/
def Parse.finish (p : Parse) (e : WalkEnd) : Parse := { p with ended := e }

/-- An offset lies beyond the innermost open region. -/
def Parse.beyondRegion (p : Parse) (off : Nat) : Bool :=
  match p.regions.getLast? with
  | some e => e < off
  | none => false

/-- The region a header declares opened (R145): none where that fails. -/
def ParseInput.openRegion (i : ParseInput) (p : Parse) (t off hl : Nat) : Option Parse :=
  if tplRegionWidth t = 0 then some p
  else
    let r := i.field off (bits t 67 57) (tplRegionWidth t)
    let e := if bit t 51 then off + hl + r else off + r
    if e < off + hl ∨ p.beyondRegion e ∨ i.beyondFrame e then none
    else
      let late := if i.frameEnd.isNone ∧ i.windowEnd < e then some (max e (p.lateRegion.getD 0)) else p.lateRegion
      some { p with regions := p.regions ++ [e], lateRegion := late }

/-- A fragment mark (R149): the first of a pass sets the flags. -/
def Parse.markFragment (p : Parse) (offset : Nat) (more : Bool) : Parse :=
  if p.fragment then p
  else if offset ≠ 0 then { p with flags := setBit p.flags 3, fragment := true }
  else if more then { p with flags := setBit p.flags 2, fragment := true }
  else p

/-- IP options noted: the flag, and slow-path cause 0x28 (R150). -/
def Parse.options (p : Parse) (no off : Nat) : Parse :=
  { p with flags := setBit p.flags 4, causes := p.causes ++ [{ code := 0x28, offset := off, template := no }] }

/-- The fixed behaviour of the class of a template entered (R142, R143): what the walk holds after it, and whether it ends. The flags
tell of recorded headers alone (table Parse flags): a decision node raises its cause and ends the walk without them. -/
def ParseInput.applyClass (i : ParseInput) (p : Parse) (no t off hl : Nat) : Parse × Bool :=
  let (q, done) :=
    if tplClass t = 4 then
      let p := if 20 < hl then p.options no off else p
      let o := i.field off 51 13
      (p.markFragment o (i.field off 50 1 == 1), o != 0)
    else if tplClass t = 6 then (p.options no off, false)
    else if tplClass t = 8 then
      let o := i.field off 16 13
      (p.markFragment o (i.field off 31 1 == 1), o != 0)
    else if tplClass t = 12 then (if i.field off 4 4 < 4 then { p with flags := setBit p.flags 6 } else p, false)
    else (p, false)
  (if tplCount t then q else { q with flags := p.flags, fragment := p.fragment }, done)

/-- An IPv4 header whose checksum is checked and wrong. -/
def ParseInput.badChecksum (i : ParseInput) (t off hl : Nat) : Bool :=
  i.checksum && tplClass t == 4 && !checksumGood (slice (i.bytes.take i.windowEnd) off hl)

/-- unknown(tp) of R143. -/
def Parse.unknown (p : Parse) (no t off : Nat) : Parse :=
  if tplUnknown t = 0 then ({ p with flags := setBit p.flags 7 } : Parse).finish .complete
  else if tplUnknown t = 1 then
    ({ p with causes := p.causes ++ [{ code := 0x2A, offset := off, template := no }] } : Parse).finish .complete
  else p.finish (.fail 0x24 off no)

/-- The walk of one pass (R143). `steps` is what is left of the 32 templates a pass may enter. -/
def ParseInput.walk (i : ParseInput) : Nat → Parse → Nat → Nat → Nat → Parse
  | 0, p, no, off, level => p.finish (.stop no off level)
  | steps + 1, p, no, off, level =>
    let t := i.template no
    if !tplValid t then p.finish (.fail 0x24 off no)
    else if i.beyondFrame (off + tplFieldBytes t) then p.finish (.fail (if p.regions.isEmpty then 0x21 else 0x20) off no)
    else if i.windowEnd < off + tplFieldBytes t then
      p.finish (if off = i.windowStart then .fail 0x25 off no else .stop no off level)
    else
      let hl := i.headerLength t off
      if hl < tplFixed t then p.finish (.fail 0x20 off no)
      else if i.beyondFrame (off + hl) then p.finish (.fail (if p.regions.isEmpty then 0x21 else 0x20) off no)
      else if p.beyondRegion (off + hl) then p.finish (.fail 0x20 off no)
      else if i.windowEnd < off + hl then
        p.finish (if off = i.windowStart then .fail 0x25 off no else .stop no off level)
      else if tplCount t ∧ p.full i.startLevel (tplClass t) level then p.finish (.stop no off level)
      else
        let p := if tplCount t then i.record p no t off hl level else p
        match i.openRegion p t off hl with
        | none => p.finish (.fail 0x20 off no)
        | some p =>
          if i.badChecksum t off hl then p.finish (.fail 0x23 off no)
          else
            let (p, done) := i.applyClass p no t off hl
            if done ∨ tplTerminal t then p.finish .complete
            else
              let v := i.field off (bits t 83 73) (tplNextWidth t)
              match i.match_ v (bits t 50 42) (bits t 41 38) with
              | none => p.unknown no t off
              | some e => i.walk steps p (bits e 61 56) (off + hl) (level + b2n (bit e 62))

/-- Where a pass starts: template, offset, tunnel level and innermost region end carried (R143, R147). -/
structure ParseStart where
  template : Nat
  offset : Nat
  level : Nat
  region : Option Nat
  continued : Bool
  retained : List Byte
  deriving DecidableEq, Repr

/-- The window and frame end of a pass (R137). The frame end is known once it lies within the window. -/
def parseInput (bytes : List Byte) (complete : Bool) (start level : Nat) (checksum : Bool) (tpl tr : Nat → Nat) :
    ParseInput :=
  let fe := bytes.length - 4
  let known := complete && fe ≤ start + 256
  { bytes := bytes, windowStart := start, windowEnd := if known then fe else start + 256,
    frameEnd := if known then some fe else none, startLevel := level, checksum := checksum, template := tpl,
    transition := tr }

/-- The flags judged once the walk has ended (R138). -/
def ParseInput.endFlags (i : ParseInput) (p : Parse) (stored : Nat) (continued : Bool) : Parse :=
  let f := match p.ended with
    | .stop _ _ _ => setBit p.flags 0
    | _ => p.flags
  let f := match i.frameEnd, p.regions.head? with
    | some e, some r => if r + 4 < e ∧ 64 < stored then setBit f 5 else f
    | _, _ => f
  { p with flags := if continued then setBit f 9 else f }

/-- One pass over a frame. -/
def parsePass (bytes : List Byte) (complete checksum : Bool) (tpl tr : Nat → Nat) (st : ParseStart) : Parse :=
  let i := parseInput bytes complete st.offset st.level checksum tpl tr
  let p : Parse := { instances := [], flags := 0, causes := [], regions := st.region.toList, lateRegion := none,
                     retained := st.retained, fragment := false, ended := .complete }
  i.endFlags (i.walk 32 p st.template st.offset st.level) bytes.length st.continued

/-! ### The graph copies (R155) -/

/-- The template of a graph copy, A (false) or B. -/
def State.graphTemplate (s : State) (b : Bool) (n : Nat) : Nat :=
  s.record (if b then Obj.templatesB else Obj.templatesA) 16 (n % 64)

/-- The transition entry of a graph copy. -/
def State.graphTransition (s : State) (b : Bool) (n : Nat) : Nat :=
  s.record (if b then Obj.transitionsB else Obj.transitionsA) 8 (n % 512)

/-- A frame that has been granted its first pass and awaits a further one uses its graph copy (R155). -/
def Frame.usesGraph (f : Frame) : Bool :=
  match f.loc with
  | .recirc _ => true
  | .replay _ => f.stamp.isSome
  | .searching _ _ => true
  | _ => false

/-- A graph copy is busy (R155). -/
def State.graphBusy (s : State) (b : Bool) : Bool :=
  (s.obj? Obj.parseGraphSelect == b2n b) || s.frames.any fun f => f.graphB == b && f.usesGraph

/-- PARSE_GRAPH_BUSY. -/
def State.graphBusyBits (s : State) : Nat := b2n (s.graphBusy false) + 2 * b2n (s.graphBusy true)

/-- A valid template of a copy reaches beyond its transitions: UB-PAR-1 once the copy is selected. -/
def State.graphOverruns (s : State) (b : Bool) : Bool :=
  (List.range 64).any fun n =>
    let t := s.graphTemplate b n
    tplValid t && 512 < bits t 50 42 + bits t 41 38

/-- The length of a header of a class: LEN_FIELD_BIT, LEN_FIELD_WIDTH, LEN_SCALE, LEN_ADD and FIXED_LEN as its template must have them, with
the alternatives; none where the class names no header. -/
def classLengths (cls : Nat) : List (Nat × Nat × Nat × Nat × Nat) :=
  if cls = 1 then [(0, 0, 0, 0, 14)]
  else if cls = 2 ∨ cls = 3 then [(0, 0, 0, 0, 4)]
  else if cls = 4 then [(4, 4, 2, 0, 20)]
  else if cls = 5 then [(0, 0, 0, 0, 40)]
  else if cls = 6 then [(8, 8, 3, 8, 8)]
  else if cls = 7 then [(8, 8, 3, 8, 8), (8, 8, 2, 8, 8)]
  else if cls = 8 ∨ cls = 9 ∨ cls = 11 then [(0, 0, 0, 0, 8)]
  else if cls = 10 then [(96, 4, 2, 0, 20)]
  else if cls = 12 then [(0, 0, 0, 0, 34)]
  else []

/-- The next-header field of a class that has one, and its length field with whether it counts from the header's end. -/
def classFields (cls : Nat) : Option (Nat × Nat) × Option (Nat × Nat × Bool) :=
  if cls = 1 then (some (96, 16), none)
  else if cls = 2 then (some (16, 16), none)
  else if cls = 4 then (some (72, 8), some (16, 16, false))
  else if cls = 5 then (some (48, 8), some (32, 16, true))
  else if cls = 6 ∨ cls = 7 ∨ cls = 8 then (some (0, 8), none)
  else if cls = 9 then (none, some (32, 16, false))
  else (none, none)

/-- A valid template of classes 1-12 has a length, or where it uses them a next or region field, other than its header's: UB-PAR-2 once
its copy is selected. Which fields make up the layout is not said beyond that (DESIGN CHOICE, log entry 11). -/
def tplMisfits (t : Nat) : Bool :=
  let cls := tplClass t
  let w := tplLenWidth t
  let has := (if w = 0 then 0 else bits t 109 99, w, if w = 0 then 0 else bits t 94 92, if w = 0 then 0 else bits t 91 84, tplFixed t)
  let next := tplTerminal t || tplNextWidth t == 0 || (classFields cls).1.all fun f => f == (bits t 83 73, tplNextWidth t)
  let region := tplRegionWidth t == 0 || (classFields cls).2 == some (bits t 67 57, tplRegionWidth t, bit t 51)
  tplValid t && cls != 0 && !((classLengths cls).contains has && next && region)

/-- A copy of the graph holds such a template. -/
def State.graphMisfits (s : State) (b : Bool) : Bool := (List.range 64).any fun n => tplMisfits (s.graphTemplate b n)

/-- STANDARD_GRAPH_LOAD: the standard graph in the copy that is not selected (R155). -/
def State.loadStandardGraph (s : State) : State :=
  let b := s.obj? Obj.parseGraphSelect == 0
  let s := s.putBytes (if b then Obj.templatesB else Obj.templatesA) 0
    ((List.range 64).flatMap fun n => toBe 16 (Defaults.standardTemplates.getD n 0))
  s.putBytes (if b then Obj.transitionsB else Obj.transitionsA) 0
    ((List.range 512).flatMap fun n => toBe 8 (Defaults.standardTransitions.getD n 0))

end Sys2Proof.Machine
end

