-- ==== Sys2Proof/Machine/Em.lean ====
section
/-! DEFINITION. The exact-match store: hashing, placement, filters, the table commands of ring 8, repair, and learning
(R160-R191). -/

namespace Sys2Proof.Machine

/-! ### Keys and hashes (R162-R164) -/

/-- A key type whose unit is double (table Key types). -/
def wideKey (t : Nat) : Bool := t == 2 || t == 4

/-- A prefix key type. -/
def prefixKey (t : Nat) : Bool := t == 1 || t == 2

/-- The key bits a type names (R162). -/
def keyMask (t : Nat) : Nat :=
  match t with
  | 1 => 2 ^ 78 - 2 ^ 28
  | 2 => 2 ^ 156 - 2 ^ 10
  | 3 => (2 ^ 14 - 1) * 2 ^ 64 + (2 ^ 32 - 1)
  | 4 => (2 ^ 14 - 1) * 2 ^ 142 + (2 ^ 128 - 1)
  | 5 => (2 ^ 14 - 1) * 2 ^ 64 + (2 ^ 48 - 1)
  | 6 => (2 ^ 14 - 1) * 2 ^ 64 + (2 ^ 20 - 1)
  | _ => 0

/-- The LEN_INDEX of a prefix key. -/
def lenIndex (t key : Nat) : Nat := if t = 1 then bits key 63 60 else bits key 141 138

/-- The PROBE_LENGTH entry of family 0 (IPv4) or 1 (IPv6) and a LEN_INDEX (R177). -/
def State.probeEntry (s : State) (family j : Nat) : Nat := s.obj? (Obj.probeLength family j)

/-- The bytes K of a key (R163). -/
def hashInput (t key : Nat) : List Byte := if wideKey t then toBe 21 (t * 2 ^ 156 + key) else toBe 11 (t * 2 ^ 78 + key)

/-- H1 of a key in copy `q` (R163). -/
def State.hash1 (s : State) (q t key : Nat) : Nat := crcFrom 0x82F63B78 (s.obj? (Obj.emSeed1 q)) (hashInput t key)

/-- H2 of a key in copy `q` (R163). -/
def State.hash2 (s : State) (q t key : Nat) : Nat := crcFrom 0xEDB88320 (s.obj? (Obj.emSeed2 q)) (hashInput t key)

/-- The first unit number of bucket 1 of a key in copy `q` (R164). -/
def State.bucket1 (s : State) (q t key : Nat) : Nat :=
  let h := s.hash1 q t key
  h % 32 * 32768 + bits h 17 5 * 4

/-- The first unit number of bucket 2 (R164). -/
def State.bucket2 (s : State) (q t key : Nat) : Nat :=
  let h := s.hash2 q t key
  (32 + h % 32) * 32768 + bits h 17 5 * 4

/-! ### Where units stand (R160, R161) -/

/-- The first overflow unit's number. -/
def overflowBase : Nat := 2097152

/-- How many positions a unit fills. -/
def EmUnit.width (u : EmUnit) : Nat := if wideKey u.keyType then 2 else 1

/-- A unit fills a position. -/
def EmUnit.fills (u : EmUnit) (q n : Nat) : Bool := u.copy == q && u.n ≤ n && n < u.n + u.width

/-- The unit that fills a position. -/
def State.unitAt (s : State) (q n : Nat) : Option EmUnit := s.em.units.find? fun u => u.fills q n

/-- The units of a bucket, by position. -/
def State.bucketUnits (s : State) (q base : Nat) : List EmUnit :=
  ((List.range 4).filterMap fun i => s.unitAt q (base + i)).eraseDups

/-- The bank of a unit number is fenced (R166). -/
def State.emBankFenced (s : State) (q n : Nat) : Bool := s.fenced (0x280 + 64 * q + n / 32768)

/-- A position that no unit of a list fills. -/
def freeAt (us : List EmUnit) (q n : Nat) : Bool := us.all fun u => !u.fills q n

/-- The place for a unit of a width among positions from a base on, stepping by its width (R166). -/
def fitFrom (us : List EmUnit) (q w : Nat) : Nat → Nat → Option Nat
  | _, 0 => none
  | n, k + 1 => if freeAt us q n ∧ (w = 1 ∨ freeAt us q (n + 1)) then some n else fitFrom us q w (n + w) k

/-- The lowest place for a unit of a width in a bucket whose bank serves, among the units of a list. -/
def State.roomAmong (s : State) (us : List EmUnit) (q base w : Nat) : Option Nat :=
  if s.emBankFenced q base then none else fitFrom us q w base (4 / w)

/-- The lowest place for a unit of a width in a bucket. -/
def State.bucketRoom (s : State) (q base w : Nat) : Option Nat := s.roomAmong s.em.units q base w

/-- The number of free positions of a bucket. -/
def State.bucketFree (s : State) (q base : Nat) : Nat :=
  ((List.range 4).filter fun i => freeAt s.em.units q (base + i)).length

/-- Overflow positions of a copy in use: EM_OVERFLOW_IN_USE. -/
def State.overflowInUse (s : State) (q : Nat) : Nat :=
  ((s.em.units.filter fun u => u.copy == q && overflowBase ≤ u.n).map EmUnit.width).sum

/-- Bucket positions of a copy in use: EM_UNITS_IN_USE. -/
def State.unitsInUse (s : State) (q : Nat) : Nat :=
  ((s.em.units.filter fun u => u.copy == q && u.n < overflowBase).map EmUnit.width).sum

/-- The lowest place for a unit of a width in the overflow store: one past as many places as the store's units could fill
is always enough to look at. -/
def State.overflowRoom (s : State) (q w : Nat) : Option Nat :=
  fitFrom s.em.units q w overflowBase (min (16384 / w) (s.overflowInUse q + 1))

/-- The unit of a key visible in a slot of a copy, in the order of R169. -/
def State.emFind (s : State) (q slot t key : Nat) : Option EmUnit :=
  let us := s.em.units.filter fun u => u.copy == q && u.keyType == t && u.key == key && bit u.visible slot
  let rank := fun (u : EmUnit) =>
    if overflowBase ≤ u.n then 2 * 2 ^ 22 + u.n
    else if u.n / 4 * 4 = s.bucket1 q t key then u.n % 4
    else 2 ^ 22 + u.n % 4
  us.foldl (fun best u => match best with
    | none => some u
    | some v => if rank u < rank v then some u else some v) none

/-- The bits of a unit position as EM_COPY_VIEW shows it (field map Unit). -/
def State.unitView (s : State) (q n : Nat) : Nat :=
  match s.unitAt q n with
  | none => 0
  | some u =>
    let second := n != u.n
    field 125 (u.visible % 8) + field 120 (u.keyType % 32) +
      field 118 (if wideKey u.keyType then (if second then 2 else 1) else 0) +
      field 40 (if wideKey u.keyType then (if second then u.key % 2 ^ 78 else u.key / 2 ^ 78 % 2 ^ 78) else u.key % 2 ^ 78) +
      (if second then 0 else u.result % 2 ^ 40)

/-! ### Filters (R178) -/

/-- The filter bits of a prefix key in copy `q`. -/
def State.filterBits (s : State) (q t key : Nat) : List Nat :=
  let e := s.probeEntry (t - 1) (lenIndex t key)
  let m := (bits e 11 0 + 1) * 8192
  let h1 := s.hash1 q t key
  let h2 := s.hash2 q t key
  (List.range 4).map fun i => bits e 23 12 * 8192 + (h1 + i * h2) % 2 ^ 32 % m

/-- A filter count. -/
def State.filterCount (s : State) (q n : Nat) : Nat := (Sparse.find? s.em.bloom (q * 2 ^ 25 + n)).getD 0

/-- A filter count changed by one, up or down; a count that has reached 255 never decrements. -/
def State.filterStep (s : State) (q : Nat) (up : Bool) (n : Nat) : State :=
  let c := s.filterCount q n
  let c' := if up then min (c + 1) 255 else if c = 255 then 255 else c - 1
  { s with em := { s.em with bloom := Sparse.set (fun _ => 0) s.em.bloom (q * 2 ^ 25 + n) c' } }

/-- The filter counts of a key's bits changed. -/
def State.filterKey (s : State) (q t key : Nat) (up : Bool) : State :=
  if prefixKey t then (s.filterBits q t key).foldl (fun s n => s.filterStep q up n) s else s

/-! ### Placement (R166-R168) -/

/-- The other bucket of a unit that stands in a bucket. -/
def State.otherBucket (s : State) (u : EmUnit) : Nat :=
  let b1 := s.bucket1 u.copy u.keyType u.key
  if u.n / 4 * 4 = b1 then s.bucket2 u.copy u.keyType u.key else b1

/-- The hit bits of a copy moved with a unit (DESIGN CHOICE: a relocated unit keeps the hit bit of its position). -/
def moveHit (hits : List Nat) (q src dst : Nat) : List Nat :=
  if hits.contains (q * 2 ^ 22 + src) then (q * 2 ^ 22 + dst) :: hits.filter fun h => h != q * 2 ^ 22 + src else hits

/-- A unit moved to another place of its copy (R168). -/
def State.moveUnit (s : State) (u : EmUnit) (dst : Nat) : State :=
  { s with em := { s.em with
    units := s.em.units.map (fun v => if v = u then { u with n := dst } else v),
    hits := moveHit s.em.hits u.copy u.n dst } }

/-- A bucket on the frontier of the search: the width that wants room in it, and the moves that lead to it, the last
first. -/
structure ChainNode where
  bucket : Nat
  width : Nat
  path : List (EmUnit × Nat)
  deriving DecidableEq, Repr

/-- One bucket expanded: a chain found, or the buckets to look into next and the budget left. -/
def State.expandBucket (s : State) (q : Nat) (x : ChainNode) : List EmUnit → Nat → List ChainNode →
    Option (List (EmUnit × Nat)) × Nat × List ChainNode
  | [], budget, out => (none, budget, out)
  | u :: us, budget, out =>
    let d := s.otherBucket u
    if (s.roomAmong (s.em.units.filter fun v => v != u) q x.bucket x.width).isNone ∨ d = x.bucket ∨
        x.path.any (fun m => m.2 = d) then
      s.expandBucket q x us budget out
    else if budget = 0 then (none, 0, [])
    else
      let path := (u, d) :: x.path
      if (s.bucketRoom q d u.width).isSome then (some path, budget - 1, out)
      else s.expandBucket q x us (budget - 1) (if s.emBankFenced q d then out
        else out ++ [{ bucket := d, width := u.width, path := path }])

/-- The breadth-first search of R166 step 2: a chain of moves, the last first. -/
def State.searchChain (s : State) (q depth : Nat) : Nat → Nat → List ChainNode → Option (List (EmUnit × Nat))
  | 0, _, _ => none
  | _, _, [] => none
  | fuel + 1, budget, x :: xs =>
    if depth ≤ x.path.length then s.searchChain q depth fuel budget xs
    else match s.expandBucket q x (s.bucketUnits q x.bucket) budget [] with
      | (some path, _, _) => some path
      | (none, left, more) => s.searchChain q depth fuel left (xs ++ more)

/-- The moves of a chain made, the last first (R168). -/
def State.makeMoves (s : State) : List (EmUnit × Nat) → State
  | [] => s
  | (u, d) :: ms =>
    match s.bucketRoom u.copy d u.width with
    | some n => (s.moveUnit u n).makeMoves ms
    | none => s.makeMoves ms

/-- A place among the two buckets of a key, without relocation (R166 step 1). Of two buckets with room, the one with more
free positions is taken. -/
def State.directPlace (s : State) (q t key : Nat) : Option Nat :=
  let w := if wideKey t then 2 else 1
  let b1 := s.bucket1 q t key
  let b2 := s.bucket2 q t key
  match s.bucketRoom q b1 w, s.bucketRoom q b2 w with
  | some n, none => some n
  | none, some n => some n
  | some n, some m => if s.bucketFree q b1 < s.bucketFree q b2 then some m else some n
  | none, none => none

/-- A place made for a unit of a key in copy `q` (R166): the state after the relocations, the place if there is one, and the
moves made. -/
def State.emPlace (s : State) (q t key : Nat) : State × Option Nat × Nat :=
  match s.directPlace q t key with
  | some n => (s, some n, 0)
  | none =>
    let w := if wideKey t then 2 else 1
    let root := fun b => if s.emBankFenced q b then [] else [{ bucket := b, width := w, path := [] : ChainNode }]
    let budget := s.obj? Obj.emRelocationBudget
    match s.searchChain q (s.obj? Obj.emRelocationDepth) (budget + 2) (budget - 2)
        (root (s.bucket1 q t key) ++ root (s.bucket2 q t key)) with
    | some path =>
      let s' := (s.makeMoves path).countN (0x128 + 8 * q + 7) path.length
      match s'.directPlace q t key with
      | some n => (s', some n, path.length)
      | none => (s', s'.overflowRoom q w, path.length)
    | none => (s, s.overflowRoom q w, 0)

/-- A unit written at a place. The filter bits are set before it. -/
def State.addUnit (s : State) (u : EmUnit) : State :=
  let s := s.filterKey u.copy u.keyType u.key true
  { s with em := { s.em with units := s.em.units ++ [u] } }

/-- Overflow units of a copy whose buckets have room go back into them (R168). -/
def State.drainOverflow (s : State) (q : Nat) : State :=
  ((s.em.units.filter fun u => u.copy == q && overflowBase ≤ u.n).mergeSort fun u v => u.n ≤ v.n).foldl (fun s u =>
    match s.directPlace q u.keyType u.key with
    | some n => s.moveUnit u n
    | none => s) s

/-- Two records of one unit: a relocation changes its place alone. -/
def EmUnit.same (u v : EmUnit) : Bool :=
  u.copy == v.copy && u.keyType == v.keyType && u.key == v.key && u.visible == v.visible && u.result == v.result

/-- A unit freed where it now stands: its filter counts fall, its hit bit is cleared (DESIGN CHOICE), and overflow units move back
(R168). -/
def State.freeUnit (s : State) (u : EmUnit) : State :=
  match s.em.units.find? u.same with
  | none => s
  | some u =>
    let s := s.filterKey u.copy u.keyType u.key false
    let s := { s with em := { s.em with
      units := s.em.units.filter (fun v => v != u),
      hits := s.em.hits.filter fun h => h != u.copy * 2 ^ 22 + u.n } }
    s.drainOverflow u.copy

/-- A unit's VISIBLE bits set where it now stands; a unit that reads 0b000 is freed. -/
def State.setVisible (s : State) (u : EmUnit) (v : Nat) : State :=
  if v = 0 then s.freeUnit u
  else { s with em := { s.em with units := s.em.units.map fun w => if u.same w then { w with visible := v } else w } }

/-- The places of a key in the four copies that need one, in ascending order, with the relocations made for them: none where
a copy has none (R167). -/
def State.emPlaces (s : State) (t key : Nat) : List Nat → State × Option (List (Nat × Nat)) × Nat
  | [] => (s, some [], 0)
  | q :: qs =>
    match s.emPlace q t key with
    | (s', none, m) => (s', none, m)
    | (s', some n, m) =>
      match s'.emPlaces t key qs with
      | (s'', none, m') => (s'', none, m + m')
      | (s'', some ps, m') => (s'', some ((q, n) :: ps), m + m')

/-! ### Commands of ring 8 (R185, R186) -/

/-- The opcodes of ring 8 (tables Command opcodes and Relief command opcodes, R225). -/
def tableOpcode (op : Nat) : Bool :=
  op == 1 || op == 2 || op == 3 || op == 5 || op == 6 || op == 0x10 || op == 0x11 || op == 0x12 || op == 0x20 ||
    op == 0x21 || op == 0x22

/-- Ring 8 is stopped by a commit that pends or primes, or by an abort whose log is being applied (R227). -/
def State.ring8Stopped (s : State) : Bool :=
  match s.versions.commit with
  | .none => s.versions.aborting.isSome
  | .pending _ => true
  | .priming _ => true

/-- The record at the head of ring 8, if the Atelier may take it: commands are executed one at a time (R185). -/
def State.tableRecord (s : State) : Option Nat :=
  if !s.ready || s.ringEmpty 8 || s.ringFull 3 || s.ring8Stopped || s.em.writing.isSome then none else some (beNat (s.ringFront 8))

/-- A completion written to ring 3 (field map Completion record). -/
def State.tableDone (s : State) (tag op status hits moves result : Nat) : State :=
  let s := s.ringPush 3 (toBe 16 (field 112 (tag % 65536) + field 104 (op % 256) + field 96 (status % 256) +
    field 92 (hits % 16) + field 80 (min moves 255) + field 40 (result % 2 ^ 40)))
  if status = 0 then s else (s.bump64 Obj.emCommandsFailed).flag Obj.tableSummary 0

/-- The record at the head of ring 8 taken by a command of one opcode. A record of another known opcode waits for its own
command; an opcode that is not known completes with BAD_OPCODE. -/
def State.takeTable (s : State) (opcode : Nat) (act : Nat → State → State) : State :=
  match s.tableRecord with
  | none => s
  | some r =>
    let op := bits r 255 248
    if op = opcode then act r (s.ringTake 8)
    else if tableOpcode op then s
    else (s.ringTake 8).tableDone (bits r 239 224) op 7 0 0 0

/-- The building slot (R220). -/
def State.buildingSlot (s : State) : Option Nat := s.slotIn .building

/-- A record's key is one R162 and R177 allow. -/
def State.keyGood (s : State) (t key : Nat) : Bool :=
  1 ≤ t && t ≤ 6 && Nat.land key (keyMask t) == key &&
    (!prefixKey t ||
      let e := s.probeEntry (t - 1) (lenIndex t key)
      let len := bits e 31 24 - 1
      lenIndex t key < 12 && bits e 31 24 != 0 &&
        (if t = 1 then bits key 59 28 % 2 ^ (32 - len) == 0 else bits key 137 10 % 2 ^ (128 - len) == 0))

/-- A position's entry in the log of the building version (R229): none where the log is full. -/
def State.logChange (s : State) (b : Nat) (k : LogKey) : Option State :=
  let x := s.slot b
  if x.log.contains k then some s
  else if 1048576 ≤ x.log.length then none
  else some (s.setSlot b fun y => { y with log := y.log ++ [k] })

/-- The units of a key in every copy. -/
def State.keyUnits (s : State) (t key : Nat) : List EmUnit :=
  s.em.units.filter fun u => u.keyType == t && u.key == key

/-- The fields of a command record (field map Command record). -/
def tableCommand (r : Nat) : TableCommand :=
  { tag := bits r 239 224, op := bits r 255 248, versioned := bit r 247, keyType := bits r 223 219,
    key := bits r 195 40, result := bits r 39 0 }

/-- A completion of a command that gives no more than its status. -/
def State.refuseTable (s : State) (c : TableCommand) (status : Nat) : State := s.tableDone c.tag c.op status 0 0 0

/-- The slot a command acts on, where the checks common to its kind pass (R186): else its status. -/
def State.targetSlot (s : State) (c : TableCommand) : Except Nat Nat :=
  if c.versioned then
    match s.buildingSlot with
    | some b => .ok b
    | none => .error 6
  else .ok s.currentSlot

/-- The checks of R186 for INSERT, MODIFY and DELETE: the target slot, or a status. -/
def State.checkWrite (s : State) (c : TableCommand) : Except Nat Nat :=
  if !s.keyGood c.keyType c.key || (c.op < 3 && 1 < bits c.result 39 36) then .error 4
  else match s.targetSlot c with
    | .error e => .error e
    | .ok b => if !c.versioned && (s.keyUnits c.keyType c.key).any (fun u => u.visible != 7) then .error 5 else .ok b

/-- A key is visible in a slot of some copy. -/
def State.keyVisible (s : State) (c : TableCommand) (slot : Nat) : Bool :=
  (s.keyUnits c.keyType c.key).any fun u => bit u.visible slot

/-- The VISIBLE bits of a new unit (R170). -/
def TableCommand.newVisible (c : TableCommand) (b : Nat) : Nat := if c.versioned then 2 ^ b else 7

/-- The change that a versioned command logs; an immediate one logs none (R229). -/
def State.logFor (s : State) (c : TableCommand) (b : Nat) : Option State :=
  if c.versioned then s.logChange b (.unit c.keyType c.key) else some s

/-- A versioned command's position is not in the log of the building version yet. -/
def State.logsNew (s : State) (c : TableCommand) (b : Nat) : Bool := c.versioned && !(s.slot b).log.contains (.unit c.keyType c.key)

/-- The units of a key in one copy. -/
def State.copyUnits (s : State) (q t key : Nat) : List EmUnit := (s.keyUnits t key).filter fun u => u.copy == q

/-- A versioned MODIFY gives the unit a successor: other slots than the building one see it (R170). -/
def TableCommand.succeeds (c : TableCommand) (b : Nat) (u : EmUnit) : Bool := bit u.visible b && c.versioned && u.visible != 2 ^ b

/-- What a command does to the units that copy `q` holds: MODIFY rewrites immediate ones, and those that the building slot alone sees,
and clears bit b of the others; DELETE clears the slot's bit, or all (R170). -/
def State.editCopy (s : State) (w : EmWriting) (q : Nat) : State :=
  let c := w.command
  let us := (s.copyUnits q c.keyType c.key).filter fun u => bit u.visible w.slot
  if c.op = 2 then
    let rewritten := fun (u : EmUnit) => if us.contains u && !c.succeeds w.slot u then { u with result := c.result } else u
    let s := { s with em := { s.em with units := s.em.units.map rewritten } }
    (us.filter (c.succeeds w.slot)).foldl (fun s u => s.setVisible u (clearBits u.visible (2 ^ w.slot))) s
  else if c.op = 3 then us.foldl (fun s u => s.setVisible u (if c.versioned then clearBits u.visible (2 ^ w.slot) else 0)) s
  else s

/-- A place of copy `q` still takes a unit of a width. -/
def State.placeHolds (s : State) (q n w : Nat) : Bool :=
  (overflowBase ≤ n || !s.emBankFenced q n) && freeAt s.em.units q n && (w == 1 || freeAt s.em.units q (n + 1))

/-- The place of a new unit in copy `q` at the time of its write: as planned, or by a new plan (R167). -/
def State.replan (s : State) (c : TableCommand) (q n : Nat) : State × Option Nat × Nat :=
  if s.placeHolds q n (if wideKey c.keyType then 2 else 1) then (s, some n, 0) else s.emPlace q c.keyType c.key

/-- Copy `q` written: the new unit first, where the command gives the copy one, then the units it has. The flag says whether a place
was left for it, the number how many moves were made. -/
def State.writeCopy (s : State) (w : EmWriting) (q : Nat) : State × Bool × Nat :=
  let c := w.command
  match w.places.lookup q with
  | none => (s.editCopy w q, true, 0)
  | some n =>
    match s.replan c q n with
    | (s', none, m) => (s', false, m)
    | (s', some k, m) =>
      let new : EmUnit := { copy := q, n := k, visible := c.newVisible w.slot, keyType := c.keyType, key := c.key, result := c.result }
      let old := (s'.copyUnits q c.keyType c.key).filter (c.succeeds w.slot)
      let s' := s'.addUnit new
      (old.foldl (fun s u => s.setVisible u (clearBits u.visible (2 ^ w.slot))) s', true, m)

/-- A command's writing has ended with a status. -/
def State.endWriting (s : State) (w : EmWriting) (status : Nat) : State :=
  ({ s with em := { s.em with writing := none } } : State).tableDone w.command.tag w.command.op status 0 w.moves 0

/-- A copy loses the new unit that a failing command gave it, and a unit that MODIFY had followed is seen again in the slot
(R167). -/
def State.undoCopy (s : State) (w : EmWriting) (q : Nat) : State :=
  let c := w.command
  let new := (s.copyUnits q c.keyType c.key).filter fun u => u.visible == c.newVisible w.slot && u.result == c.result
  let s := new.foldl (fun s u => s.freeUnit u) s
  let cur := s.currentSlot
  if c.op = 2 then
    let seen := fun (u : EmUnit) => u.copy == q && u.keyType == c.keyType && u.key == c.key && bit u.visible cur
    let again := fun (u : EmUnit) => if seen u then { u with visible := setBit u.visible w.slot } else u
    { s with em := { s.em with units := s.em.units.map again } }
  else s

/-- A command finds no place at its write: the new unit is left in no copy, its log entry goes, and it completes with TABLE_FULL
(R167). -/
def State.undoWriting (s : State) (w : EmWriting) : State :=
  let done := (w.places.map fun p => p.1).filter fun q => !w.copies.contains q
  let s := done.foldl (fun s q => s.undoCopy w q) s
  let k : LogKey := .unit w.command.keyType w.command.key
  let s := if w.logged then s.setSlot w.slot fun x => { x with log := x.log.filter fun e => e != k } else s
  s.endWriting w 3

/-- The next copy of a command under way is written; after the last the command is complete (R167). -/
def State.writeNext (s : State) : State :=
  match s.em.writing with
  | none => s
  | some w =>
    match w.copies with
    | [] => s.endWriting w 0
    | q :: qs =>
      match s.writeCopy w q with
      | (s', false, m) => s'.undoWriting { w with moves := w.moves + m }
      | (s', true, m) =>
        let w' := { w with copies := qs, moves := w.moves + m }
        if qs.isEmpty then s'.endWriting w' 0 else { s' with em := { s'.em with writing := some w' } }

/-- A command begins to write the copies, one a clock: copy 0 in this one (DESIGN CHOICE, log entry 111: the clocks that R167's order
takes are not stated). -/
def State.startWriting (s : State) (c : TableCommand) (b : Nat) (places : List (Nat × Nat)) (moves : Nat) (logged : Bool) : State :=
  let w : EmWriting := { command := c, slot := b, copies := [0, 1, 2, 3], places := places, moves := moves, logged := logged }
  ({ s with em := { s.em with writing := some w } } : State).writeNext

/-- INSERT (R166, R167, R170). -/
def State.emInsert (s : State) (c : TableCommand) : State :=
  match s.checkWrite c with
  | .error e => s.refuseTable c e
  | .ok b =>
    if s.keyVisible c b then s.refuseTable c 1
    else match s.logFor c b with
      | none => s.refuseTable c 9
      | some logged =>
        match logged.emPlaces c.keyType c.key [0, 1, 2, 3] with
        | (s', some ps, m) => s'.startWriting c b ps m (s.logsNew c b)
        | (s', none, m) => ({ s' with versions := s.versions } : State).tableDone c.tag c.op 3 0 m 0

/-- MODIFY (R170): units with bit b alone, or immediate ones, are rewritten in place; others get a successor. -/
def State.emModify (s : State) (c : TableCommand) : State :=
  match s.checkWrite c with
  | .error e => s.refuseTable c e
  | .ok b =>
    if !s.keyVisible c b then s.refuseTable c 2
    else
      let qs := [0, 1, 2, 3].filter fun q => (s.copyUnits q c.keyType c.key).any (c.succeeds b)
      if qs.isEmpty then s.startWriting c b [] 0 false
      else match s.logFor c b with
        | none => s.refuseTable c 9
        | some logged =>
          match logged.emPlaces c.keyType c.key qs with
          | (s', some ps, m) => s'.startWriting c b ps m (s.logsNew c b)
          | (s', none, m) => ({ s' with versions := s.versions } : State).tableDone c.tag c.op 3 0 m 0

/-- DELETE (R170). -/
def State.emDelete (s : State) (c : TableCommand) : State :=
  match s.checkWrite c with
  | .error e => s.refuseTable c e
  | .ok b =>
    if !s.keyVisible c b then s.refuseTable c 2
    else match s.logFor c b with
      | none => s.refuseTable c 9
      | some s' => s'.startWriting c b [] 0 (s.logsNew c b)

/-- LOOKUP (R185, R186). -/
def State.emLookup (s : State) (c : TableCommand) : State :=
  if !s.keyGood c.keyType c.key then s.refuseTable c 4
  else match s.targetSlot c with
    | .error e => s.refuseTable c e
    | .ok b =>
      let found := (List.range 4).filterMap fun q => s.emFind q b c.keyType c.key
      match found.head? with
      | none => s.refuseTable c 2
      | some u => s.tableDone c.tag c.op 0 ((found.map fun (v : EmUnit) => 2 ^ v.copy).sum) 0 u.result

/-- HIT_TEST (R186, R187). A key that no copy holds completes with NOT_FOUND (DESIGN CHOICE). -/
def State.emHitTest (s : State) (c : TableCommand) : State :=
  if !s.keyGood c.keyType c.key then s.refuseTable c 4
  else
    let us := s.keyUnits c.keyType c.key
    let places := us.map fun u => u.copy * 2 ^ 22 + u.n
    let hit := fun q => us.any fun u => u.copy == q && s.em.hits.contains (q * 2 ^ 22 + u.n)
    if us.isEmpty then s.refuseTable c 2
    else
      ({ s with em := { s.em with hits := s.em.hits.filter fun h => !places.contains h } } : State).tableDone c.tag c.op 0
        (((List.range 4).map fun q => if hit q then 2 ^ q else 0).sum) 0 0

/-- INSERT (R170). -/
def execInsert (s : State) : Result := .next (s.takeTable 1 fun r s => s.emInsert (tableCommand r))

/-- MODIFY (R170). -/
def execModify (s : State) : Result := .next (s.takeTable 2 fun r s => s.emModify (tableCommand r))

/-- DELETE (R170). -/
def execDelete (s : State) : Result := .next (s.takeTable 3 fun r s => s.emDelete (tableCommand r))

/-- LOOKUP (R185). -/
def execLookup (s : State) : Result := .next (s.takeTable 5 fun r s => s.emLookup (tableCommand r))

/-- HIT_TEST (R187). -/
def execHitTest (s : State) : Result := .next (s.takeTable 6 fun r s => s.emHitTest (tableCommand r))

/-! ### Change logs applied to units (R230) -/

/-- Every unit of a key takes, in slot `dst`, the bit it has in slot `src`; each is found where it then stands, since a unit freed
before it may have let it move. -/
def State.copyUnitBit (s : State) (t key dst src : Nat) : State :=
  (s.keyUnits t key).foldl (fun s u =>
    s.setVisible u (if bit u.visible src then setBit u.visible dst else clearBits u.visible (2 ^ dst))) s

/-! ### Repair (R183, R184) -/

/-- The unit number of a place, for `Em.corrupt`. -/
def emPlaceKey : EmPlace → Nat
  | .bucket bank bucket => bank.val * 32768 + bucket.val * 4
  | .overflow n => overflowBase + n.val
  | .filterWord w => 2113536 + w.val

/-- A place is corrupt on-die. -/
def State.emCorrupt (s : State) (q n : Nat) : Bool := s.em.corrupt.contains (q * 2 ^ 22 + n)

/-- A place met with a parity error. -/
def State.markCorrupt (s : State) (q n : Nat) : State :=
  if s.emCorrupt q n then s else { s with em := { s.em with corrupt := s.em.corrupt ++ [q * 2 ^ 22 + n] } }

/-- A place is as it should be. -/
def State.clearCorrupt (s : State) (q n : Nat) : State :=
  { s with em := { s.em with corrupt := s.em.corrupt.filter fun c => c != q * 2 ^ 22 + n } }

/-- The golden image of a place cannot be read: its burst was lost, or its stripe's channel is (R183, R285, R292). -/
def State.imageLost (s : State) (q n : Nat) : Bool :=
  s.em.imageLost.contains (q * 2 ^ 22 + n) || s.stripeLost (Config.imageStripe (q * 2 ^ 22 + n))

/-- A corrupt place restored from the golden image, where the image can be read. -/
def State.restorePlace (s : State) (q n : Nat) : State :=
  if s.emCorrupt q n && !s.imageLost q n then (s.clearCorrupt q n).bump32 (Obj.emRestored q) else s

/-- BUCKET_RESTORE (R183). -/
def execBucketRestore (copy : Quadrant) (place : EmPlace) (s : State) : Result :=
  .next (s.restorePlace copy.val (emPlaceKey place))

/-- SCRUB (R183): the scrubber reads a place and repairs what it finds. -/
def execScrub (copy : Quadrant) (place : EmPlace) (s : State) : Result :=
  if s.ready then .next (s.restorePlace copy.val (emPlaceKey place)) else .next s

/-- A unit of copy `q` that could not be rebuilt. -/
def State.loseUnit (s : State) (q : Nat) : State := (s.bump32 (Obj.emLostUnits q)).flag Obj.tableSummary 2

/-- A unit of copy `q` XOR 1 re-placed in copy `q`. -/
def State.rebuildUnit (s : State) (q : Nat) (u : EmUnit) : State :=
  match s.emPlace q u.keyType u.key with
  | (s', some n, _) => s'.addUnit { u with copy := q, n := n }
  | (s', none, _) => s'.loseUnit q

/-- Copy `q` holds a unit with the same key and VISIBLE bits. -/
def State.holdsLike (s : State) (q : Nat) (u : EmUnit) : Bool :=
  s.em.units.any fun v => v.copy == q && v.keyType == u.keyType && v.key == u.key && v.visible == u.visible

/-- BUCKET_REBUILD (R183): a corrupt bucket whose golden image cannot be read. Its units are lost, and those that copy q XOR 1 holds and
copy q lacks are placed again; the image is then written anew. -/
def execBucketRebuild (copy : Quadrant) (bank : Fin 64) (bucket : Fin 8192) (s : State) : Result :=
  let q := copy.val
  let base := bank.val * 32768 + bucket.val * 4
  if !s.imageLost q base then .next s
  else
    let lost := if s.emCorrupt q base then s.bucketUnits q base else []
    let s := lost.foldl (fun s u => s.freeUnit u) s
    let other := Nat.xor q 1
    let found := s.em.units.filter fun u => u.copy == other && !s.holdsLike q u &&
      (s.bucket1 q u.keyType u.key == base || s.bucket2 q u.keyType u.key == base)
    let s := found.foldl (fun s u => s.rebuildUnit q u) s
    let missing := lost.filter fun u => !s.em.units.any fun v =>
      v.copy == other && v.keyType == u.keyType && v.key == u.key && v.visible == u.visible
    let s := (missing.foldl (fun s _ => s.loseUnit q) s).clearCorrupt q base
    .next { s with em := { s.em with imageLost := s.em.imageLost.filter fun p => p != q * 2 ^ 22 + base } }

/-- The units of a fenced bank move to their other buckets or the overflow store as room allows (R184). -/
def State.emRehome (s : State) (q bank : Nat) : State :=
  (s.em.units.filter fun u => u.copy == q && u.n / 32768 == bank && u.n < overflowBase).foldl (fun s u =>
    match s.bucketRoom q (s.otherBucket u) u.width with
    | some n => s.moveUnit u n
    | none => match s.overflowRoom q u.width with
      | some n => s.moveUnit u n
      | none => s) s

/-! ### Learning (R188, R189) -/

/-- An entry of the dedupe cache is live. -/
def State.dedupeLive (s : State) (e : Dedupe) : Bool :=
  s.clock * 5 / 8 < e.time + s.obj? Obj.learnDedupeUs * 1000

/-- A learn record (field map Learn record). -/
def Learn.record (l : Learn) (kind other : Nat) : List Byte :=
  toBe 32 (field 192 (l.time % 2 ^ 64) + field 184 kind + field 177 (l.port % 128) + field 170 (other % 128) +
    field 156 (l.bd % 16384) + field 108 (l.mac % 2 ^ 48) + field 96 (l.vlan.getD 0 % 4096) +
    field 95 (b2n l.vlan.isSome) + field 93 (l.slot % 4))

/-- The dedupe cache with an entry written in its set: over the first free or expired way, or the oldest. -/
def State.dedupeWrite (s : State) (set bd mac port : Nat) : State :=
  let here := s.em.dedupe.filter fun e => e.set == set
  let free := (List.range 4).find? fun w => here.all fun e => e.way != w || !s.dedupeLive e
  let oldest := here.foldl (fun (best : Option Dedupe) e => match best with
    | none => some e
    | some b => if e.time < b.time then some e else some b) none
  let way := free.getD ((oldest.map Dedupe.way).getD 0)
  { s with em := { s.em with dedupe := s.em.dedupe.filter (fun e => !(e.set == set && e.way == way)) ++
    [{ set := set, way := way, bd := bd, mac := mac, port := port, time := s.clock * 5 / 8 }] } }

/-- A learn event judged (table of R189). A record that the full ring drops leaves the cache unchanged. -/
def State.judgeLearn (s : State) (l : Learn) : State :=
  let set := s.hash1 0 5 (field 64 l.bd + l.mac) % 1024
  let live := s.em.dedupe.find? fun e => e.set == set && e.bd == l.bd && e.mac == l.mac && s.dedupeLive e
  let full := s.ringFull 0
  match live with
  | some e =>
    if e.port = l.port then s.bump64 Obj.learnSuppressed
    else
      let s := s.ringPush 0 (l.record 2 e.port)
      if full then s
      else ({ s with em := { s.em with dedupe := s.em.dedupe.map fun d =>
        if d = e then { e with port := l.port, time := s.clock * 5 / 8 } else d } } : State).bump64 Obj.learnRecords
  | none =>
    let s := s.ringPush 0 (if l.miss then l.record 1 0 else l.record 3 l.entryPort)
    if full then s else (s.dedupeWrite set l.bd l.mac l.port).bump64 Obj.learnRecords

/-- The learn event judged next: of those whose frames have checked good the first in time, and in one clock the lowest pipe's
(R189). -/
def nextLearn (ls : List Learn) : Option Learn :=
  (ls.filterMap fun l => l.ready.map fun k => (k, l)).foldl (fun best x => match best with
    | some b => if x.1 < b.1 ∨ (x.1 = b.1 ∧ x.2.pipe < b.2.pipe) then some x else some b
    | none => some x) none |>.map Prod.snd

/-- LEARN_EVENT (R188): the next event whose frame has checked good consults the dedupe cache. -/
def execLearnEvent (s : State) : Result :=
  match nextLearn s.em.learns with
  | none => .next s
  | some l => .next (({ s with em := { s.em with learns := s.em.learns.erase l } } : State).judgeLearn l)

end Sys2Proof.Machine
end

