-- ==== Sys2Proof/Machine/Relief.lean ====
section
/-! DEFINITION. The Relief associative array: banks and groups, rules and their commands, searches, re-homing (R193-R214). -/

namespace Sys2Proof.Machine

/-! ### Banks (R193-R196) -/

/-- The configuration record written for a bank (field map Bank configuration record). -/
def State.bankRecord (s : State) (q b : Nat) : Nat := s.record (Obj.bankConfig q) 32 b

/-- The configuration record in force for a bank. -/
def State.bankInForce (s : State) (q b : Nat) : Nat := beNat (s.bytesInForce (Obj.bankConfig q) (32 * b) 32)

/-- FORM of a record: 0 BINARY, 1 TERNARY, 2 SPARE. -/
def bankForm (r : Nat) : Nat := bits r 255 254
/-- CASCADE of a record. -/
def bankCascade (r : Nat) : Nat := bits r 253 252
/-- SEGMENT of a record. -/
def bankSegment (r : Nat) : Nat := bits r 251 250
/-- GLOBAL_MASK of a record. -/
def bankMask (r : Nat) : Nat := bits r 159 0
/-- The banks of the cascade group a record makes its bank a member of. -/
def bankGroup (r : Nat) : Nat := if bankCascade r = 0 then 1 else if bankCascade r = 1 then 2 else 4

/-- The lead bank of a bank's group, by a record of its. -/
def bankLead (r b : Nat) : Nat := b - b % bankGroup r

/-- A bank at home. -/
def BankSt.home : BankSt := { state := 0, guests := [], taken := none }

/-- The service of a bank. -/
def State.bankSt (s : State) (q b : Nat) : BankSt := (Sparse.find? s.relief.banks (32 * q + b)).getD .home

/-- The service of a bank set. -/
def State.putBank (s : State) (q b : Nat) (x : BankSt) : State :=
  { s with relief := { s.relief with banks := Sparse.set (fun _ => BankSt.home) s.relief.banks (32 * q + b) x } }

/-- The rules whose HOME_BANK is a bank: RULES of BANK_STATUS. -/
def State.bankRules (s : State) (b : Nat) : List Rule := s.relief.table.filter fun r => r.homeBank == b && r.member == 0

/-- BANK_STATUS (table Bank status). -/
def State.bankStatus (s : State) (q b : Nat) : Nat :=
  let x := s.bankSt q b
  field 29 x.state + field 24 (x.guests.getD 0 0) + field 19 (x.guests.getD 1 0) + field 18 (b2n (1 ≤ x.guests.length)) +
    field 17 (b2n (2 ≤ x.guests.length)) + (s.bankRules b).length

/-- Array positions of a quadrant in use, guests included: ENTRIES_IN_USE. -/
def State.entriesInUse (s : State) (q : Nat) : Nat := (s.relief.arrays.filter fun e => e.1 == q).length

/-- The bank of a quadrant is fenced. -/
def State.reliefFenced (s : State) (q b : Nat) : Bool := s.fenced (0x380 + 32 * q + b)

/-- SPARE banks taken into TERNARY form as guests: STAGE_BANKS counts them with those configured so (R89). -/
def State.takenTernary (s : State) (q b : Nat) : Bool := (s.bankSt q b).taken == some 1

/-! ### Guests (R210) -/

/-- A guest place: a bank and a position. -/
abbrev Place := Nat × Nat

/-- The positions of a bank of quadrant `q` that no array entry fills, below a bound, in ascending order. -/
def State.freePositions (s : State) (q b bound : Nat) : List Place :=
  let used := s.relief.arrays.filterMap fun e => if e.1 = q ∧ e.2.bank = b then some e.2.position else none
  ((List.range bound).filter fun i => !used.contains i).map fun i => (b, i)

/-- A bank that may take guests: unfenced, at home. -/
def State.mayHost (s : State) (q b : Nat) : Bool := !s.reliefFenced q b && (s.bankSt q b).state == 0

/-- The SPARE banks of a quadrant that may take guests. -/
def State.spareBanks (s : State) (q : Nat) : List Nat :=
  (List.range 32).filter fun b => s.mayHost q b && bankForm (s.bankInForce q b) == 2

/-- The banks of ternary space for a segment, in the order of R210: TERNARY banks with room, then SPARE ones. -/
def State.ternarySpace (s : State) (q segment : Nat) : List (Nat × List Place) :=
  (((List.range 32).filter fun b =>
    let r := s.bankInForce q b
    s.mayHost q b && bankForm r == 1 && bankCascade r == 0 && bankSegment r == segment).map fun b =>
      (b, s.freePositions q b 512)).filter (fun x => !x.2.isEmpty) ++
    (s.spareBanks q).map fun b => (b, s.freePositions q b 512)

/-- The first bank, or pair of banks, of a list that holds `n` entries. -/
def firstHolding (n : Nat) : List (Nat × List Place) → Option (List Place)
  | [] => none
  | x :: xs =>
    if n ≤ x.2.length then some (x.2.take n)
    else match xs.find? fun y => n ≤ x.2.length + y.2.length with
      | some y => some ((x.2 ++ y.2).take n)
      | none => firstHolding n xs

/-- Where the rules of a bank go (R210 steps 2 and 3): the form SPARE banks take, and a place for each entry. A cascade
group goes to an aligned group of SPARE banks, position by position. `binary` allows the BINARY target. -/
def State.guestPlan (s : State) (q lead : Nat) (entries : List Rule) (binary : Bool) : Option (Nat × List Place) :=
  let r := s.bankInForce q lead
  let n := bankGroup r
  if n = 1 then
    match (if binary && bankForm r == 0 then (s.spareBanks q).head? else none) with
    | some g => some (0, (List.range entries.length).map fun i => (g, i))
    | none => (firstHolding entries.length (s.ternarySpace q (bankSegment r))).map fun ps => (1, ps)
  else
    let spare := s.spareBanks q
    match ((List.range (32 / n)).map fun k => n * k).find? fun g => (List.range n).all fun j => spare.contains (g + j) with
    | some g => some (bankForm r, entries.map fun e => (g + e.member, e.position))
    | none => none

/-- A SPARE bank that hosts guests takes a form and reads GUEST; in TERNARY form it puts STAGE in force (R210). -/
def State.takeGuest (s : State) (q form g : Nat) : State :=
  if bankForm (s.bankInForce q g) = 2 ∧ (s.bankSt q g).state = 0 then
    let s := s.putBank q g { state := 5, guests := [], taken := some form }
    if form = 1 then s.flag Obj.modeSummary 3 else s
  else s

/-- The banks of a bank's group in a quadrant. -/
def State.groupBanks (s : State) (q lead : Nat) : List Nat :=
  (List.range (bankGroup (s.bankInForce q lead))).map fun j => lead + j

/-- Guests written for entries at places, and the group's banks read a state with their guests. -/
def State.placeGuests (s : State) (q lead state form : Nat) (entries : List Rule) (places : List Place) : State :=
  let hosts := (places.map fun p => p.1).eraseDups
  let s := hosts.foldl (fun s g => s.takeGuest q form g) s
  let written := (entries.zip places).map fun (e, p) => (q, { e with bank := p.1, position := p.2 })
  let s := { s with relief := { s.relief with arrays := s.relief.arrays ++ written } }
  let mine : Nat → List Nat := fun b => if bankGroup (s.bankInForce q lead) = 1 then hosts else
    hosts.filter fun g => written.any fun w => w.2.bank == g && lead + w.2.member == b
  (s.groupBanks q lead).foldl (fun s b =>
    s.putBank q b { state := state, guests := mine b, taken := (s.bankSt q b).taken }) s

/-- The entries of a group in a quadrant's shadow. -/
def State.shadowEntries (s : State) (q lead : Nat) : List Rule :=
  (s.relief.shadows.filter fun e => e.1 == q && e.2.homeBank == lead).map fun e => e.2

/-- The entries of a group leave the array of a quadrant. -/
def State.clearGroup (s : State) (q lead : Nat) : State :=
  { s with relief := { s.relief with arrays := s.relief.arrays.filter fun e => !(e.1 == q && e.2.homeBank == lead) } }

/-- SPARE guests of a quadrant that hold nothing any more return to SPARE form. -/
def State.freeSpares (s : State) (q : Nat) : State :=
  (List.range 32).foldl (fun s g =>
    let x := s.bankSt q g
    if x.state = 5 ∧ ¬ (s.relief.arrays.any fun e => e.1 == q && e.2.bank == g) then
      s.putBank q g .home
    else s) s

/-- A group's rules return to their banks from the shadow: the guests are freed after the switch back (R210, R211). -/
def State.returnHome (s : State) (q lead : Nat) : State :=
  let s := s.clearGroup q lead
  let home := (s.shadowEntries q lead).map fun e => (q, { e with bank := e.homeBank + e.member, position := e.homeIndex })
  let s := { s with relief := { s.relief with arrays := s.relief.arrays ++ home } }
  let s := (s.groupBanks q lead).foldl (fun s b => s.putBank q b .home) s
  s.freeSpares q

/-- A bank is fenced and no guest holds its rules. -/
def State.bankLost (s : State) (q b : Nat) : Bool :=
  let x := (s.bankSt q b).state
  x == 1 || x == 3

/-- The group of a bank loses its array: neighbour service, or none where the neighbour's bank is lost too (R210 steps 1
and 6). A group without rules needs no guest. -/
def State.loseBank (s : State) (q b : Nat) : State :=
  let lead := bankLead (s.bankInForce q b) b
  let other := Nat.xor q 1
  let s := s.clearGroup q lead
  if (s.shadowEntries q lead).isEmpty then
    ((s.groupBanks q lead).foldl (fun s c => s.putBank q c { state := 2, guests := [], taken := none }) s).flag
      Obj.reliefSummary 3
  else
    let both := (s.groupBanks q lead).any fun c => s.bankLost other c
    let s := (s.groupBanks q lead).foldl (fun s c =>
      s.putBank q c { state := if both then 3 else 1, guests := [], taken := none }) s
    if both then (s.groupBanks other lead).foldl (fun s c =>
      if s.bankLost other c then s.putBank other c { state := 3, guests := [], taken := none } else s) s
    else s

/-- A bank of a quadrant is fenced (R210): its rules lose their home, and the rules of others that it hosts their guests. -/
def State.reliefFence (s : State) (q b : Nat) : State :=
  let hosted := ((s.relief.arrays.filter fun e => e.1 == q && e.2.bank == b && e.2.homeBank + e.2.member != b).map fun e =>
    e.2.homeBank).eraseDups
  let s := hosted.foldl (fun s h => s.loseBank q h) s
  let s := s.loseBank q b
  s.freeSpares q

/-- The rules of a lost group are written into guests and searches switch to them (R210 step 4). Where no target holds
every rule, neighbour service goes on. The neighbour's bank is no longer one of two lost. -/
def State.rehomeBank (s : State) (q b : Nat) : State :=
  let lead := bankLead (s.bankInForce q b) b
  if !s.bankLost q b then s
  else
    let entries := s.shadowEntries q lead
    match s.guestPlan q lead entries true with
    | none => s
    | some (form, places) =>
      let s := (s.placeGuests q lead 2 form entries places).flag Obj.reliefSummary 3
      let other := Nat.xor q 1
      (s.groupBanks other lead).foldl (fun s c =>
        if (s.bankSt other c).state = 3 then s.putBank other c { state := 1, guests := [], taken := none } else s) s

/-- A fenced bank returns to service (R210): its group is home again once no bank of it is fenced, and its neighbour is no
longer one of two lost. -/
def State.reliefRelease (s : State) (q b : Nat) : State :=
  let lead := bankLead (s.bankInForce q b) b
  if (s.groupBanks q lead).any fun c => s.reliefFenced q c then s
  else
    let s := s.returnHome q lead
    let other := Nat.xor q 1
    (s.groupBanks other lead).foldl (fun s c =>
      if (s.bankSt other c).state = 3 then s.putBank other c { state := 1, guests := [], taken := none } else s) s

/-- The array of a quadrant rewritten from its shadow under the forms now in force (R212). -/
def State.reliefRewrite (s : State) (q : Nat) : State :=
  (List.range 32).foldl (fun s b =>
    if bankLead (s.bankInForce q b) b = b ∧ (s.bankSt q b).state = 0 ∧ bankForm (s.bankInForce q b) ≠ 2 then
      s.returnHome q b
    else s) s

/-! ### Rules and their commands (R204-R207) -/

/-- The rule at a home bank and position, if its position is in use. -/
def State.ruleAt (s : State) (b i : Nat) : Option Rule :=
  s.relief.table.find? fun r => r.homeBank == b && r.homeIndex == i && r.member == 0

/-- A rule image (field map Rule image). -/
def Rule.image (r : Rule) : Nat :=
  field 352 (r.key % 2 ^ 160) + field 192 (r.care % 2 ^ 160) + field 152 (r.result % 2 ^ 40) + field 149 (r.visible % 8)

/-- RULE_VIEW at a bank and position. -/
def State.ruleView (s : State) (b i : Nat) : Nat :=
  match s.relief.table.find? fun r => r.bank == b && r.position == i with
  | some r => r.image
  | none => 0

/-- A Relief result is one the field map allows. -/
def reliefResultGood (v : Nat) : Bool :=
  let action := bits v 39 38
  let police := bit v 19
  action < 3 && !(police && action == 2) && (police || action == 2 || bits v 37 20 == 0) && bits v 14 0 == 0

/-- A staged image is one the table Rule image allows, the forms apart. VISIBLE, which RULE_READ leaves in a row, is not judged. -/
def imageGood (v : Nat) : Bool :=
  let key := bits v 511 352
  let care := bits v 351 192
  Nat.land key care == key && bits v 148 0 == 0 && reliefResultGood (bits v 191 152)

/-- The fields of a Relief command record. -/
structure RuleCommand where
  tag : Nat
  op : Nat
  versioned : Bool
  bank : Nat
  index : Nat
  row : Nat
  deriving DecidableEq, Repr

/-- The fields of a Relief command record (field map Relief command record). -/
def ruleCommand (r : Nat) : RuleCommand :=
  { tag := bits r 239 224, op := bits r 255 248, versioned := bit r 247, bank := bits r 223 219, index := bits r 218 209,
    row := bits r 208 197 }

/-- The configuration records written for a bank, by quadrant. -/
def State.bankRecords (s : State) (b : Nat) : List Nat := (List.range 4).map fun q => s.bankRecord q b

/-- The group size of a command's bank, where the checks on its bank and position pass (R205). -/
def State.ruleGroup (s : State) (c : RuleCommand) : Option Nat :=
  let rs := s.bankRecords c.bank
  let n := bankGroup (rs.getD 0 0)
  if rs.any (fun r => bankLead r c.bank != c.bank || bankForm r == 2 || bankGroup r != n) then none
  else if 512 ≤ c.index ∧ rs.any (fun r => bankForm r == 1) then none
  else if 4095 < c.row + n - 1 then none
  else some n

/-- The staged image of member `j` of a command's rule. -/
def State.stagedImage (s : State) (c : RuleCommand) (j : Nat) : Nat := s.record Obj.ruleStaging 64 (c.row + j)

/-- The images of a RULE_WRITE are ones R205 allows. -/
def State.imagesGood (s : State) (c : RuleCommand) (n : Nat) : Bool :=
  (List.range n).all fun j =>
    let v := s.stagedImage c j
    imageGood v && (j == 0 || bits v 191 152 == 0) &&
      (List.range 4).all fun q =>
        let r := s.bankRecord q (c.bank + j)
        bankForm r != 0 || bits v 351 192 == bankMask r

/-- A completion of a Relief command. -/
def State.ruleDone (s : State) (c : RuleCommand) (status result : Nat) : State := s.tableDone c.tag c.op status 0 0 result

/-- The slot a Relief command acts on. -/
def State.ruleSlot (s : State) (c : RuleCommand) : Option Nat := if c.versioned then s.buildingSlot else some s.currentSlot

/-- The entries of a rule removed from the table, the shadows and the arrays. -/
def State.dropRule (s : State) (b i : Nat) : State :=
  let here := fun (r : Rule) => r.homeBank == b && r.homeIndex == i
  { s with relief := { s.relief with
    table := s.relief.table.filter (fun r => !here r),
    shadows := s.relief.shadows.filter (fun e => !here e.2),
    arrays := s.relief.arrays.filter fun e => !here e.2 } }

/-- The VISIBLE bits of a rule set wherever it stands; a rule that reads 0b000 is freed. -/
def State.setRuleVisible (s : State) (b i v : Nat) : State :=
  if v = 0 then s.dropRule b i
  else
    let f := fun (r : Rule) => if r.homeBank = b ∧ r.homeIndex = i then { r with visible := v } else r
    { s with relief := { s.relief with
      table := s.relief.table.map f,
      shadows := s.relief.shadows.map (fun e => (e.1, f e.2)),
      arrays := s.relief.arrays.map fun e => (e.1, f e.2) } }

/-- The places of a rule in the array of a quadrant: its present guests' places or its bank's, or a free guest entry, or a
new guest where a bank without rules had none (R207, R210; R211 for a bank under test). The outer none says that none is free. -/
def State.rulePlaces (s : State) (q : Nat) (entries : List Rule) : Option (Option (Nat × List Place)) :=
  match entries.head? with
  | none => some none
  | some e =>
    let lead := e.homeBank
    let x := s.bankSt q lead
    if x.state = 1 ∨ x.state = 3 then some none
    else if x.state = 0 then some (some (3, entries.map fun e => (e.bank, e.position)))
    else
      let old := s.relief.arrays.filter fun a => a.1 == q && a.2.homeBank == lead && a.2.homeIndex == e.homeIndex
      if !old.isEmpty then some (some (3, old.map fun a => (a.2.bank, a.2.position)))
      else if x.guests.isEmpty then (s.guestPlan q lead entries (x.state != 4)).map some
      else if entries.length = 1 then
        match (x.guests.flatMap fun g => s.freePositions q g (if (s.bankSt q g).taken = some 0 then 1024 else 512)).head? with
        | some p => some (some (3, [p]))
        | none => none
      else some (some (3, entries.map fun e => (((s.bankSt q (lead + e.member)).guests.getD 0 0), e.position)))

/-- A rule written into a quadrant: its shadow, then its array or guests (R207). -/
def State.writeQuadrant (s : State) (q : Nat) (entries : List Rule) (places : Option (Nat × List Place)) : State :=
  let same := fun (r : Rule) => entries.any fun e => r.homeBank == e.homeBank && r.homeIndex == e.homeIndex
  let s := { s with relief := { s.relief with
    shadows := s.relief.shadows.filter (fun a => !(a.1 == q && same a.2)) ++ entries.map fun e => (q, e),
    arrays := s.relief.arrays.filter fun a => !(a.1 == q && same a.2) } }
  match places, entries.head? with
  | some (form, ps), some e =>
    if form = 3 then
      let written := (entries.zip ps).map fun (e, p) => (q, { e with bank := p.1, position := p.2 })
      { s with relief := { s.relief with arrays := s.relief.arrays ++ written } }
    else s.placeGuests q e.homeBank (if (s.bankSt q e.homeBank).state = 4 then 4 else 2) form entries ps
  | _, _ => s

/-- A rule written in every quadrant, or in none where a quadrant's guests lack a free entry (R207). -/
def State.writeRule (s : State) (entries : List Rule) : Option State :=
  let places := (List.range 4).map fun q => s.rulePlaces q entries
  if places.any Option.isNone then none
  else
    let same := fun (r : Rule) => entries.any fun e => r.homeBank == e.homeBank && r.homeIndex == e.homeIndex
    let s := { s with relief := { s.relief with table := s.relief.table.filter (fun r => !same r) ++ entries } }
    some ((List.range 4).foldl (fun s q => s.writeQuadrant q entries ((places.getD q none).getD none)) s)

/-- RULE_WRITE (R205-R207): the VISIBLE bits it writes, or the status that refuses it. -/
def State.ruleWriteVisible (s : State) (c : RuleCommand) : Except Nat Nat :=
  match s.ruleSlot c with
  | none => .error 6
  | some b =>
    match s.ruleAt c.bank c.index with
    | none => .ok (if c.versioned then 2 ^ b else 7)
    | some r =>
      if c.versioned then (if r.visible = 2 ^ b then .ok r.visible else .error 1)
      else if r.visible = 7 then .ok 7 else .error 5

/-- RULE_WRITE (R205-R207, R229). -/
def State.ruleWrite (s : State) (c : RuleCommand) : State :=
  match s.ruleGroup c with
  | none => s.ruleDone c 4 0
  | some n =>
    if !s.imagesGood c n then s.ruleDone c 4 0
    else match s.ruleWriteVisible c with
      | .error e => s.ruleDone c e 0
      | .ok v =>
        let logged := if c.versioned ∧ (s.ruleAt c.bank c.index).isNone then
            s.logChange (s.buildingSlot.getD 0) (.rule c.bank c.index)
          else some s
        let entries := (List.range n).map fun j =>
          let x := s.stagedImage c j
          { bank := c.bank + j, position := c.index, visible := v, key := bits x 511 352, care := bits x 351 192,
            result := bits x 191 152, homeBank := c.bank, homeIndex := c.index, member := j : Rule }
        match logged with
        | none => s.ruleDone c 9 0
        | some s' =>
          match s'.writeRule entries with
          | some s'' => s''.ruleDone c 0 0
          | none => s.ruleDone c 3 0

/-- RULE_DELETE (R206). An immediate one at a position whose bits differ between slots is VERSION_CONFLICT, whichever they are
(table Version meetings, R238). -/
def State.ruleDelete (s : State) (c : RuleCommand) : State :=
  match s.ruleGroup c with
  | none => s.ruleDone c 4 0
  | some _ =>
    match s.ruleSlot c with
    | none => s.ruleDone c 6 0
    | some b =>
      match s.ruleAt c.bank c.index with
      | none => s.ruleDone c 2 0
      | some r =>
        if !c.versioned && r.visible != 7 then s.ruleDone c 5 0
        else if !bit r.visible b then s.ruleDone c 2 0
        else if c.versioned then
          match s.logChange b (.rule c.bank c.index) with
          | none => s.ruleDone c 9 0
          | some s => (s.setRuleVisible c.bank c.index (clearBits r.visible (2 ^ b))).ruleDone c 0 0
        else (s.setRuleVisible c.bank c.index 0).ruleDone c 0 0

/-- RULE_READ (R204, R205). -/
def State.ruleRead (s : State) (c : RuleCommand) : State :=
  match s.ruleGroup c with
  | none => s.ruleDone c 4 0
  | some n =>
    match s.ruleSlot c with
    | none => s.ruleDone c 6 0
    | some b =>
      match s.ruleAt c.bank c.index with
      | none => s.ruleDone c 2 0
      | some r =>
        if !bit r.visible b then s.ruleDone c 2 0
        else ((List.range n).foldl (fun s j =>
          s.putRecord Obj.ruleStaging 64 (c.row + j) (s.ruleView (c.bank + j) c.index)) s).ruleDone c 0 r.result

/-- RULE_WRITE (R206). -/
def execRuleWrite (s : State) : Result := .next (s.takeTable 0x10 fun r s => s.ruleWrite (ruleCommand r))

/-- RULE_DELETE (R206). -/
def execRuleDelete (s : State) : Result := .next (s.takeTable 0x11 fun r s => s.ruleDelete (ruleCommand r))

/-- RULE_READ (R204). -/
def execRuleRead (s : State) : Result := .next (s.takeTable 0x12 fun r s => s.ruleRead (ruleCommand r))

/-- REHOMING_SWITCH (R210). -/
def execRehomingSwitch (quadrant : Quadrant) (bank : Fin 32) (s : State) : Result :=
  .next (s.rehomeBank quadrant.val bank.val)

/-- SHADOW_REBUILD (R209): the shadow of a bank is rebuilt from the rule table, its comparison suspended meanwhile. The
command is the rebuild's end. -/
def execShadowRebuild (quadrant : Quadrant) (bank : Fin 32) (s : State) : Result :=
  let q := quadrant.val
  let b := bank.val
  .next { s with relief := { s.relief with
    suspended := s.relief.suspended.filter (fun x => x != 32 * q + b),
    shadows := s.relief.shadows.filter (fun e => !(e.1 == q && e.2.homeBank + e.2.member == b)) ++
      (s.relief.table.filter fun r => r.bank == b).map fun r => (q, r) } }

/-- A logged rule takes, in slot `dst`, the bit it has in slot `src` (R230). -/
def State.copyRuleBit (s : State) (b i dst src : Nat) : State :=
  match s.ruleAt b i with
  | some r => s.setRuleVisible b i (if bit r.visible src then setBit r.visible dst else clearBits r.visible (2 ^ dst))
  | none => s

/-! ### Searches (R197-R203) -/

/-- What a search set reads: the pass's headers and metadata words. -/
structure SearchIn where
  input : ParseInput
  instances : List Instance
  /-- words 0 to 13 of the table Metadata words -/
  words : List Nat
  slot : Nat

/-- The instance of a class that a descriptor names: the first or the last of the vector. -/
def pickInstance (xs : List Instance) (cls : Nat) (innermost : Bool) : Option Instance :=
  let ys := xs.filter fun x => x.cls == cls
  if innermost then ys.getLast? else ys.head?

/-- The value of an extraction descriptor (R197, R198). -/
def SearchIn.extract (x : SearchIn) (d : Nat) : Nat :=
  let w := bits d 13 10 + 1
  if !bit d 31 then 0
  else if bit d 30 then x.words.getD (bits d 9 6) 0 / 2 ^ bits d 24 14 % 2 ^ w
  else match pickInstance x.instances (bits d 29 26) (bit d 25) with
    | some h => x.input.field h.offset (bits d 24 14) w
    | none => 0

/-- Key segment `g` of a profile (R198). -/
def SearchIn.segment (x : SearchIn) (profile : List Byte) (g : Nat) : Nat :=
  ((List.range 10).map fun k => x.extract (beAt profile (32 + 40 * g + 4 * k) 4) * 2 ^ (144 - 16 * k)).sum

/-- A search profile in force of a quadrant. -/
def State.searchProfile (s : State) (q n : Nat) : List Byte := s.bytesInForce (Obj.searchProfiles q) (256 * n) 256

/-- The search words of a profile that are valid, with their numbers. -/
def searchWords (profile : List Byte) : List (Nat × Nat) :=
  ((List.range 4).map fun k => (k, beAt profile (8 * k) 8)).filter fun w => bit w.2 63

/-- The banks a search word names. -/
def searchBanks (w : Nat) : List Nat := bitList 32 (bits w 31 0)

/-- An entry matches its segment (R201). -/
def Rule.matches (r : Rule) (slot segment : Nat) : Bool :=
  bit r.visible slot && Nat.land (Nat.xor segment r.key) r.care == 0

/-- A winner: its priority, rule and whether guests hold it. -/
structure Winner where
  p : Nat
  rule : Rule
  guests : Nat
  deriving DecidableEq, Repr

/-- The winner ranks before another (R202). -/
def Winner.beats (a b : Winner) : Bool :=
  b.p < a.p || (a.p == b.p && (a.rule.homeBank < b.rule.homeBank ||
    (a.rule.homeBank == b.rule.homeBank && a.rule.homeIndex < b.rule.homeIndex)))

/-- The rules of the named banks of an array that match (R201). -/
def State.matching (s : State) (q : Nat) (x : SearchIn) (profile : List Byte) (banks : List Nat) : List Winner :=
  let leads := (banks.map fun b => bankLead (s.bankInForce q b) b).eraseDups
  leads.flatMap fun lead =>
    let r := s.bankInForce q lead
    let es := (s.relief.arrays.filter fun e => e.1 == q && e.2.homeBank == lead).map fun e => e.2
    let hit := fun (e : Rule) => e.matches x.slot (x.segment profile (bankSegment r + e.member))
    (es.filter fun e => e.member == 0).filterMap fun e =>
      let parts := es.filter fun d => d.homeIndex == e.homeIndex
      if parts.length == bankGroup r && parts.all hit then
        some { p := (parts.map fun d => popCount 160 d.care).sum, rule := e,
               guests := (parts.filter fun d => d.bank != d.homeBank + d.member).length }
      else none

/-- The winner of R202. -/
def bestWinner (ws : List Winner) : Option Winner :=
  ws.foldl (fun best w => match best with
    | none => some w
    | some v => if w.beats v then some w else some v) none

/-- What one search of a set gives: the result of its winner, a miss, or no answer for want of rules or parity. -/
inductive SearchOut where
  | hit (result : Nat) | miss | unanswered (code : Nat)
  deriving DecidableEq, Repr

/-- Where the searches of a quadrant's pipes run (R212): none where neither quadrant of the pair reads RUN. -/
def State.reliefServer (s : State) (q : Nat) : Option Nat :=
  if s.runs (Fn.reliefNo q) then some q
  else if s.runs (Fn.reliefNo (Nat.xor q 1)) then some (Nat.xor q 1)
  else none

/-- The array that serves a search set of quadrant `q` with a profile (R210, R212): neighbour service takes the whole set of
a pass that names a lost bank. -/
def State.setServer (s : State) (q n : Nat) : Option Nat :=
  match s.reliefServer q with
  | none => none
  | some a =>
    if a = q ∧ s.runs (Fn.reliefNo (Nat.xor q 1)) ∧ (searchWords (s.searchProfile q n)).any (fun w =>
        (searchBanks w.2).any fun b => (s.bankSt q b).state == 1) then some (Nat.xor q 1)
    else some a

/-- The search profile that the searches of quadrant `q`'s pipes with a profile number run under: the serving array's (R212), and their
own where none serves. -/
def State.setProfile (s : State) (q n : Nat) : List Byte := s.searchProfile ((s.setServer q n).getD q) n

/-- An array serves the searches of both quadrants of its pair (R203). -/
def State.sharedArray (s : State) (a : Nat) : Bool :=
  let other := Nat.xor a 1
  !s.runs (Fn.reliefNo other) || (List.range 32).any fun b => (s.bankSt other b).state == 1

/-- The outcome of one search on an array. -/
def State.searchOne (s : State) (a : Nat) (x : SearchIn) (profile : List Byte) (w : Nat) : SearchOut × Option Winner :=
  let banks := searchBanks w
  if banks.any fun b => s.bankLost a b then (.unanswered 0x52, none)
  else match bestWinner (s.matching a x profile banks) with
    | some v => (.hit v.rule.result, some v)
    | none => (.miss, none)

/-- What a search set gives: for each valid search its MISS_DROP bit and its outcome, in ascending order. -/
structure SetOut where
  array : Option Nat
  outs : List (Bool × SearchOut)
  winners : List Winner
  deriving DecidableEq, Repr

/-- A search set of quadrant `q` with profile `n` (R200, R210, R212). -/
def State.searchSet (s : State) (q n : Nat) (x : SearchIn) : SetOut :=
  match s.setServer q n with
  | none =>
    { array := none, winners := [],
      outs := (searchWords (s.searchProfile q n)).map fun w => (bit w.2 62, .unanswered 0x52) }
  | some a =>
    let profile := s.searchProfile a n
    let rs := (searchWords profile).map fun w => (w.2, s.searchOne a x profile w.2)
    { array := some a, winners := rs.filterMap fun r => r.2.2, outs := rs.map fun r => (bit r.1 62, r.2.1) }

/-- The counts of a search set on an array (SEARCHES, NEIGHBOUR_SEARCHES and the Caliper). -/
def State.countSet (s : State) (q n : Nat) (o : SetOut) : State :=
  match o.array with
  | none => s
  | some a =>
    let ev := 0x148 + 8 * a
    let forms := ((searchWords (s.searchProfile a n)).flatMap fun w => searchBanks w.2).map fun b =>
      bankForm (s.bankInForce a b)
    let s := (s.bump64 (Obj.searches a)).count ev
    let s := (s.countN (ev + 1) (forms.filter fun f => f == 0).length).countN (ev + 2) (forms.filter fun f => f == 1).length
    let s := (s.countN (ev + 3) o.winners.length).countN (ev + 5) ((o.winners.map Winner.guests).sum)
    if a = q then s else (s.bump64 (Obj.neighbourSearches a)).count (ev + 4)

/-- What a pass's searches give together (R208). -/
structure ReliefGain where
  code : Option Nat
  redirect : Option Nat
  cls : Option Nat
  policer : Option Nat
  deriving DecidableEq, Repr

/-- One search's outcome joined to those of the searches before it, under a port's RELIEF_DEFAULT_ACTION. -/
def ReliefGain.join (action : Nat) (g : ReliefGain) (o : Bool × SearchOut) : ReliefGain :=
  let miss := fun (g : ReliefGain) => if o.1 then { g with code := some (min 0x51 (g.code.getD 0x51)) } else g
  match o.2 with
  | .miss => miss g
  | .unanswered code => if action = 1 then { g with code := some (min code (g.code.getD code)) } else miss g
  | .hit r =>
    { code := if bits r 39 38 = 1 then some 0x50 else g.code,
      redirect := if g.redirect.isNone ∧ bits r 39 38 = 2 then some (bits r 37 20) else g.redirect,
      cls := if g.cls.isNone ∧ bit r 18 then some (bits r 17 15) else g.cls,
      policer := if g.policer.isNone ∧ bit r 19 then some (bits r 37 20) else g.policer }

/-- The searches of a pass combined in ascending order (R208). Of several codes the lowest stands (R23). -/
def SetOut.gain (o : SetOut) (action : Nat) : ReliefGain :=
  o.outs.foldl (ReliefGain.join action) { code := none, redirect := none, cls := none, policer := none }

end Sys2Proof.Machine
end

