-- ==== Sys2Proof/Machine/Versions.lean ====
section
/-! DEFINITION. The Maquette: opening, committing and aborting versions, retirement, and the residency bound (R219-R240). -/

namespace Sys2Proof.Machine

/-- The number after a version number (R222). -/
def nextVersion (n : Nat) : Nat := if n + 1 = 2 ^ 32 then 1 else n + 1

/-- A slot enters a state (SLOT_STATE, SLOT_SINCE). -/
def State.slotTo (s : State) (slot : Nat) (st : SlotState) : State :=
  let t := s.time
  let n := s.clock
  s.setSlot slot fun x => { x with state := st, since := t, entered := n }

/-- The code of a slot state (table Slot states). -/
def slotCode : SlotState → Nat
  | .free => 0
  | .building => 1
  | .current => 2
  | .draining => 3
  | .retiring => 4
  | .priming => 5

/-- VERSION_BUILDING_SLOT: 3 for none. -/
def State.buildingCode (s : State) : Nat := s.buildingSlot.getD 3

/-- The number of the building version, 0 for none. -/
def State.buildingNumber (s : State) : Nat :=
  match s.buildingSlot with
  | some b => (s.slot b).number
  | none => 0

/-- A completion of a version command, with the fields of Version result (R226). -/
def State.versionDone (s : State) (tag op status : Nat) : State :=
  let version := if op = 0x21 then (s.slot s.currentSlot).number else s.buildingNumber
  s.tableDone tag op status 0 0 (field 8 version + field 6 s.currentSlot + field 4 s.buildingCode)

/-- Every position of a log takes, in slot `dst`, the bit it has in slot `src`; positions that then read 0b000 are freed
(R230). -/
def State.applyLog (s : State) (log : List LogKey) (dst src : Nat) : State :=
  log.foldl (fun s k => match k with
    | .unit t key => s.copyUnitBit t key dst src
    | .rule b i => s.copyRuleBit b i dst src) s

/-- A version command's record has only bits the field map names (R225). -/
def versionRecordGood (r : Nat) : Bool := bits r 247 240 == 0 && bits r 222 0 == 0

/-- A version command taken from ring 8 where its record is good (R225). -/
def State.takeVersion (s : State) (op : Nat) (act : Nat → State → State) : State :=
  s.takeTable op fun r s => if versionRecordGood r then act r s else s.versionDone (bits r 239 224) op 4

/-- OPEN (R227): the lowest FREE slot becomes BUILDING. -/
def State.versionOpen (s : State) (tag : Nat) : State :=
  if s.buildingSlot.isSome then s.versionDone tag 0x20 0x0B
  else match s.slotIn .free with
    | none => s.versionDone tag 0x20 8
    | some f =>
      let n := nextVersion (s.slot s.currentSlot).number
      (((s.slotTo f .building).setSlot f fun x => { x with number := n, log := [] })).versionDone tag 0x20 0

/-- A commit begins to prime a FREE slot (R227), which is work of sequencer 1 (R430). -/
def State.startPriming (s : State) (tag : Nat) : State :=
  match s.slotIn .free with
  | none => s
  | some f => ({ s.slotTo f .priming with versions := { (s.slotTo f .priming).versions with commit := .priming tag } } : State).request 1

/-- COMMIT (R227). -/
def State.versionCommit (s : State) (r : Nat) : State :=
  let tag := bits r 239 224
  if s.buildingSlot.isNone then s.versionDone tag 0x21 6
  else if (s.slotIn .free).isSome then s.startPriming tag
  else if bit r 223 then s.versionDone tag 0x21 8
  else { s with versions := { s.versions with commit := .pending tag } }

/-- ABORT (R227): its log is applied until ABORT_COMPLETE. -/
def State.versionAbort (s : State) (tag : Nat) : State :=
  if s.buildingSlot.isNone then s.versionDone tag 0x22 6
  else ({ s with versions := { s.versions with aborting := some tag } } : State).request 1

/-- VERSION_OPEN (R227). -/
def execVersionOpen (s : State) : Result := .next (s.takeVersion 0x20 fun r s => s.versionOpen (bits r 239 224))

/-- COMMIT (R227). -/
def execCommit (s : State) : Result := .next (s.takeVersion 0x21 fun r s => s.versionCommit r)

/-- ABORT (R227). -/
def execVersionAbort (s : State) : Result := .next (s.takeVersion 0x22 fun r s => s.versionAbort (bits r 239 224))

/-- ABORT_COMPLETE (R230): the building slot stays BUILDING, empty, under the same number. -/
def execAbortComplete (s : State) : Result :=
  match s.versions.aborting, s.buildingSlot with
  | some tag, some b =>
    let s := (s.applyLog (s.slot b).log b s.currentSlot).setSlot b fun x => { x with log := [] }
    .next (({ s with versions := { s.versions with aborting := none } } : State).versionDone tag 0x22 0)
  | _, _ => .next s

/-- PRIMING_START (R233): a slot is FREE and the pending commit begins to prime it. -/
def execPrimingStart (s : State) : Result :=
  match s.versions.commit with
  | .pending tag => .next (s.startPriming tag)
  | _ => .next s

/-- COMMIT_SWITCH (R228): the building slot becomes CURRENT, the current one DRAINING and the primed one BUILDING, in one
clock. Sequencer 1 is told by an urgent trap (R437). -/
def execCommitSwitch (s : State) : Result :=
  match s.versions.commit, s.buildingSlot, s.slotIn .priming with
  | .priming tag, some b, some p =>
    let c := s.currentSlot
    let n := (s.slot b).number
    let s := s.applyLog (s.slot b).log p b
    let s := ((s.slotTo b .current).slotTo c .draining).slotTo p .building
    let s := s.setSlot p fun x => { x with number := nextVersion n, log := [] }
    let s := { s with versions := { s.versions with commit := .none } }
    .next ((((s.bump32 Obj.commits).flag Obj.tableSummary 9).raiseTrap 1 1 2).versionDone tag 0x21 0)
  | _, _, _ => .next s

/-- SLOT_RETIRE (R233): a DRAINING slot whose in-flight count is zero becomes RETIRING. -/
def execSlotRetire (slot : Slot) (s : State) : Result :=
  let x := s.slot slot.val
  if x.state = .draining ∧ x.inFlight = 0 then .next ((s.slotTo slot.val .retiring).request 1) else .next s

/-- CLEANUP_COMPLETE (R230, R233): the current version's log has been applied to the retiring slot, and is done with. -/
def execCleanupComplete (slot : Slot) (s : State) : Result :=
  let i := slot.val
  if (s.slot i).state = .retiring then
    let c := s.currentSlot
    let s := (s.applyLog (s.slot c).log i c).setSlot c fun x => { x with log := [] }
    let s := (s.slotTo i .free).setSlot i fun x => { x with number := 0, log := [] }
    .next (s.flag Obj.tableSummary 10)
  else .next s

/-- VERSION_CANCEL written with 1 (R231). -/
def State.versionCancel (s : State) : State :=
  match s.versions.commit with
  | .pending tag =>
    (({ s with versions := { s.versions with commit := .none } } : State).put Obj.versionCancelResult 1).versionDone tag 0x21
      0x0A
  | .priming _ => s.put Obj.versionCancelResult 2
  | .none => s.put Obj.versionCancelResult 3

/-! ### Residency (R234, R235) -/

/-- The copies of a VOQ, oldest first: those on-die, then those in bins, then those staged (R235, R286). -/
def State.voqCopies (s : State) (v : Nat) : List Copy :=
  s.copiesAt (.voq v) ++
    (s.copies.filter fun c => match c.loc with
      | .bin w _ => w == v
      | _ => false) ++ s.copiesAt (.staged v)

/-- The copies of a queue, oldest first. -/
def State.queueCopies (s : State) : QueueId → List Copy
  | .voq v => s.voqCopies v.val
  | .repl c => s.copiesAt (.repl c.val)
  | .egress n => s.copiesAt (.egress n.val)

/-- The frame of a copy is older than STALE_AGE_MS. -/
def State.copyStale (s : State) (c : Copy) : Bool := ((s.frame? c.frame).map s.stale).getD false

/-- STALE_SWEEP (R235): heads older than STALE_AGE_MS are dropped with code 0x61 until one is younger. -/
def execStaleSweep (queue : QueueId) (s : State) : Result :=
  if s.ready then .next (s.endCopies ((s.queueCopies queue).takeWhile s.copyStale) 0x61) else .next s

end Sys2Proof.Machine
end

