-- ==== Sys2Proof/Machine/Buffers.lean ====
section
/-! DEFINITION. VOQs, spill to DDR5 and the replication queues: admission, storing, spilling and returning (R273-R293,
R299, R300). -/

namespace Sys2Proof.Machine

/-! ### DDR5 bins (R285, R286) -/

/-- The MiB of the fixed DDR5 regions (table DDR5 regions), both copies of those that have two. -/
def State.fixedMib (s : State) : Nat := 436 + s.obj? Obj.captureRingMib

/-- The 16 KiB bins of a channel that the fixed regions leave (R285). -/
def State.binsPerChannel (s : State) : Nat :=
  let n := popCount 16 s.boot.striped
  if n = 0 then 0 else s.gibPerChannel * 65536 - ceilDiv (s.fixedMib * 64) n

/-- The channels in use. -/
def State.channels (s : State) : List Nat := (List.range 16).filter s.channelInUse

/-- SPILL_BINS_TOTAL. -/
def State.binsTotal (s : State) : Nat := s.channels.length * s.binsPerChannel

/-- The channel of a bin. -/
def binChannel (b : Nat) : Nat := b / 2 ^ 24

/-- The bins of a channel that are not free: in use, or retired. -/
def State.binsTaken (s : State) (c : Nat) : List Nat :=
  ((s.arm.bins.map Bin.bin) ++ s.arm.retired).filter fun b => binChannel b == c

/-- SPILL_BINS_FREE. -/
def State.binsFree (s : State) : Nat := (s.channels.map fun c => s.binsPerChannel - (s.binsTaken c).length).sum

/-- The lowest free bin of a channel. -/
def State.lowestBin (s : State) (c : Nat) : Option Nat :=
  let taken := s.binsTaken c
  ((List.range (min s.binsPerChannel (taken.length + 1))).map fun i => c * 2 ^ 24 + i).find? fun b => !taken.contains b

/-- The bins in a channel's write queue (R286). -/
def State.binsQueued (s : State) (c : Nat) : List (Nat × Nat) :=
  s.arm.writes.filter fun e => binChannel e.1 == c && decide (s.clock < e.2)

/-- The bin taken next: the lowest free one of the next channel in ascending order from the last one taken (R286). A fenced channel, one
whose write queue holds 16 bins and one whose region is under test give none. -/
def State.nextBin (s : State) : Option Nat :=
  ((List.range 16).map fun i => (s.arm.lastChannel + 1 + i) % 16).findSome? fun c =>
    if s.channelInUse c && !s.kindOn 6 (0x420 + c) && decide ((s.binsQueued c).length < 16) then s.lowestBin c else none

/-- The bins of a VOQ, in the order they were taken. -/
def State.voqBins (s : State) (v : Nat) : List Bin := s.arm.bins.filter fun b => b.voq == v

/-- The bytes of frames and their records that a bin holds: 16 KiB less the link (R286). -/
def binRoom : Nat := 16352

/-- Cells staged for writing (R288). -/
def State.stagedCells (s : State) : Nat :=
  ((s.copies.filter Copy.isStaged).map s.copyCells).sum

/-- A VOQ is in the spill state. -/
def State.spilled (s : State) (v : Nat) : Bool := s.arm.spilled.contains v

/-- Nothing of a VOQ is in DDR5 or on its way there. -/
def State.segmentEmpty (s : State) (v : Nat) : Bool := (s.voqBins v).isEmpty && (s.copiesAt (.staged v)).isEmpty

/-- The end of a clock in the Armature: the banks apply frees, VOQs whose segments are empty leave the spill state, and F is computed
anew (R272, R280, R290). -/
def State.armatureClock (s : State) : State :=
  let s := s.applyFrees
  let s := { s with arm := { s.arm with spilled := s.arm.spilled.filter fun v => !s.segmentEmpty v } }
  { s with arm := { s.arm with shared := s.sharedFree } }

/-! ### Arrival at a VOQ (R281, R287, R288, R299) -/

/-- Spill admission of a frame of `size` bytes to VOQ `v` (R287, R288): the code that refuses it. -/
def State.admitSpill (s : State) (v size : Nat) : Option Nat :=
  let most := profileMaxBins (s.profile (s.profileOf (.voq v)))
  let bins := s.voqBins v
  let fits := bins.any fun b => b.isOpen && b.filled + 64 + size ≤ binRoom
  if (most != 0 && most ≤ bins.length && !fits) || s.binsFree == 0 then some 0x86
  else if s.obj? Obj.spillStagingCells < s.stagedCells + 1 then some 0x87
  else none

/-- A frame's first cell is requested for VOQ `v`: the VOQ enters the spill state where R287 says so; then the place the
frame takes, or the code that refuses it. -/
def State.arriveVoq (s : State) (v size : Nat) : State × Except Nat CopyLoc :=
  let threshold := profileThreshold (s.profile (s.profileOf (.voq v)))
  let s := if s.obj? Obj.spillEnable = 1 ∧ threshold ≠ 0 ∧ threshold ≤ s.queueCells (.voq v) ∧ ¬ s.spilled v then
      { s with arm := { s.arm with spilled := s.arm.spilled ++ [v] } }
    else s
  if s.spilled v then
    match s.admitSpill v size with
    | some code => (s, .error code)
    | none => (s, .ok (.staged v))
  else match s.admission (.voq v) with
    | some code => (s, .error code)
    | none => (s, .ok (.voq v))

/-- The frame's bytes, bound for queue `q`, put into cells where they are not in cells yet: the code that drops it, if one does. -/
def State.store (s : State) (w : Writer) (frame : Nat) (q : CopyLoc) : State × Option Nat :=
  match s.frame? frame with
  | none => (s, none)
  | some f =>
    if !f.cells.isEmpty then (s, none)
    else if f.complete then s.writeCells w frame (s.keptForOthers q) f.stored
    else s.requestCells w frame (s.keptForOthers q) (cellsFor f.stored)

/-- The place of a frame's first copy. -/
def State.placeOf (s : State) (frame : Nat) : CopyLoc :=
  ((s.copies.find? fun c => c.frame == frame).map Copy.loc).getD (.fabric 0)

/-- Cells requested for the bytes that a stored frame has gained: the code that ends it, if one does. -/
def State.growCells (s : State) (w : Writer) (frame : Nat) : State × Option Nat :=
  match s.frame? frame with
  | none => (s, none)
  | some f => if f.cells.isEmpty then (s, none)
    else s.requestCells w frame (s.keptForOthers (s.placeOf frame)) (cellsFor f.stored - f.cells.length)

/-- A copy of a frame. -/
def plainCopy (frame cls : Nat) (loc : CopyLoc) : Copy :=
  { id := 0, frame := frame, loc := loc, cls := cls, nextHop := none, group := none, voq := none, port := 0,
    returned := false, cast := false, edited := [], rewrite := none }

/-- A unicast frame is enqueued on the VOQ of a system port and its class (R299), its own copy; or the code that refuses it. -/
def State.offerVoq (s : State) (w : Writer) (frame sp nextHop : Nat) : State × Option Nat :=
  match s.frame? frame with
  | none => (s, none)
  | some f =>
    match s.systemPort sp with
    | .unassigned => (s, some 0x91)
    | _ =>
      let v := 8 * sp + f.cls
      match s.arriveVoq v f.stored with
      | (s, .error code) => (s, some code)
      | (s, .ok loc) =>
        match s.store w frame loc with
        | (s, some code) => (s, some code)
        | (s, none) =>
          ((s.setFrame frame fun f => { f with loc := .copies, refs := 1 }).addCopy
            { plainCopy frame f.cls loc with nextHop := some nextHop, voq := some v }, none)

/-- A frame for a group is enqueued on the replication queue of its class (R257), or the code that refuses it. -/
def State.offerRepl (s : State) (w : Writer) (frame group : Nat) : State × Option Nat :=
  match s.frame? frame with
  | none => (s, none)
  | some f =>
    match s.admission (.repl f.cls) with
    | some code => (s, some code)
    | none =>
      match s.store w frame (.repl f.cls) with
      | (s, some code) => (s, some code)
      | (s, none) =>
        ((s.setFrame frame fun f => { f with loc := .copies, refs := 1 }).addCopy
          { plainCopy frame f.cls (.repl f.cls) with group := some group }, none)

/-- A frame from the fabric for a group is enqueued for replication, or ends. -/
def State.enqueueRepl (s : State) (w : Writer) (frame group : Nat) : State :=
  match s.offerRepl w frame group with
  | (s, some code) => s.endFrame frame code
  | (s, none) => s

/-! ### Credit (R300) -/

/-- The balance of a VOQ. -/
def State.credit (s : State) (v : Nat) : Int := (Sparse.find? s.queues.credit v).getD 4096

/-- The balance of a VOQ set. -/
def State.putCredit (s : State) (v : Nat) (x : Int) : State :=
  { s with queues := { s.queues with credit := Sparse.set (fun _ => (4096 : Int)) s.queues.credit v x } }

/-- A VOQ holds no frame in any of its parts. -/
def State.voqEmpty (s : State) (v : Nat) : Bool := (s.voqCopies v).isEmpty

/-- The amount of the last grant of a VOQ: one quantum of 4,096 bytes after reset. -/
def State.granted (s : State) (v : Nat) : Nat := (Sparse.find? s.queues.granted v).getD 4096

/-- While a VOQ is empty its balance is capped at the amount of its last grant (R300). -/
def State.capCredit (s : State) (v : Nat) : State := if s.voqEmpty v then s.putCredit v (min (s.credit v) (s.granted v)) else s

/-- A grant adds its amount; while the VOQ is empty the balance is capped at it. -/
def State.addCredit (s : State) (v amount : Nat) : State :=
  let s := s.putCredit v (s.credit v + amount)
  ({ s with queues := { s.queues with granted := Sparse.set (fun _ => 4096) s.queues.granted v amount } } : State).capCredit v

/-- The bytes of a passed frame deducted. -/
def State.spendCredit (s : State) (v n : Nat) : State := s.putCredit v (s.credit v - n)

/-! ### Spill writers and readers (R288-R290) -/

/-- Bursts of 64 bytes. -/
def bursts (n : Nat) : Nat := ceilDiv n 64

/-- The clock by which a channel has written a bin of `n` bytes that enters its write queue now: 200 Gb/s, 125 bits a clock, behind the
bins that wait there (R291). -/
def State.writtenBy (s : State) (b n : Nat) : Nat :=
  ((s.binsQueued (binChannel b)).map Prod.snd).foldl max s.clock + ceilDiv (8 * n) 125

/-- A bin is written out: it enters its channel's write queue, and its bursts are counted on the channel. -/
def State.writeOut (s : State) (b : Nat) : State :=
  match s.arm.bins.find? fun x => x.bin == b with
  | some x =>
    if x.isOpen then
      let s := { s with arm := { s.arm with
        bins := s.arm.bins.map fun (y : Bin) => if y.bin = b then { y with isOpen := false } else y,
        writes := (s.arm.writes.filter fun (e : Nat × Nat) => decide (s.clock < e.2)) ++ [(b, s.writtenBy b (x.filled + 32))] } }
      s.ddr5Write (binChannel b) (bursts (x.filled + 32))
    else s
  | none => s

/-- Bytes of a copy packed into the open bin of a VOQ, going on into new bins; false where no bin is free. -/
def State.packBin (s : State) (v copy : Nat) : Nat → Nat → Option State
  | 0, _ => none
  | _, 0 => some s
  | fuel + 1, n =>
    match (s.voqBins v).find? Bin.isOpen with
    | none =>
      match s.nextBin with
      | none => none
      | some b =>
        let x : Bin := { bin := b, voq := v, filled := 0, isOpen := true, copies := [] }
        ({ s with arm := { s.arm with bins := s.arm.bins ++ [x], lastChannel := binChannel b } } : State).packBin v copy fuel n
    | some x =>
      let m := min n (binRoom - x.filled)
      let y := { x with filled := x.filled + m, copies := x.copies ++ [copy] }
      let s := { s with arm := { s.arm with bins := s.arm.bins.map fun (z : Bin) => if z.bin = x.bin then y else z } }
      let s := if binRoom ≤ y.filled then s.writeOut x.bin else s
      s.packBin v copy fuel (n - m)

/-- The bin in which a copy begins. -/
def State.firstBin (s : State) (copy : Nat) : Nat :=
  ((s.arm.bins.find? fun b => b.copies.contains copy).map Bin.bin).getD 0

/-- SPILL_WRITE (R288): the frame that arrived first of those staged is copied into its VOQ's bins, and its cells are freed; one that
still arrives is waited for, so that the frames keep their order (R289). A Cast copy's frame keeps its cells, which its other copies
use. -/
def execSpillWrite (s : State) : Result :=
  match s.copies.find? Copy.isStaged with
  | none => .next s
  | some c =>
    match c.loc, s.frame? c.frame with
    | .staged v, some f =>
      if !f.complete then .next s
      else match s.packBin v c.id 8 (64 + f.stored) with
      | none => .next s
      | some s =>
        let s := s.setCopy c.id fun x => { x with loc := .bin v (s.firstBin c.id) }
        let s := if c.cast then s else s.freeCells c.frame
        .next (s.add64 Obj.spillBytesWritten f.stored)
    | _, _ => .next s

/-- BIN_FLUSH (R288). -/
def execBinFlush (voq : Fin 131072) (s : State) : Result :=
  match (s.voqBins voq.val).find? Bin.isOpen with
  | some b => .next (s.writeOut b.bin)
  | none => .next s

/-- The copies of a bin that lie in no later bin of the VOQ: they come back with it. -/
def State.endingIn (s : State) (b : Bin) : List Nat :=
  b.copies.filter fun c => !(s.arm.bins.any fun x => x.bin != b.bin && x.copies.contains c &&
    decide ((s.voqBins b.voq).findIdx (fun y => y.bin == b.bin) < (s.voqBins b.voq).findIdx fun y => y.bin == x.bin))

/-- The spill return reader that asks next: port 34 or 35, whichever may ask first (DESIGN CHOICE, log entry 114: the spec does not say
which of the two serves a bin). -/
def State.returnReader (s : State) : Writer :=
  { port := if s.nextAsk 35 < s.nextAsk 34 then 35 else 34, cls := 2, rivals := [] }

/-- The cells of a frame that comes back, asked for by a spill return reader: false where one must wait (R275, R278). Cells granted
stay with the frame. -/
def State.returnCells (s : State) (v : Nat) (f : Frame) : State × Bool :=
  match s.requestCells s.returnReader f.id (s.keptForOthers (.voq v)) (cellsFor f.stored - f.cells.length) with
  | (s, none) => (s, true)
  | (s, some _) => (s, false)

/-- A copy in the head bin of a VOQ joins the tail of the on-die part (R289): false where it must wait. -/
def State.returnCopy (s : State) (b : Bin) (copy : Nat) : State × Bool :=
  match (s.copy? copy).bind fun x => s.frame? x.frame with
  | none => (s, true)
  | some f =>
    match s.returnCells b.voq f with
    | (s, false) => (s, false)
    | (s, true) =>
      (((s.moveCopy copy (.voq b.voq)).setCopy copy fun x => { x with returned := true }).add64 Obj.spillBytesReturned f.stored, true)

/-- Copies of the head bin of a VOQ brought back one after the other, as far as cells are granted; the copies left, if any, wait in the
bin. -/
def State.returnCopies (s : State) (b : Bin) : List Nat → State × List Nat
  | [] => (s, [])
  | c :: cs =>
    match s.returnCopy b c with
    | (s, true) => s.returnCopies b cs
    | (s, false) => (s, c :: cs)

/-- The head bin of a VOQ returned: its frames join the tail of the on-die part, and the bin is free once none of them waits for
cells. -/
def State.returnBin (s : State) (b : Bin) : State :=
  let ids := s.endingIn b
  match s.returnCopies b ids with
  | (s, []) =>
    ({ s with arm := { s.arm with bins := s.arm.bins.filter fun x => x.bin != b.bin } } : State).ddr5Read (binChannel b.bin)
      (bursts (b.filled + 32))
  | (s, left) =>
    let keeps := fun c => left.contains c || !ids.contains c
    { s with arm := { s.arm with bins := s.arm.bins.map fun (x : Bin) =>
        if x.bin = b.bin then { x with copies := x.copies.filter keeps } else x } }

/-- A VOQ whose head bin may come back: the bin is written, the on-die part holds fewer than SPILL_RETURN_CELLS cells, and no
DDR5_PINS slice holds the channel's reads (R397). -/
def State.returnable (s : State) (v : Nat) : Option Bin :=
  match (s.voqBins v).head? with
  | some b =>
    if !b.isOpen && s.queueCells (.voq v) < s.obj? Obj.spillReturnCells && !s.kindOn 5 (0x420 + binChannel b.bin) then some b
    else none
  | none => none

/-- SPILL_RETURN (R289): the first VOQ in the spill state that may take its head bin back does so. -/
def execSpillReturn (s : State) : Result :=
  match s.arm.spilled.findSome? s.returnable with
  | none => .next s
  | some b => .next (s.returnBin b)

/-! ### Lost bins (R292, R293) -/

/-- Every copy with a byte in bins that meet a condition ends with a code, and the bins leave their VOQs. -/
def State.loseBins (s : State) (p : Nat → Bool) (code : Nat) : State :=
  let lost := s.arm.bins.filter fun b => p b.bin
  let cs := s.copies.filter fun c => lost.any fun b => b.copies.contains c.id
  let s := s.endCopies cs code
  { s with arm := { s.arm with bins := s.arm.bins.filter fun b => !p b.bin,
                               writes := s.arm.writes.filter fun e => !p e.1 } }

/-- A bin retired (R292): a bin that no VOQ holds is retired too, and frames that begin in it are lost. -/
def State.retireBin (s : State) (b : Nat) : State :=
  let s := s.loseBins (fun x => x == b) 0x88
  let s := if s.arm.retired.contains b then s else { s with arm := { s.arm with retired := s.arm.retired ++ [b] } }
  (s.bump32 Obj.binsRetired).flag Obj.queueSummary 3

/-- The bins of a channel retired since the last reset. -/
def State.channelRetired (s : State) (c : Nat) : Nat := (s.arm.retired.filter fun b => binChannel b == c).length

end Sys2Proof.Machine
end

