-- ==== Sys2Proof/Machine/Chisel.lean ====
section
/-! DEFINITION. Chisel: the head of each copy is turned into the head its next hop needs (R242-R252). -/

namespace Sys2Proof.Machine

/-! ### Table entries (R243, R245) -/

/-- A next-hop entry. -/
def State.nextHopEntry (s : State) (n : Nat) : Nat := s.record Obj.nextHopTable 16 n

/-- KIND of a next-hop entry: 0 FORWARD, 1 MULTICAST, 2 DROP; 3 acts as 2. -/
def nhKind (e : Nat) : Nat := min (bits e 127 126) 2

/-- ENCAP_INDEX of a next-hop entry, where it names an entry. -/
def nhEncap (e : Nat) : Option Nat := if bit e 21 then none else some (bits e 20 6)

/-- The control word of an encapsulation entry (field map Encapsulation control); none acts as a word of zeros. -/
def State.encapControl (s : State) : Option Nat → Nat
  | some i => beNat (s.bytes Obj.encapTable (128 * i) 16)
  | none => 0

/-- Bytes of an encapsulation entry from an offset. -/
def State.encapBytes (s : State) (e : Option Nat) (off n : Nat) : List Byte :=
  match e with
  | some i => s.bytes Obj.encapTable (128 * i + off) n
  | none => []

/-- PUSH_LABELS; 5–7 act as 4. -/
def encapPush (c : Nat) : Nat := min (bits c 122 120) 4
/-- POP_LABELS. -/
def encapPop (c : Nat) : Nat := bits c 127 123
/-- IMAGE_BYTES; 97–127 act as 96. -/
def encapImage (c : Nat) : Nat := min (bits c 116 110) 96
/-- STRIP_LEVEL. -/
def encapStrip (c : Nat) : Nat := bits c 118 117

/-- An encapsulation entry whose fix-up fields, checksum header or entropy field do not lie within its image (UB-RW-1). -/
def encapMisused (c : Nat) (image : List Byte) : Bool :=
  let n := encapImage c
  (bit c 108 && decide (n < bits c 107 101 + 2)) || (bit c 93 && decide (n < bits c 92 86 + 2)) ||
    (bit c 70 && decide (n < bits c 69 63 + 2)) ||
    (bit c 78 && (decide (n < bits c 77 71 + 20) || (image.getD (bits c 77 71) 0).toNat % 16 != 5))

/-! ### Where the headers of a frame stand -/

/-- The frame came from the fabric: only its context tells where its headers stand. -/
def Frame.isRemote (f : Frame) : Bool :=
  match f.source with
  | .fabric _ => true
  | _ => false

/-- An offset that a frame carries may be used by an edit (R251): it lies within the first 512 bytes. One that crossed the fabric as 511
stands for any beyond 510 (R329). -/
def Frame.reach (f : Frame) (off : Nat) : Bool := if f.isRemote then decide (off < 511) else decide (off < 512)

/-- Bytes up to an offset lie within the first 512 (R251). -/
def withinHead (last : Nat) : Bool := decide (last < 512)

/-- LEVEL_START of a level (1–3). -/
def Context.level (c : Context) (l : Nat) : Option Nat :=
  if l = 1 then c.level1 else if l = 2 then c.level2 else if l = 3 then c.level3 else none

/-- A tag protocol identifier by which a frame from the fabric shows a VLAN tag (DEDUCED: the header that crosses carries no
L2 part). -/
def isTpid (v : Nat) : Bool := v == 0x8100 || v == 0x88A8 || v == 0x9100

/-- The tags that follow a byte offset at which an Ethertype stands: their length. -/
def tagLength : Nat → List Byte → Nat
  | 0, _ => 0
  | fuel + 1, b => if isTpid (beAt b 0 2) then 4 + tagLength fuel (b.drop 4) else 0

/-- A header known to Chisel: class, offset and length. -/
abbrev Mark := Nat × Nat × Nat

/-- The headers of a frame that its context names: the one its result was keyed by, and its labels. -/
def Frame.named (f : Frame) : List Mark :=
  (if f.context.fwdClass = 0 then [] else [(f.context.fwdClass, f.context.fwdOffset, 0)]) ++
    (List.range f.context.labelDepth).map fun i => (3, f.context.labelStart + 4 * i, 4)

/-- The headers of a frame: those that its passes recorded. Of a frame from the fabric they are those that its context names, and an
Ethernet header with its tags where the frame begins after a strip, unless one of those stands there (DEDUCED: the header that crosses
carries no vector). -/
def Frame.marks (f : Frame) (head : Nat) : List Mark :=
  if !f.isRemote then f.headers
  else if f.named.any fun m => m.2.1 == head then f.named
  else (1, head, 14 + tagLength 3 (f.bytes.drop (head + 12))) :: f.named

/-- The headers left by the removal of the bytes before an offset. -/
def stripMarks (head : Nat) (ms : List Mark) : List Mark :=
  (ms.filter fun m => head ≤ m.2.1).map fun m => (m.1, m.2.1 - head, m.2.2)

/-- The headers left by the removal of `n` bytes at an offset. -/
def popMarks (start n : Nat) (ms : List Mark) : List Mark :=
  (ms.filter fun m => m.2.1 < start || start + n ≤ m.2.1).map fun m => (m.1, if m.2.1 < start then m.2.1 else m.2.1 - n, m.2.2)

/-- The length of the run of ETHERNET and VLAN headers from an offset on (R246). -/
def runLength : Nat → List Mark → Nat → Nat
  | 0, _, _ => 0
  | fuel + 1, ms, off =>
    match ms.find? fun m => m.2.1 == off && (m.1 == 1 || m.1 == 2) with
    | some m => if m.2.2 = 0 then 0 else m.2.2 + runLength fuel ms (off + m.2.2)
    | none => 0

/-- The class of the header at an offset: a label, IPv4 or IPv6; 0 where none is known. -/
def classAt (ms : List Mark) (off : Nat) : Nat :=
  ((ms.find? fun m => m.2.1 == off && (m.1 == 3 || m.1 == 4 || m.1 == 5)).map fun m => m.1).getD 0

/-- The class of the header at an offset of the bytes left: for a frame from the fabric, of which no vector is known, what the first
nibble says where no label stands there (DEDUCED). -/
def Frame.classLeft (f : Frame) (ms : List Mark) (b : List Byte) (off : Nat) : Nat :=
  if classAt ms off ≠ 0 ∨ !f.isRemote then classAt ms off
  else if (b.getD off 0).toNat / 16 = 4 then 4
  else if (b.getD off 0).toNat / 16 = 6 then 5
  else 0

/-! ### TTLs (R247) -/

/-- The byte of a header of a class that holds its TTL or hop limit. -/
def ttlByte : Nat → Option Nat
  | 3 => some 3
  | 4 => some 8
  | 5 => some 7
  | _ => none

/-- A one's complement sum folded to 16 bits. -/
def foldSum (v : Nat) : Nat :=
  let a := v % 65536 + v / 65536
  a % 65536 + a / 65536

/-- A TTL written at an offset into a header of a class; an IPv4 header checksum follows as RFC 1624 gives:
HC' = ~(~HC + ~m + m'). -/
def writeTtl (b : List Byte) (cls off ttl : Nat) : List Byte :=
  match ttlByte cls with
  | none => b
  | some k =>
    if cls = 4 then
      let m := beAt b (off + 8) 2
      let b' := splice b (off + 8) [BitVec.ofNat 8 ttl]
      let m' := beAt b' (off + 8) 2
      let hc := beAt b (off + 10) 2
      splice b' (off + 10) (toBe 2 (65535 - foldSum ((65535 - hc) + (65535 - m) + m')))
    else splice b (off + k) [BitVec.ofNat 8 ttl]

/-- The internet checksum of a header. -/
def ipChecksum (b : List Byte) : Nat :=
  let rec sum : List Byte → Nat
    | x :: y :: r => 256 * x.toNat + y.toNat + sum r
    | [x] => 256 * x.toNat
    | [] => 0
  65535 - foldSum (sum b)

/-! ### The edit (R246) -/

/-- The VLAN_OP of a next-hop entry applied to an outermost header (R248). -/
def vlanOp (e : Nat) (h : List Byte) : List Byte :=
  let op := bits e 39 38
  let tagged := decide (18 ≤ h.length)
  if op = 1 then h.take 12 ++ toBe 2 0x8100 ++ toBe 2 (field 13 (bits e 25 23) + bits e 37 26) ++ h.drop 12
  else if op = 2 ∧ tagged then h.take 12 ++ h.drop 16
  else if op = 3 ∧ tagged then
    splice h 14 (toBe 2 (field 13 (bits e 25 23) + field 12 (bits (beAt h 14 2) 12 12) + bits e 37 26))
  else h

/-- The pushed labels (R246 step 5, R247): the TTL is the one given, where there is one. -/
def pushedLabels (stack : List Byte) (n : Nat) (ttl : Option Nat) (bottom : Bool) : List Byte :=
  (List.range n).flatMap fun i =>
    let w := beAt stack (4 * i) 4
    let w := putBits w 8 8 (b2n (bottom && i + 1 == n))
    toBe 4 (match ttl with
      | some t => putBits w 7 0 t
      | none => w)

/-- A length fix-up (R249). -/
def fixLength (image : List Byte) (valid : Bool) (off base total : Nat) : List Byte :=
  if valid then splice image off (toBe 2 (total - base)) else image

/-- The image with its fix-ups, entropy and checksum (R249, R250); `below` is the number of bytes under it. -/
def builtImage (c : Nat) (image : List Byte) (below entropy : Nat) : List Byte :=
  let total := encapImage c + below
  let i := fixLength image (bit c 108) (bits c 107 101) (bits c 100 94) total
  let i := fixLength i (bit c 93) (bits c 92 86) (bits c 85 79) total
  let i := if bit c 70 then splice i (bits c 69 63) (toBe 2 (0xC000 + entropy % 2 ^ 14)) else i
  if bit c 78 then
    let o := bits c 77 71
    let z := splice i (o + 10) [0, 0]
    splice z (o + 10) (toBe 2 (ipChecksum (slice z o 20)))
  else i

/-- What Chisel makes of a copy: its head's bytes and the rest, or the code that ends it, or a misuse. -/
inductive Edited where
  | bytes (b : List Byte) | ends (code : Nat) | misuse
  deriving DecidableEq, Repr

/-- What Chisel reads for a copy (R243, R245): the next-hop entry, the control word, labels and image of its encapsulation, and the
source address its row names. -/
def State.readRewrite (s : State) (n : Nat) : Rewrite :=
  let e := s.nextHopEntry n
  let i := nhEncap e
  let c := s.encapControl i
  { entry := e, control := c, stack := s.encapBytes i 16 16, image := s.encapBytes i 32 (encapImage c),
    smac := s.bytes Obj.smacTable (8 * bits e 47 40) 6 }

/-- The TTL that a copy's FWD_INSTANCE carries: its class, offset, and the byte in it; none where the class has none (R247). -/
def Context.ttlPlace (x : Context) : Option Nat := (ttlByte x.fwdClass).map fun k => x.fwdOffset + k

/-- The last byte that a TTL written into a header of a class at an offset touches: an IPv4 checksum follows its TTL. -/
def ttlEnd (cls off : Nat) : Nat := if cls = 4 then off + 11 else off + (ttlByte cls).getD 0

/-- The edit of a frame's bytes by what Chisel reads for a copy (R246–R251). -/
def Frame.edit (f : Frame) (r : Rewrite) : Edited :=
  let e := r.entry
  let c := r.control
  let body := f.bytes.take (f.bytes.length - (if f.complete then 4 else 0))
  let x := f.context
  let pop := encapPop c
  let push := encapPush c
  let strip := encapStrip c
  let start := x.level strip
  let head := if strip = 0 then 0 else start.getD 0
  let cut := x.labelStart + 4 * pop
  let dec := bit e 22
  let uniform := bit c 119
  let ttl := x.ttlPlace
  let v := (body.getD (ttl.getD 0) 0).toNat
  let v' := if dec then v - 1 else v
  let seen := ttl.all withinHead && (ttl.isNone || f.reach x.fwdOffset)
  let popped := decide (0 < pop ∧ x.fwdClass = 3 ∧ x.labelStart ≤ x.fwdOffset ∧ x.fwdOffset < cut)
  let kept := decide (head ≤ x.fwdOffset) && !popped
  let left := decide (pop < x.labelDepth) && (pop == 0 || !bit (beAt body (cut - 4) 4) 8)
  let ms := if strip = 0 then popMarks x.labelStart (4 * pop) (f.marks 0) else stripMarks head (f.marks head)
  let l2 := runLength (ms.length + 1) ms 0
  let l2End := if strip ≠ 0 then head + l2 else if l2 ≤ x.labelStart then l2 else l2 + 4 * pop
  let below := if left then 3 else f.classLeft (f.marks 0) body cut
  if encapMisused c r.image then .misuse
  else if (strip ≠ 0 ∧ start.isNone) ∨ x.labelDepth < pop ∨ (strip ≠ 0 ∧ pop ≠ 0) then .ends 0x67
  else if dec ∧ ttl.isSome ∧ seen ∧ v ≤ 1 then .ends 0x68
  else if (strip ≠ 0 ∧ !f.reach head) ∨ (pop ≠ 0 ∧ !(f.reach x.labelStart && withinHead (cut - 1))) ∨
      (l2 ≠ 0 ∧ !withinHead (l2End - 1)) ∨ ((dec ∨ uniform) ∧ !seen) ∨
      (dec ∧ kept ∧ ttl.isSome ∧ !withinHead (ttlEnd x.fwdClass x.fwdOffset)) ∨
      (popped ∧ uniform ∧ (ttlByte below).isSome ∧ !withinHead (ttlEnd below cut)) then .ends 0x69
  else
    let b := if dec && kept then writeTtl body x.fwdClass x.fwdOffset v' else body
    let b := if popped && uniform then writeTtl b below cut v' else b
    let b := if strip = 0 then b.take x.labelStart ++ b.drop cut else b.drop head
    let part := b.take l2
    let inside := bits c 116 110 != 0 && bit c 109
    let outer := bits e 5 4 == 1 && l2 != 0 && encapImage c == 0
    let rest := if inside then b else b.drop l2
    let cls := if inside then 0 else f.classLeft ms b l2
    let labels := pushedLabels r.stack push (if uniform then some (if ttl.isSome then v' else 255) else none) (cls != 3)
    let under := labels ++ rest
    let image := builtImage c (r.image.take (encapImage c)) under.length x.entropy
    let closing := if l2 = 0 then 0 else beAt part (l2 - 2) 2
    let type := if bits c 62 47 ≠ 0 then bits c 62 47
      else if encapImage c ≠ 0 then closing
      else if push ≠ 0 ∨ cls = 3 then 0x8847
      else if cls = 4 then 0x0800
      else if cls = 5 then 0x86DD
      else closing
    let header := if outer then part else toBe 6 (bits e 95 48) ++ r.smac ++ toBe 2 type
    .bytes (vlanOp e header ++ image ++ under)

/-- What Chisel makes of a copy by what it has read for it (R252). A copy without a next hop is not edited. -/
def Frame.chiselled (f : Frame) : Option Rewrite → Edited
  | none => .bytes (f.bytes.take (f.bytes.length - (if f.complete then 4 else 0)))
  | some r => if nhKind r.entry = 2 then .ends 0x65 else f.edit r

/-- Chisel's edit of a copy of a frame, as the tables stand now (R219, R243). -/
def State.chisel (s : State) (f : Frame) (nextHop : Option Nat) : Edited := f.chiselled (nextHop.map s.readRewrite)

end Sys2Proof.Machine
end

