-- ==== Sys2Proof/Machine/Cast.lean ====
section
/-! DEFINITION. Cast, which turns one stored frame into many copies (R257-R263), and capture (R264-R267). -/

namespace Sys2Proof.Machine

/-! ### Replication -/

/-- A copy of the walk has been enqueued. -/
def State.copyMade (s : State) (frame : Nat) : State :=
  ((s.setFrame frame fun f => { f with copied := true }).bump64 Obj.castCopies).count 0x339

/-- A Cast copy of a frame: it takes a reference (R262). -/
def State.addCast (s : State) (frame : Nat) (c : Copy) : State :=
  (s.addCopy { c with cast := true }).setFrame frame fun f => { f with refs := f.refs + 1 }

/-- A LOCAL entry: a copy to a front port's egress queues. One that is refused there ends with its code, and its reference
with it. -/
def State.castLocal (s : State) (f : Frame) (group port nextHop : Nat) : State :=
  let id := s.nextId
  let s := s.addCast f.id { plainCopy f.id f.cls (.egress 0) with nextHop := some nextHop, group := some group, port := port }
  let s := s.enterEgress id (some nextHop) port f.cls
  if (s.copy? id).isSome then s.copyMade f.id else s

/-- A REMOTE entry: a copy to the VOQ of a system port. -/
def State.castRemote (s : State) (f : Frame) (group sp : Nat) : State :=
  match s.systemPort sp with
  | .unassigned => s.code (s.portPipe f.port) 0x91
  | _ =>
    let v := 8 * sp + f.cls
    match s.arriveVoq v f.stored with
    | (s, .error code) => s.code (s.portPipe f.port) code
    | (s, .ok loc) =>
      (s.addCast f.id { plainCopy f.id f.cls loc with group := some group, voq := some v }).copyMade f.id

/-- The frame was received on a front port of this engine. -/
def Frame.isFront (f : Frame) : Bool :=
  match f.source with
  | .front => true
  | _ => false

/-- One list entry of a walk (R259-R261). -/
def State.castEntry (s : State) (frame group : Nat) (prune : Bool) (i : Nat) : State :=
  match s.frame? frame with
  | none => s
  | some f =>
    let e := s.record Obj.replicationList 8 i
    if !bit e 63 then s.bump64 Obj.castInvalidEntries
    else if bit e 62 then (if f.isRemote then s else s.castRemote f group (bits e 61 48))
    else if prune ∧ f.isFront ∧ bits e 47 41 = f.port then s.bump64 Obj.castPruned
    else s.castLocal f group (bits e 47 41) (bits e 40 23)

/-- The head of the highest class of replication queue that holds a frame (R257). -/
def State.castHead (s : State) : Option Copy := [7, 6, 5, 4, 3, 2, 1, 0].findSome? fun c => (s.copiesAt (.repl c)).head?

/-- CAST_WALK (R260): the head frame leaves its replication queue, and the walk begins with its group's entry; its list entries are read
in the clocks that follow. A frame too old ends with 0x60 instead (R234), one for an invalid group with 0x66. -/
def execCastWalk (s : State) : Result :=
  if !s.ready then .next s
  else match s.castHead with
    | none => .next s
    | some c =>
      let e := s.groupEntry (c.group.getD 0)
      if s.copyStale c then .next (s.endCopy c.id 0x60)
      else if !groupValid e then .next ((s.endCopy c.id 0x66).count 0x338)
      else
        let s := { s with copies := s.copies.filter fun d => d.id != c.id }
        let s := s.moveFrame c.frame (.walking (c.group.getD 0 * 2 ^ 64 + e) 0)
        .next ((s.setFrame c.frame fun f => { f with refs := 1 }).count 0x338)

/-- A walk's state: its group, the group's entry as read at its start, and the list entries read since. -/
structure Walk where
  frame : Nat
  group : Nat
  entry : Nat
  read : Nat
  deriving DecidableEq, Repr

/-- The walk that holds a frame. -/
def Frame.walk (f : Frame) : Option Walk :=
  match f.loc with
  | .walking e n => some { frame := f.id, group := e / 2 ^ 64, entry := e % 2 ^ 64, read := n }
  | _ => none

/-- List entries that a walk has still to read. -/
def Walk.left (w : Walk) : Nat := bits w.entry 41 29 - w.read

/-- The walks under way, oldest first. -/
def State.walks (s : State) : List Walk := s.frames.filterMap Frame.walk

/-- A walk reads its next list entries, each as it stands now (R260, R263). -/
def State.readEntries (s : State) (w : Walk) (n : Nat) : State :=
  let s := (List.range n).foldl (fun s i => s.castEntry w.frame w.group (bit w.entry 62) (bits w.entry 61 42 + w.read + i)) s
  s.setFrame w.frame fun f => { f with loc := .walking (w.group * 2 ^ 64 + w.entry) (w.read + n) }

/-- A core clock of Cast: up to 8 list entries are read, the oldest walk's first (R260). -/
def State.castClock (s : State) : State :=
  (s.walks.foldl (fun (a : State × Nat) w => (a.1.readEntries w (min a.2 w.left), a.2 - w.left)) (s, 8)).1

/-- CAST_WALK_END (R262): the oldest walk that has read its whole list ends and releases its own reference; a walk that made no copy ends
its frame with 0x66. -/
def execCastWalkEnd (s : State) : Result :=
  match s.frames.find? fun f => f.walk.any fun w => w.left == 0 with
  | none => .next s
  | some f =>
    if f.copied then .next ((s.setFrame f.id fun f => { f with loc := .copies }).releaseRef f.id)
    else .next (s.endFrame f.id 0x66)

/-! ### Sampling (R265) -/

/-- The next value of a sampling register. -/
def sampleStep (v : BitVec 32) : BitVec 32 :=
  let b := ((v >>> 31) ^^^ (v >>> 21) ^^^ (v >>> 1) ^^^ v) &&& 1
  (v <<< 1) ||| b

/-- SAMPLE_SEED written: every half-pipe's register is loaded from it (R265). -/
def State.seedSamples (s : State) (seed : Nat) : State :=
  { s with pipes := s.pipes.mapIdx fun p (x : PipeSt) => { x with sampleIn := sampleStart seed p 0, sampleOut := sampleStart seed p 1 } }

/-- A candidate of an ingress (false) or egress half is judged: the half's register advances, and the candidate is sampled
where the new value is below ⌊2^32 ÷ N⌋. -/
def State.sample (s : State) (pipe : Nat) (egress : Bool) (n : Nat) : State × Bool :=
  let v := sampleStep (if egress then (s.pipe pipe).sampleOut else (s.pipe pipe).sampleIn)
  (s.setPipe pipe fun x => if egress then { x with sampleOut := v } else { x with sampleIn := v },
    decide (v.toNat < 2 ^ 32 / n))

/-! ### Capture records (R264, R266, R267) -/

/-- A byte of the capture ring lies in a channel that was in use at READY and is no more. -/
def State.captureByteLost (s : State) (off : Nat) : Bool := s.stripeLost (off / 4096)

/-- The record at a position of the capture ring has a byte in a fenced channel: it reads as all zeros (pair 30). -/
def State.captureLost (s : State) (position : Nat) : Bool :=
  s.captureByteLost (192 * position) || s.captureByteLost (192 * position + 191)

/-- The HEAD at which the next capture record is written: positions in a fenced channel are passed over, and read as all zeros (pair 30;
DEDUCED from R285, by which such a channel keeps its place in the striping). None where the ring is full before one is found. -/
def State.captureHead (s : State) : Nat → Nat → Option Nat
  | 0, _ => none
  | n + 1, h =>
    let t := s.obj? (Obj.ringTail 2)
    if bits h 30 0 == bits t 30 0 && bits h 31 31 != bits t 31 31 then none
    else if s.captureLost (bits h 30 0) then s.captureHead n (ringNext (s.ringCapacity 2) h)
    else some h

/-- A capture record is offered to the writer, which takes one every 8 core clocks (R267). While frames wait to be written to DDR5,
whether their writes leave it bandwidth is time the model leaves out: a free value (pair 11). -/
def State.offerCapture (s : State) (header : Nat) (b : List Byte) : State :=
  let s := s.count 0x33A
  let (starved, s) := if s.copies.any Copy.isStaged then s.free 1 else (0, s)
  let busy := s.captured.any fun t => decide (s.clock < t + 8)
  match (if busy || starved == 1 then none else s.captureHead 512 (s.obj? (Obj.ringHead 2))) with
  | none => ((s.bump32 (Obj.ringDropped 2)).flag (Obj.ringStatus 2) 2).count 0x33B
  | some h =>
    let clock := s.clock
    let s := (s.put (Obj.ringHead 2) h).ringPush 2 (toBe 32 header ++ b.take 160)
    let s := (List.range 3).foldl (fun s i => s.ddr5Write (s.stripeChannel ((192 * bits h 30 0 + 64 * i) / 4096)) 1) s
    ({ s with captured := some clock } : State).bump64 Obj.captureRecords

/-- The header of a capture record (field map Capture record). -/
def captureHeader (time kind inPort outPort : Nat) (f : Frame) (length captured : Nat) (nh group : Option Nat)
    (code : Nat) : Nat :=
  field 192 (time % 2 ^ 64) + field 184 kind + field 177 (if f.isRemote then 0 else inPort % 128) + field 170 (outPort % 128) +
    field 169 (b2n f.isRemote) + field 167 (f.stamp.getD 0) + field 152 (length % 32768) + field 144 captured +
    field 126 (nh.getD 0 % 2 ^ 18) + field 125 (b2n nh.isSome) + field 109 (group.getD 0 % 65536) +
    field 108 (b2n group.isSome) + field 92 (if f.isRemote then 0 else f.parseFlags % 65536) + field 89 (f.cls % 8) +
    field 81 (code % 256)

/-- The next hop of a frame's forwarding result. -/
def Frame.nextHop (f : Frame) : Option Nat :=
  match f.forward with
  | some (.nextHop n) => some n
  | _ => none

/-- A capture point is passed under a mode: every candidate is taken in mode 1, a sample of them in mode 2; `k` is the kind of
a mirror record here. -/
def State.capturePoint (s : State) (pipe : Nat) (egress : Bool) (mode n : Nat) (rec : Nat → Nat) (b : List Byte) : State :=
  if s.obj? Obj.captureEnable = 0 ∨ mode = 0 then s
  else if mode = 1 then s.offerCapture (rec (if egress then 2 else 1)) b
  else match s.sample pipe egress n with
    | (s, true) => s.offerCapture (rec (if egress then 4 else 3)) b
    | (s, false) => s

/-- FRAME_LENGTH of a capture record. While the frame's reception goes on, no length is known at the capture point, and the spec
states none: a free value. -/
def State.captureLength (s : State) (f : Frame) (n : Nat) : Nat × State := if f.complete then (n, s) else s.free 15

/-- The ingress capture point, at the end of a frame's last ingress pass, with the code the frame then holds. -/
def State.captureIngress (s : State) (f : Frame) (pipe code : Nat) : State :=
  let (length, s) := s.captureLength f f.bytes.length
  s.capturePoint pipe false (s.obj? (Obj.captureIngressMode f.port)) (s.obj? (Obj.sampleOneIn f.port))
    (fun kind => captureHeader s.time kind f.port 0 f length (min 160 f.bytes.length) f.nextHop none code) f.bytes

/-- The egress capture point, as Chisel releases a copy at port `p`: `b` is the edited frame without its FCS. -/
def State.captureEgress (s : State) (f : Frame) (c : Copy) (pipe p : Nat) (b : List Byte) : State :=
  let (length, s) := s.captureLength f (b.length + 4)
  s.capturePoint pipe true (s.obj? (Obj.captureEgressMode p)) (s.obj? (Obj.sampleOneIn p))
    (fun kind => captureHeader s.time kind f.port p f length (min 160 b.length) c.nextHop
      (if c.cast then c.group else none) 0) b

/-! ### The recirculation queue (R253) -/

/-- RECIRC_DEPTH. -/
def State.recircDepthOf (s : State) (pipe : Nat) : Nat := (s.framesAt (.recirc pipe)).length

/-- A frame that goes round, behind the others there, is written into cells of the recirculation quota and enters its pipe's recirculation queue (R253,
R256), or the code that refuses it. -/
def State.enterRecirc (s : State) (frame pipe : Nat) : State × Option Nat :=
  if 512 ≤ ((s.framesAt (.recirc pipe)).filter fun f => f.id != frame).length then (s, some 0x64)
  else match s.store { port := pipe, cls := 3, rivals := [] } frame (.fabric 0) with
    | (s, some code) => (s, some code)
    | (s, none) =>
      let s := s.moveFrame frame (.recirc pipe)
      (s.put (Obj.recircDepthPeak pipe) (max (s.obj? (Obj.recircDepthPeak pipe)) (s.recircDepthOf pipe)), none)

/-- RECIRC_DEPTH_PEAK written with 0 (R253). -/
def State.restartPeak (s : State) (pipe : Nat) : State := s.put (Obj.recircDepthPeak pipe) (s.recircDepthOf pipe)

end Sys2Proof.Machine
end

