-- ==== Sys2Proof/Machine/Flow.lean ====
section
/-! DEFINITION. Flow counters behind the accumulate cache (R417-R423). -/

namespace Sys2Proof.Machine

/-- A line with nothing pending. -/
def FlowLine.none : FlowLine := { packets := 0, octets := 0 }

/-- The pending delta of a pair. -/
def State.flowLine (s : State) (pair : Nat) : FlowLine := (Sparse.find? s.flow pair).getD .none

/-- The pending delta of a pair set. -/
def State.putFlow (s : State) (pair : Nat) (x : FlowLine) : State :=
  { s with flow := Sparse.set (fun _ => FlowLine.none) s.flow pair x }

/-- The channel that holds a pair (R417). -/
def State.flowChannel (s : State) (pair : Nat) : Nat := s.stripeChannel (pair / 256)

/-- A pair is unavailable: its channel is fenced (R423). -/
def State.flowLost (s : State) (pair : Nat) : Bool := !s.channelInUse (s.flowChannel pair)

/-- FLOW_PAIRS_UNAVAILABLE: 256 pairs for each stripe of the region's 8,192 whose channel is fenced. -/
def State.flowUnavailable (s : State) : Nat :=
  let cs := bitList 16 s.boot.striped
  256 * (((List.range cs.length).filter fun i => !s.channelInUse (cs.getD i 0)).map fun i =>
    8192 / max 1 cs.length + b2n (decide (i < 8192 % max 1 cs.length))).sum

/-- The stored pair: packets and bytes. -/
def State.storedPair (s : State) (pair : Nat) : Nat × Nat :=
  (beNat (s.bytes Obj.flowCounters (16 * pair) 8), beNat (s.bytes Obj.flowCounters (16 * pair + 8) 8))

/-- The stored pair set; both counters wrap (R417). -/
def State.storePair (s : State) (pair packets octets : Nat) : State :=
  s.putBytes Obj.flowCounters (16 * pair) (toBe 8 packets ++ toBe 8 octets)

/-- A line written back: its delta joins the stored pair by a read-modify-write of one burst (R419). -/
def State.flowWriteBack (s : State) (pair : Nat) : State :=
  let l := s.flowLine pair
  let v := s.storedPair pair
  let c := s.flowChannel pair
  (((s.storePair pair (v.1 + l.packets) (v.2 + l.octets)).putFlow pair .none).ddr5Read c 1).ddr5Write c 1

/-- Lines of the accumulate cache's bank that a pair belongs to. -/
def State.flowBank (s : State) (pair : Nat) : List Nat := (s.flow.map fun e => e.1).filter fun n => n % 32 == pair % 32

/-- Place made for a pair's line: where its bank's 512 lines are taken, the lowest pair's line is written back (R419; which
one is DESIGN CHOICE and shows to no host). -/
def State.flowRoom (s : State) (pair : Nat) : State :=
  let b := s.flowBank pair
  if b.contains pair || decide (b.length < 512) then s else s.flowWriteBack (b.headD 0)

/-- An increment discarded (R419, R423). -/
def State.flowDiscard (s : State) : State := (s.bump64 Obj.flowIncrementsLost).flag Obj.counterSummary 1

/-- An increment that a bank accepts: it joins its pair's line (R419), unless the pair's channel is fenced (R423). -/
def State.flowAccept (s : State) (pair packets octets : Nat) : State :=
  if s.flowLost pair then s.flowDiscard
  else
    let s := s.flowRoom pair
    let l := s.flowLine pair
    let x : FlowLine := { packets := l.packets + packets, octets := l.octets + octets }
    let s := s.putFlow pair x
    if 2 ^ 15 ≤ x.packets ∨ 2 ^ 31 ≤ x.octets then s.flowWriteBack pair else s

/-- Pairs of a bank accepted in this clock. -/
def State.flowTaken (s : State) (pair : Nat) : Nat := (s.flowServed.filter fun n => n % 32 == pair % 32).length

/-- A bank accepts an increment of a pair in this clock: one merged with an increment already accepted, or one of four (R419). -/
def State.flowMayAccept (s : State) (pair : Nat) : Bool := s.flowServed.contains pair || decide (s.flowTaken pair < 4)

/-- An increment accepted in this clock. -/
def State.flowServe (s : State) (pair packets octets : Nat) : State :=
  { s.flowAccept pair packets octets with flowServed := if s.flowServed.contains pair then s.flowServed else s.flowServed ++ [pair] }

/-- Increments that wait in the queue of a pair's bank. -/
def State.flowQueue (s : State) (pair : Nat) : List FlowWait := s.flowWaiting.filter fun x => x.pair % 32 == pair % 32

/-- An increment that finds its bank busy: merged with one of its pair and clock, queued, or discarded where the queue holds 64
(R419). -/
def State.flowWait (s : State) (pair packets octets : Nat) : State :=
  let now := s.clock
  let same := fun (x : FlowWait) => x.pair == pair && x.came == now
  if s.flowWaiting.any same then
    { s with flowWaiting := s.flowWaiting.map fun (x : FlowWait) =>
        if same x then { x with packets := x.packets + packets, octets := x.octets + octets } else x }
  else if (s.flowQueue pair).length < 64 then
    { s with flowWaiting := s.flowWaiting ++ [{ pair := pair, packets := packets, octets := octets, came := now }] }
  else s.flowDiscard

/-- An increment of a pair (R418, R419). Those of one clock come in the order of their commands. -/
def State.flowInc (s : State) (index packets octets : Nat) : State :=
  let pair := index % 2097152
  if s.flowServed.contains pair || (s.flowMayAccept pair && (s.flowQueue pair).isEmpty) then s.flowServe pair packets octets
  else s.flowWait pair packets octets

/-- The next clock of the banks: each takes what waits, oldest first. -/
def State.flowClock (s : State) : State :=
  s.flowWaiting.foldl (fun s x => if s.flowMayAccept x.pair then s.flowServe x.pair x.packets x.octets
      else { s with flowWaiting := s.flowWaiting ++ [x] })
    { s with flowServed := [], flowWaiting := [] }

/-- A copy that uses a next hop is counted as the NH counter map's entry says (R418): `packets` packets and `octets` bytes of the
edited copy. -/
def State.countNextHop (s : State) (nextHop : Option Nat) (packets octets : Nat) : State :=
  match nextHop with
  | some n =>
    let e := s.record Obj.nhCounterMap 4 n
    if bit e 31 then s.flowInc (bits e 20 0) packets octets else s
  | none => s

/-- A read of a pair (R420): stored value plus delta, cleared in the same clock under FLOW_READ_CLEAR; zeros while its channel
is fenced. -/
def State.flowRead (s : State) (pair : Nat) : List Byte × State :=
  if s.flowLost pair then (List.replicate 16 0, s)
  else
    let l := s.flowLine pair
    let v := s.storedPair pair
    let b := toBe 8 (v.1 + l.packets) ++ toBe 8 (v.2 + l.octets)
    let s := s.ddr5Read (s.flowChannel pair) 1
    (b, if s.obj? Obj.flowReadClear = 1 then (s.storePair pair 0 0).putFlow pair .none else s)

/-- Consecutive pairs read, in ascending order. -/
def State.flowReads (s : State) (pair : Nat) : Nat → List Byte × State
  | 0 => ([], s)
  | n + 1 =>
    let (b, s) := s.flowRead pair
    let (r, s) := s.flowReads (pair + 1) n
    (b ++ r, s)

/-- A write of a pair (R421): the pending delta is discarded. -/
def State.flowWrite (s : State) (pair packets octets : Nat) : State :=
  ((s.storePair pair packets octets).putFlow pair .none).ddr5Write (s.flowChannel pair) 1

/-- The stored pairs of a burst lost to a persistent read error (R423). -/
def State.flowLose (s : State) (pair : Nat) : State :=
  let low := pair / 4 * 4
  let s := (List.range 4).foldl (fun s i => (s.storePair (low + i) 0 0).bump32 Obj.flowValuesLost) s
  (s.put Obj.flowLastLost low).flag Obj.counterSummary 3

end Sys2Proof.Machine
end

