-- ==== Sys2Proof/Machine/Sched.lean ====
section
/-! DEFINITION. Classes, policers, credit, and the egress trees: their walk and their shapers (R297-R315, R339). -/

namespace Sys2Proof.Machine

/-! ### Traffic class (R298) -/

/-- The colour with a code; 3 acts as 2. -/
def colourOf (n : Nat) : Colour := if n = 0 then .green else if n = 1 then .yellow else .red

/-- The index that a CLASS_SOURCE reads from a frame with the recorded headers of pass 0. -/
def classIndex (source : Nat) (b : List Byte) (headers : List (Nat × Nat × Nat)) : Option Nat :=
  if source = 1 then (headers.find? fun h => h.1 == 2).map fun h => wireField b b.length (8 * h.2.1) 4
  else if source = 2 then (headers.find? fun h => h.1 == 3).map fun h => wireField b b.length (8 * h.2.1 + 20) 3
  else if source = 3 then (headers.find? fun h => h.1 == 4 || h.1 == 5).map fun h =>
    wireField b b.length (8 * h.2.1 + if h.1 = 4 then 8 else 4) 6
  else none

/-- The class and colour of a frame of a port at its first pass. -/
def State.firstClass (s : State) (port : Nat) (b : List Byte) (headers : List (Nat × Nat × Nat)) : Nat × Colour :=
  match classIndex (s.obj? (Obj.classSource port)) b headers with
  | some i =>
    let e := beNat (s.bytes Obj.classMaps (64 * s.obj? (Obj.classMapSelect port) + i) 1)
    (bits e 2 0, colourOf (bits e 4 3))
  | none => (s.obj? (Obj.defaultClass port), .green)

/-! ### Policers (R312-R315) -/

/-- A policer entry (field map Policer entry). -/
def State.policerEntry (s : State) (n : Nat) : Nat := s.record Obj.policers 32 n

/-- A policer with empty buckets. -/
def Policer.none : Policer := { tc := 0, te := 0, carryC := 0, carryE := 0, last := 0 }

/-- A policer's buckets. -/
def State.policer (s : State) (n : Nat) : Policer := (Sparse.find? s.queues.policers n).getD .none

/-- A policer's buckets set. -/
def State.putPolicer (s : State) (n : Nat) (p : Policer) : State :=
  { s with queues := { s.queues with policers := Sparse.set (fun _ => Policer.none) s.queues.policers n p } }

/-- CBS_BYTES of an entry, in units of 2^-16 byte. -/
def policerCbs (e : Nat) : Int := (bits e 159 136 * 65536 : Nat)

/-- EBS_BYTES of an entry, in units of 2^-16 byte. -/
def policerEbs (e : Nat) : Int := (bits e 95 72 * 65536 : Nat)

/-- Tokens earned at a rate of `kbps` over `clocks` core clocks with a remainder carried: the tokens, and the remainder. One
clock of 0.625 ns earns kbps × 327,680 ÷ 64,000,000 units. -/
def earned (kbps clocks carry : Nat) : Nat × Nat :=
  let n := kbps * clocks * 327680 + carry
  (n / 64000000, n % 64000000)

/-- refill of R313. -/
def Policer.refill (p : Policer) (e clock : Nat) : Policer :=
  let dt := clock - p.last
  let c := earned (bits e 191 160) dt p.carryC
  let x := earned (bits e 127 96) dt p.carryE
  let full := p.tc + c.1
  let spare := max 0 (full - policerCbs e)
  let te := if bits e 255 254 = 2 then p.te + x.1
    else if bits e 255 254 = 1 then p.te + spare
    else p.te + x.1 + (if bit e 252 then spare else 0)
  { tc := min (policerCbs e) full, te := min (policerEbs e) te, carryC := c.2, carryE := x.2, last := clock }

/-- meter of R313, for `b` metered bytes. -/
def Policer.meter (p : Policer) (e : Nat) (b : Int) (pre : Colour) : Policer × Colour :=
  let pre := if bit e 253 then pre else .green
  let n := b * 65536
  if bits e 255 254 = 2 then
    if pre = .red ∨ p.te < n then (p, .red)
    else if pre = .yellow ∨ p.tc < n then ({ p with te := p.te - n }, .yellow)
    else ({ p with te := p.te - n, tc := p.tc - n }, .green)
  else if pre = .green ∧ n ≤ p.tc then ({ p with tc := p.tc - n }, .green)
  else if pre ≠ .red ∧ n ≤ p.te then ({ p with te := p.te - n }, .yellow)
  else (p, .red)

/-- The metered bytes B = S + LENGTH_ADJUST (R312). -/
def meteredBytes (e stored : Nat) : Int := (stored : Int) + toInt 8 (bits e 241 234)

/-- What an action does with a frame: its class, or the code that drops it. -/
def policerAction (action cls remark code : Nat) : Except Nat Nat :=
  if action = 0 then .ok cls else if action = 1 then .ok remark else .error code

/-- A frame of stored length S metered by a policer (R312): its class afterwards, or the code that drops it. -/
def State.police (s : State) (n stored cls : Nat) (colour : Colour) : State × Except Nat Nat × Colour :=
  let e := s.policerEntry n
  if bits e 255 254 = 0 then (s, .ok cls, colour)
  else
    let (p, c) := ((s.policer n).refill e s.clock).meter e (meteredBytes e stored) colour
    let s := s.putPolicer n p
    let i := match c with
      | .green => 0
      | .yellow => 1
      | .red => 2
    let s := if bit e 233 then s.flowInc (bits e 232 212 + i) 1 stored else s
    match c with
    | .green => (s, .ok cls, c)
    | .yellow => (s, policerAction (bits e 251 250) cls (bits e 247 245) 0xA1, c)
    | .red => (s, policerAction (bits e 249 248) cls (bits e 244 242) 0xA0, c)

/-- A policer entry has been written (R315): a MODE that leaves 0 fills both buckets, any other write caps them, one that keeps MODE 0 too. -/
def State.policerWritten (s : State) (n old : Nat) : State :=
  let e := s.policerEntry n
  let p := s.policer n
  let clock := s.clock
  if bits old 255 254 = 0 ∧ bits e 255 254 ≠ 0 then
    s.putPolicer n { tc := policerCbs e, te := policerEbs e, carryC := 0, carryE := 0, last := clock }
  else s.putPolicer n { p with tc := min p.tc (policerCbs e), te := min p.te (policerEbs e) }

/-! ### Reaching a device over the fabric (R323, R328, R332) -/

/-- FABRIC is in force (table Modes). -/
def State.fabricOn (s : State) : Bool := s.inForce Obj.fabricEnable == 1 && s.runs Fn.fabricNo

/-- A lane's state. -/
def State.lane (s : State) (l : Nat) : FLane := s.fabric.lanes.getD l .reset

/-- A lane's state changed. -/
def State.setLane (s : State) (l : Nat) (f : FLane → FLane) : State :=
  { s with fabric := { s.fabric with lanes := modifyAt s.fabric.lanes l f } }

/-- The engine attaches to fabric elements (FABRIC_TOPOLOGY 1). -/
def State.elements (s : State) : Bool := s.inForce Obj.fabricTopology == 1

/-- A lane is UP and reaches a device. -/
def State.laneReaches (s : State) (d : Nat) (x : FLane) : Bool :=
  x.state == .up && (if s.elements then bit x.reach d else x.peerDevice == d)

/-- Some lane reaches a device. -/
def State.reachable (s : State) (d : Nat) : Bool := s.fabric.lanes.any (s.laneReaches d)

/-- A control word (table Control words). -/
def controlWord (kind rest : Nat) : BitVec 64 := BitVec.ofNat 64 (field 60 kind + rest)

/-- A REQUEST word. -/
def requestWord (target from_ sp cls state : Nat) : BitVec 64 :=
  controlWord 1 (field 48 target + field 36 from_ + field 22 sp + field 19 cls + field 18 state)

/-- A GRANT word. -/
def grantWord (target from_ sp cls amount : Nat) : BitVec 64 :=
  controlWord 2 (field 48 target + field 36 from_ + field 22 sp + field 19 cls + field 11 (amount / 256 - 1))

/-- An end-to-end word waits for a lane (R326). -/
def State.queueWord (s : State) (w : BitVec 64) : State :=
  { s with fabric := { s.fabric with words := s.fabric.words ++ [w] } }

/-- A REQUEST of a remote VOQ queued (R339). -/
def State.sendRequest (s : State) (v state : Nat) : State :=
  match s.systemPort (v / 8) with
  | .remote d _ => if s.fabricOn then s.queueWord (requestWord d s.deviceId (v / 8) (v % 8) state) else s
  | _ => s

/-! ### Credit (R300, R301, R339) -/

/-- A VOQ's balance has changed from a value: a remote VOQ says so where it crosses 0 (R339). -/
def State.noteCredit (s : State) (v : Nat) (before : Int) : State :=
  let after := s.credit v
  if 0 < before ∧ after ≤ 0 then s.sendRequest v 1
  else if before ≤ 0 ∧ 0 < after then s.sendRequest v 0
  else s

/-- A grant of an amount reaches a VOQ (R300, R339). -/
def State.takeGrant (s : State) (v amount : Nat) : State := (s.addCredit v amount).noteCredit v (s.credit v)

/-- Every VOQ that is empty has its balance capped (R300): what the end of a clock finds. -/
def State.creditClock (s : State) : State := s.queues.granted.foldl (fun s e => s.capCredit e.1) ((s.queues.credit.map Prod.fst).foldl State.capCredit s)

/-- The bytes of a passed frame leave a VOQ's balance (R300, R339). -/
def State.payCredit (s : State) (v n : Nat) : State := (s.spendCredit v n).noteCredit v (s.credit v)

/-- A scheduler tree selects: it reads RUN, and a pipe that reads RUN serves its group. -/
def State.treeRuns (s : State) (g : Nat) : Bool := s.runs (Fn.schedNo g)

/-- Bytes held in a port's egress queues of a class (R301). -/
def State.classBytes (s : State) (p c : Nat) : Nat :=
  ((s.copies.filter fun x => match x.loc with
    | .egress n => s.queuePort n == p && n % 8 == c
    | _ => false).map fun x => ((s.frame? x.frame).map Frame.stored).getD 0).sum

/-- The local VOQs of a port and class that request credit, ascending. -/
def State.localRequests (s : State) (p c : Nat) : List Nat :=
  (s.queues.credit.map fun e => e.1).filter fun v => decide (s.credit v ≤ 0) && v % 8 == c &&
    s.systemPort (v / 8) == .local p

/-- The sources of a port and class that request credit, ascending by device. -/
def State.requesters (s : State) (p c : Nat) : List Nat :=
  let own := if (s.localRequests p c).isEmpty then [] else [s.deviceId]
  let remote := if s.fabricOn then
      (s.queues.requests.filter fun r => r / 2 ^ 15 == p && r / 2 ^ 12 % 8 == c).map fun r => r % 2 ^ 12
    else []
  (own ++ remote).mergeSort

/-- The first of a list of ascending numbers after a place, round from the start. -/
def afterPlace (l : List Nat) (last : Nat) : Option Nat := (l.find? fun n => last < n).orElse fun _ => l.head?

/-- The lowest system port that names a front port of this engine. -/
def State.systemPortOf (s : State) (p : Nat) : Nat :=
  if s.fabricMapped then ((List.range 16384).find? fun n => s.systemPort n == .local p).getD 0 else p

/-- The clocks that a grant of a port takes at GRANT_RATE_PERCENT of PORT_DATA_RATE, in Mb/s (R301). -/
def State.grantClocks (s : State) (p : Nat) : Nat :=
  ceilDiv (s.obj? Obj.creditQuantumBytes * 8 * 1600 * 100) (max 1 (s.obj? (Obj.portDataRate p) * s.obj? Obj.grantRatePercent))

/-- A port's credit scheduler may grant (R301). -/
def State.mayGrant (s : State) (p : Nat) : Bool :=
  s.ready && s.link p == 5 && s.runs p && s.treeRuns (p / 8) &&
    decide ((Sparse.find? s.queues.grantFrom p).getD 0 ≤ s.clock)

/-- The class granted next: the first after the last one, in descending order, that is open and has a requester. -/
def State.grantClass (s : State) (p : Nat) : Option Nat :=
  let last := (Sparse.find? s.queues.lastClass p).getD 0
  ((List.range 8).map fun i => (last + 7 - i) % 8).find? fun c =>
    decide (s.classBytes p c < s.obj? (Obj.creditTargetBytes p)) && !(s.requesters p c).isEmpty

/-- CREDIT_GRANT (R301): one grant of CREDIT_QUANTUM_BYTES. Of several local VOQs of one port and class the lowest takes
it. -/
def execCreditGrant (port : Port) (s : State) : Result :=
  let p := port.val
  if !s.mayGrant p then .next s
  else match s.grantClass p with
    | none => .next s
    | some c =>
      let place := 8 * p + c
      match (match Sparse.find? s.queues.lastSource place with
        | some last => afterPlace (s.requesters p c) last
        | none => (s.requesters p c).head?) with
      | none => .next s
      | some d =>
        let quantum := s.obj? Obj.creditQuantumBytes
        let s := { s with queues := { s.queues with
          lastClass := Sparse.insert s.queues.lastClass p c, lastSource := Sparse.insert s.queues.lastSource place d,
          grantFrom := Sparse.set (fun _ => 0) s.queues.grantFrom p (s.clock + s.grantClocks p) } }
        match (s.localRequests p c).head? with
        | some v => if d = s.deviceId then .next (s.takeGrant v quantum)
          else .next ((s.queueWord (grantWord d s.deviceId (s.systemPortOf p) c quantum)).count 0x334)
        | none => .next ((s.queueWord (grantWord d s.deviceId (s.systemPortOf p) c quantum)).count 0x334)

/-! ### Passing a frame from a VOQ (R282, R300, R329-R332) -/

/-- The frame comes from the Atelier. -/
def Frame.isAtelier (f : Frame) : Bool :=
  match f.source with
  | .atelier => true
  | _ => false

/-- The stream of a frame to a device (R324, R330). -/
def streamOf (f : Frame) (d : Nat) : Nat := 32 * d + if f.isAtelier then 16 else f.port / 8

/-- The header with which a copy of a frame crosses (R329). -/
def State.frameHeader (s : State) (f : Frame) (c : Copy) (sp : Nat) (isOpen : Bool) : FrameHeader :=
  { length := if isOpen then 0 else f.stored, groupValid := c.group.isSome,
    nextHop := c.group.getD (c.nextHop.getD 0), systemPort := sp, cls := f.cls,
    speed := if f.isAtelier then 0 else s.obj? (Obj.speedInUse f.port),
    cut := f.modes.cut, timed := bit f.parseFlags 6 && f.modes.time,
    ingressTime := f.ingressTime, context := f.context }

/-- A copy of a frame of open length may be appended now: it goes by cut-through, and the cell in which its header begins
would be full (R331). -/
def State.mayOpen (s : State) (f : Frame) (c : Copy) (key : Nat) : Bool :=
  let room := 240 - ((s.openCellOf key).map fun x => x.payload.length % 240).getD 0
  f.isFront && f.modes.cut && !c.returned && decide (room ≤ 20 + f.bytes.length)

/-- A copy may be appended now to its stream for a device (R329-R331). -/
def State.mayPassRemote (s : State) (d : Nat) (f : Frame) (c : Copy) : Bool :=
  let key := streamOf f d
  s.fabricOn && !((s.openCellOf key).bind fun x => x.openFrame).isSome && !(s.fabric.cutOff.contains d && !s.reachable d) &&
    (f.complete || s.mayOpen f c key)

/-- A copy appended to its stream for a device: a frame still arriving goes with open length. -/
def State.passRemote (s : State) (v d : Nat) (f : Frame) (c : Copy) : State :=
  let h := s.frameHeader f c (v / 8) (!f.complete)
  let s := (s.moveCopy c.id (.fabric d)).payCredit v f.stored
  if f.complete then s.appendFrame (streamOf f d) c.id h f.bytes else s.appendOpen (streamOf f d) c.id h f.bytes

/-- The head of a VOQ's on-die part, with its frame. -/
def State.voqHead (s : State) (v : Nat) : Option (Copy × Frame) :=
  match (s.voqCopies v).head? with
  | some c => match c.loc, s.frame? c.frame with
    | .voq _, some f => some (c, f)
    | _, _ => none
  | none => none

/-- A VOQ may pass its head frame: its balance is above 0 and the path beyond takes the frame (R300). -/
def State.mayPass (s : State) (v : Nat) : Bool :=
  match s.voqHead v with
  | none => false
  | some (c, f) => decide (0 < s.credit v) && (s.stale f || match s.systemPort (v / 8) with
    | .unassigned => false
    | .local _ => true
    | .remote d _ => s.mayPassRemote d f c)

/-- The VOQs with a frame on-die, in the order in which their oldest copies stand. -/
def State.heldVoqs (s : State) : List Nat :=
  (s.copies.filterMap fun c => match c.loc with
    | .voq v => some v
    | _ => none).eraseDups

/-- The VOQs that may pass, in the order in which they became able to: those of earlier clocks, then those that have become able since, in
the order in which their oldest copies stand (DESIGN CHOICE, log entry 116: the spec gives no order to VOQs that become able in one
clock). -/
def State.ableVoqs (s : State) : List Nat :=
  let earlier := s.queues.able.filter s.mayPass
  earlier ++ s.heldVoqs.filter fun v => !earlier.contains v && s.mayPass v

/-- The VOQs that may pass are noted. -/
def State.noteAble (s : State) : State := { s with queues := { s.queues with able := s.ableVoqs } }

/-- The head frame of a VOQ goes over the on-die path or to the cell former. A frame too old is dropped instead (R234). -/
def State.passVoq (s : State) (v : Nat) : State :=
  match s.voqHead v with
  | none => s
  | some (c, f) =>
    if s.stale f then s.endCopy c.id 0x60
    else match s.systemPort (v / 8) with
      | .unassigned => s
      | .local p => (s.payCredit v f.stored).enterEgress c.id c.nextHop p f.cls
      | .remote d _ => s.passRemote v d f c

/-- VOQ_PASS (R300): the VOQ passes its head frame if it is the one that became able to first; a balance that it leaves behind empty is
capped. -/
def execVoqPass (voq : Fin 131072) (s : State) : Result :=
  if s.ready && s.ableVoqs.head? == some voq.val then .next (((s.noteAble.passVoq voq.val).capCredit voq.val).noteAble) else .next s

/-! ### Shapers (R308-R310) -/

/-- The refill interval of a local node, in ns (R309). -/
def refillInterval (n : Nat) : Nat := if n < 8 then 20 else if n < 136 then 80 else if n < 648 then 320 else 1280

/-- A bucket's refill: what is added and what is carried, from a rate over an interval (R309). -/
def refillAdd (kbps ns carry : Nat) : Nat × Nat :=
  let n := kbps * ns * 65536 + carry
  (n / 8000000, n % 8000000)

/-- A node's refill with the rates of its record, which are latched here (R309, R310). -/
def Node.refill (x : Node) (r ns : Nat) : Node :=
  let cir := bits r 159 128
  let pir := bits r 95 64
  let cbs := bits r 127 104
  let pbs := bits r 63 40
  let a := refillAdd cir ns x.carryC
  let b := refillAdd pir ns x.carryP
  let cap := fun (bytes : Nat) (v : Int) => min ((bytes * 65536 : Nat) : Int) v
  { x with
    cir := cir, cbs := cbs, pir := pir, pbs := pbs,
    c := cap cbs (cap cbs x.c + a.1), carryC := a.2,
    p := if pir = 0 then cap pbs x.p else cap pbs (cap pbs x.p + b.1), carryP := if pir = 0 then x.carryP else b.2 }

/-- SHAPER_REFILL (R309, R310). -/
def execShaperRefill (group : Group) (node : Fin 4744) (s : State) : Result :=
  let g := group.val
  let n := node.val
  .next (s.putNode g n ((s.node g n).refill (s.ratesRecord g n) (refillInterval n)))

/-- The floor of a bucket: −65,536 bytes (R309). -/
def bucketFloor : Int := -(65536 * 65536)

/-- Shaped bytes deducted: from the peak bucket, and from the committed one where the walk chose the node in committed state
(R308). -/
def Node.deduct (x : Node) (b : Int) (committed : Bool) : Node :=
  { x with p := max bucketFloor (x.p - b * 65536), c := if committed then max bucketFloor (x.c - b * 65536) else x.c }

/-! ### Eligibility (R304) -/

/-- A node's peak bucket lets it send. -/
def Node.open (x : Node) : Bool := x.pir == 0 || decide (0 < x.p)

/-- A queue of group `g`, by its number in the group, is eligible. -/
def State.queueEligible (s : State) (g j : Nat) : Bool :=
  let n := 4096 * g + j
  let p := s.queuePort n
  (s.node g (queueNode j)).open && !(s.copiesAt (.egress n)).isEmpty && !(s.pause p (j % 8)).paused && s.runs p &&
    s.link p == 5 && (!s.cipherOn p || s.runs (Fn.cipherNo g))

/-- The eligible nodes of a group's tree: queues, sets, groups and ports, by local index. -/
structure Eligible where
  queues : List Nat
  sets : List Nat
  groups : List Nat
  ports : List Nat
  deriving DecidableEq, Repr

/-- The eligible nodes of a group's tree now. -/
def State.eligible (s : State) (g : Nat) : Eligible :=
  let q := ((s.groupQueues g).filter (s.queueEligible g)).map queueNode
  let up := fun (ns : List Nat) => (s.parentsOf g ns).filter fun n => (s.node g n).open
  { queues := q, sets := up q, groups := up (up q), ports := up (up (up q)) }

/-- The eligible children of a node. -/
def State.eligibleUnder (s : State) (g : Nat) (e : Eligible) (n : Nat) : List Nat :=
  let l := if n < 8 then e.groups else if n < 136 then e.sets else e.queues
  l.filter fun c => s.treeParent g c == n

/-! ### The walk (R305-R307) -/

/-- An eligible child is in committed state (R304). -/
def Node.committed (x : Node) : Bool := x.cir != 0 && decide (0 < x.c)

/-- The quantum of a node, in bytes (R306). -/
def State.quantum (s : State) (g n : Nat) : Nat := (bits (s.ratesRecord g n) 183 178 + 1) * 256

/-- WEIGHT of a node. -/
def State.weight (s : State) (g n : Nat) : Nat := bits (s.ratesRecord g n) 191 184

/-- Deficit round robin over a node's ring (R306): the steps left, and the child found. -/
def State.dwrr (s : State) (g n : Nat) (ring cands : List Nat) : Nat → State × Option Nat
  | 0 => (s, none)
  | steps + 1 =>
    match ringMember ring (s.node g n).ptr with
    | none => (s, none)
    | some c =>
      let x := s.node g c
      if cands.contains c ∧ 0 < x.deficit then (s, some c)
      else
        let s := if cands.contains c then
            s.putNode g c { x with deficit := x.deficit + (s.weight g c * s.quantum g n : Nat) }
          else s
        (s.putNode g n { s.node g n with ptr := nextMember ring c }).dwrr g n ring cands steps

/-- A tag comes before another, modulo 2^48. -/
def tagBefore (a b : Nat) : Bool := a != b && decide ((b + 2 ^ 48 - a) % 2 ^ 48 < 2 ^ 47)

/-- One child chosen, and how. -/
structure Pick where
  child : Nat
  committed : Bool
  /-- chosen by deficit round robin -/
  weighted : Bool
  deriving DecidableEq, Repr

/-- The least by an order in a list, the first of equal ones. -/
def leastBy (lt : Nat → Nat → Bool) : List Nat → Option Nat
  | [] => none
  | x :: xs => some (xs.foldl (fun a b => if lt b a then b else a) x)

/-- The child a node chooses among its eligible children. -/
def State.pickChild (s : State) (g : Nat) (e : Eligible) (n : Nat) : State × Option Pick :=
  let all := s.eligibleUnder g e n
  let com := all.filter fun c => (s.node g c).committed
  let cands := if com.isEmpty then all else com
  let state := !com.isEmpty
  if s.treeMode g n = 1 then
    (s, (leastBy (fun a b => tagBefore (s.node g a).finish (s.node g b).finish) cands).map fun c =>
      { child := c, committed := state, weighted := false })
  else
    let strict := cands.filter fun c => s.treePriority g c < 4
    match leastBy (fun a b => decide (s.treePriority g a < s.treePriority g b)) strict with
    | some c => (s, some { child := c, committed := state, weighted := false })
    | none =>
      let (s, found) := s.dwrr g n (s.ring g n) cands 8
      (s, found.map fun c => { child := c, committed := state, weighted := true })

/-- The walk from a port node down to a queue: the picks, top first, where it ends at one. A port whose own peak bucket is empty yields
nothing (R304, R308). -/
def State.walkTree (s : State) (g k : Nat) : State × List Pick :=
  let e := s.eligible g
  if !e.ports.contains k then (s, [])
  else match s.pickChild g e k with
  | (s, none) => (s, [])
  | (s, some a) =>
    match s.pickChild g e a.child with
    | (s, none) => (s, [])
    | (s, some b) =>
      match s.pickChild g e b.child with
      | (s, none) => (s, [])
      | (s, some c) => (s, [a, b, c])

/-- After `b` shaped bytes from a child its parent's order moves on (R306, R307). -/
def State.served (s : State) (g parent : Nat) (pick : Pick) (b : Int) : State :=
  let c := pick.child
  let x := s.node g c
  if s.treeMode g parent = 1 then
    let s := s.putNode g parent { s.node g parent with virtual := x.finish }
    s.putNode g c { s.node g c with finish := ((x.finish + b * 65536 / (max 1 (s.weight g c) : Nat)) % 2 ^ 48).toNat }
  else if pick.weighted then
    let d := x.deficit - b
    let s := s.putNode g c { x with deficit := d }
    if d ≤ 0 then s.putNode g parent { s.node g parent with ptr := nextMember (s.ring g parent) c } else s
  else s

/-- Every deduction and advance of a dequeue of `b` shaped bytes along a walk from port node `k` (R306-R308). -/
def State.chargeWalk (s : State) (g k : Nat) (picks : List Pick) (b : Int) : State :=
  let s := s.putNode g k ((s.node g k).deduct b false)
  (picks.foldl (fun (a : State × Nat) pick =>
    let s := a.1.putNode g pick.child ((a.1.node g pick.child).deduct b pick.committed)
    (s.served g a.2 pick b, pick.child)) (s, k)).1

end Sys2Proof.Machine
end

