-- ==== Sys2Proof/Machine/Fabric.lean ====
section
/-! DEFINITION. The fabric interface: lanes, control words, spraying cells, and reassembly (R320-R344). -/

namespace Sys2Proof.Machine

/-! ### The tail of a frame -/

/-- A frame's tail has arrived: copies that Chisel has released get the rest of their bytes, edited by what Chisel read for them
(R219), which their next hop counts (R418; DESIGN CHOICE: a copy released before its tail is counted as its bytes come), and ports that wait for the
frame to be held whole start it. -/
def State.completeFrame (s : State) (frame : Nat) : State :=
  let s := s.setFrame frame fun f => { f with complete := true }
  let cs := s.copies.filter fun c => c.frame == frame
  let grow := fun (s : State) (c : Copy) (f : Frame) => match f.chiselled c.rewrite with
    | .bytes b => (s.setCopy c.id fun x => { x with edited := b }).countNextHop c.nextHop 0 (b.length + 4 - c.edited.length)
    | _ => s
  cs.foldl (fun s c =>
    match c.loc, s.frame? frame with
    | .selected p, some f => (grow s c f).startTx p
    | .transmit _, some f => grow s c f
    | _, _ => s) s

/-! ### Lanes (R320-R322, R327, R333) -/

/-- Cells placed again under R332: they wait ahead of the cells formed later, and end no copy any more. -/
def State.replaceCells (s : State) (cells : List WaitingCell) : State :=
  { s with fabric := { s.fabric with waiting := cells ++ s.fabric.waiting } }

/-- Devices that a lane reaches again are served again (R332). -/
def State.settleReach (s : State) : State :=
  { s with fabric := { s.fabric with cutOff := s.fabric.cutOff.filter fun d => !s.reachable d } }

/-- A lane leaves UP for another state: it leaves the spray (R333). -/
def State.laneDown (s : State) (l : Nat) (st : LaneState) : State :=
  let x := s.lane l
  if x.state = .up then
    let n := if st = .training then min (x.retrains + 1) 65535 else x.retrains
    let s := s.setLane l fun y =>
      { y with state := st, queue := [], credit := 0, owed := 0, reach := 0, retrains := n, hellos := 0 }
    (s.flag Obj.fabricSummary 1).replaceCells x.queue
  else s.setLane l fun y => { y with state := st, mismatch := false, hellos := 0 }

/-- FABRIC_LANE_TRAINED (R321). A lane under test trains after its slice (R397). -/
def execFabricLaneTrained (lane : FabricLane) (s : State) : Result :=
  if s.sliceOn (0x180 + lane.val) then .next s
  else .next (s.setLane lane.val fun x => if x.state = .training then { x with state := .hello } else x)

/-- A HELLO word's fields pass R322. -/
def State.helloGood (s : State) (w : Nat) : Bool :=
  if s.elements then bit w 39 else !bit w 39 && bits w 59 48 != s.deviceId

/-- HELLO words read on a lane (R322, R327). -/
def State.takeHello (s : State) (l w : Nat) : State :=
  let x := s.lane l
  let named := fun (y : FLane) => { y with peerDevice := bits w 59 48, peerLane := bits w 47 40, peerRole := bit w 39 }
  match x.state with
  | .hello =>
    if s.helloGood w then
      (s.setLane l fun y => { named y with state := .up, credit := bits w 38 23, initial := bits w 38 23, reach := 0, mismatch := false }).settleReach
    else s.setLane l fun y => { named y with mismatch := true }
  | .up =>
    if x.peerDevice = bits w 59 48 ∧ x.peerLane = bits w 47 40 ∧ x.peerRole = bit w 39 then s
    else s.laneDown l .training
  | _ => s

/-- HELLO (R322): the lane has found its cell boundary and reads its peer's HELLO. -/
def execHello (lane : FabricLane) (word : BitVec 64) (s : State) : Result :=
  if bits word.toNat 63 60 = 5 then .next (s.takeHello lane.val word.toNat) else .next s

/-- FABRIC_LANE_LOSS (R321, R333): loss of any lock. -/
def execFabricLaneLoss (lane : FabricLane) (s : State) : Result :=
  match (s.lane lane.val).state with
  | .up => .next (s.laneDown lane.val .training)
  | .hello => .next (s.laneDown lane.val .training)
  | _ => .next s

/-- WORKING_LANES (R334). -/
def State.workingLanes (s : State) : Nat := (s.fabric.lanes.filter fun x => x.state == .up).length

/-! ### Control words (R325-R328, R339) -/

/-- The interface is held for the words and cells it receives: HOLD, STARTING, FENCED or OFF (R341). -/
def State.fabricHeld (s : State) : Bool := !(s.fn Fn.fabricNo == 2 || s.fn Fn.fabricNo == 4)

/-- A REQUEST word (R339): it sets or clears the flag of its class and source at the port it names. -/
def State.takeRequest (s : State) (w : Nat) : State :=
  if s.fabricHeld then s
  else if bits w 59 48 ≠ s.deviceId then s.bump64 Obj.cellsMisrouted
  else match s.systemPort (bits w 35 22) with
    | .local p =>
      let r := 2 ^ 15 * p + 2 ^ 12 * bits w 21 19 + bits w 47 36
      let others := s.queues.requests.filter fun x => x != r
      { s with queues := { s.queues with requests := if bit w 18 then others ++ [r] else others } }
    | _ => s

/-- A GRANT word (R339): its amount joins the balance of the VOQ it names. -/
def State.takeGrantWord (s : State) (w : Nat) : State :=
  if s.fabricHeld then s
  else if bits w 59 48 ≠ s.deviceId then s.bump64 Obj.cellsMisrouted
  else s.takeGrant (8 * bits w 35 22 + bits w 21 19) ((bits w 18 11 + 1) * 256)

/-- A LINK_CREDIT word (R327). -/
def State.takeLinkCredit (s : State) (l w : Nat) : State :=
  if (s.lane l).state = .up then (s.setLane l fun x => { x with credit := x.credit + bits w 59 44 }).count 0x333 else s

/-- The words of a cell return more credit to a lane than the cells sent on it have taken (UB-FAB-3). -/
def State.overCredits (s : State) (l : Nat) (words : List Nat) : Bool :=
  let x := s.lane l
  let returned := ((words.filter fun w => bits w 63 60 == 3).map fun w => bits w 59 44).sum
  x.state == .up && decide (x.initial < x.credit + returned)

/-- The cells of a lane's queue for devices it reaches no more are placed again (R333). -/
def State.dropUnreached (s : State) (l : Nat) : State :=
  let x := s.lane l
  let gone := x.queue.filter fun c => !s.laneReaches c.device x
  (s.setLane l fun y => { y with queue := x.queue.filter fun c => s.laneReaches c.device x }).replaceCells gone

/-- A block of a lane's reach table replaced (R328). -/
def State.setReach (s : State) (l block v : Nat) : State :=
  let lo := 48 * block
  ((s.setLane l fun x => { x with reach := putBits x.reach (lo + 47) lo v }).dropUnreached l).settleReach

/-- A REACH word: acted on where the lane runs to an element (R323, R328). -/
def State.takeReach (s : State) (l w : Nat) : State :=
  if s.elements ∧ (s.lane l).state = .up ∧ bits w 59 52 < 86 then s.setReach l (bits w 59 52) (bits w 47 0) else s

/-- A control word received on a lane in UP (table Control words). -/
def State.takeWord (s : State) (l : Nat) (w : Nat) : State :=
  let k := bits w 63 60
  if k = 1 then s.takeRequest w
  else if k = 2 then s.takeGrantWord w
  else if k = 3 then s.takeLinkCredit l w
  else if k = 4 then s.takeReach l w
  else if k = 5 then s.takeHello l w
  else s

/-- REQUEST (R339). -/
def execRequest (word : BitVec 64) (s : State) : Result :=
  if bits word.toNat 63 60 = 1 then .next (s.takeRequest word.toNat) else .next s

/-- GRANT (R339). -/
def execGrant (word : BitVec 64) (s : State) : Result :=
  if bits word.toNat 63 60 = 2 then .next (s.takeGrantWord word.toNat) else .next s

/-- LINK_CREDIT (R327). -/
def execLinkCredit (lane : FabricLane) (word : BitVec 64) (s : State) : Result :=
  if bits word.toNat 63 60 ≠ 3 then .next s
  else if s.overCredits lane.val [word.toNat] then undefinedCase "UB-FAB-3"
  else .next (s.takeLinkCredit lane.val word.toNat)

/-- REACH (R328). -/
def execReach (lane : FabricLane) (word : BitVec 64) (s : State) : Result :=
  if bits word.toNat 63 60 = 4 then .next (s.takeReach lane.val word.toNat) else .next s

/-- REACH_BLOCK_EXPIRY (R328): the block reads as all zeros. -/
def execReachBlockExpiry (lane : FabricLane) (block : Fin 86) (s : State) : Result :=
  .next (s.setReach lane.val block.val 0)

/-- REQUEST_REFRESH (R339). -/
def execRequestRefresh (voq : Fin 131072) (s : State) : Result :=
  if s.credit voq.val ≤ 0 then .next (s.sendRequest voq.val 1) else .next s

/-- REQUEST_FLAG_EXPIRY (R339). -/
def execRequestFlagExpiry (port : Port) (cls : TrafficClass) (device : Device) (s : State) : Result :=
  let r := 2 ^ 15 * port.val + 2 ^ 12 * cls.val + device.val
  .next { s with queues := { s.queues with requests := s.queues.requests.filter fun x => x != r } }

/-! ### Spraying (R330, R332) -/

/-- CELL_FILL_TIMEOUT (R330): an open cell with a byte in it is formed. -/
def execCellFillTimeout (device : Device) (stream : Fin 17) (s : State) : Result :=
  let key := 32 * device.val + stream.val
  match s.openCellOf key with
  | some c => if c.payload.isEmpty then .next s else .next (s.formCell key c.openFrame)
  | none => .next s

/-- The lane that takes the next cell for a device: the first after the device's pointer that is UP, reaches it, holds credit
and has fewer than 4 cells queued. -/
def State.nextLane (s : State) (d : Nat) : Option Nat :=
  let from_ := (Sparse.find? s.fabric.lanePointer d).getD 0
  ((List.range 160).map fun i => (from_ + 1 + i) % 160).find? fun l =>
    let x := s.lane l
    s.laneReaches d x && x.credit != 0 && decide (x.queue.length < 4)

/-- The copies whose last byte a placed cell carries have ended: with 0x00, or the code of the late condition of their frame
(R331, R262). -/
def State.endPlaced (s : State) (ends : List Nat) : State :=
  ends.foldl (fun s i =>
    match s.copy? i with
    | some c => s.endCopy i (((s.frame? c.frame).bind fun f => f.late).getD 0)
    | none => s) s

/-- CELL_PLACEMENT (R332): the oldest waiting cell for a device is placed on the next lane that may take it. -/
def execCellPlacement (device : Device) (s : State) : Result :=
  let d := device.val
  match s.fabric.waiting.find? fun c => c.device == d, s.nextLane d with
  | some c, some l =>
    if s.fabricHeld then .next s
    else
      let pointers := Sparse.set (fun _ => 0) s.fabric.lanePointer d l
      let s := { s with fabric := { s.fabric with waiting := s.fabric.waiting.erase c, lanePointer := pointers } }
      let s := s.setLane l fun x => { x with queue := x.queue ++ [{ c with ends := [] }] }
      .next (s.endPlaced c.ends)
  | _, _ => .next s

/-- The waiting cells for a device are discarded, and every frame with a byte in them ends with 0xC3 (R332). -/
def State.discardWaiting (s : State) (d : Nat) : State :=
  let lost := s.fabric.waiting.filter fun c => c.device == d
  let cut := if s.fabric.cutOff.contains d || s.reachable d then s.fabric.cutOff else s.fabric.cutOff ++ [d]
  let s := { s with fabric := { s.fabric with waiting := s.fabric.waiting.filter (fun c => c.device != d), cutOff := cut } }
  ((lost.flatMap fun c => c.copies).eraseDups).foldl (fun s i => (s.closeBad i).endCopy i 0xC3) s

/-- Cells wait for a device. -/
def State.cellsWait (s : State) (d : Nat) : Bool := s.fabric.waiting.any fun c => c.device == d

/-- UNREACHABLE_HOLD_EXPIRY (R332). -/
def execUnreachableHoldExpiry (device : Device) (s : State) : Result :=
  if s.cellsWait device.val ∧ ¬ s.reachable device.val then .next (s.discardWaiting device.val) else .next s

/-- STALE_CELL_DISCARD (R332). -/
def execStaleCellDiscard (device : Device) (s : State) : Result :=
  let cs := (s.fabric.waiting.filter fun c => c.device == device.val).flatMap fun c => c.copies
  if cs.any fun i => ((s.copy? i).map s.copyStale).getD false then .next (s.discardWaiting device.val) else .next s

/-! ### Reassembly (R335-R338) -/

/-- A stream at its destination. -/
def State.rxStream (s : State) (key : Nat) : RxStream :=
  (Sparse.find? s.fabric.rx key).getD { buffer := [], resync := false, frame := none }

/-- A stream at its destination set. -/
def State.putRx (s : State) (key : Nat) (x : RxStream) : State :=
  let rx := Sparse.set (fun _ => ({ buffer := [], resync := false, frame := none } : RxStream)) s.fabric.rx key x
  { s with fabric := { s.fabric with rx := rx } }

/-- The latest instant, no later than `now`, whose low 32 bits are those given (R329). -/
def ingressInstant (now low : Nat) : Nat := now - (now + 2 ^ 32 - low) % 2 ^ 32

/-- A level start as the header carries it. -/
def carriedLevel (n : Nat) : Option Nat := if n = 0 then none else some n

/-- A frame from the fabric with a header `h` and the bytes so far (R338). -/
def fabricFrame (now src port h : Nat) (body : List Byte) (complete : Bool) : Frame :=
  { id := 0, source := .fabric src, port := port, loc := .copies, bytes := body, complete := complete, late := none,
    ingressTime := ingressInstant now (bits h 102 71), modes := .off, stamp := none, stampClock := 0, pass := 0, resume := none,
    graphB := false,
    latched := { firstTemplate := 0, failureAction := 0, slowMask := 0, parseContinue := false, checksum := false,
                 reliefFirst := 0, reliefNext := 0 },
    cls := bits h 112 110, colour := .green, bd := 0, vrf := 0, vlan := none,
    parseFlags := if bit h 103 then 64 else 0, codes := [],
    forward := if bit h 145 then some (.flood (bits h 142 127)) else some (.nextHop (bits h 144 127)),
    fwdRedirect := false, fwdMiss := false, fwdTemplate := 0, learned := false, kept := none, policer := none,
    context := { fwdClass := bits h 56 53, fwdOffset := bits h 52 44, labelStart := bits h 43 35, labelDepth := bits h 34 29,
                 level1 := carriedLevel (bits h 28 20), level2 := carriedLevel (bits h 19 11),
                 level3 := carriedLevel (bits h 10 2), entropy := bits h 70 57 },
    retained := [], lateRegion := none, tail := none, record := none, cells := [], cellClass := 0, refs := 1, headers := [], copied := false,
    crossed := some (bit h 104, bits h 109 105) }

/-- The reassembly writer of the egress half of a pipe (table Requester ports). -/
def fabricWriter (pipe : Nat) : Writer := { port := 17 + pipe, cls := 1, rivals := [] }

/-- A frame from the fabric is enqueued, and its stamp taken (R223, R338, R261): on an egress queue of its port, or for Cast. -/
def State.fabricArrive (s : State) (src stream h : Nat) (body : List Byte) (complete : Bool) : State :=
  let id := s.nextId
  if bit h 145 then
    let port := 8 * (stream % 16)
    let s := (s.addFrame (fabricFrame s.time src port h body complete)).stamp id
    s.enqueueRepl (fabricWriter (s.portPipe port)) id (bits h 142 127)
  else match s.systemPort (bits h 126 113) with
    | .local p =>
      let s := (s.addFrame (fabricFrame s.time src p h body complete)).stamp id
      match s.placeAtEgress (some (bits h 144 127)) p (bits h 112 110) with
      | (s, .error code) => (s.txCode p code).endFrame id code
      | (s, .ok q) =>
        match s.store (fabricWriter (s.portPipe p)) id (.egress q) with
        | (s, some code) => s.endFrame id code
        | (s, none) => (s.joinTree q).addCopy { plainCopy id (bits h 112 110) (.egress q) with
            nextHop := some (bits h 144 127), port := p }
    | _ => s.code 0 0xC5

/-- The header of the frame in progress on a stream, where it has arrived. -/
def RxStream.header (x : RxStream) : Option Nat := if x.buffer.length < 20 then none else some (beNat (x.buffer.take 20))

/-- The frame in progress on a stream ends with a code, and the stream discards bytes until a frame begins in it. -/
def State.breakStream (s : State) (key code : Nat) : State :=
  let x := s.rxStream key
  let s := match x.frame with
    | some f => s.loseFrame f code code
    | none => if x.buffer.isEmpty then s else s.code 0 code
  s.putRx key { buffer := [], resync := true, frame := none }

/-- The frame in progress on a stream has ended (R337). -/
def State.endStreamFrame (s : State) (key : Nat) (bad : Bool) : State :=
  let x := s.rxStream key
  let s := s.putRx key { buffer := [], resync := false, frame := none }
  match x.frame, x.header with
  | some f, _ => if bad then s.loseFrame f 0xC1 0xC1 else s.completeFrame f
  | none, some h => if bad then s.code 0 0xC1 else s.fabricArrive (key / 32) (key % 32) h (x.buffer.drop 20) true
  | none, none => s

/-- Bytes given to the frame of a stream that has been enqueued before its tail. -/
def State.growFrame (s : State) (key frame : Nat) (b : List Byte) : State :=
  match s.frame? frame with
  | none => s
  | some f =>
    let s := s.setFrame frame fun f => { f with bytes := f.bytes ++ b }
    match s.growCells (fabricWriter (s.portPipe f.port)) frame with
    | (s, some code) => s.breakStream key code
    | (s, none) => s

/-- Bytes of a stream: headers are read, frames of known length end where it says, and bad lengths break the stream (R337). -/
def State.feedStream (s : State) (key : Nat) : Nat → List Byte → State
  | 0, _ => s
  | fuel + 1, b =>
    if b.isEmpty then s
    else
      let x := s.rxStream key
      match x.header with
      | none =>
        let n := 20 - x.buffer.length
        let y := { x with buffer := x.buffer ++ b.take n }
        let s := s.putRx key y
        match y.header with
        | none => s
        | some h =>
          let l := bits h 159 146
          if (1 ≤ l ∧ l ≤ 63) ∨ 16360 < l then s.breakStream key 0xC5 else s.feedStream key fuel (b.drop n)
      | some h =>
        let l := bits h 159 146
        let n := if l = 0 then b.length else min b.length (20 + l - x.buffer.length)
        let y := { x with buffer := x.buffer ++ b.take n }
        let s := s.putRx key y
        let s := match x.frame with
          | some f => s.growFrame key f (b.take n)
          | none => s
        if l = 0 then (if 20 + 16360 < y.buffer.length then s.breakStream key 0xC5 else s)
        else if y.buffer.length < 20 + l then s
        else (s.endStreamFrame key false).feedStream key fuel (b.drop n)

/-- A frame in progress that may be transmitted before its tail is enqueued now (R338, R90): both its ports have CUT in force,
and it is bound for one port. -/
def State.openEarly (s : State) (key : Nat) : State :=
  let x := s.rxStream key
  match x.header, x.frame with
  | some h, none =>
    match s.systemPort (bits h 126 113) with
    | .local p =>
      if bit h 104 && !bit h 145 && (s.modesAt p).cut && decide (20 < x.buffer.length) then
        let id := s.nextId
        (s.fabricArrive (key / 32) (key % 32) h (x.buffer.drop 20) false).putRx key { x with frame := some id }
      else s
    | _ => s
  | _, _ => s

/-- A data cell passed to its stream (R337): `h` is its header. -/
def State.streamCell (s : State) (key h : Nat) (cell : List Byte) : State :=
  let p := slice cell 16 (bits h 73 66)
  let first := bits h 81 74
  let from_ := if first = 0xFF then p.length else first
  let x := s.rxStream key
  let s :=
    if x.resync ∨ x.buffer.isEmpty then
      if first = 0xFF then s else (s.putRx key { buffer := [], resync := false, frame := none }).feedStream key 64 (p.drop from_)
    else
      let s := s.feedStream key 64 (p.take from_)
      let s := if bit h 65 && (s.rxStream key).header.any (fun y => bits y 159 146 == 0) then s.endStreamFrame key (bit h 64) else s
      if (s.rxStream key).resync then s else s.feedStream key 64 (p.drop from_)
  s.openEarly key

/-- The expected SEQUENCE of a source (R335). -/
def State.expectedSeq (s : State) (src : Nat) : Nat := (Sparse.find? s.fabric.expected src).getD 0

/-- The expected SEQUENCE of a source set. -/
def State.putExpected (s : State) (src seq : Nat) : State :=
  { s with fabric := { s.fabric with expected := Sparse.set (fun _ => 0) s.fabric.expected src (seq % 65536) } }

/-- The frames that begin in a cell: the number of headers found from an offset. -/
def countBegun : Nat → List Byte → Nat
  | 0, _ => 0
  | fuel + 1, b =>
    if b.isEmpty then 0
    else
      let l := beAt b 0 2 / 4
      if l = 0 then 1 else 1 + countBegun fuel (b.drop (20 + l))

/-- A cell discarded while the interface is held: the frames begun in it end (R341). -/
def State.discardCell (s : State) (cell : List Byte) : State :=
  let h := beNat (cell.take 16)
  let begun := if bits h 81 74 = 0xFF then 0 else countBegun 12 ((slice cell 16 (bits h 73 66)).drop (bits h 81 74))
  (List.range begun).foldl (fun s _ => s.code 0 0xC0) s

/-- The cell of a source's expected SEQUENCE passed to its stream, or discarded while the interface is held; then those that waited
behind it. -/
def State.passCell (s : State) (src : Nat) (cell : List Byte) : State :=
  let h := beNat (cell.take 16)
  let s := if s.fabricHeld then s.discardCell cell else s.streamCell (32 * src + bits h 86 82) h cell
  s.putExpected src (s.expectedSeq src + 1)

/-- Cells of the reorder store that have become due, in SEQUENCE order. -/
def State.drainReorder (s : State) (src : Nat) : Nat → State
  | 0 => s
  | fuel + 1 =>
    match s.fabric.reorder.find? fun e => e.1 == src && e.2.1 == s.expectedSeq src with
    | none => s
    | some e =>
      let s := { s with fabric := { s.fabric with reorder := s.fabric.reorder.erase e } }
      (s.passCell src e.2.2).drainReorder src fuel

/-- The gap of a source is declared lost (R336). -/
def State.declareLost (s : State) (src : Nat) : State :=
  let ahead := (s.fabric.reorder.filter fun e => e.1 == src).map fun e => (e.2.1 + 65536 - s.expectedSeq src) % 65536
  match ahead.min? with
  | none => s
  | some n =>
    let s := (s.add64 Obj.cellsLost n).flag Obj.fabricSummary 3
    let s := s.putExpected src (s.expectedSeq src + n)
    let open_ := (s.fabric.rx.filter fun e => e.1 / 32 == src && !e.2.buffer.isEmpty).map fun e => e.1
    (open_.foldl (fun s k => s.breakStream k 0xC2) s).drainReorder src 16384

/-- A cell with its SEQUENCE (R335, R336, R341). -/
def State.sequenceCell (s : State) (h : Nat) (cell : List Byte) : State :=
  let src := bits h 114 103
  let seq := bits h 102 87
  let ahead := (seq + 65536 - s.expectedSeq src) % 65536
  if s.fabricHeld then
    let s := s.discardCell cell
    if ahead < 32768 then s.putExpected src (seq + 1) else s
  else if ahead = 0 then (s.passCell src cell).drainReorder src 16384
  else if ahead < 32768 then
    let s := if s.fabric.reorder.length < 16384 then s else
      match s.fabric.reorder.head? with
      | some e => s.declareLost e.1
      | none => s
    let s := { s with fabric := { s.fabric with reorder := s.fabric.reorder ++ [(src, seq, cell)] } }
    s.drainReorder src 16384
  else s.bump64 Obj.cellsLate

/-- A data cell received on a lane in UP (R324, R327, R335). -/
def State.takeDataCell (s : State) (l : Nat) (cell : List Byte) : State :=
  let h := beNat (cell.take 16)
  let s := ((s.bump64 Obj.cellsReceived).count 0x331).setLane l fun x => { x with owed := x.owed + 1 }
  let s := s.takeWord l (bits h 63 0)
  if bits h 126 115 = s.deviceId then s.sequenceCell h cell else s.bump64 Obj.cellsMisrouted

/-- The 31 words of a control cell: one in its header, 30 in its payload (R325). -/
def controlWords (cell : List Byte) : List Nat := beAt cell 8 8 :: (List.range 30).map fun i => beAt cell (16 + 8 * i) 8

/-- A control cell received on a lane in UP (R325). -/
def State.takeControlCell (s : State) (l : Nat) (cell : List Byte) : State :=
  let h := beNat (cell.take 16)
  if bits h 126 64 ≠ 0 then s.bump64 Obj.cellsMisrouted
  else (controlWords cell).foldl (fun s w => if (s.lane l).state = .up then s.takeWord l w else s) s

/-- A cell received in HELLO (R322): after 4 consecutive control cells that each carry 31 identical HELLO words the cell boundary is
accepted, and the peer's HELLO is read. -/
def State.takeHelloCell (s : State) (l : Nat) (cell : List Byte) : State :=
  let words := controlWords cell
  let w := words.headD 0
  if beAt cell 0 8 == 0 && bits w 63 60 == 5 && words.all fun v => v == w then
    let n := min 4 ((s.lane l).hellos + 1)
    let s := s.setLane l fun x => { x with hellos := n }
    if n = 4 then s.takeHello l w else s
  else s.setLane l fun x => { x with hellos := 0 }

/-- A cell received on a lane: what it is, its first bit says. Until the lane reads UP it takes part in neither direction, but for the
HELLO words it looks for in HELLO (R321, R322). -/
def State.takeCell (s : State) (l : Nat) (cell : List Byte) : State :=
  if cell.length ≠ 256 then s
  else match (s.lane l).state with
    | .up => if bit (beNat (cell.take 1)) 7 then s.takeDataCell l cell else s.takeControlCell l cell
    | .hello => s.takeHelloCell l cell
    | _ => s

/-- The words of a cell that a lane in UP acts on. -/
def actingWords (cell : List Byte) : List Nat :=
  if bit (beNat (cell.take 1)) 7 then [beAt cell 8 8] else if beAt cell 0 8 = 0 then controlWords cell else []

/-- A cell received, or the misuse that its words are (R345). -/
def State.receiveCell (s : State) (l : Nat) (cell : List Byte) : Result :=
  if s.overCredits l (actingWords cell) then undefinedCase "UB-FAB-3" else .next (s.takeCell l cell)

/-- DATA_CELL (R335). -/
def execDataCell (lane : FabricLane) (cell : List Byte) (s : State) : Result := s.receiveCell lane.val cell

/-- CONTROL_CELL (R325). -/
def execControlCell (lane : FabricLane) (cell : List Byte) (s : State) : Result := s.receiveCell lane.val cell

/-- REORDER_TIMEOUT (R336). -/
def execReorderTimeout (device : Device) (s : State) : Result := .next (s.declareLost device.val)

/-! ### Holding the interface (R341) -/

/-- Frames open at reassembly end with a code: at HOLD, and when a drain is forced. -/
def State.closeReassembly (s : State) (code : Nat) : State :=
  ((s.fabric.rx.filter fun e => !e.2.buffer.isEmpty).map fun e => e.1).foldl (fun s k => s.breakStream k code) s

/-- Every scheduler flag of a remote source cleared. -/
def State.clearRequests (s : State) : State := { s with queues := { s.queues with requests := [] } }

/-- At RUN every remote VOQ whose balance is 0 or below sends STATE 1. -/
def State.requestAll (s : State) : State :=
  ((s.queues.credit.filter fun e => decide (e.2 ≤ 0)).map fun e => e.1).foldl (fun s v => s.sendRequest v 1) s

/-- A lane is enabled by FABRIC_LANE_ENABLE (R321). -/
def State.laneEnabled (s : State) (l : Nat) : Bool := bit (s.inForce Obj.fabricLaneEnable) (8 * (19 - l / 8) + l % 8)

/-- The enabled lanes begin training when the function reaches HOLD from OFF (R321). -/
def State.startLanes (s : State) : State :=
  (List.range 160).foldl (fun s l => match (s.lane l).state with
    | .disabled => if s.laneEnabled l then s.setLane l fun x => { x with state := .training } else s
    | _ => s) s

/-- The function is OFF: every lane that is not fenced is DISABLED, and what waited for it is gone. A lane that was UP has left it (R344). -/
def State.stopLanes (s : State) : State :=
  (List.range 160).foldl (fun s l => match (s.lane l).state with
    | .fenced => s
    | st =>
      let s := s.setLane l fun x => { FLane.reset with retrains := x.retrains }
      if st = .up then s.flag Obj.fabricSummary 1 else s) s

/-! ### What lanes send (R325, R326): one cell in each cell time -/

/-- A cell time of the lanes begins with this clock: 10.24 ns, or 20.48 ns at 106.25 Gb/s (R320). -/
def State.cellTime (s : State) : Bool :=
  let ns := if s.inForce Obj.fabricLaneRate = 1 then 20480 else 10240
  (s.clock + 1) * 625 / ns != s.clock * 625 / ns

/-- The end-to-end words that a lane may send now: GRANT before REQUEST, oldest first, on a lane that reaches their device. While the
interface is held its lanes exchange their lane words alone (R341). -/
def State.takeWords (s : State) (x : FLane) (n : Nat) : List (BitVec 64) :=
  if s.fabricHeld then [] else
  let mine := s.fabric.words.filter fun w => s.laneReaches (bits w.toNat 59 48) x
  ((mine.filter fun w => bits w.toNat 63 60 == 2) ++ mine.filter fun w => bits w.toNat 63 60 == 1).take n

/-- A control cell with its words, NULL in the positions beyond them (R325). -/
def controlCell (words : List (BitVec 64)) : List Byte := padTo 256 (toBe 8 0 ++ words.flatMap fun w => toBe 8 w.toNat)

/-- A data cell with the control word of its header, NULL where there is none (R324). -/
def dataCell (cell : List Byte) (words : List (BitVec 64)) : List Byte :=
  cell.take 8 ++ toBe 8 (words.headD 0).toNat ++ cell.drop 16

/-- The HELLO word of a lane: this engine's DEVICE_ID, the lane's number, the role of an engine, and 256 cells of credit (R327). -/
def State.helloWord (s : State) (l : Nat) : BitVec 64 := controlWord 5 (field 48 s.deviceId + field 40 l + field 23 256)

/-- The data cell that a lane in UP sends next: it holds link credit for it (R327). -/
def FLane.nextCell (x : FLane) : Option WaitingCell := if x.credit = 0 then none else x.queue.head?

/-- The words of a lane in UP that has `places` positions: LINK_CREDIT first where credit is owed (R326). -/
def State.laneWords (s : State) (x : FLane) (places : Nat) : List (BitVec 64) :=
  let credit := if x.owed = 0 then [] else [controlWord 3 (field 44 (min x.owed 65535))]
  credit ++ s.takeWords x (places - credit.length)

/-- One lane sends its cell (R325-R327): in HELLO a control cell of HELLO words; in UP a queued data cell with one word, which takes 1 of
its credit, or a control cell with up to 31. -/
def State.laneSends (s : State) (l : Nat) : State :=
  let x := s.lane l
  match x.state with
  | .hello => (s.setLane l fun y => { y with sent := controlCell (List.replicate 31 (s.helloWord l)) }).count 0x332
  | .up =>
    let words := s.laneWords x (if x.nextCell.isNone then 31 else 1)
    let cell := match x.nextCell with
      | none => controlCell words
      | some c => dataCell c.cell words
    let s := { s with fabric := { s.fabric with words := words.foldl (fun ws w => ws.erase w) s.fabric.words } }
    let s := s.countN 0x335 (words.filter fun w => bits w.toNat 63 60 == 1).length
    let s := s.setLane l fun y => { y with sent := cell, owed := y.owed - min y.owed 65535 }
    if x.nextCell.isNone then s.count 0x332
    else ((s.setLane l fun y => { y with queue := y.queue.drop 1, credit := y.credit - 1 }).bump64 Obj.cellsSent).count 0x330
  | _ => s

/-- A lane sends cells: it reads HELLO or UP (R322). -/
def FLane.sends (x : FLane) : Bool := x.state == .hello || x.state == .up

/-- Every lane sends its cell where a cell time begins. -/
def State.lanesSend (s : State) : State :=
  if s.cellTime && s.fabric.lanes.any FLane.sends then (List.range 160).foldl (fun s l => s.laneSends l) s else s

end Sys2Proof.Machine
end

