-- ==== Sys2Proof/Machine/Cipher.lean ====
section
/-! DEFINITION. The link cipher, the key store and crypto jobs (R346-R367). -/

namespace Sys2Proof.Machine

/-! ### Round units and contexts (R346-R348) -/

/-- W of a pipe: its units neither fenced nor under test (R348). -/
def State.unitsWorkingOf (s : State) (p : Nat) : Nat :=
  ((List.range 20).filter fun u => !s.fenced (0x440 + 20 * p + u) && !s.sliceOn (0x440 + 20 * p + u)).length

/-- N of a port group: the contexts reserved for each direction (R347). -/
def State.lineReserve (s : State) (g : Nat) : Nat :=
  let r := (((List.range 8).filter fun k => s.cipherOn (8 * g + k) && s.fn (8 * g + k) != 0).map fun k =>
    min 800 (200 * s.inForce (Obj.portWidth (8 * g + k)))).sum
  ceilDiv (s.inForce (Obj.lineHeadroomPercent g) * r * 140) 204800

/-- LINE_CONTEXTS of a pipe: both directions of the groups it serves. -/
def State.lineContextsOf (s : State) (p : Nat) : Nat := 2 * ((s.groupsOf p).map s.lineReserve).sum

/-- The line capacity of a pipe is reduced (R348). -/
def State.lineReduced (s : State) (p : Nat) : Bool := decide (14 * s.unitsWorkingOf p < s.lineContextsOf p)

/-- JOBS_ALLOWED: the pipe runs jobs. Pipe 16 does only while it serves a group (R348, R364). -/
def State.runsJobs (s : State) (p : Nat) : Bool :=
  decide (18 ≤ s.unitsWorkingOf p) && !s.fenced p && (p != 16 || !(s.groupsOf 16).isEmpty)

/-- Contexts that jobs hold in a pipe. -/
def State.jobContexts (s : State) (p : Nat) : Nat :=
  ((s.cipher.jobs.filter fun j => j.pipe == p && !j.suspended).map Job.contexts).sum

/-- Free contexts of a pipe for jobs. -/
def State.freeContexts (s : State) (p : Nat) : Nat := 14 * s.unitsWorkingOf p - s.jobContexts p

/-- A job changed. -/
def State.setJob (s : State) (id : Nat) (f : Job → Job) : State :=
  { s with cipher := { s.cipher with jobs := s.cipher.jobs.map fun j => if j.id = id then f j else j } }

/-- A job suspended at its block boundary (R347). -/
def State.suspendJob (s : State) (j : Job) : State :=
  if j.suspended then s
  else
    let clock := s.clock
    (s.setJob j.id fun x =>
      { x with suspended := true, suspensions := min (x.suspensions + 1) 65535, since := clock }).bump64 (Obj.jobSuspensions j.pipe)

/-- Every job of a list suspended. -/
def State.suspendJobs (s : State) (js : List Job) : State := js.foldl (fun s j => s.suspendJob j) s

/-- The blocks of a line frame in a pipe: they are counted, and where jobs hold every context the oldest running one is
suspended (R347; which one is DESIGN CHOICE). -/
def State.lineBlocks (s : State) (p blocks : Nat) : State :=
  let s := s.countN (0x300 + p) blocks
  if s.freeContexts p = 0 then
    match s.cipher.jobs.find? fun j => j.pipe == p && !j.suspended with
    | some j => s.suspendJob j
    | none => s
  else s

/-! ### Protected frames (R350, R353-R355) -/

/-- Bytes of the SecTAG, its Ethertype included. -/
def secTagBytes (tci : Nat) : Nat := if bit tci 5 then 16 else 8

/-- The confidentiality offset of a configuration. -/
def confOffset (c : Nat) : Nat := if bits c 253 252 = 1 then 30 else if bits c 253 252 = 2 then 50 else 0

/-- The IV of a protected frame (IEEE 802.1AE): SCI and PN, or for XPN suites the salt with SSCI and PN. -/
def secIv (c r sci pn : Nat) : List Byte :=
  if secyXpn c then xorBytes (toBe 12 (bits r 95 0)) (toBe 4 (bits r 127 96) ++ toBe 8 pn) else toBe 8 sci ++ toBe 4 pn

/-- The secure data protected: what is sent in its place, and the ICV. `head` is the frame up to it. -/
def protectData (key iv head data : List Byte) (conf : Bool) (off : Nat) : List Byte :=
  if conf then
    let e := Aes.gcmCtr key iv (data.drop off)
    data.take off ++ e ++ Aes.gcmTag key iv (head ++ data.take off) e
  else data ++ Aes.gcmTag key iv (head ++ data) []

/-- The secure data recovered, and whether its ICV is right. -/
def recoverData (key iv head data icv : List Byte) (conf : Bool) (off : Nat) : List Byte × Bool :=
  if conf then
    let e := data.drop off
    (data.take off ++ Aes.gcmCtr key iv e, Aes.gcmTag key iv (head ++ data.take off) e == icv)
  else (data, Aes.gcmTag key iv (head ++ data) [] == icv)

/-- A frame without its FCS as it leaves protected (R354). -/
def Seal.apply (x : Seal) (b : List Byte) : List Byte :=
  let c := x.config
  let conf := bit c 251
  let sci := bits c 191 128
  let data := b.drop 12
  let tci := field 6 (b2n (bit c 249)) + field 5 (b2n (bit c 250)) + (if conf then 12 else 0) + x.an % 4
  let sl := if data.length < 48 then data.length else 0
  let tag := toBe 2 0x88E5 ++ [BitVec.ofNat 8 tci, BitVec.ofNat 8 sl] ++ toBe 4 x.pn ++
    (if bit c 250 then toBe 8 sci else [])
  let head := b.take 12 ++ tag
  head ++ protectData x.key.bytes (secIv c x.record sci x.pn) head data conf (confOffset c)

/-- The protected length of a frame of `n` bytes, FCS included (R355). -/
def protectedLength (c n : Nat) : Nat := n + if bit c 250 then 32 else 24

/-- The SCI by which a frame names its channel (R353 step 4); none for receive channel 0. -/
def frameSci (b : List Byte) : Option Nat :=
  let tci := (b.getD 14 0).toNat
  if bit tci 5 then some (beAt b 20 8) else if bit tci 6 then some (beAt b 6 6 * 65536 + 1) else none

/-- The receive channel of a frame on a port. -/
def State.rxChannel (s : State) (p : Nat) (b : List Byte) : Option Nat :=
  let rec_ := fun c => s.record Obj.rxScTable 16 (4 * p + c)
  match frameSci b with
  | some sci => (List.range 4).find? fun c => bit (rec_ c) 127 && bits (rec_ c) 63 0 == sci
  | none => if bit (rec_ 0) 127 then some 0 else none

/-- The PN of a frame, whose upper half an XPN suite recovers from NEXT_PN (IEEE 802.1AE). -/
def recoverPn (c next low : Nat) : Nat :=
  if secyXpn c then
    let up := next / 2 ^ 32
    low + 2 ^ 32 * (if low < next % 2 ^ 32 ∧ bit low 31 ≠ bit next 31 then up + 1 else up)
  else low

/-- nextPN of a receive SA: a field that has passed the suite's largest PN reads 0. -/
def nextPn (c r : Nat) : Nat := if saPn c r = 0 then (if secyXpn c then 2 ^ 64 else 2 ^ 32) else saPn c r

/-- The parts of the SecTAG that its head shows are valid (R353 step 3). -/
def tagGood (b : List Byte) : Bool :=
  let tci := (b.getD 14 0).toNat
  !bit tci 7 && bit tci 3 == bit tci 2 && !(bit tci 5 && bit tci 6)

/-- The length of the secure data of a whole frame as received, and whether it agrees with SL (R353 step 3). -/
def secureLength (b : List Byte) : Nat := b.length - (12 + secTagBytes (b.getD 14 0).toNat + 16 + 4)

/-- The secure data's length is valid (R353 step 3). -/
def secureGood (b : List Byte) : Bool :=
  let n := secureLength b
  let sl := (b.getD 15 0).toNat
  decide (2 ≤ n) && (if n < 48 then sl == n else sl == 0)

/-- A frame received on a CIPHER port judged by R353 steps 1-5, of which the lengths only where it is whole: the code that ends
it, or what it has latched, where it is protected. -/
def State.judgeSecure (s : State) (p : Nat) (b : List Byte) (whole : Bool) : State × Except Nat (Option Seal) :=
  let c := s.secy p
  if secyBypass c b then (s.secyCount p 6, .ok none)
  else if beAt b 12 2 ≠ 0x88E5 then (s.secyCount p 5, if bit c 248 then .error 0xB4 else .ok none)
  else if !tagGood b || (whole && !secureGood b) then (s.secyCount p 2, .error 0xB1)
  else match s.rxChannel p b with
    | none => (s.secyCount p 3, .error 0xB2)
    | some ch =>
      let i := 20 * p + 4 + 4 * ch + (b.getD 14 0).toNat % 4
      let r := s.saRecord i
      match s.saKey c r with
      | none => (s.secyCount p 3, .error 0xB2)
      | some k =>
        let pn := recoverPn c (saPn c r) (beAt b 16 4)
        let next := nextPn c r
        let sci := bits (s.record Obj.rxScTable 16 (4 * p + ch)) 63 0
        if bit c 247 ∧ pn < max 1 (next - bits c 223 192) then (s.secyCount p 4, .error 0xB3)
        else (s, .ok (some { config := putBits c 191 128 sci, record := r, an := i, pn := pn, key := k }))

/-- A protected frame opened: the frame as the parser sees it, FCS included, and whether its ICV is right. Of a frame in
reception, the part that cannot be ICV or FCS. -/
def Seal.open (x : Seal) (b : List Byte) (whole : Bool) : List Byte × Bool :=
  let tci := (b.getD 14 0).toNat
  let n := 12 + secTagBytes tci
  let len := b.length - n - 20
  let r := recoverData x.key.bytes (secIv x.config x.record (bits x.config 191 128) x.pn) (b.take n) (slice b n len)
    (slice b (n + len) 16) (bit tci 3) (confOffset x.config)
  let f := b.take 12 ++ r.1
  (if whole then f ++ fcs f else f, r.2)

/-- AES blocks of `n` bytes under GCM: one for each 16 bytes begun, the hash subkey and the tag's mask (DESIGN CHOICE: the spec
does not say which are counted). -/
def gcmBlocks (n : Nat) : Nat := ceilDiv n 16 + 2

/-- The ICV of a protected frame has been checked (R353 step 6). -/
def State.icvChecked (s : State) (p : Nat) (x : Seal) (good : Bool) : State :=
  if good then
    let now := nextPn x.config (s.saRecord x.an)
    (s.putPn x.config x.an (max now (x.pn + 1))).secyCount p 0
  else s.secyCount p 1

/-! ### Waking a pipe (R85) -/

/-- A sleeping pipe begins to wake to a depth, 0 awake or 1 GATED; wakes from RETAIN or OFF are counted. A wake in progress goes on,
and goes as far as the later cause needs. -/
def State.wakeTo (s : State) (p depth : Nat) : State :=
  let d := s.obj? (Obj.sleepDepth p)
  if d ≤ depth then s
  else match (s.pipe p).waking with
    | some t => s.setPipe p fun x => { x with waking := some (min t depth) }
    | none =>
      let s := s.setPipe p fun x => { x with waking := some depth }
      if 2 ≤ d then s.bump32 (Obj.wakeCount p) else s

/-- A sleeping pipe begins to wake. -/
def State.beginWake (s : State) (p : Nat) : State := s.wakeTo p 0

/-! ### The key store (R358-R361) -/

/-- A key placed in a slot, or none. -/
def State.putKey (s : State) (slot : Nat) (k : Option Key) : State :=
  { s with cipher := { s.cipher with keys := match k with
      | some x => Sparse.insert s.cipher.keys slot x
      | none => Sparse.erase s.cipher.keys slot } }

/-- KEY_SLOT_STATE of a slot. -/
def State.keySlotState (s : State) (slot : Nat) : Nat :=
  match s.keyAt slot with
  | some k => if k.is256 then 2 else 1
  | none => 0

/-- A key load starts (R359); the write is rejected with BUSY beforehand while one runs. -/
def State.startLoad (s : State) (record : List Byte) : State :=
  ({ s with cipher := { s.cipher with load := some (padTo 64 record) } } : State).put Obj.keyLoadStatus 1

/-- The key-encryption key of the present life-cycle state (R83, R360). -/
def State.kek (s : State) : List Byte := toBe 32 (Config.keyEncryptionKey s.boot.fuses).toNat

/-- A key load record judged: the status, and the key for a slot where that is DONE (R359). -/
def State.judgeLoad (s : State) (b : List Byte) : Except Nat (Nat × Key) :=
  let r := beNat b
  let job := bit r 511
  let slot := bits r 510 499
  let long := bit r 498
  let wrap := bits r 497 490
  let n := if long then 32 else 16
  let data := slice b 8 40
  let under : Option (List Byte) := if wrap = 0xFF then some s.kek
    else if wrap < 0x40 then (s.keyAt (4096 + wrap)).map Key.bytes else none
  let used := if wrap = 0xFE then n else n + 8
  if bits r 489 448 ≠ 0 ∨ bits r 127 0 ≠ 0 ∨ (job ∧ 63 < slot) ∨ (0x3F < wrap ∧ wrap < 0xFE) ∨
      (wrap = 0xFE ∧ ¬ job) ∨ (wrap ≠ 0xFE ∧ under.isNone) ∨ (data.drop used).any (fun x => x != 0) ∨ s.keyStoreFenced then
    .error 4
  else if wrap = 0xFE ∧ s.cipher.clearLocked then .error 5
  else
    let place := if job then 4096 + slot else slot
    if wrap = 0xFE then .ok (place, { is256 := long, bytes := data.take n })
    else match Aes.unwrap (under.getD []) (data.take used) with
      | some k => .ok (place, { is256 := long, bytes := k })
      | none => .error 3

/-- KEY_LOAD_END (R359, R361): the slot takes its key in this clock, or is left as it was. -/
def execKeyLoadEnd (s : State) : Result :=
  match s.cipher.load with
  | none => .next s
  | some b =>
    let r := s.judgeLoad b
    let s := { s with cipher := { s.cipher with load := none } }
    match r with
    | .ok (slot, k) => .next (((s.putKey slot (some k)).put Obj.keyLoadStatus 2).bump32 Obj.keyLoads)
    | .error status => .next ((s.put Obj.keyLoadStatus status).flag Obj.cipherSummary 4)

/-! ### Jobs (R362-R366) -/

/-- The bytes of JOB_BUFFER. -/
def jobBufferBytes : Nat := 1048576

/-- OPCODE of a descriptor. -/
def jobOp (r : Nat) : Nat := bits r 511 504
/-- TAG of a descriptor. -/
def jobTag (r : Nat) : Nat := bits r 503 488
/-- IN_OFFSET and IN_LENGTH. -/
def jobIn (r : Nat) : Nat × Nat := (bits r 311 292, bits r 291 272)
/-- AAD_OFFSET and AAD_LENGTH. -/
def jobAad (r : Nat) : Nat × Nat := (bits r 351 332, bits r 331 312)

/-- The key slot that a descriptor's job uses: the one exported for EXPORT (DEDUCED: its wrap uses no other). -/
def jobSlot (r : Nat) : Nat := 4096 + if jobOp r = 6 then bits r 481 476 else bits r 487 482

/-- The bytes a job writes at OUT_OFFSET. -/
def State.jobOutBytes (s : State) (r : Nat) : Nat :=
  let n := (jobIn r).2
  if jobOp r = 1 ∨ jobOp r = 2 then n
  else if jobOp r = 4 then n + 8
  else if jobOp r = 5 then n - 8
  else if jobOp r = 6 then (if ((s.keyAt (jobSlot r)).map Key.is256).getD false then 40 else 24)
  else 0

/-- The regions a job reads and those it writes, as offset and length (table Job opcodes). -/
def State.jobRegions (s : State) (r : Nat) : List (Nat × Nat) × List (Nat × Nat) :=
  let out := (bits r 271 252, s.jobOutBytes r)
  let tag := (bits r 251 232, 16)
  if jobOp r = 1 then ([jobAad r, jobIn r], [out, tag])
  else if jobOp r = 2 then ([jobAad r, jobIn r, tag], [out])
  else if jobOp r = 3 then ([jobIn r], [tag])
  else if jobOp r = 4 ∨ jobOp r = 5 then ([jobIn r], [out])
  else ([], [out])

/-- Two regions have a byte in common. -/
def regionsMeet (a b : Nat × Nat) : Bool := a.2 != 0 && b.2 != 0 && decide (a.1 < b.1 + b.2) && decide (b.1 < a.1 + a.2)

/-- A job's regions read and written overlap, other than an input and an output that coincide (UB-CIP-1). -/
def State.jobOverlaps (s : State) (r : Nat) : Bool :=
  let (reads, writes) := s.jobRegions r
  let out := (bits r 271 252, s.jobOutBytes r)
  reads.any fun a => writes.any fun b => regionsMeet a b && !(a == jobIn r && b == out && a == b)

/-- A length breaks the table Job opcodes. -/
def jobLengthBad (r : Nat) : Bool :=
  let n := (jobIn r).2
  if jobOp r = 4 then n % 8 != 0 || decide (n < 16) else if jobOp r = 5 then n % 8 != 0 || decide (n < 24) else false

/-- A descriptor's checks (R363): the status that completes it at once, if one does. -/
def State.jobDefect (s : State) (r : Nat) : Option Nat :=
  let (reads, writes) := s.jobRegions r
  if jobOp r = 0 ∨ 6 < jobOp r then some 8
  else if bits r 475 448 ≠ 0 ∨ bits r 231 0 ≠ 0 ∨ jobLengthBad r ∨
      (reads ++ writes).any (fun a => decide (jobBufferBytes < a.1 + a.2)) then some 6
  else if (s.keyAt (jobSlot r)).isNone then some 3
  else none

/-- A job completion record (field map Job completion record). -/
def jobCompletion (r status blocks suspensions : Nat) : List Byte :=
  toBe 16 (field 112 (jobTag r) + field 104 (jobOp r) + field 96 status + field 64 (blocks % 2 ^ 32) +
    field 48 (suspensions % 65536))

/-- A completion is written to ring 4, behind those that wait for room there (R362). -/
def State.jobDone (s : State) (record : List Byte) (status : Nat) : State :=
  let s := if status = 0 then s else s.flag Obj.cipherSummary 5
  if s.ringFull 4 ∨ !s.cipher.ended.isEmpty then
    { s with cipher := { s.cipher with ended := s.cipher.ended ++ [record] } }
  else s.ringPush 4 record

/-- Completions that waited are written while ring 4 has room. -/
def State.flushEnded (s : State) : Nat → State
  | 0 => s
  | n + 1 =>
    match s.cipher.ended with
    | [] => s
    | x :: xs =>
      if s.ringFull 4 then s
      else (({ s with cipher := { s.cipher with ended := xs } } : State).ringPush 4 x).flushEnded n

/-- The ciphers of the groups that a pipe serves let jobs run: none of them is held (R367, pair 19). -/
def State.jobsMayRun (s : State) (p : Nat) : Bool :=
  (s.groupsOf p).all fun g => s.fn (Fn.cipherNo g) == 2 || s.fn (Fn.cipherNo g) == 0

/-- The pipe a job is placed on (R364): of those awake that run jobs the one with most free contexts, the lowest of equal ones;
where none has any, the lowest sleeping pipe that runs jobs. A pipe whose jobs wait for a held cipher takes none (DEDUCED from
R367). -/
def State.jobPipe (s : State) : Option Nat :=
  let ok := (List.range 17).filter fun p => s.runsJobs p && s.jobsMayRun p
  let awake := ok.filter fun p => s.obj? (Obj.sleepDepth p) == 0 && s.freeContexts p != 0
  match leastBy (fun a b => decide (s.freeContexts b < s.freeContexts a)) awake with
  | some p => some p
  | none => ok.find? fun p => s.obj? (Obj.sleepDepth p) != 0

/-- Contexts that a job holds: a GCM job up to a unit's 14, any other one. -/
def jobWants (r : Nat) : Nat := if jobOp r = 1 ∨ jobOp r = 2 then 14 else 1

/-- The pipe number that stands for the key store's own engine, which runs EXPORT (table Job opcodes). -/
def keyStoreEngine : Nat := 17

/-- A checked job placed on a pipe, or on the key store's engine, with its own copy of its key. -/
def State.placeJob (s : State) (record : List Byte) (k : Key) (p : Nat) : State :=
  let own := p == keyStoreEngine
  let s := if own then s else s.beginWake p
  let n := max 1 (min (jobWants (beNat record)) (s.freeContexts p))
  let j : Job := { id := s.nextId, record := record, key := k, pipe := p, contexts := if own then 0 else n,
                   suspended := false, suspensions := 0, since := 0, doom := none }
  { s with nextId := s.nextId + 1, cipher := { s.cipher with jobs := s.cipher.jobs ++ [j] } }

/-- Bytes of JOB_BUFFER written. -/
def State.putJobBytes (s : State) (off : Nat) (b : List Byte) : State := s.putBytes Obj.jobBuffer off b

/-- The whole output region of a GCM_DECRYPT or UNWRAP job that ends other than DONE is written with zeros (R365). -/
def State.wipeOutput (s : State) (r : Nat) : State :=
  if jobOp r = 2 ∨ jobOp r = 5 then s.putJobBytes (bits r 271 252) (List.replicate (s.jobOutBytes r) 0) else s

/-- The abort that waits for a job still in ring 9 is spent: a job that could have run has its output wiped (R365, R366). -/
def State.spendAbort (s : State) (r : Nat) : State :=
  let s := { s with cipher := { s.cipher with aborted := s.cipher.aborted.erase (jobTag r) } }
  if (s.jobDefect r).isNone then s.wipeOutput r else s

/-- The descriptor at ring 9's TAIL taken where its opcode is the one given or none of the table (R362, R363, R366). It stays
there while 64 jobs are in progress or no pipe can take a job. -/
def State.takeJob (s : State) (op : Nat) : Result :=
  let b := s.ringFront 9
  let r := beNat b
  if !s.ready || s.ringEmpty 9 || decide (64 ≤ s.cipher.jobs.length) then .next s
  else if jobOp r ≠ op ∧ 1 ≤ jobOp r ∧ jobOp r ≤ 6 then .next s
  else if s.cipher.aborted.contains (jobTag r) then .next ((s.spendAbort r).ringTake 9 |>.jobDone (jobCompletion r 5 0 0) 5)
  else match s.jobDefect r, s.keyAt (jobSlot r) with
    | some status, _ => .next (s.ringTake 9 |>.jobDone (jobCompletion r status 0 0) status)
    | none, none => .next s
    | none, some k =>
      if s.jobOverlaps r then undefinedCase "UB-CIP-1"
      else match (if op = 6 then some keyStoreEngine else s.jobPipe) with
        | some p => .next ((s.ringTake 9).placeJob b k p)
        | none => .next s

/-- GCM_ENCRYPT (R362). -/
def execGcmEncrypt (s : State) : Result := s.takeJob 1
/-- GCM_DECRYPT (R362). -/
def execGcmDecrypt (s : State) : Result := s.takeJob 2
/-- CMAC (R362). -/
def execCmac (s : State) : Result := s.takeJob 3
/-- WRAP (R362). -/
def execWrap (s : State) : Result := s.takeJob 4
/-- UNWRAP (R362). -/
def execUnwrap (s : State) : Result := s.takeJob 5
/-- EXPORT (R362, R363). -/
def execExportKey (s : State) : Result := s.takeJob 6

/-- Bytes of JOB_BUFFER. -/
def State.jobBytes (s : State) (a : Nat × Nat) : List Byte := s.bytes Obj.jobBuffer a.1 a.2

/-- AES blocks that a job processes. -/
def State.jobBlocks (s : State) (r : Nat) : Nat :=
  let n := (jobIn r).2
  if jobOp r ≤ 2 then gcmBlocks n
  else if jobOp r = 3 then max 1 (ceilDiv n 16) + 1
  else if jobOp r = 4 then 6 * (n / 8)
  else if jobOp r = 5 then 6 * (n / 8 - 1)
  else 6 * ((s.jobOutBytes r - 8) / 8)

/-- A job run to its end: what it writes, as offset and bytes, and its status (R362, R365). -/
def State.jobResult (s : State) (j : Job) : List (Nat × List Byte) × Nat :=
  let r := beNat j.record
  let key := j.key.bytes
  let iv := slice j.record 8 12
  let input := s.jobBytes (jobIn r)
  let aad := s.jobBytes (jobAad r)
  let out := bits r 271 252
  let tag := bits r 251 232
  if jobOp r = 1 then
    let c := Aes.gcmCtr key iv input
    ([(out, c), (tag, Aes.gcmTag key iv aad c)], 0)
  else if jobOp r = 2 then
    if Aes.gcmTag key iv aad input = s.jobBytes (tag, 16) then ([(out, Aes.gcmCtr key iv input)], 0)
    else ([(out, List.replicate input.length 0)], 1)
  else if jobOp r = 3 then ([(tag, Aes.cmac key input)], 0)
  else if jobOp r = 4 then ([(out, Aes.wrap key input)], 0)
  else if jobOp r = 5 then
    match Aes.unwrap key input with
    | some k => ([(out, k)], 0)
    | none => ([(out, List.replicate (input.length - 8) 0)], 2)
  else ([(out, Aes.wrap s.kek key)], 0)

/-- The part of a GCM_ENCRYPT job's output that stands when it ends after some of its blocks; no other job has written any
output by then, or it is wiped (R365). -/
def State.partialOutput (s : State) (j : Job) (blocks : Nat) : State :=
  let r := beNat j.record
  let out := bits r 271 252
  if jobOp r = 1 then
    s.putJobBytes out ((Aes.gcmCtr j.key.bytes (slice j.record 8 12) (s.jobBytes (jobIn r))).take (16 * blocks))
  else s.wipeOutput r

/-- The blocks of a job counted on its pipe (R424); EXPORT runs on the key store's own engine. -/
def State.countJob (s : State) (j : Job) (blocks : Nat) : State :=
  if jobOp (beNat j.record) = 6 then s else (s.countN (0x300 + j.pipe) blocks).countN (0x318 + j.pipe) blocks

/-- JOB_END (R365): a job ends with its status. One that must end early has processed a number of blocks that the spec leaves
open: a free value. -/
def execJobEnd (job : Nat) (s : State) : Result :=
  match s.cipher.jobs.find? fun j => j.id == job with
  | none => .next s
  | some j =>
    let r := beNat j.record
    let total := s.jobBlocks r
    let s' := { s with cipher := { s.cipher with jobs := s.cipher.jobs.filter fun x => x.id != job } }
    match j.doom with
    | some status =>
      let (v, s') := s'.free 32
      let n := v % (total + 1)
      .next (((s'.partialOutput j n).countJob j n).jobDone (jobCompletion r status n j.suspensions) status)
    | none =>
      if j.suspended then .next s
      else
        let (writes, status) := s.jobResult j
        let s' := writes.foldl (fun s w => s.putJobBytes w.1 w.2) s'
        .next ((s'.countJob j total).jobDone (jobCompletion r status total j.suspensions) status)

/-- JOB_RESUME (R364): on a free context of its pipe; where its pipe runs no jobs, or has freed none within 1 µs, on another pipe chosen
as at placement, to which sequencer 4 moves it (R348, R430). -/
def execJobResume (job : Nat) (s : State) : Result :=
  match s.cipher.jobs.find? fun j => j.id == job && j.suspended with
  | none => .next s
  | some j =>
    let run := fun (s : State) (p : Nat) =>
      let n := max 1 (min (jobWants (beNat j.record)) (s.freeContexts p))
      (s.beginWake p).setJob j.id fun x => { x with suspended := false, pipe := p, contexts := n }
    if s.runsJobs j.pipe && s.freeContexts j.pipe != 0 && s.jobsMayRun j.pipe then .next (run s j.pipe)
    else if s.runsJobs j.pipe && (!s.jobsMayRun j.pipe || decide (s.clock < j.since + 1600)) then .next s
    else match s.jobPipe with
      | some p => .next ((run s p).request 4)
      | none => .next s

/-- The descriptors on ring 9, oldest first. -/
def State.ringJobs (s : State) : List (List Byte) :=
  let cap := s.ringCapacity 9
  let tail := bits (s.obj? (Obj.ringTail 9)) 30 0
  (List.range (ringOccupancy cap (s.obj? (Obj.ringHead 9)) (s.obj? (Obj.ringTail 9)))).map fun i =>
    s.bytes (Obj.ringRecords 9) (64 * ((tail + i) % cap)) 64

/-- A TAG written to JOB_ABORT (R366). -/
def State.abortJob (s : State) (tag : Nat) : State :=
  let bears := fun (b : List Byte) => jobTag (beNat b) == tag
  if s.cipher.ended.any (fun b => beAt b 0 2 == tag) ∧ !s.cipher.jobs.any (fun j => bears j.record) then
    s.put Obj.jobAbortResult 2
  else match s.cipher.jobs.find? fun j => bears j.record with
    | some j =>
      if j.doom.isSome then s.put Obj.jobAbortResult 2
      else (s.setJob j.id fun x => { x with doom := some 5 }).put Obj.jobAbortResult 1
    | none =>
      if (s.cipher.aborted.filter fun t => t == tag).length < (s.ringJobs.filter bears).length then
        ({ s with cipher := { s.cipher with aborted := s.cipher.aborted ++ [tag] } } : State).put Obj.jobAbortResult 1
      else s.put Obj.jobAbortResult 3

/-- Jobs that use a job-key slot must end with a status (R361). -/
def State.doomSlot (s : State) (slot status : Nat) : State :=
  { s with cipher := { s.cipher with jobs := s.cipher.jobs.map fun (j : Job) =>
    (if jobSlot (beNat j.record) = slot ∧ j.doom.isNone then { j with doom := some status } else j) } }

/-- A slot written to KEY_ERASE (R361): it is zeroed, its jobs end, and authenticated sessions under it close. -/
def State.eraseKey (s : State) (slot : Nat) : State :=
  let s := (s.putKey slot none).doomSlot slot 4
  if slot = 4096 + s.obj? Obj.sopKeySlot then s.closeSessions fun x => x.auth else s

/-- A write to KEY_CLEAR_LOAD (R359): whether it is accepted, and its effect. -/
def State.writeClearLoad (s : State) (v : Nat) : Option State :=
  if v = 0 then some (({ s with cipher := { s.cipher with clearLocked := true } } : State).put Obj.keyClearLoad 0)
  else if s.cipher.clearLocked then none else some s

/-- Jobs in a pipe that no longer runs jobs are suspended, to resume on another (R348, R364). -/
def State.moveJobs (s : State) (p : Nat) : State :=
  if s.runsJobs p then s else s.suspendJobs (s.cipher.jobs.filter fun j => j.pipe == p)

/-- Jobs held in a failed pipe end with UNIT_FAULT (R349). -/
def State.failJobs (s : State) (p : Nat) : State :=
  { s with cipher := { s.cipher with jobs := s.cipher.jobs.map fun (j : Job) =>
    (if j.pipe = p ∧ j.doom.isNone then { j with doom := some 7 } else j) } }

/-- Bytes of JOB_BUFFER that a job in progress reads or writes (UB-CIP-2). -/
def State.jobsTouch (s : State) (off n : Nat) : Bool :=
  s.cipher.jobs.any fun j =>
    let (reads, writes) := s.jobRegions (beNat j.record)
    (reads ++ writes).any (regionsMeet (off, n))

end Sys2Proof.Machine
end

