-- ==== Sys2Proof/Machine/Units.lean ====
section
/-! DEFINITION. The table Units (R378): which unit IDs exist, their checkers, their fatal reaction and whether the host may
fence them. -/

namespace Sys2Proof.Machine.Units

/-- What a unit is, with its number among its like. -/
inductive Kind where
  | pipe (p : Nat) | crossbar (q : Nat) | mac (p : Nat) | frontLane (l : Nat) | fabricLane (l : Nat)
  | emBank (q b : Nat) | reliefBank (q b : Nat) | bitmapBank (b : Nat) | ddr5 (c : Nat) | cipherUnit (p k : Nat)
  | sequencer (s : Nat) | keyStore | plinth | kiln | management (m : Nat) | pcie | fabric | armature | queueManager
  | maquette | cast | corePll | ddr5Pll | tree (g : Nat) | groupCipher (g : Nat)
  deriving DecidableEq, Repr

/-- The unit with an ID (table Units). -/
def kind (u : Nat) : Option Kind :=
  if u ≤ 0x010 then some (.pipe u)
  else if 0x020 ≤ u ∧ u ≤ 0x023 then some (.crossbar (u - 0x020))
  else if 0x040 ≤ u ∧ u ≤ 0x0BF then some (.mac (u - 0x040))
  else if 0x100 ≤ u ∧ u ≤ 0x17F then some (.frontLane (u - 0x100))
  else if 0x180 ≤ u ∧ u ≤ 0x21F then some (.fabricLane (u - 0x180))
  else if 0x280 ≤ u ∧ u ≤ 0x37F then some (.emBank ((u - 0x280) / 64) ((u - 0x280) % 64))
  else if 0x380 ≤ u ∧ u ≤ 0x3FF then some (.reliefBank ((u - 0x380) / 32) ((u - 0x380) % 32))
  else if 0x400 ≤ u ∧ u ≤ 0x41F then some (.bitmapBank (u - 0x400))
  else if 0x420 ≤ u ∧ u ≤ 0x42F then some (.ddr5 (u - 0x420))
  else if 0x440 ≤ u ∧ u ≤ 0x593 then some (.cipherUnit ((u - 0x440) / 20) ((u - 0x440) % 20))
  else if 0x5A0 ≤ u ∧ u ≤ 0x5A7 then some (.sequencer (u - 0x5A0))
  else if u = 0x5B0 then some .keyStore
  else if u = 0x5B1 then some .plinth
  else if u = 0x5B2 then some .kiln
  else if u = 0x5B3 ∨ u = 0x5B4 then some (.management (u - 0x5B3))
  else if u = 0x5B5 then some .pcie
  else if u = 0x5B6 then some .fabric
  else if u = 0x5B7 then some .armature
  else if u = 0x5B8 then some .queueManager
  else if u = 0x5B9 then some .maquette
  else if u = 0x5BA then some .cast
  else if u = 0x5BB then some .corePll
  else if u = 0x5BC then some .ddr5Pll
  else if 0x5C0 ≤ u ∧ u ≤ 0x5CF then some (.tree (u - 0x5C0))
  else if 0x5D0 ≤ u ∧ u ≤ 0x5DF then some (.groupCipher (u - 0x5D0))
  else none

/-- What a checker checks (table Units). -/
inductive Check where
  | parity | secded | crc | lock | state | shadow | audit
  deriving DecidableEq, Repr

/-- The checkers of a unit, by number (table Units). -/
def checks : Kind → List Check
  | .pipe _ => [.secded, .secded, .parity, .parity, .state]
  | .crossbar _ => [.parity, .parity, .parity, .secded, .state]
  | .mac _ => [.parity, .secded, .secded]
  | .frontLane _ => [.parity, .lock]
  | .fabricLane _ => [.parity, .lock]
  | .emBank _ _ => [.parity]
  | .reliefBank _ _ => [.parity, .secded, .shadow]
  | .bitmapBank _ => [.parity, .secded]
  | .ddr5 _ => [.crc]
  | .cipherUnit _ _ => [.parity, .parity]
  | .sequencer _ => [.secded, .parity, .state, .audit]
  | .keyStore => [.secded, .parity]
  | .plinth => [.secded, .state]
  | .kiln => [.state]
  | .management _ => [.secded]
  | .pcie => [.secded]
  | .fabric => [.secded, .secded, .state]
  | .armature => [.secded, .secded, .state]
  | .queueManager => [.secded, .parity]
  | .maquette => [.parity, .secded]
  | .cast => [.parity, .parity]
  | .corePll => [.lock]
  | .ddr5Pll => [.lock]
  | .tree _ => []
  | .groupCipher _ => []

/-- What checker `c` of unit `u` checks. -/
def check (u c : Nat) : Option Check := (kind u).bind fun k => (checks k)[c]?

/-- A unit and checker of the table Units. -/
def hasChecker (u c : Nat) : Bool := (check u c).isSome

/-- A lock checker, or checker 3 of a sequencer, which cannot be armed (R389). -/
def noInjection (u c : Nat) : Bool := check u c == some .lock || check u c == some .audit

/-- The function fenced together with a unit (table Functions). -/
def function : Kind → Option Nat
  | .pipe p => some (0x200 + p)
  | .crossbar q => some (0x300 + q)
  | .mac p => some p
  | .fabric => some 0x400
  | .tree g => some (0x100 + g)
  | .groupCipher g => some (0x180 + g)
  | _ => none

/-- The unit of a function (table Functions). -/
def ofFunction (n : Nat) : Nat :=
  if n < 0x100 then 0x040 + n
  else if n < 0x180 then 0x5C0 + (n - 0x100)
  else if n < 0x200 then 0x5D0 + (n - 0x180)
  else if n < 0x300 then n - 0x200
  else if n < 0x400 then 0x020 + (n - 0x300)
  else 0x5B6

/-- The column Host may fence, the last-path rule of the management units apart. -/
def hostMayFence : Kind → Bool
  | .keyStore => false
  | .plinth => false
  | .armature => false
  | .queueManager => false
  | .maquette => false
  | .cast => false
  | .corePll => false
  | .ddr5Pll => false
  | _ => true

end Sys2Proof.Machine.Units
end

