-- ==== Sys2Proof/Machine/Functions.lean ====
section
/-! DEFINITION. Functions: who owns a setting, what reaching HOLD, RUN and OFF changes, drains and forced drains, the slices
that end with them, and the sleep depths of pipes (R84-R86, R92-R99, R409). -/

namespace Sys2Proof.Machine

/-! ### Owners and frozen settings (R92, R94, R99) -/

/-- The function that owns an RWH object, or a mode setting that a port holds frozen. -/
def ownerOf (key : Nat) : Option Nat :=
  let i := key / 256
  let j := key % 256
  if key = Obj.fabricEnable then some Fn.fabricNo
  else if 0x1402 ≤ i ∧ i ≤ 0x1405 ∧ 1 ≤ j then some (j - 1)
  else if 0x2000 ≤ i ∧ i < 0x2800 then some ((i - 0x2000) / 16)
  else if 0x5000 ≤ i ∧ i < 0x5004 then some (Fn.reliefNo (i - 0x5000))
  else if 0x6200 ≤ i ∧ i < 0x6210 ∧ j = 1 then some (Fn.schedNo (i - 0x6200))
  else if i = 0x7011 ∧ 1 ≤ j then some (Fn.cipherNo (j - 1))
  else if i = 0x7020 ∧ 1 ≤ j then some (j - 1)
  else if i = 0xC000 ∨ i = 0xC001 then some Fn.fabricNo
  else none

/-- A function reads DRAINING, HOLD or STARTING. -/
def State.heldFn (s : State) (n : Nat) : Bool := s.fn n == 1 || s.fn n == 4 || s.fn n == 5

/-- A function's number is a pipe's: the pipe. -/
def pipeOfFn (n : Nat) : Option Nat := if 0x200 ≤ n ∧ n < 0x300 then some (n - 0x200) else none

/-- The function that holds a setting frozen now: its owner, and for SLEEP_ENABLE the pipe serving the group (R99). -/
def State.freezer (s : State) (key : Nat) : Option Nat :=
  if key / 256 = 0x1406 then some (Fn.pipeNo (s.groupPipe (key % 256 - 1))) else ownerOf key

/-- Every setting that a function owns and that was written while it was stopped takes effect (R94, R99). -/
def State.thaw (s : State) (n : Nat) : State :=
  { s with frozen := s.frozen.filter fun e => ownerOf e.1 != some n,
           frozenDom := s.frozenDom.filter fun e => ownerOf (e.1 / 2 ^ 32) != some n }

/-- A pipe that leaves OFF after READY, for whatever state, makes R96's neighbour condition apply to its pair of quadrants from then on
(R213). -/
def State.armPair (s : State) (n v : Nat) : State :=
  match pipeOfFn n with
  | some p =>
    if s.ready ∧ p < 16 ∧ s.fn n = 0 ∧ v ≠ 0 then
      { s with relief := { s.relief with armed := modifyAt s.relief.armed (p / 8) fun _ => true } }
    else s
  | none => s

/-- A function's state set; a passage it was in has ended. -/
def State.setFn (s : State) (n v : Nat) : State :=
  let s := s.armPair n v
  ({ s with goals := s.goals.filter (fun e => e.1 != n) } : State).put (fnStateKey n) v

/-- A function enters a passage to a goal (R94). -/
def State.passFn (s : State) (n v : Nat) (g : FnGoal) : State :=
  let s := s.armPair n v
  ({ s with goals := (s.goals.filter fun e => e.1 != n) ++ [(n, g)] } : State).put (fnStateKey n) v

/-- The ports of the groups a pipe serves. -/
def State.pipePorts (s : State) (p : Nat) : List Nat := (s.groupsOf p).flatMap fun g => (List.range 8).map fun k => 8 * g + k

/-- The ports of a group. -/
def groupPorts (g : Nat) : List Nat := (List.range 8).map fun k => 8 * g + k

/-! ### Slices that end early (R397, R409) -/

/-- The functions a unit's slice needs running (R400, pair 29). -/
def State.unitFunctions (s : State) (u : Nat) : List Nat :=
  match Units.kind u with
  | some (.fabricLane _) => [Fn.fabricNo]
  | some (.reliefBank q _) => [Fn.reliefNo q]
  | some (.cipherUnit p _) => (s.groupsOf p).map Fn.cipherNo
  | some (.frontLane l) => ((groupPorts (l / 8)).filter fun p => (s.portLanes p).contains l && s.fn p != 0)
  | some k => (Units.function k).toList
  | none => []

/-- The unit of an ended slice returns to service as its method gives (R397, R211). -/
def State.restoreSlice (s : State) (slice : Nat) : State :=
  let kind := slice / 4096
  let u := slice % 4096
  if kind = 12 then
    let q := (u - 0x380) / 32
    let b := (u - 0x380) % 32
    if (s.bankSt q b).state = 4 then s.returnHome q b else s
  else if kind = 9 then
    s.setSeq (u - 0x5A0) fun q => { q with service := .inService }
  else s

/-- A running slice ends with outcome ENDED, counted as skipped (R409). -/
def State.endSlice (s : State) (r : SliceRun) : State :=
  let s := { s with kiln := { s.kiln with running := s.kiln.running.filter fun x => x != r } }
  let s := (if s.fenced (r.slice % 4096) then s else s.restoreSlice r.slice).bump64 (Obj.slicesSkipped (r.slice / 4096))
  if r.requested then s.put Obj.sliceRequestResult 6 else s

/-- The slices on units that meet a condition end. -/
def State.endSlices (s : State) (p : Nat → Bool) : State :=
  (s.kiln.running.filter fun r => p (r.slice % 4096)).foldl (fun s r => s.endSlice r) s

/-! ### Reaching a state (R94, R97) -/

/-- A key of a port's lane and link settings: i+0 to i+4 of table 05 (R97). -/
def linkSetting (p key : Nat) : Bool := decide (0x2000 + 16 * p ≤ key / 256) && decide (key / 256 ≤ 0x2004 + 16 * p)

/-- Lane or link settings of a port written in HOLD differ from those in force. -/
def State.linkChanged (s : State) (p : Nat) : Bool := s.frozen.any fun e => linkSetting p e.1 && s.obj? e.1 != e.2

/-- A port reaches RUN: changed settings retrain the link, and without a link the hold time runs (R97, R127, R128). -/
def State.portRuns (s : State) (p : Nat) (changed : Bool) : State :=
  let s := if changed then s.startLink p else s
  if s.link p = 5 then s.startTx p
  else if s.obj? (Obj.holdTimeUs p) = 0 then (s.linkDownFlush p).leaveHolding p
  else s.setPort p fun x => { x with holdRunning := true }

/-- The lanes that FABRIC_LANE_ENABLE no longer names are DISABLED (R321). -/
def State.dropLanes (s : State) : State :=
  (List.range 160).foldl (fun s l => if s.laneEnabled l || (s.lane l).state == .fenced then s else s.laneDown l .disabled) s

/-- What one kind of function does as it reaches RUN. -/
def State.runFn (s : State) (n : Nat) (changed : Bool) : State :=
  if n < 0x100 then s.portRuns n changed
  else if n < 0x180 then s.startPorts (groupPorts (n - 0x100))
  else if n < 0x200 then s.startPorts (groupPorts (n - 0x180))
  else if n < 0x300 then s.startPorts (s.pipePorts (n - 0x200))
  else if n < 0x400 then s.reliefRewrite (n - 0x300)
  else s.dropLanes.requestAll

/-- SLEEP in force for a group is off: its pipe in RETAIN or OFF wakes to GATED (table Modes). -/
def State.sleepOff (s : State) (g : Nat) : State :=
  let p := s.groupPipe g
  if p = 0xFF ∨ s.inForce (Obj.sleepEnable g) = 1 then s else s.wakeTo p 1

/-- The SLEEP settings that a pipe has held frozen take effect (R99). -/
def State.thawSleep (s : State) (gs : List Nat) : State :=
  let was := gs.filter fun g => (Sparse.find? s.frozen (Obj.sleepEnable g)).isSome
  let s := { s with frozen := s.frozen.filter fun e => !(was.any fun g => e.1 == Obj.sleepEnable g) }
  was.foldl (fun s g => s.sleepOff g) s

/-- A function reaches RUN: settings written since it left RUN take effect in that clock (R94, R99). -/
def State.reachRun (s : State) (n : Nat) : State :=
  let changed := decide (n < 0x100) && s.linkChanged n
  let s := match pipeOfFn n with
    | some p => s.thawSleep (s.groupsOf p)
    | none => s.thaw n
  (s.setFn n 2).runFn n changed

/-- A function reaches HOLD from OFF (R109, R321). -/
def State.holdFromOff (s : State) (n : Nat) : State :=
  let s := s.setFn n 1
  if n < 0x100 then s.startLink n else if n = 0x400 then s.startLanes else s

/-- A function reaches HOLD at the end of a drain (R341). -/
def State.holdFromRun (s : State) (n : Nat) : State :=
  let s := s.setFn n 1
  if n = 0x400 then (s.closeReassembly 0xC4).clearRequests else s

/-- A function goes OFF: a port flushes its egress queues (R94), lanes of the fabric interface are DISABLED (R321). -/
def State.reachOff (s : State) (n : Nat) : State :=
  let s := s.setFn n 0
  if n < 0x100 then (s.linkDownFlush n).disableLink n else if n = 0x400 then s.stopLanes else s

/-- A drain begins (R94, R97): jobs of a held cipher's pipe are suspended (pair 19), and slices on the function's units end
(pair 29). -/
def State.beginDrain (s : State) (n : Nat) : State :=
  let s := (s.passFn n 4 .hold).endSlices fun u => (s.unitFunctions u).contains n
  if 0x180 ≤ n ∧ n < 0x200 then
    let p := s.groupPipe (n - 0x180)
    s.suspendJobs (s.cipher.jobs.filter fun j => j.pipe == p)
  else s

/-- A function leaves OFF for HOLD (R94): a slice that runs on one of its units ends (pair 29). -/
def State.beginStart (s : State) (n : Nat) : State :=
  (s.passFn n 5 .hold).endSlices fun u => (s.unitFunctions u).contains n

/-! ### Drains (R97, R98) -/

/-- The frames that stand in a pipe's ingress half. -/
def State.pipeFrames (s : State) (p : Nat) : List Frame :=
  s.frames.filter fun f => match f.loc with
    | .fifo k => k == p
    | .inject k => k == p
    | .recirc k => k == p
    | .replay k => k == p
    | .searching k _ => k == p
    | _ => false

/-- A frame is on the transmit side of a port: selected, or in transmission. -/
def State.portSending (s : State) (p : Nat) : Bool := (s.port p).tx.isSome || !(s.selected p).isEmpty

/-- A frame of a port has blocks in the round units. -/
def State.lineBusy (s : State) (p : Nat) : Bool :=
  let x := s.port p
  x.rxSeal.isSome || x.tx.any fun t => t.protect.isSome

/-- A frame that a port's drain waits for is in reception: it began before the port was held (R97). -/
def State.receiving (s : State) (p : Nat) : Bool := (s.port p).rxActive && (s.port p).rxCode != some 0x07

/-- The work that a drain of a function waits for is done (table What HOLD stops). -/
def State.drained (s : State) (n : Nat) : Bool :=
  if n < 0x100 then !s.receiving n && (s.port n).tx.isNone
  else if n < 0x180 then !((groupPorts (n - 0x100)).any s.portSending)
  else if n < 0x200 then !((groupPorts (n - 0x180)).any s.lineBusy)
  else if n < 0x300 then (s.pipeFrames (n - 0x200)).isEmpty && !((s.pipePorts (n - 0x200)).any s.portSending)
  else if n < 0x400 then !(s.frames.any fun f => f.searchingOn (n - 0x300))
  else !(s.copies.any fun c => match c.loc with
    | .fabric _ => true
    | _ => false) && s.fabric.lanes.all fun x => x.queue.isEmpty

/-- The transmit side of a port ends with a code: the frame on the wire is stomped, and those selected are dropped. -/
def State.endSending (s : State) (p code : Nat) : State := s.endAllAtPort p (s.selected p) code |>.stomp p code

/-- The frame in reception on a port ends with a code that a forced drain gives (R98). A frame that takes 0x0E is counted in
TX_FORCED_DRAIN: at the port that sends its copy, where one does, else here. -/
def State.forceReception (s : State) (p code : Nat) : State :=
  let x := s.port p
  let sent := s.copies.any fun c => x.rxFrame == some c.frame && match c.loc with
    | .transmit _ => true
    | .selected _ => true
    | _ => false
  let s := if x.rxCode.isNone && !sent then s.txCode p code else s
  s.endReception p code code

/-- The copies that have entered the fabric and not left it end with a code. -/
def State.endCrossing (s : State) (code : Nat) : State :=
  let cs := s.copies.filter fun c => match c.loc with
    | .fabric _ => true
    | _ => false
  let s := cs.foldl (fun s c => (s.closeBad c.id).endCopy c.id code) s
  { s with fabric := { s.fabric with
    waiting := [], streams := [], lanes := s.fabric.lanes.map fun x => { x with queue := [] } } }

/-- The work in flight of a function whose drain is forced is dropped under its chapter's code (R98); that of a Relief quadrant by
`State.endSearches`. -/
def State.forceWork (s : State) (n : Nat) : State :=
  if n < 0x100 then (if s.receiving n then s.forceReception n 0x0E else s).stomp n 0x0E
  else if n < 0x180 then ((groupPorts (n - 0x100)).foldl (fun s p => s.endSending p 0x90) s).flag Obj.queueSummary 11
  else if n < 0x200 then (groupPorts (n - 0x180)).foldl (fun s p =>
    let s := if (s.port p).rxSeal.isSome then s.forceReception p 0xB9 else s
    if (s.port p).tx.any fun t => t.protect.isSome then s.stomp p 0xB9 else s) s
  else if n < 0x300 then
    let p := n - 0x200
    let s := (s.pipePorts p).foldl (fun s q => s.endSending q 0x3F) s
    let waiting := (s.pipeFrames p).filter Frame.complete
    let s := s.endFrames waiting 0x3F
    let s := (s.pipePorts p).foldl (fun s q => if (s.port q).rxFrame.isSome then s.forceReception q 0x3F else s) s
    s.flag (Obj.pipeFlags p) 2
  else if n < 0x400 then s
  else s.endCrossing 0xC4

/-! ### The commands of a passage -/

/-- A passage of a function, if it is in one. -/
def State.goal (s : State) (n : Nat) : Option FnGoal := (s.goals.find? fun e => e.1 == n).map fun e => e.2

/-- DRAIN_COMPLETE (R97): the function reads HOLD once its work is done. -/
def execDrainComplete (fn : Fn) (s : State) : Result :=
  let n := fnNumber fn
  if s.fn n = 4 ∧ s.drained n then .next (s.holdFromRun n) else .next s

/-- START_COMPLETE (R94, R97). -/
def execStartComplete (fn : Fn) (s : State) : Result :=
  let n := fnNumber fn
  if s.fn n ≠ 5 then .next s
  else match s.goal n with
    | some .run => .next (s.reachRun n)
    | some .hold => .next (s.holdFromOff n)
    | none => .next s

/-! ### Sleep depths (R84-R86, R91) -/

/-- SLEEP_DEPTH of a pipe. -/
def State.depth (s : State) (p : Nat) : Nat := s.obj? (Obj.sleepDepth p)

/-- A pipe has nothing to do (table Sleep depths, row GATED). -/
def State.pipeIdle (s : State) (p : Nat) : Bool :=
  (s.pipeFrames p).isEmpty && !(s.cipher.jobs.any fun j => j.pipe == p) &&
    (s.groupsOf p).all fun g => !s.treeRuns g || (s.eligible g).queues.isEmpty

/-- The pipe's domain is clocked: its function is neither OFF nor FENCED. -/
def State.pipeOn (s : State) (p : Nat) : Bool := s.fn (Fn.pipeNo p) != 0 && s.fn (Fn.pipeNo p) != 3

/-- SLEEP is in force for a pipe: for pipe 16, that of the group it serves (R84, R91). -/
def State.sleepOn (s : State) (p : Nat) : Bool := (s.groupsOf p).any fun g => s.inForce (Obj.sleepEnable g) == 1

/-- A pipe may go deeper than GATED: it is not held (pair 26), serves one group at most (pair 24), and no slice tests it or a round unit of its link
cipher (pair 23). -/
def State.mayDeepen (s : State) (p : Nat) : Bool :=
  !s.heldFn (Fn.pipeNo p) && decide ((s.groupsOf p).length ≤ 1) && !s.sliceOn p &&
    !(List.range 20).any fun i => s.sliceOn (0x440 + 20 * p + i)

/-- PIPE_GATED_ENTRY (R84). -/
def execPipeGatedEntry (pipe : Pipe) (s : State) : Result :=
  let p := pipe.val
  if s.ready && s.depth p == 0 && (s.pipe p).waking.isNone && s.pipeOn p && s.pipeIdle p then .next (s.put (Obj.sleepDepth p) 1)
  else .next s

/-- PIPE_RETAIN_ENTRY (R84): pipe 16 outside a takeover enters from its GATED condition at once. Serving a group with SLEEP on (R91)
it goes as deep as RETAIN: it ignores SLEEP_POLICY, and the spec names no other bound (DESIGN CHOICE, log entry 108). -/
def execPipeRetainEntry (pipe : Pipe) (s : State) : Result :=
  let p := pipe.val
  let ready := s.ready && (s.pipe p).waking.isNone && s.pipeOn p && s.pipeIdle p && s.mayDeepen p
  let due := if p = 16 && (s.groupsOf 16).isEmpty then decide (s.depth p ≤ 1)
    else s.depth p == 1 && s.sleepOn p && (p == 16 || decide (1 ≤ s.obj? (Obj.sleepPolicy p)))
  if ready && due then .next (s.put (Obj.sleepDepth p) 2) else .next s

/-- PIPE_OFF_ENTRY (R84): every port the pipe serves is administratively down with empty egress queues. Nothing of the pipe's own is
kept; its sampling registers start from the SAMPLE_SEED that the Plinth holds (R35, R265). -/
def execPipeOffEntry (pipe : Pipe) (s : State) : Result :=
  let p := pipe.val
  let down := (s.pipePorts p).all fun q => (s.fn q == 0 || s.fn q == 3) && (s.egressCopies q).isEmpty
  if s.ready && (s.pipe p).waking.isNone && s.pipeOn p && s.pipeIdle p && s.mayDeepen p && s.depth p != 3 && s.sleepOn p &&
      p != 16 && s.obj? (Obj.sleepPolicy p) == 2 && down then
    .next ((s.setPipe p fun _ => PipeSt.reset (s.obj? Obj.sampleSeed) p).put (Obj.sleepDepth p) 3)
  else .next s

/-- PIPE_WAKE (R84, R85): a slice or an access wakes a pipe to GATED, any other cause wakes it whole. A pipe in OFF wakes for a
port or a takeover alone. -/
def execPipeWake (pipe : Pipe) (cause : WakeCause) (s : State) : Result :=
  let p := pipe.val
  let d := s.depth p
  if !s.ready then .next s
  else match cause with
    | .arrival => if d < 3 then .next (s.beginWake p) else .next s
    | .egressWork => if d < 3 then .next (s.beginWake p) else .next s
    | .portUp => if d = 3 ∧ (s.pipePorts p).any (fun q => s.fn q != 0 && s.fn q != 3) then .next (s.beginWake p) else .next s
    | .slice => if d < 3 then .next (s.wakeTo p 1) else .next s
    | .access => if d < 3 then .next (s.wakeTo p 1) else .next s
    | .takeover => if s.faults.takeovers.any fun t => t.pipe == p then .next (s.beginWake p) else .next s

/-- PIPE_WAKE_END (R85): the pipe stands at the depth its wake was for. -/
def execPipeWakeEnd (pipe : Pipe) (s : State) : Result :=
  let p := pipe.val
  match (s.pipe p).waking with
  | some t => .next ((s.setPipe p fun x => { x with waking := none }).put (Obj.sleepDepth p) (min t (s.depth p)))
  | none => .next s

end Sys2Proof.Machine
end

