-- ==== Sys2Proof/Machine/Reload.lean ====
section
/-! DEFINITION. The in-service reload of the control stores (R441-R444, R405): its start, its checks, and how it goes from
sequencer to sequencer. -/

namespace Sys2Proof.Machine

/-- BOOT_STATE reads READY, no reload and no SEQUENCER slice runs, and two sequencers are in service (R443). -/
def State.mayReload (s : State) : Bool :=
  s.ready && !s.atelier.reloading && !((List.range 8).any fun n => s.kindOn 9 (0x5A0 + n)) &&
    decide (2 ≤ ((List.range 8).filter s.inService).length)

/-- A reload starts: the image is copied into the staging store, and its checks run (R442 step 1). -/
def State.startReload (s : State) (image : List Byte) (fromHold : Bool) : State :=
  ({ s with atelier := { s.atelier with
      staging := image, reloading := true, fromHold := fromHold, loaded := [], flashRead := false } } : State).put Obj.reloadStatus 1

/-- The SIGNATURE slice: kind 8 on the Kiln. -/
def signatureSlice : Nat := 0x85B2

/-- A reload has ended, and a SIGNATURE slice that failed once runs again at once (R405). -/
def State.rerunSignature (s : State) : State :=
  if s.kiln.retry then
    { s with kiln := { s.kiln with running := s.kiln.running ++ [{ slice := signatureSlice, part := 0, requested := false }] } }
  else s

/-- A reload ends with a RELOAD_STATUS. -/
def State.endReload (s : State) (status : Nat) : State :=
  let s := { s with atelier := { s.atelier with staging := [], reloading := false, loaded := [], flashRead := false } }
  let s := (s.put Obj.reloadStatus status).put Obj.reloadSequencer 0xFF
  (if status = 3 then s else s.flag Obj.atelierSummary 2).rerunSignature

/-- Step 6: the image hold is replaced from staging. -/
def State.finishReload (s : State) : State :=
  let image := s.atelier.staging
  let s := { s with atelier := { s.atelier with hold := image.take (imageLength image) } }
  ((s.put Obj.microcodeLevel (imageLevel image)).put Obj.imageHoldLevel (imageLevel image)).endReload 3

/-- A sequencer is taken out of service, for a reload or a slice: it takes no new request, and its traps pass to its cover
(R441, R442 step 3). -/
def State.releaseSeq (s : State) (n : Nat) : State :=
  (s.setSeq n fun q => { q with service := .releasing, loadRetried := false }).passTraps n

/-- Step 2: the lowest sequencer in service not yet loaded is released, or the reload finishes. -/
def State.reloadNext (s : State) : State :=
  match (List.range 8).find? fun n => s.inService n && !s.atelier.loaded.contains n with
  | some n => (s.put Obj.reloadSequencer n).releaseSeq n
  | none => s.finishReload

/-- The interface level of an image (R443). -/
def interfaceLevel (image : List Byte) : Nat := bits (imageLevel image) 31 16

/-- The RELOAD_STATUS that the checks of an image end with, 2 where it passes. -/
def State.reloadVerdict (s : State) (image : List Byte) (good : Bool) : Nat :=
  let d := imageDefect image
  if d = 1 then 4
  else if d ≠ 0 then 5
  else if !good then 6
  else if !imageAllows image s.boot.fuses then 7
  else if interfaceLevel image ≠ interfaceLevel s.atelier.hold then 8
  else 2

/-- The checks have ended with a verdict. -/
def State.judgeReload (s : State) (image : List Byte) (good : Bool) : State :=
  let v := s.reloadVerdict image good
  if v = 2 then ({ s with atelier := { s.atelier with staging := image } }.put Obj.reloadStatus 2).reloadNext else s.endReload v

/-- A reload is at its checks. -/
def State.verifying (s : State) : Bool := s.atelier.reloading && s.obj? Obj.reloadStatus == 1

/-- RELOAD_VERIFIED (R442). Where the hold fails in a reload that the Kiln asked for, the image that BOOT_IMAGE names is read again
from flash (R441); an uploaded image lies in no flash slot. -/
def execReloadVerified (signatureGood : Bool) (s : State) : Result :=
  if !s.verifying || s.atelier.flashRead then .next s
  else
    let flash := s.kiln.retry && s.atelier.fromHold && (s.obj? Obj.bootImage == 1 || s.obj? Obj.bootImage == 2)
    if flash && s.reloadVerdict s.atelier.staging signatureGood != 2 then
      .next { s with atelier := { s.atelier with flashRead := true } }
    else .next (s.judgeReload s.atelier.staging signatureGood)

/-- FLASH_REREAD_END (R441). -/
def execFlashRereadEnd (image : List Byte) (signatureGood : Bool) (s : State) : Result :=
  if s.verifying && s.atelier.flashRead then
    .next (({ s with atelier := { s.atelier with flashRead := false } } : State).judgeReload (image.take 393216) signatureGood)
  else .next s

/-- A sequencer stands at a checkpoint, or is idle: its work can pass to its cover as it is (R442). -/
def Seq.atCheckpoint (q : Seq) : Bool := q.level == 0 && (q.running.isNone || q.checkpoint == some (q.saved q.pc))

/-- SEQUENCER_RELEASE (R442 step 3): the released sequencer reaches its checkpoint, and its work passes to its cover. A
SEQUENCER slice takes its sequencer out of service in the same way (R441). -/
def execSequencerRelease (s : State) : Result :=
  match (List.range 8).find? fun n => (s.seq n).service == .releasing with
  | none => .next s
  | some n =>
    if !(s.seq n).atCheckpoint then .next s
    else
      let next : Service := if s.kindOn 9 (0x5A0 + n) then .underTest else .loading
      .next ((s.passWork n).setSeq n fun q => { q with service := next })

end Sys2Proof.Machine
end

