-- ==== Sys2Proof/Machine/Fence.lean ====
section
/-! DEFINITION. Fences: what becomes of the frames, functions and work that depend on a fenced unit, spare takeovers, group
returns and releases (R378-R388, R92, R95, R184, R210, R293, R348, R349, R440, R484). -/

namespace Sys2Proof.Machine

/-! ### Functions that are fenced (R92, R95, R382) -/

/-- A function enters FENCED; a passage it was in ends. -/
def State.fenceFn (s : State) (n : Nat) : State := if s.fn n = 3 then s else (s.setFn n 3).flag Obj.modeSummary 1

/-- A function in FENCED may be moved to OFF: its unit is fenced no more, its group has a pipe, and a cipher's key store serves
(R382, R388, table Units). -/
def State.liftable (s : State) (n : Nat) : Bool :=
  let group := if n < 0x100 then n / 8 else n % 16
  !s.fenced (Units.ofFunction n) && (0x200 ≤ n || s.groupPipe group != 0xFF) &&
    !(0x180 ≤ n && n < 0x200 && s.keyStoreFenced)

/-- The frame in transmission on a port is cut off on the wire and counted under a code (R379, R384). -/
def State.cutOff (s : State) (p code : Nat) : State :=
  match (s.port p).tx with
  | none => s
  | some t => (s.setPort p fun x => { x with tx := none }).endAtPort p t.copy code

/-- What a port's MAC holds ends with a code: the frame in reception and that in transmission. -/
def State.endAtMac (s : State) (p code : Nat) : State := (s.endReception p code code).cutOff p code

/-- A port enters FENCED (R109, R379, R382). -/
def State.fencePort (s : State) (p : Nat) : State := (((s.endAtMac p 0xD0).fenceFn p).flushPort p 0xD3).disableLink p

/-- The scheduler tree of a group enters FENCED: frames in transmission complete (R382). -/
def State.fenceTree (s : State) (g : Nat) : State :=
  (groupPorts g).foldl (fun s p => s.flushPort p 0xD3) (s.fenceFn (Fn.schedNo g))

/-- The cipher of a group enters FENCED: its CIPHER ports lose what they carry and what they queue (R382). -/
def State.fenceCipher (s : State) (g : Nat) : State :=
  ((groupPorts g).filter s.cipherOn).foldl (fun s p =>
    let s := s.endReception p 0xD0 0xD0
    let s := if (s.port p).tx.any fun t => t.protect.isSome then s.stomp p 0xD0 else s
    s.flushPort p 0xD3) (s.fenceFn (Fn.cipherNo g))

/-! ### Pipes (R383-R387) -/

/-- The groups that a pipe serves or is about to take (R383). -/
def State.servedBy (s : State) (p : Nat) : Nat :=
  (s.groupsOf p).length + (s.faults.takeovers.filter fun t => t.pipe == p).length

/-- A pipe may take a group: neither it nor its function is fenced. -/
def State.pipeServes (s : State) (p : Nat) : Bool := !s.fenced p && s.fn (Fn.pipeNo p) != 3

/-- The pipe that takes a group which has lost its own (R383 rules 1 and 2). -/
def State.choosePipe (s : State) (g : Nat) : Option Nat :=
  if s.pipeServes 16 && s.servedBy 16 == 0 then some 16
  else ((List.range 4).map fun i => g / 4 * 4 + i).find? fun p => s.pipeServes p && s.servedBy p == 1

/-- The first takeover in the queue starts: the pipe wakes, and pipe 16 leaves any state but RUN for STARTING (R484). -/
def State.startTakeover (s : State) : State :=
  match s.faults.takeovers with
  | [] => s
  | t :: _ =>
    let n := Fn.pipeNo t.pipe
    let s := if t.pipe = 16 ∧ s.fn n ≠ 2 then s.passFn n 5 .run else s
    s.beginWake t.pipe

/-- A group that no pipe can take (R383 rule 3, R382). -/
def State.loseGroup (s : State) (g pipe cause : Nat) : State :=
  let s := s.put (Obj.groupPipe g) 0xFF
  let s := (groupPorts g).foldl (fun s p => ((s.flushPort p 0xD7).fenceFn p).disableLink p) s
  let s := (s.fenceFn (Fn.schedNo g)).fenceFn (Fn.cipherNo g)
  let s := (s.markFenced (0x5C0 + g) cause).markFenced (0x5D0 + g) cause
  s.log { kind := 7, unit := pipe, reaction := 6, detail := g }

/-- A group that has lost its pipe is placed (R383): its takeover joins the queue, or the group is lost. -/
def State.placeGroup (s : State) (g failed cause : Nat) : State :=
  match s.choosePipe g with
  | some p =>
    let t : Takeover := { group := g, pipe := p, started := s.clock, neighbour := p != 16 }
    let first := s.faults.takeovers.isEmpty
    let s := { s with faults := { s.faults with takeovers := s.faults.takeovers ++ [t] } }
    if first then s.startTakeover else s
  | none => s.loseGroup g failed cause

/-- The writer of a group's pipe reassembles the frame in progress on a stream: one for a port of the group, or one for Cast whose
stream has the group's number (R338). -/
def State.writtenFor (s : State) (g key : Nat) (x : RxStream) : Bool :=
  x.header.any fun h =>
    if bit h 145 then key % 16 == g
    else match s.systemPort (bits h 126 113) with
      | .local p => p / 8 == g
      | _ => false

/-- Frames of a group being reassembled by its writer end (R385, R336). -/
def State.breakWriter (s : State) (g code : Nat) : State :=
  (s.fabric.rx.filter fun e => s.writtenFor g e.1 e.2).foldl (fun s e => s.breakStream e.1 code) s

/-- What stands on the ports of a group that loses its pipe ends at once (R384, R385). -/
def State.isolateGroup (s : State) (g code : Nat) : State :=
  (groupPorts g).foldl (fun s p => (s.endAtMac p code).endAllAtPort p (s.selected p) code) (s.breakWriter g code)

/-- A pipe is fenced (R379, R383, R392): a return that it takes part in and a takeover that it was to end are abandoned, and its
groups are placed. -/
def State.losePipe (s : State) (p cause : Nat) : State :=
  let s := s.fenceFn (Fn.pipeNo p)
  let mine := s.groupsOf p
  let again := (s.faults.takeovers.filter fun t => t.pipe == p).map Takeover.group
  let head := (s.faults.takeovers.head?).any fun t => t.pipe == p
  let s := { s with faults := { s.faults with
    returns := s.faults.returns.filter (fun g => g != p && s.groupPipe g != p),
    takeovers := s.faults.takeovers.filter fun t => t.pipe != p } }
  let s := if head then s.startTakeover else s
  let s := s.failJobs p
  let place := fun (s : State) (g : Nat) =>
    let code := if (s.choosePipe g).isSome then 0xD1 else 0xD0
    (s.isolateGroup g code).placeGroup g p cause
  mine.foldl place (again.foldl (fun s g => s.placeGroup g p cause) s)

/-- A unit of a pipe's link cipher is fenced: each protected frame that passes may have blocks in it (free), and jobs keep what
contexts are left (R348, R349, R379). -/
def State.loseCipherUnit (s : State) (p : Nat) : State :=
  let s := (s.pipePorts p).foldl (fun s q =>
    let (a, s) := s.free 1
    let (b, s) := s.free 1
    let s := if (s.port q).rxSeal.isSome ∧ a = 1 then s.endReception q 0xD0 0xD0 else s
    if ((s.port q).tx.any fun t => t.protect.isSome) ∧ b = 1 then s.stomp q 0xD0 else s) s
  let s := s.moveJobs p
  if s.jobContexts p ≤ 14 * s.unitsWorkingOf p then s
  else s.suspendJobs (s.cipher.jobs.filter fun j => j.pipe == p && !j.suspended)

/-! ### The other units (table Units) -/

/-- A bitmap bank is fenced: its cells leave the pool (R380). -/
def State.loseBitmapBank (s : State) (b : Nat) : State :=
  { s with arm := { s.arm with halves := s.arm.halves.filter fun h => h.2.1 / bankCells != b } }

/-- A DDR5 channel is fenced (R293, pair 10). -/
def State.loseChannel (s : State) (c : Nat) : State :=
  let s := s.put Obj.ddr5ChannelsInUse (clearBits (s.obj? Obj.ddr5ChannelsInUse) (2 ^ c))
  s.loseBins (fun b => binChannel b == c) 0x89

/-- The fabric interface is fenced: the engine stands alone, with its VOQs as held (pair 31, R341). -/
def State.loseFabric (s : State) : State :=
  ((((s.fenceFn Fn.fabricNo).closeReassembly 0xD0).endCrossing 0xD0).clearRequests)

/-- The ports in use on a front lane: their functions are not OFF. -/
def State.lanePorts (s : State) (l : Nat) : List Nat :=
  (groupPorts (l / 8)).filter fun p => s.fn p != 0 && (s.portLanes p).contains l

/-- A fenced unit is isolated: an injection armed on it is dropped (R389), and slices on it end (R409). A slice goes on where the
Kiln itself is fenced. -/
def State.isolate (s : State) (u cause : Nat) : State :=
  let s := s.markFenced u cause
  let s := if s.faults.inject.any fun i => i.1 == u then
      ({ s with faults := { s.faults with inject := none } } : State).put Obj.injectPending 0
    else s
  if u = 0x5B2 then s else s.endSlices fun x => x == u

/-- What a fence of a unit does to the rest, where no other unit is fenced with it. -/
def State.fenceEffect (s : State) (u cause : Nat) : State :=
  match Units.kind u with
  | some (.pipe p) => s.losePipe p cause
  | some (.crossbar q) =>
    let s := (s.frames.filter fun f => f.searchingOn q).foldl (fun s f => s.endIngress f.id 0xD0) s
    s.fenceFn (Fn.reliefNo q)
  | some (.mac p) => s.fencePort p
  | some (.fabricLane l) => s.laneDown l .fenced
  | some (.emBank q b) => (s.emRehome q b).request 2
  | some (.reliefBank q b) =>
    if (s.bankSt q b).state = 4 then (s.putBank q b { s.bankSt q b with state := 2 }).flag Obj.reliefSummary 3
    else (s.reliefFence q b).request 2
  | some (.bitmapBank b) => s.loseBitmapBank b
  | some (.ddr5 c) => s.loseChannel c
  | some (.cipherUnit p _) => s.loseCipherUnit p
  | some (.sequencer n) =>
    let busy := (s.seq n).running.isSome
    let s := (s.passWork n).setSeq n fun q => { q with service := .inService, loadRetried := false }
    let s := if busy then s.countRestart else s
    if s.atelier.reloading && s.obj? Obj.reloadSequencer == n then s.reloadNext else s
  | some .fabric => s.loseFabric
  | some (.tree g) => s.fenceTree g
  | some (.groupCipher g) => s.fenceCipher g
  | _ => s

/-- The trap that starts the Atelier's part of a reaction: a takeover, the fence of a DDR5 channel, or a fencing sweep (R437). -/
def trapCause (u : Nat) : Nat :=
  match Units.kind u with
  | some (.pipe _) => 0
  | some (.ddr5 _) => 4
  | _ => 1

/-- A unit is fenced for a cause, alone; nothing happens to one that is. `byHost` writes HOST_FENCE in place of FENCE (R381,
R390). -/
def State.fenceOne (s : State) (u cause : Nat) (byHost : Bool) : State :=
  if s.fenced u then s
  else
    let s := s.log { kind := if byHost then 3 else 2, unit := u, reaction := 1 }
    ((s.isolate u cause).fenceEffect u cause).faultTrap (trapCause u)

/-- A unit is fenced (table Units): with a front lane the MAC that uses it, with the key store every group's cipher. -/
def State.fenceUnit (s : State) (u cause : Nat) (byHost : Bool) : State :=
  let s := s.fenceOne u cause byHost
  match Units.kind u with
  | some (.frontLane l) => (s.lanePorts l).foldl (fun s p => s.fenceOne (0x040 + p) cause false) s
  | some .keyStore => (List.range 16).foldl (fun s g => s.fenceOne (0x5D0 + g) cause false) s
  | _ => s

/-- A unit of the management paths is the last that is not fenced (table Units). -/
def State.lastPath (s : State) (u : Nat) : Bool := [0x5B3, 0x5B4, 0x5B5].all fun v => v == u || s.fenced v

/-! ### The sweep (R379, R380) -/

/-- A frame has a cell in a bitmap bank. -/
def Frame.inBank (f : Frame) (b : Nat) : Bool := f.cells.any fun c => c / bankCells == b

/-- The frames lost in a fenced unit are accounted: those inside a pipe, and those with cells in a bitmap bank. -/
def State.sweep (s : State) (u : Nat) : State :=
  match Units.kind u with
  | some (.pipe p) => (s.pipeFrames p).foldl (fun s f =>
      s.endFrame f.id (if s.groupPipe (f.port / 8) = 0xFF then 0xD0 else 0xD1)) s
  | some (.bitmapBank b) => (s.frames.filter fun f => f.inBank b).foldl (fun s f => s.loseFrame f.id 0xD0 0xD0) s
  | _ => s

/-- FENCE_SWEEP (R380). -/
def execFenceSweep (unit : BitVec 12) (s : State) : Result :=
  if s.fenced unit.toNat then .next (s.sweep unit.toNat) else .next s

/-! ### Takeovers and returns (R384-R387, R484) -/

/-- Pipe 16 takes the state of the pipe it replaces: its sampling registers (table Takeover). A neighbour keeps its own
(DEDUCED: each half-pipe has one register). -/
def State.copySampling (s : State) (src dst : Nat) : State :=
  let x := s.pipe src
  if dst = 16 then s.setPipe 16 fun y => { y with sampleIn := x.sampleIn, sampleOut := x.sampleOut } else s

/-- TAKEOVER (R384): the group's MACs let frames into the new pipe, and the next takeover starts. -/
def execTakeover (s : State) : Result :=
  match s.faults.takeovers with
  | [] => .next s
  | t :: ts =>
    let s := s.copySampling (s.groupPipe t.group) t.pipe
    let s := ({ s with faults := { s.faults with takeovers := ts } } : State).put (Obj.groupPipe t.group) t.pipe
    let s := (s.setPipe t.pipe fun x => { x with waking := none }).put (Obj.sleepDepth t.pipe) 0
    let s := if t.pipe = 16 ∧ s.fn (Fn.pipeNo 16) ≠ 2 then s.reachRun (Fn.pipeNo 16) else s
    let s := if s.heldFn (Fn.pipeNo t.pipe) then s else s.thawSleep [t.group]
    let s := s.endSlices fun u => u == t.pipe
    let s := (s.bump32 Obj.takeovers).put Obj.lastTakeoverNs (min ((s.clock - t.started) * 5 / 8) (2 ^ 32 - 1))
    let s := s.log { kind := 5, unit := t.pipe, reaction := if t.neighbour then 3 else 2, detail := field 8 t.pipe + t.group }
    .next ((s.startPorts (groupPorts t.group)).startTakeover)

/-- A write of 1 to GROUP_RETURN, where R387 accepts it: a group whose takeover waits is served by no pipe, and a return that runs goes
on (DEDUCED, log entry 84). -/
def State.groupReturn (s : State) (g : Nat) : Option State :=
  let p := s.groupPipe g
  if p = g ∨ 16 < p ∨ s.fn (Fn.pipeNo g) ≠ 1 ∨ s.faults.takeovers.any (fun t => t.group == g) then none
  else if s.faults.returns.contains g then some s
  else some { s with faults := { s.faults with returns := s.faults.returns ++ [g] } }

/-- The serving pipe holds nothing of a group: no frame in its ingress half, none on the transmit side of the group's ports. -/
def State.groupDrained (s : State) (g : Nat) : Bool :=
  !((s.pipeFrames (s.groupPipe g)).any fun f => f.port / 8 == g) && !((groupPorts g).any s.portSending)

/-- GROUP_RETURN_END (R387). -/
def execGroupReturnEnd (group : Group) (s : State) : Result :=
  let g := group.val
  if s.faults.returns.contains g && s.groupDrained g then
    let s := { s with faults := { s.faults with returns := s.faults.returns.filter fun x => x != g } }
    let s := (s.put (Obj.groupPipe g) g).reachRun (Fn.pipeNo g)
    .next ((s.log { kind := 6, unit := g, detail := g }).startPorts (groupPorts g))
  else .next s

/-! ### Release (R388) -/

/-- The slice kinds that test a unit with the entries each has for it (table Slice kinds). -/
def State.unitSlices (s : State) (u : Nat) : List (Nat × Nat) :=
  match Units.kind u with
  | some (.pipe _) => [(1, 48)]
  | some (.crossbar _) => [(2, 240)]
  | some (.frontLane _) => [(3, 1)]
  | some (.fabricLane _) => [(4, 1)]
  | some (.ddr5 _) => [(5, 1), (6, s.gibPerChannel * 64)]
  | some (.management _) => [(7, 1)]
  | some .pcie => [(7, 1)]
  | some .kiln => [(8, 10)]
  | some (.sequencer _) => [(9, 1)]
  | some (.cipherUnit _ _) => [(10, 1)]
  | some (.emBank _ _) => [(11, 1)]
  | some (.reliefBank _ _) => [(12, 1)]
  | some (.bitmapBank _) => [(13, 1)]
  | some (.mac _) => [(14, 1)]
  | _ => []

/-- A release of a unit requested, with its slice or without: none where R388 rejects it. The unit is re-initialised, so
nothing that it held is left to sweep. -/
def State.startRelease (s : State) (u : Nat) (slice : Bool) : Option State :=
  if u = 0x5B0 ∨ u = 0x5B1 ∨ (Units.kind u).isNone ∨ s.faults.release.isSome then none
  else if !s.fenced u then some (s.put Obj.fenceResult 3)
  else
    let s := { s.sweep u with faults := { (s.sweep u).faults with release := some (u, slice && !(s.unitSlices u).isEmpty) } }
    some (s.put Obj.fenceResult 1)

/-- The bytes of a DDR5 region wiped where they lie in a channel; stripes of 4 KiB go round the channels (R285). -/
def State.wipeRegion (s : State) (key c : Nat) : State :=
  { s with dom := s.dom.filter fun e => !(e.1 / 2 ^ 32 == key && s.stripeChannel (e.1 % 2 ^ 32 / 4096) == c) }

/-- A released DDR5 channel has been retrained and wiped (R388). -/
def State.restoreChannel (s : State) (c : Nat) : State :=
  let s := (s.wipeRegion Obj.flowCounters c).wipeRegion (Obj.ringRecords 2) c
  let s := { s with boot := { s.boot with trained := setBit s.boot.trained c } }
  s.put Obj.ddr5ChannelsInUse (setBit (s.obj? Obj.ddr5ChannelsInUse) c)

/-- The image hold loaded into a sequencer's store (R442). -/
def State.loadFromHold (s : State) (n : Nat) : State :=
  let store := imageStore s.atelier.hold
  (s.setSeq n fun q => { q with store := store }).put (Obj.seqImageLevel n) (s.obj? Obj.imageHoldLevel)

/-- A unit returns to service (R388): a unit with a function leaves that FENCED. -/
def State.unfence (s : State) (u : Nat) : State :=
  let until_ := s.clock + 256
  let s := s.setUnit u fun x => { x with fenced := false, cause := 0, shadowUntil := until_ }
  match Units.kind u with
  | some (.reliefBank q b) => s.reliefRelease q b
  | some (.ddr5 c) => s.restoreChannel c
  | some (.fabricLane l) => s.setLane l fun _ => FLane.reset
  | some (.sequencer n) => s.loadFromHold n
  | _ => s

/-- The entries of a released unit's kinds count as passed. -/
def State.countPassed (s : State) (u : Nat) : State :=
  (s.unitSlices u).foldl (fun s e => s.add64 (Obj.slicesPassed e.1) e.2) s

/-- A release ends with a FENCE_RESULT code, recorded. -/
def State.endRelease (s : State) (u result : Nat) : State :=
  let s := ({ s with faults := { s.faults with release := none } } : State).put Obj.fenceResult result
  s.log { kind := 4, unit := u, detail := result }

end Sys2Proof.Machine
end

