-- ==== Sys2Proof/Machine/Fault.lean ====
section
/-! DEFINITION. Faults: their classes, escalation, reaction shadows, the first-error capture, the reactions, what becomes of the
data a fault touched, injection, and timing margins (R371-R377, R389-R391, and the faults of R68, R209, R237, R292, R293,
R404, R440). -/

namespace Sys2Proof.Machine

/-! ### Reaction shadows (R375) -/

namespace Units

/-- The unit is in the Plinth's always-on domain. -/
def slow (u : Nat) : Bool := u == 0x5B1 || (0x5B3 ≤ u && u ≤ 0x5B5)

/-- A pipe's unit. -/
def isPipe : Kind → Option Nat
  | .pipe p => some p
  | _ => none

/-- A unit of the buffer's requesters beside the pipes. -/
def takesCells : Kind → Bool
  | .fabric => true
  | .sequencer _ => true
  | .ddr5 _ => true
  | .cast => true
  | .queueManager => true
  | .armature => true
  | _ => false

/-- A unit of quadrant lookup. -/
def isLookup : Kind → Bool
  | .crossbar _ => true
  | .emBank _ _ => true
  | .reliefBank _ _ => true
  | _ => false

/-- A cipher unit, or the cipher of a group. -/
def isCipher : Kind → Bool
  | .cipherUnit _ _ => true
  | .groupCipher _ => true
  | _ => false

end Units

/-- The pipes of a quadrant, and pipe 16 (table Block dependencies). -/
def quadrantPipe (q p : Nat) : Bool := p == 16 || p / 4 == q

/-- A path carries data from unit `a` to unit `b` (column Gives to of the table Block dependencies, read unit by unit:
DEDUCED). -/
def State.gives (s : State) (a b : Units.Kind) : Bool :=
  match a with
  | .frontLane l => match b with
    | .mac p => (s.lanePorts l).contains p
    | .cipherUnit p _ => s.groupPipe (l / 8) == p
    | .pipe p => s.groupPipe (l / 8) == p
    | _ => false
  | .mac q => match b with
    | .cipherUnit p _ => s.portPipe q == p
    | .pipe p => s.portPipe q == p
    | _ => false
  | .cipherUnit p _ => match b with
    | .pipe x => x == p
    | .mac q => s.portPipe q == p
    | _ => false
  | .groupCipher g => match b with
    | .pipe x => s.groupPipe g == x
    | .mac q => q / 8 == g
    | _ => false
  | .pipe p => match b with
    | .mac q => s.portPipe q == p
    | .armature => true
    | .queueManager => true
    | _ => false
  | .crossbar q => (Units.isPipe b).any (quadrantPipe q)
  | .emBank q _ => (Units.isPipe b).any (quadrantPipe q)
  | .reliefBank q _ => (Units.isPipe b).any (quadrantPipe q)
  | .maquette => (Units.isPipe b).isSome
  | .cast => b == .queueManager
  | .armature => (Units.isPipe b).isSome || (Units.takesCells b && b != .armature)
  | .bitmapBank _ => (Units.isPipe b).isSome || Units.takesCells b
  | .queueManager => (Units.isPipe b).isSome || b == .fabric
  | .tree g => (Units.isPipe b).any fun p => s.groupPipe g == p
  | .fabric => match b with
    | .armature => true
    | .fabricLane _ => true
    | _ => false
  | .fabricLane _ => b == .fabric
  | .ddr5 _ => Units.isLookup b || b == .armature
  | .sequencer _ => Units.isLookup b || match b with
    | .maquette => true
    | .keyStore => true
    | .ddr5 _ => true
    | .kiln => true
    | _ => false
  | .keyStore => Units.isCipher b
  | _ => false

/-- A unit is in its reaction shadow. -/
def State.shadowed (s : State) (u : Nat) : Bool := (s.unitSt u).fenced || decide (s.clock < (s.unitSt u).shadowUntil)

/-- A fault seen by unit `u` in an access of unit `m` is consequential (R375). -/
def State.consequential (s : State) (u m : Nat) : Bool :=
  s.shadowed u || s.shadowed m || (!Units.slow u && (!s.ready || decide (s.clock < s.faults.readyShadow))) ||
    s.faults.units.any fun e => s.shadowed e.1 &&
      match Units.kind e.1, Units.kind u with
      | some a, some b => s.gives a b
      | _, _ => false

/-! ### Reactions (R378) -/

/-- A running loss of a PLL's lock: the fast domains are held in reset until it returns (R68). BOOT_STATE reads WAIT_CLOCKS meanwhile;
the spec names no value (DESIGN CHOICE, log entry 107). -/
def State.holdForPll (s : State) (u : Nat) : State :=
  let s := (s.loseClock (if u = 0x5BB then .corePll else .ddr5Pll)).holdDomains
  ({ s with boot := { s.boot with pllHold := true } } : State).put Obj.bootState 1

/-- The fatal reaction of a unit, for a cause of FENCE_CAUSE (table Units). -/
def State.react (s : State) (u cause : Nat) : State :=
  match Units.kind u with
  | some .plinth => s.beginReset .cold 6
  | some .armature => s.warmCause 6
  | some .queueManager => s.warmCause 6
  | some .maquette => s.warmCause 6
  | some .cast => s.warmCause 6
  | some .corePll => s.holdForPll u
  | some .ddr5Pll => s.holdForPll u
  | some (.management _) => if s.lastPath u then s else s.fenceUnit u cause false
  | some .pcie => if s.lastPath u then s else s.fenceUnit u cause false
  | _ => s.fenceUnit u cause false

/-- REACTION of a FATAL fault's record (field map Patina record). -/
def State.reactionCode (s : State) (u : Nat) : Nat :=
  match Units.kind u with
  | some .plinth => 5
  | some .armature => 4
  | some .queueManager => 4
  | some .maquette => 4
  | some .cast => 4
  | some .corePll => 4
  | some .ddr5Pll => 4
  | some (.management _) => if s.lastPath u then 0 else 1
  | some .pcie => if s.lastPath u then 0 else 1
  | some (.pipe p) => match s.groupsOf p with
    | [] => 1
    | g :: _ => match (s.markFenced p 1).choosePipe g with
      | some t => if t = 16 then 2 else 3
      | none => 6
  | _ => 1

/-! ### Judging a fault (R373, R375-R377, R390, R392) -/

/-- A fault as it is judged. -/
structure Report where
  unit : Nat
  checker : Nat
  /-- class before escalation: 0 CORRECTED, 1 CONTAINED, 2 FATAL -/
  cls : Nat
  access : Nat
  master : Nat
  address : Nat
  injected : Bool := false
  /-- NO_REACTION of the injection -/
  quiet : Bool := false
  /-- FENCE_CAUSE of a fence that follows -/
  cause : Nat := 1
  deriving DecidableEq, Repr

/-- A fault in a unit abandons its release (R392). -/
def State.abandonRelease (s : State) (u : Nat) : State :=
  if s.faults.release.any fun r => r.1 == u then (s.endRelease u 5).faultTrap 5 else s

/-- The first-error capture takes a fault (R377, field map First-error capture). -/
def State.capture (s : State) (r : Report) (cls : Nat) : State :=
  let v := field 80 (r.address % 2 ^ 48) + field 68 (r.master % 4096) + field 64 (r.access % 16) + s.time
  ((s.put Obj.firstError v).put Obj.firstErrorUnit r.unit).put Obj.firstErrorClass cls

/-- The capture is empty. -/
def State.captureEmpty (s : State) : Bool := s.obj? Obj.firstErrorUnit == 0xFFFF

/-- FIRST_ERROR_CLEAR (R377). -/
def State.clearFirst (s : State) : State :=
  ((s.put Obj.firstError 0).put Obj.firstErrorUnit 0xFFFF).put Obj.firstErrorClass 3

/-- A fault escalates: a CORRECTED one that meets PENDING_C, a CONTAINED one that meets PENDING_U (R373). -/
def UnitSt.escalates (x : UnitSt) (cls : Nat) : Bool := (cls == 0 && x.pendingC) || (cls == 1 && x.pendingU)

/-- The unit's state after a fault of a final class (R373, field map Unit fault state). -/
def UnitSt.note (x : UnitSt) (cls : Nat) (consequential : Bool) : UnitSt :=
  { x with faults := min (x.faults + 1) 65535, pendingC := x.pendingC || (!consequential && cls == 0),
           pendingU := x.pendingU || (!consequential && cls == 1) }

/-- The final class of a fault: escalated by one where the unit's pending bits say so (R373). -/
def State.finalClass (s : State) (r : Report) : Nat :=
  if !s.consequential r.unit r.master && (s.unitSt r.unit).escalates r.cls then r.cls + 1 else r.cls

/-- A fault is recorded in the Patina (R390): not where PATINA_CORRECTED leaves it out. -/
def State.recordsFault (s : State) (r : Report) : Bool :=
  s.finalClass r != 0 || r.injected || s.obj? Obj.patinaCorrected == 1

/-- The counts and flags of a fault of a final class (R394, table Fault objects). -/
def State.countFault (s : State) (cls : Nat) (escalated consequential : Bool) : State :=
  let s := (s.bump64 (Obj.faultsCorrected + cls)).flag Obj.faultSummary cls
  let s := if escalated then (s.bump64 Obj.escalations).flag Obj.faultSummary 3 else s
  if consequential then s.bump64 Obj.consequentialFaults else s

/-- A fault is judged, captured, recorded and answered (R373, R375-R377, R390). -/
def State.judge (s : State) (r : Report) : State :=
  let s := s.abandonRelease r.unit
  let cons := s.consequential r.unit r.master
  let cls := s.finalClass r
  let escalated := cls != r.cls
  let first := !cons && s.captureEmpty
  let reacts := cls == 2 && !cons && !r.quiet
  let records := s.recordsFault r
  let reaction := if reacts then s.reactionCode r.unit else 0
  let s := (s.setUnit r.unit fun x => x.note cls cons).countFault cls escalated cons
  let s := if first then s.capture r cls else s
  let s := if records then s.log { kind := 1, cls := cls, escalated := escalated, consequential := cons, injected := r.injected, first := first, unit := r.unit, master := r.master, access := r.access, checker := r.checker, address := r.address, reaction := reaction } else s
  if reacts then s.react r.unit r.cause else s

/-! ### Classes and data (R371, R372, R379) -/

/-- The class of a syndrome (R372). A Bloom filter word's parity is CORRECTED (R182). -/
def faultClass (u checker : Nat) (x : Syndrome) : Nat :=
  if (Units.kind u).any (fun k => match k with
      | .crossbar _ => checker == 2
      | _ => false) then 0
  else match x with
    | .singleBit => 0
    | .parityRecovered => 0
    | .crcRecovered => 0
    | .doubleBit => 1
    | .parity => 1
    | .crc => 1
    | .txPllLock => 1
    | .badPointer _ => 1
    | .corePllLock => 2
    | .stateCheck => 2

/-- A syndrome of data that could not be corrected. -/
def uncorrected : Syndrome → Bool
  | .doubleBit => true
  | .parity => true
  | .crc => true
  | _ => false

/-- The cells of a frame can no longer be reached (R379). -/
def State.leakCells (s : State) (frame : Nat) : State :=
  match s.frame? frame with
  | none => s
  | some f => (s.put Obj.cellsLeaked (satAdd 32 (s.obj? Obj.cellsLeaked) f.cells.length)).setFrame frame fun f => { f with cells := [] }

/-- The frames of a fault: the one it names, else those with the cell at its address. -/
def State.touched (s : State) (e : FaultEvent) : List Nat :=
  match e.frame with
  | some f => [f]
  | none => (s.frames.filter fun f => f.cells.contains (bits e.address.toNat 27 8)).map Frame.id

/-- A control-store word rewritten from the image hold, and its routine restarted (R440). -/
def State.repairStore (s : State) (n address : Nat) : State :=
  let word := (imageStore s.atelier.hold).getD address 0
  let s := s.setSeq n fun q => { q with store := modifyAt q.store address fun _ => word }
  ((s.bump32 Obj.controlWordsRepaired).flag Obj.atelierSummary 5).restartRoutine n

/-- Uncorrected data in a unit: the handling that the owning chapter gives (R379, R182, R183, R209, R440). -/
def State.loseData (s : State) (e : FaultEvent) : State :=
  let c := e.checker.toNat
  let a := e.address.toNat
  let endOne := fun (s : State) (code head : Nat) => match e.frame with
    | some f => s.loseFrame f code head
    | none => s
  match Units.kind e.unit.toNat with
  | some (.pipe _) => endOne s 0xD9 0xD4
  | some (.bitmapBank _) => if c = 1 then (s.touched e).foldl (fun s f => s.loseFrame f 0xD5 0xD4) s else s
  | some .armature => match e.frame with
    | some f => (s.leakCells f).loseFrame f 0xD6 0xD6
    | none => s
  | some .queueManager => if c = 0 then endOne s 0xD6 0xD6 else s
  | some (.reliefBank q b) => if c = 1 then
      ({ s with relief := { s.relief with suspended := if s.relief.suspended.contains (32 * q + b) then s.relief.suspended else s.relief.suspended ++ [32 * q + b] } } : State).request 2
    else s
  | some (.emBank q b) => (s.markCorrupt q (b * 32768 + a / 4 * 4)).request 2
  | some (.crossbar q) =>
    if c = 1 then (s.markCorrupt q (overflowBase + a)).request 2
    else if c = 2 then (s.markCorrupt q (2113536 + a)).request 2
    else s
  | some (.sequencer n) => if c = 0 then s.repairStore n a else if c = 1 then s.restartRoutine n else s
  | some .keyStore => if c = 0 then s.eraseKey a else s
  | _ => endOne s 0xD4 0xD4

/-- What becomes of the data or the lock that a fault touched, whatever class the fault takes (R371). -/
def State.handleData (s : State) (e : FaultEvent) : State :=
  match e.syndrome with
  | .txPllLock => match Units.kind e.unit.toNat with
    | some (.frontLane l) => (s.lanePorts l).foldl (fun s p => s.loseLink p .lock) s
    | some (.fabricLane l) => match (s.lane l).state with
      | .up => s.laneDown l .training
      | .hello => s.laneDown l .training
      | _ => s
    | _ => s
  | .badPointer cell =>
    let s := { s with arm := { s.arm with frees := s.arm.frees.filter fun c => c != cell.val } }
    ((s.bump32 Obj.pointerFaults).bump32 Obj.cellsLeaked).flag Obj.queueSummary 2
  | x => if uncorrected x then s.loseData e else s

/-! ### The commands -/

/-- The report of a fault event. -/
def faultReport (e : FaultEvent) (quiet : Bool) : Report :=
  { unit := e.unit.toNat, checker := e.checker.toNat, cls := faultClass e.unit.toNat e.checker.toNat e.syndrome,
    access := e.access.toNat, master := e.master.toNat, address := e.address.toNat, injected := e.injected, quiet := quiet }

/-- A fault handled and judged. -/
def State.fault (s : State) (e : FaultEvent) (quiet : Bool) : State := (s.handleData e).judge (faultReport e quiet)

/-- The checker reports the event: a returned pointer only where it is a bad one (R277). -/
def State.faultSeen (s : State) (e : FaultEvent) : Bool :=
  match e.syndrome with
  | .badPointer _ => s.badPointer e.address.toNat
  | _ => true

/-- An access of the armed checker is inverted: INJECT_PENDING counts down (R389). -/
def State.takeInjection (s : State) : State :=
  let n := s.obj? Obj.injectPending - 1
  let s := s.put Obj.injectPending n
  if n = 0 then { s with faults := { s.faults with inject := none } } else s

/-- What an access with its check bits inverted under a mask shows (R389): nothing where no check bit is inverted. One inverted SECDED
bit gives a single-bit error and two a double-bit one; what three or more give, and whether the owning chapter recovers a parity or CRC
error, the event says (DESIGN CHOICE, log entry 118). -/
def injectedSyndrome (check : Units.Check) (mask : Nat) (seen : Syndrome) : Option Syndrome :=
  match check with
  | .parity => if !bit mask 0 then none else if seen = .parityRecovered then some seen else some .parity
  | .secded => match popCount 8 mask with
    | 0 => none
    | 1 => some .singleBit
    | 2 => some .doubleBit
    | _ => if seen = .singleBit then some seen else some .doubleBit
  | .crc => if mask = 0 then none else if seen = .crcRecovered then some seen else some .crc
  | _ => some seen

/-- FAULT (R371-R377, R389): a checker of the table Units detects a fault. One said to be injected happens only where its checker
is armed, and shows what the inverted check bits give. -/
def execFault (event : FaultEvent) (s : State) : Result :=
  let u := event.unit.toNat
  let c := event.checker.toNat
  if !s.boot.powered || !Units.hasChecker u c || !s.faultSeen event then .next s
  else if !event.injected then .next (s.fault event false)
  else match s.faults.inject with
    | some (iu, ic, mask, quiet) =>
      if iu = u ∧ ic = c ∧ s.obj? Obj.injectPending ≠ 0 then
        match (Units.check u c).bind fun k => injectedSyndrome k mask event.syndrome with
        | some x => .next (s.takeInjection.fault { event with syndrome := x } quiet)
        | none => .next s.takeInjection
      else .next s
    | none => .next s

/-- A write of FAULT_ACK (R374): false where the unit is not one of the table Units. -/
def State.faultAck (s : State) (v : Nat) : Option State :=
  if v = 0xFFFF then
    some { s with faults := { s.faults with units := (s.faults.units.map fun e => (e.1, { e.2 with pendingC := false, pendingU := false })).filter fun e => e.2 != UnitSt.clean } }
  else if (Units.kind v).isNone then none
  else some (s.setUnit v fun x => { x with pendingC := false, pendingU := false })

/-- CORRECTED_AUTO_ACK (R374). -/
def execCorrectedAutoAck (unit : BitVec 12) (s : State) : Result :=
  if s.obj? Obj.correctedAutoAckMs = 0 then .next s
  else .next (s.setUnit unit.toNat fun x => { x with pendingC := false })

/-- A host fence of a unit (R381): none where R381 rejects it. A unit without a function that is fenced already is left as it
is (R392). -/
def State.hostFence (s : State) (u : Nat) : Option State :=
  match Units.kind u with
  | none => none
  | some k =>
    let last := match k with
      | .management _ => s.lastPath u
      | .pcie => s.lastPath u
      | _ => false
    if !Units.hostMayFence k || last then none
    else match Units.function k with
      | some n => if s.fn n = 3 then none else some (s.fenceUnit u 2 true)
      | none => some (s.fenceUnit u 2 true)

/-- A write of FENCE_REQUEST (R381, R388). -/
def State.fenceRequest (s : State) (v : Nat) : Option State :=
  let op := bits v 31 24
  let u := bits v 11 0
  if bits v 23 12 ≠ 0 then none
  else if op = 1 then s.hostFence u
  else if op = 2 then s.startRelease u true
  else if op = 3 then s.startRelease u false
  else none

/-- A slice of a unit fails in its release (R388, R404): a FATAL fault in the unit's own shadow. What LAST_FAILURE then holds of the
slice's kind, outcome and signatures comes from outside the model's state (free). -/
def State.failRelease (s : State) (u : Nat) : State :=
  let kinds := s.unitSlices u
  let (i, s) := s.free 1
  let kind := (kinds.getD (if kinds.length = 2 then i else 0) (0, 0)).1
  let (outcome, s) := s.free 1
  let (part, s) := s.free 16
  let (observed, s) := s.free 32
  let (golden, s) := s.free 32
  let s := (s.endRelease u 4).bump32 (Obj.slicesFailed kind)
  let s := s.judge { unit := u, checker := 15, cls := 2, access := 11, master := 0x5B2, address := 0, cause := 3 }
  let s := s.setUnit u fun x => { x with cause := 3 }
  s.put Obj.lastFailure (field 128 s.time + field 112 (4096 * kind + u) + field 104 (2 + outcome) + field 64 part +
    field 32 (if outcome = 1 ∨ kind = 8 then 0 else observed) + if kind = 8 then 0 else golden)

/-- RELEASE_END (R388). A release without a slice does not fail. -/
def execReleaseEnd (slicePassed : Bool) (s : State) : Result :=
  match s.faults.release with
  | none => .next s
  | some (u, slice) =>
    if slice && !slicePassed then .next (s.failRelease u)
    else
      let s := if slice then s.countPassed u else s
      .next ((s.unfence u).endRelease u 2)

/-- A write of INJECT (R389). -/
def State.writeInject (s : State) (v : Nat) : Option State :=
  let u := bits v 31 20
  let c := bits v 19 16
  let n := bits v 6 0
  if !Units.hasChecker u c || Units.noInjection u c || s.obj? Obj.injectPending != 0 || n == 0 then none
  else some (({ s with faults := { s.faults with inject := some (u, c, bits v 15 8, bit v 7) } } : State).put Obj.injectPending n)

/-- TIMING_MARGIN (R391): the least margin of a quadrant in the last millisecond. -/
def execTimingMargin (quadrant : Quadrant) (picoseconds : BitVec 32) (s : State) : Result :=
  let q := quadrant.val
  let s := s.put (Obj.timingMarginPs q) picoseconds.toNat
  let alarm : Int := s.obj? Obj.marginAlarmPs
  let margin := picoseconds.toInt
  let was := s.faults.below.getD q false
  let setBelow := fun (s : State) (b : Bool) =>
    { s with faults := { s.faults with below := modifyAt s.faults.below q fun _ => b } }
  if margin < alarm then
    if was then .next s
    else .next ((setBelow s true).log { kind := 12, unit := 0x020 + q, detail := q })
  else if alarm < margin then .next (setBelow s false)
  else .next s

/-! ### Faults that other chapters report -/

/-- PLL_LOSS_OF_LOCK (R68): a fatal fault while the device runs; before READY it is what R481 gives. CLOCK_STATUS and CLOCK_SUMMARY
show the loss either way (R87), a consequential one included. -/
def execPllLossOfLock (pll : Pll) (s : State) : Result :=
  let (u, source) : Nat × ClockSource := match pll with
    | .core => (0x5BB, .corePll)
    | .ddr5 => (0x5BC, .ddr5Pll)
  if s.ready then
    .next ((s.loseClock source).judge { unit := u, checker := 0, cls := 2, access := 13, master := u, address := 0 })
  else execClockLossBeforeReady source s

/-- SHADOW_MISMATCH (R209): an array entry differs from its shadow, and is rewritten from it. -/
def execShadowMismatch (quadrant : Quadrant) (bank : Fin 32) (position : Fin 1024) (s : State) : Result :=
  let q := quadrant.val
  let u := 0x380 + 32 * q + bank.val
  if !s.ready || s.relief.suspended.contains (32 * q + bank.val) then .next s
  else
    let s := ((s.bump64 (Obj.shadowMismatches q)).count (0x148 + 8 * q + 7)).flag Obj.reliefSummary 0
    .next ((s.judge { unit := u, checker := 2, cls := 0, access := 3, master := u, address := position.val }).request 2)

/-- A frame is stamped with a slot. -/
def State.stampedWith (s : State) (slot frame : Nat) : Bool := (s.frame? frame).any fun f => f.stamp == some slot

/-- The copy stands in a queue that has a descriptor. -/
def Copy.isQueued (c : Copy) : Bool :=
  match c.loc with
  | .voq _ => true
  | .staged _ => true
  | .bin _ _ => true
  | .repl _ => true
  | .egress _ => true
  | _ => false

/-- The copies with bytes in the waiting cells of the cell former, the open ones among them. -/
def State.formingCopies (s : State) : List Nat :=
  ((s.fabric.waiting.flatMap fun c => c.copies) ++ s.fabric.streams.flatMap fun e => e.2.copies ++ e.2.openFrame.toList).eraseDups

/-- Copies leave the cell former: a frame of open length is closed as bad, and the cells that carry nothing else are discarded. -/
def State.unformCopies (s : State) (ids : List Nat) : State :=
  let s := ids.foldl (fun s i => s.closeBad i) s
  let mine := fun (cs : List Nat) => !cs.isEmpty && cs.all ids.contains
  { s with fabric := { s.fabric with
    waiting := s.fabric.waiting.filter fun c => !mine c.copies,
    streams := s.fabric.streams.filter fun e => !(mine e.2.copies && e.2.openFrame.isNone) } }

/-- What an audit of a slot finds is dropped with code 0x61 (R237): frames in reassembly, in recirculation queues, copies in queues, and
those in the waiting cells of the cell former. -/
def State.auditSlot (s : State) (slot : Nat) : State :=
  let s := (s.fabric.rx.filter fun e => e.2.frame.any (s.stampedWith slot)).foldl (fun s e => s.breakStream e.1 0x61) s
  let s := (s.frames.filter fun f => f.stamp == some slot && match f.loc with
    | .recirc _ => true
    | _ => false).foldl (fun s f => s.loseFrame f.id 0x61 0x61) s
  let s := s.endCopies (s.copies.filter fun c => c.isQueued && s.stampedWith slot c.frame) 0x61
  let forming := s.copies.filter fun c => s.formingCopies.contains c.id && s.stampedWith slot c.frame
  (s.unformCopies (forming.map Copy.id)).endCopies forming 0x61

/-- SLOT_AUDIT (R237): what an overdue slot's frames hold it by is dropped, and a count still wrong is set right. -/
def execSlotAudit (slot : Slot) (s : State) : Result :=
  let i := slot.val
  let x := s.slot i
  let due := match x.state with
    | .draining => decide ((s.obj? Obj.staleAgeMs + 2) * 1000000 < (s.clock - x.entered) * 5 / 8)
    | _ => false
  if !due || x.inFlight == 0 then .next s
  else
    let s := s.auditSlot i
    if (s.slot i).inFlight = 0 then .next s
    else
      let s := { s with frames := s.frames.map fun (f : Frame) => if f.stamp = some i then { f with stamp := none } else f }
      let s := (s.setSlot i fun y => { y with inFlight := 0 }).bump32 Obj.auditsCorrected
      let u := 0x5A0 + (s.coverOf 1).getD 1
      .next (s.judge { unit := u, checker := 3, cls := 0, access := 3, master := u, address := i })

/-- The channel's fault that a DDR5 access at a byte address within the channel reports. -/
def State.ddr5Fault (s : State) (c cls access address : Nat) : State :=
  s.judge { unit := 0x420 + c, checker := 0, cls := cls, access := access, master := 0x5B7, address := address }

/-- The check byte of a beat: the CRC-8 of its four data bytes and bits [13:6] of the burst's byte address (R292). -/
def beatCheck (address data : Nat) : Nat := crc8 (toBe 4 data ++ toBe 1 (bits address 13 6))

/-- A burst's beats, each four data bytes and a check byte, all carry the check byte of their data (R292). -/
def burstMatches (address : Nat) (beats : List (BitVec 40)) : Bool :=
  beats.all fun b => bits b.toNat 7 0 == beatCheck address (bits b.toNat 39 8)

/-- DDR5_REREAD (R292, R293): a burst whose check bytes do not match is read again. -/
def execDdr5Reread (channel : Channel) (place : Ddr5Place) (burst : Ddr5Burst) (s : State) : Result :=
  let c := channel.val
  let a := burst.address.toNat
  if !s.ready || !s.channelInUse c || burstMatches a burst.first then .next s
  else if burstMatches a burst.second then .next ((s.bump64 Obj.ddr5Rereads).ddr5Fault c 0 5 a)
  else
    let s := match place with
      | .tableImage q p =>
        let n := q.val * 2 ^ 22 + emPlaceKey p
        if s.em.imageLost.contains n then s else { s with em := { s.em with imageLost := s.em.imageLost ++ [n] } }
      | .ruleTable => s
      | .changeLogs => s
      | .flowCounters pair => s.flowLose pair.val
      | .kilnSpare => s
      | .captureRing r =>
        s.putBytes (Obj.ringRecords 2) (s.obj? (Obj.ringRecordBytes 2) * r) (List.replicate (s.obj? (Obj.ringRecordBytes 2)) 0)
      | .spillBin b => s.retireBin b
    let s := s.ddr5Fault c 1 5 a
    .next (if s.channelRetired c > s.obj? Obj.channelRetireLimit && !s.fenced (0x420 + c) then s.fenceUnit (0x420 + c) 5 false else s)

/-- DDR5_ALERT (table of the pin groups in 19): a CONTAINED fault with ACCESS 6; the commands since the last known good are
repeated, which changes nothing. The byte address that the fault reports is free: an alert names no burst (DESIGN CHOICE, log entry
115). -/
def execDdr5Alert (channel : Channel) (s : State) : Result :=
  let (a, t) := s.free 40
  if s.boot.powered then .next (t.ddr5Fault channel.val 1 6 a) else .next s

end Sys2Proof.Machine
end

