-- ==== Sys2Proof/Machine/Requests.lean ====
section
/-! DEFINITION. Requests to functions: which transitions a request may begin, and what refuses it (R94-R96, R107, R213, R311,
R484, UB-MODE-2). -/

namespace Sys2Proof.Machine

/-- SOP abort codes (table SOP abort codes). -/
def Abort.readOnly : Nat := 0x12
/-- A read of a WO object. -/
def Abort.writeOnly : Nat := 0x13
/-- A write of an RWH object whose function does not read HOLD. -/
def Abort.notHeld : Nat := 0x14
/-- A value outside its range, or a request that its rule rejects. -/
def Abort.valueRange : Nat := 0x16

/-- Lanes that port `p` shares with another port of its group that is not OFF (UB-MODE-2). -/
def State.sharesLanes (s : State) (p : Nat) : Bool :=
  (groupPorts (p / 8)).any fun q => q != p && s.fn q != 0 && (s.portLanes q).any fun l => (s.portLanes p).contains l

/-- The written tree entry of a local node. -/
def State.writtenEntry (s : State) (g n : Nat) : Nat := beNat (s.bytes (Obj.schedTree g) (4 * n) 4)

/-- The parent of a local node by the written tree. -/
def State.writtenParent (s : State) (g n : Nat) : Nat :=
  if n < 136 then bits (s.writtenEntry g n) 31 23
  else if n < 648 then groupNode (bits (s.writtenEntry g n) 31 23)
  else setNode ((n - 648) / 8)

/-- The local nodes of a group's tree with an entry that differs from the default tree. -/
def State.writtenNodes (s : State) (g : Nat) : List Nat :=
  (s.dom.filterMap fun e => if e.1 / 2 ^ 32 = Obj.schedTree g then some (e.1 % 2 ^ 32 / 4) else none).eraseDups

/-- A list names nothing twice. -/
def distinct {α : Type} [BEq α] : List α → Bool
  | [] => true
  | x :: xs => !xs.contains x && distinct xs

/-- The written tree of a group passes R311: a RUN request for it is allowed. -/
def State.treeGood (s : State) (g : Nat) : Bool :=
  let ns := s.writtenNodes g
  let links := ns.all fun n =>
    let l := bits (s.writtenEntry g n) 31 23
    if n < 8 then true else if n < 136 then decide (l ≤ 7) else if n < 648 then decide (l ≤ 127) else true
  let strict := ns.filter fun n => 8 ≤ n && bits (s.writtenEntry g n) 21 19 < 4 &&
    bits (s.writtenEntry g (s.writtenParent g n)) 22 22 == 0
  links && distinct (strict.map fun n => (s.writtenParent g n, bits (s.writtenEntry g n) 21 19))

/-- What else a function needs for HOLD or RUN (R96, R107, R213, R311). -/
def State.mayStart (s : State) (n : Nat) (run : Bool) : Bool :=
  if n < 0x100 then s.portShapeGood n
  else if n < 0x180 then !run || s.treeGood (n - 0x100)
  else if 0x300 ≤ n ∧ n < 0x400 then
    let q := n - 0x300
    s.runs (Fn.reliefNo (Nat.xor q 1)) || !(s.relief.armed.getD (q / 2) false)
  else true

/-- What else a function needs for OFF from HOLD (R96, R484). -/
def State.mayStop (s : State) (n : Nat) : Bool :=
  match pipeOfFn n with
  | some p => ((s.pipePorts p).all fun q => s.fn q == 0 || s.fn q == 3) && (p != 16 || (s.groupsOf 16).isEmpty)
  | none => true

/-- A request to a function, by its code 1 HOLD, 2 RUN, 3 OFF, 4 FENCE (R93, R94): the abort code that rejects it, or what comes
of it. -/
def State.requestFn (s : State) (n op : Nat) : Except Nat Result :=
  let st := s.fn n
  if op = 4 then
    match s.hostFence (Units.ofFunction n) with
    | some t => .ok (.next t)
    | none => .error Abort.valueRange
  else if st = 0 ∧ op = 1 ∧ s.mayStart n false then .ok (.next (s.beginStart n))
  else if st = 1 ∧ op = 2 ∧ s.mayStart n true then
    .ok (if n < 0x100 ∧ s.sharesLanes n then undefinedCase "UB-MODE-2" else .next (s.passFn n 5 .run))
  else if st = 2 ∧ op = 1 ∧ s.mayStart n false then .ok (.next (s.beginDrain n))
  else if st = 1 ∧ op = 3 ∧ s.mayStop n then .ok (.next (s.reachOff n))
  else if st = 3 ∧ op = 3 ∧ s.liftable n ∧ s.mayStop n then .ok (.next (s.reachOff n))
  else .error Abort.valueRange

end Sys2Proof.Machine
end

