-- ==== Sys2Proof/Machine/Atelier.lean ====
section
/-! DEFINITION. The Atelier's sequencers at work: dispatch, microwords, traps, and the loading of their stores (R430-R442). What a
bus operation does to the block it addresses is the effect of the commands that name that block's work; the microword shows
only the sequencer's side of it. -/

namespace Sys2Proof.Machine

/-! ### The microword (R434) -/

/-- The word at and above WORD_COUNT: END (R439). -/
def endWord : Nat := field 138 8

/-- The word at a micro-address of a sequencer. -/
def Seq.word (q : Seq) (pc : Nat) : Nat := ((q.store[pc]?).map BitVec.toNat).getD endWord

/-- A micro-register: MREG0 reads 0 (R429). -/
def Seq.reg (q : Seq) (n : Nat) : Nat := if n = 0 then 0 else (q.regs.getD n 0).toNat

/-- A micro-register written: MREG0 ignores writes (R429). -/
def Seq.setReg (q : Seq) (n v : Nat) : Seq :=
  if n = 0 then q else { q with regs := modifyAt q.regs n fun _ => BitVec.ofNat 64 v }

/-- What an ALU operation gives: the result if there is one, and C and V where the operation defines them. -/
structure AluOut where
  result : Option Nat
  write : Bool
  carry : Option Bool
  overflow : Option Bool
  deriving DecidableEq, Repr

/-- A result with no carry or overflow of its own. -/
def AluOut.plain (v : Nat) : AluOut := { result := some (v % 2 ^ 64), write := true, carry := none, overflow := none }

/-- Signed overflow of an exact result. -/
def signedOver (x : Int) : Bool := decide (x < -(2 ^ 63 : Nat)) || decide ((2 ^ 63 : Nat) ≤ x)

/-- A sum, with its carry and overflow. -/
def aluAdd (a b : Nat) : AluOut :=
  { result := some ((a + b) % 2 ^ 64), write := true, carry := some (decide (2 ^ 64 ≤ a + b)),
    overflow := some (signedOver (toInt 64 a + toInt 64 b)) }

/-- A difference. Whether C is a carry or a borrow the spec does not say. -/
def aluSub (a b : Nat) (write : Bool) : AluOut :=
  { result := some ((a + 2 ^ 64 - b) % 2 ^ 64), write := write, carry := none,
    overflow := some (signedOver (toInt 64 a - toInt 64 b)) }

/-- A check of eight bytes, most significant first, from a running register (R42, R120). -/
def crcStep (poly a b : Nat) : Nat := (toBe 8 b).foldl (crcReflectedByte poly) (a % 2 ^ 32)

/-- The ALU operations (R436). -/
def alu (op a b : Nat) : AluOut :=
  let n := bits b 5 0
  if op = 1 then .plain a
  else if op = 2 then aluAdd a b
  else if op = 3 then aluSub a b true
  else if op = 4 then .plain (Nat.land a b)
  else if op = 5 then .plain (Nat.lor a b)
  else if op = 6 then .plain (Nat.xor a b)
  else if op = 7 then .plain (a * 2 ^ n)
  else if op = 8 then .plain (a / 2 ^ n)
  else if op = 9 then .plain (a * 2 ^ n % 2 ^ 64 + a / 2 ^ (64 - n))
  else if op = 10 then aluSub a b false
  else if op = 11 then .plain (popCount 64 a)
  else if op = 12 then .plain ((bitList 64 a).headD 64)
  else if op = 13 then .plain (a / 2 ^ n % 2 ^ bits b 13 8)
  else if op = 14 then .plain (crcStep 0x82F63B78 a b)
  else if op = 15 then .plain (crcStep 0xEDB88320 a b)
  else if op = 16 then .plain (a * b)
  else { result := none, write := false, carry := none, overflow := none }

/-- A flag's value where the operation defines it, else one the spec leaves open. -/
def State.flagValue (s : State) (x : Option Bool) : Bool × State :=
  match x with
  | some b => (b, s)
  | none => let (v, s) := s.free 1; (v == 1, s)

/-- The flags set from an ALU result. With no operation there is none, and they stay (DEDUCED). -/
def State.setFlags (s : State) (n : Nat) (o : AluOut) : State :=
  match o.result with
  | none => s
  | some r =>
    let (c, s) := s.flagValue o.carry
    let (v, s) := s.flagValue o.overflow
    s.setSeq n fun q => { q with z := r == 0, n := bit r 63, c := c, v := v }

/-- The data of a bus read of 2^width bytes, from DATA_REG on, wrapping after MREG15 (R434). What a block returns is not stated
(free). -/
def State.busData (s : State) (n reg width : Nat) : State :=
  if width < 3 then
    let (v, s) := s.free (8 * 2 ^ width)
    s.setSeq n fun q => q.setReg reg v
  else (List.range (2 ^ (width - 3))).foldl (fun s i =>
    let (v, s) := s.free 64
    s.setSeq n fun q => q.setReg ((reg + i) % 16) v) s

/-- A bus operation: whether it ends in error is the addressed block's to say (free), and a read writes its data. -/
def State.busOp (s : State) (n w : Nat) : State :=
  let op := bits w 99 96
  if op = 0 ∨ 5 ≤ op then s
  else
    let (e, s) := s.free 1
    let s := s.setSeq n fun q => { q with busError := e == 1 }
    if op = 1 then s.busData n (bits w 86 83) (min (bits w 82 80) 6) else s

/-- The operations of a word, in the order in which its end writes them (R435); its clocks are counted (R424, R436). -/
def State.runOps (s : State) (n w : Nat) : State :=
  let q := s.seq n
  let s := s.countN (0x1C0 + n) (bits w 143 142 + 1)
  let a := q.reg (bits w 109 106)
  let b := if bit w 101 then bits w 63 0 else q.reg (bits w 105 102)
  let o := alu (bits w 118 114) a b
  let s := match o.result, o.write with
    | some r, true => s.setSeq n fun q => q.setReg (bits w 113 110) r
    | _, _ => s
  let s := s.busOp n w
  let s := if bit w 100 then s.setFlags n o else s
  s.setSeq n fun q => { q with noTrap := bit w 79 }

/-- A condition (table Conditions). A block's status word is not stated (free). -/
def State.condition (s : State) (n cond : Nat) : Bool × State :=
  let q := s.seq n
  if cond = 0 then (true, s)
  else if cond = 1 then (q.z, s)
  else if cond = 2 then (q.c, s)
  else if cond = 3 then (q.n, s)
  else if cond = 4 then (q.v, s)
  else if cond = 5 then (q.busError, s)
  else if cond = 6 then (!q.queue.isEmpty, s)
  else if cond = 7 then (q.traps.any fun t => decide (t.level < q.level), s)
  else if cond < 16 then (false, s)
  else let (v, s) := s.free 1; (v == 1, s)

/-! ### Running a word (R435, R437) -/

/-- The pending trap that is taken next: the highest level above the running one, the oldest of it (R437). -/
def Seq.nextTrap (q : Seq) : Option Trap :=
  if q.noTrap then none
  else match q.traps.find? fun t => t.level == 2 && decide (q.level < 2) with
    | some t => some t
    | none => q.traps.find? fun t => decide (q.level < t.level)

/-- A sequencer works: it is in service, or on its way to the checkpoint at which it is released. -/
def State.seqWorks (s : State) (n : Nat) : Bool :=
  !s.fenced (0x5A0 + n) && match (s.seq n).service with
    | .inService => true
    | .releasing => true
    | _ => false

/-- A released sequencer that stands at its checkpoint waits there. -/
def Seq.parked (q : Seq) : Bool := q.service == .releasing && q.atCheckpoint

/-- A sequencer's next word has a sequence code, and nothing comes before it: it runs a routine or a trap, and no trap waits to be
taken. -/
def State.atWord (s : State) (n code : Nat) : Bool :=
  let q := s.seq n
  let c := bits (q.word q.pc.toNat) 141 138
  s.ready && s.seqWorks n && (q.running.isSome || decide (1 ≤ q.level)) && q.nextTrap.isNone && !q.parked &&
    (c == code || (code == 8 && decide (10 ≤ c)))

/-- The word of a sequencer. -/
def State.seqWord (s : State) (n : Nat) : Nat := (s.seq n).word (s.seq n).pc.toNat

/-- A sequencer goes on at an address. One at or above WORD_COUNT is a FATAL fault of the trap state check (R435). -/
def State.goto (s : State) (n address : Nat) : State :=
  let a := address % 16384
  let s := s.setSeq n fun q => { q with pc := BitVec.ofNat 14 a, waiting := false }
  if a < (s.seq n).store.length then s
  else s.judge { unit := 0x5A0 + n, checker := 2, cls := 2, access := 12, master := 0x5A0 + n, address := 0 }

/-- The address after a sequencer's word. -/
def State.pcNext (s : State) (n : Nat) : Nat := (s.seq n).pc.toNat + 1

/-- CONTINUE (R435). -/
def execContinueWord (sequencer : Sequencer) (s : State) : Result :=
  let n := sequencer.val
  if !s.atWord n 0 then .next s
  else .next ((s.runOps n (s.seqWord n)).goto n (s.pcNext n))

/-- JUMP (R435). -/
def execJumpWord (sequencer : Sequencer) (s : State) : Result :=
  let n := sequencer.val
  let w := s.seqWord n
  if !s.atWord n 1 then .next s else .next ((s.runOps n w).goto n (bits w 132 119))

/-- A branch taken where COND, as it stands after the word's writes, is as asked (R435). -/
def State.branchWord (s : State) (n : Nat) (onTrue : Bool) : State :=
  let w := s.seqWord n
  let (c, t) := (s.runOps n w).condition n (bits w 137 133)
  t.goto n (if c == onTrue then bits w 132 119 else s.pcNext n)

/-- BRANCH_SET (R435). -/
def execBranchSet (sequencer : Sequencer) (s : State) : Result :=
  if !s.atWord sequencer.val 2 then .next s else .next (s.branchWord sequencer.val true)

/-- BRANCH_CLEAR (R435). -/
def execBranchClear (sequencer : Sequencer) (s : State) : Result :=
  if !s.atWord sequencer.val 3 then .next s else .next (s.branchWord sequencer.val false)

/-- CALL (R435): MREG15 takes micro-PC + 1. -/
def execCallWord (sequencer : Sequencer) (s : State) : Result :=
  let n := sequencer.val
  let w := s.seqWord n
  if !s.atWord n 4 then .next s
  else .next (((s.runOps n w).setSeq n fun q => q.setReg 15 (s.pcNext n % 16384)).goto n (bits w 132 119))

/-- RETURN (R435): MREG15 as it stands after the word's writes. -/
def execReturnWord (sequencer : Sequencer) (s : State) : Result :=
  let n := sequencer.val
  if !s.atWord n 5 then .next s
  else
    let t := s.runOps n (s.seqWord n)
    .next (t.goto n (bits ((t.seq n).reg 15) 13 0))

/-- WAIT (R435): the word's operations run once, and the word repeats until COND is true. -/
def execWaitWord (sequencer : Sequencer) (s : State) : Result :=
  let n := sequencer.val
  let w := s.seqWord n
  if !s.atWord n 6 then .next s
  else
    let t := if (s.seq n).waiting then s.countN (0x1C0 + n) (bits w 143 142 + 1) else s.runOps n w
    let (c, t) := t.condition n (bits w 137 133)
    if c then .next (t.goto n (s.pcNext n)) else .next (t.setSeq n fun q => { q with waiting := true })

/-! ### Dispatch (R430, R431) -/

/-- The queues a sequencer serves: its own, then those of the sequencers out of service that it covers, in the order in which
covering reaches it. -/
def State.servedQueues (s : State) (n : Nat) : List Nat :=
  n :: ((List.range 8).map fun i => (n + 1 + i) % 8).filter fun h => h != n && !s.inService h && s.coverOf h == some n

/-- A list turned so that an element comes first. -/
def turnTo (l : List Nat) (x : Nat) : List Nat := l.dropWhile (fun y => y != x) ++ l.takeWhile fun y => y != x

/-- The queue that comes after another in a sequencer's turn. -/
def State.turnAfter (s : State) (n k : Nat) : Option Nat :=
  match (turnTo (s.servedQueues n) k).drop 1 with
  | h :: _ => if h = n then none else some h
  | [] => none

/-- The first queue with a request, from the one whose turn it is. -/
def State.dispatchQueue (s : State) (n : Nat) : Option Nat :=
  (turnTo (s.servedQueues n) ((s.seq n).turn.getD n)).find? fun h => !(s.seq h).queue.isEmpty

/-- ROUTINE_DISPATCH (R430): an idle sequencer takes its next request and enters the routine of its kind. -/
def execRoutineDispatch (sequencer : Sequencer) (s : State) : Result :=
  let n := sequencer.val
  let q := s.seq n
  if !s.ready || !s.inService n || q.running.isSome || q.level != 0 || q.nextTrap.isSome then .next s
  else match s.dispatchQueue n with
    | none => .next s
    | some k =>
      let record := ((s.seq k).queue.headD none)
      let s := s.setSeq k fun x => { x with queue := x.queue.drop 1 }
      .next (s.setSeq n fun x => x.enter k record)

/-- CHECKPOINT (R433, R431): the record is written, and a cover with other work puts its routine back and changes queue. A trap
keeps no record. -/
def execCheckpoint (sequencer : Sequencer) (s : State) : Result :=
  let n := sequencer.val
  if !s.atWord n 7 then .next s
  else
    let t := (s.runOps n (s.seqWord n)).goto n (s.pcNext n)
    match (t.seq n).running with
    | none => .next t
    | some k =>
      if (t.seq n).level ≠ 0 then .next t
      else
        let t := t.setSeq n fun q => { q with checkpoint := some (q.saved q.pc) }
        let other := (t.servedQueues n).any fun h => h != k && !(t.seq h).queue.isEmpty
        if t.inService n && other then .next ((t.putBack n).setSeq n fun q => { q with turn := t.turnAfter n k }) else .next t

/-- END (R435): the routine ends. Its sequencer is idle until the next request is dispatched. -/
def execEndRoutine (sequencer : Sequencer) (s : State) : Result :=
  let n := sequencer.val
  if !s.atWord n 8 then .next s
  else
    let t := s.runOps n (s.seqWord n)
    let k := (t.seq n).running.getD n
    let t := t.bump64 (Obj.seqRoutines n)
    .next (t.setSeq n fun q => { q with
      running := none, checkpoint := none, level := 0, frames := [none, none], waiting := false, noTrap := false,
      turn := t.turnAfter n k })

/-! ### Traps (R437) -/

/-- MICRO_TRAP (R437): the running state is saved into the frame of the trap's level, and its entry is taken. -/
def execMicroTrap (sequencer : Sequencer) (s : State) : Result :=
  let n := sequencer.val
  let q := s.seq n
  match (if s.ready && s.seqWorks n then q.nextTrap else none) with
  | none => .next s
  | some t => .next ((s.count (0x1C8 + n)).setSeq n fun q => { q with
      frames := modifyAt q.frames (t.level - 1) fun _ => some (q.saved q.pc), traps := q.traps.erase t, level := t.level,
      pc := BitVec.ofNat 14 (64 + 8 * (t.level - 1) + t.cause), waiting := false })

/-- TRAP_RETURN (R437): the interrupted state is restored. Outside a trap no state is saved, and where the sequencer goes is not
stated (free). -/
def execTrapReturn (sequencer : Sequencer) (s : State) : Result :=
  let n := sequencer.val
  if !s.atWord n 9 then .next s
  else
    let t := s.runOps n (s.seqWord n)
    let level := (t.seq n).level
    match (if level = 0 then none else (t.seq n).frames.getD (level - 1) none) with
    | some f => .next (t.setSeq n fun q => { q.resumed f with frames := modifyAt q.frames (level - 1) fun _ => none })
    | none => let (a, t) := t.free 14; .next (t.goto n a)

/-! ### Loading (R442) -/

/-- The image in RELOAD_IMAGE, as long as its header says. -/
def State.reloadImage (s : State) : List Byte :=
  s.bytes Obj.reloadImage 0 (min 393216 (imageLength (s.bytes Obj.reloadImage 0 16)))

/-- A write of RELOAD_START, where R443 allows it: 1 from RELOAD_IMAGE, 2 from the image hold. -/
def State.reloadStart (s : State) (v : Nat) : Option State :=
  if !s.mayReload then none
  else if v = 1 then some ((s.startReload s.reloadImage false).request 7)
  else if v = 2 then some ((s.startReload s.atelier.hold true).request 7)
  else none

/-- SEQUENCER_LOADED (R442 steps 4 and 5): the store is loaded and read back. A mismatch is a CONTAINED fault and loads once
more; a second one fences the sequencer. -/
def execSequencerLoaded (matched : Bool) (s : State) : Result :=
  match (List.range 8).find? fun n => (s.seq n).service == .loading with
  | none => .next s
  | some n =>
    if matched then
      let image := s.atelier.staging
      let s := s.setSeq n fun q => { q with store := imageStore image, service := .inService, loadRetried := false }
      let s := ({ s with atelier := { s.atelier with loaded := s.atelier.loaded ++ [n] } } : State).put (Obj.seqImageLevel n)
        (imageLevel image)
      .next s.reloadNext
    else
      let again := (s.seq n).loadRetried
      let s := s.setSeq n fun q => { q with loadRetried := true }
      let s := s.judge { unit := 0x5A0 + n, checker := 0, cls := 1, access := 0, master := 0x5A0 + n, address := 0 }
      .next (if again && !s.fenced (0x5A0 + n) then s.fenceUnit (0x5A0 + n) 1 false else s)

end Sys2Proof.Machine
end

