-- ==== Sys2Proof/Machine/Kiln.lean ====
section
/-! DEFINITION. The Kiln: the sweep, which slices run or are skipped, signatures and golden values, outcomes, requests and the
power-on pass (R396-R409). -/

namespace Sys2Proof.Machine

/-! ### Slices and the sweep (R396, R398) -/

/-- Entries of each kind in a sweep, kinds 1 to 14 (table Slice kinds). -/
def sweepCounts : List (Nat × Nat) :=
  [(1, 816), (2, 960), (3, 128), (4, 160), (5, 16), (6, 3015), (7, 3), (8, 10), (9, 8), (10, 340), (11, 256), (12, 128),
   (13, 32), (14, 128)]

/-- The units of a kind: the first unit ID and how many there are (table Slice kinds). -/
def kindUnits (kind : Nat) : Nat × Nat :=
  match kind with
  | 1 => (0x000, 17)
  | 2 => (0x020, 4)
  | 3 => (0x100, 128)
  | 4 => (0x180, 160)
  | 5 => (0x420, 16)
  | 6 => (0x420, 16)
  | 7 => (0x5B3, 3)
  | 8 => (0x5B2, 1)
  | 9 => (0x5A0, 8)
  | 10 => (0x440, 340)
  | 11 => (0x280, 256)
  | 12 => (0x380, 128)
  | 13 => (0x400, 32)
  | 14 => (0x040, 128)
  | _ => (0, 0)

/-- The kind of an entry of the sweep and its place among its kind's, from round `r` on: each round takes one entry of every kind
that has one left (R398). -/
def sweepFrom : Nat → Nat → Nat → Nat × Nat
  | 0, _, _ => (0, 0)
  | fuel + 1, p, r =>
    let ks := sweepCounts.filter fun e => r < e.2
    match ks[p]? with
    | some e => (e.1, r)
    | none => sweepFrom fuel (p - ks.length) (r + 1)

/-- The kind of entry `p` of the sweep, and its place among the entries of that kind. -/
def sweepEntry (p : Nat) : Nat × Nat := sweepFrom 3015 p 0

/-- A slice that could run. -/
structure Slice where
  kind : Nat
  unit : Nat
  part : Nat
  deriving DecidableEq, Repr

/-- Its slice number (R396). -/
def Slice.number (x : Slice) : Nat := 4096 * x.kind + x.unit

/-- The next region of a channel, which wraps at the channel's top: 64 regions of 16 MiB to a GiB (R398). -/
def State.regionNext (s : State) (c : Nat) : Nat := s.obj? (Obj.regionNext c)

/-- The entry at a place of a kind: ascending unit, then ascending part. The five ports of a crossbar share its bundle numbers
(DEDUCED). DDR5 regions go round the channels in use. -/
def State.entryOf (s : State) (kind i : Nat) : Option Slice :=
  if kind = 1 then some { kind := 1, unit := i / 48, part := i % 48 }
  else if kind = 2 then some { kind := 2, unit := 0x020 + i / 240, part := i % 240 / 5 }
  else if kind = 6 then
    match s.channels with
    | [] => none
    | c :: cs =>
      let d := (c :: cs).getD (i % (cs.length + 1)) c
      some { kind := 6, unit := 0x420 + d, part := s.regionNext d }
  else if kind = 8 then some { kind := 8, unit := 0x5B2, part := 0 }
  else some { kind := kind, unit := (kindUnits kind).1 + i, part := 0 }

/-- SLICE is in force. -/
def State.sliceMode (s : State) : Bool := s.ready && s.obj? Obj.sliceEnable == 1

/-! ### Golden values (R402, R403) -/

/-- One response word into the MISR. -/
def misrStep (m : Nat) (w : BitVec 32) : Nat :=
  Nat.xor (Nat.xor (2 * m % 2 ^ 32) (if bit m 31 then 0x00400007 else 0)) w.toNat

/-- The MISR over the response words. -/
def misr (words : List (BitVec 32)) : Nat := words.foldl misrStep 0xFFFFFFFF

/-- The golden records of the image hold. -/
def State.goldenRecords (s : State) : List Nat :=
  let b := s.atelier.hold
  (List.range (imageGolden b / 8)).map fun i => beAt b (16 + 18 * imageWords b + 8 * i) 8

/-- The VARIANT that a slice's record must carry: the rate row of the fabric lanes for kind 4 (R320), DDR5 density and width for kinds 5
and 6. The rate row that a front lane without a port is tested at is not stated, so kind 3 takes the first record (DESIGN CHOICE, log
entry 117); the other kinds have 0 alone (DEDUCED). -/
def State.sliceVariant (s : State) (kind : Nat) : Option Nat :=
  if kind = 4 then some (if s.inForce Obj.fabricLaneRate = 1 then 11 else 14)
  else if kind = 5 ∨ kind = 6 then some (bits (beNat (padTo 16 s.boot.config)) 63 61)
  else none

/-- The golden value of a slice: the record of its own unit, else the one for every unit of its kind. -/
def State.golden (s : State) (x : Slice) : Option Nat :=
  let fits := fun (unit r : Nat) => bits r 63 60 == x.kind && bits r 59 48 == unit &&
    (match s.sliceVariant x.kind with
     | some v => bits r 47 32 == v
     | none => true)
  let rs := s.goldenRecords
  ((rs.find? (fits x.unit)).orElse fun _ => rs.find? (fits 0xFFF)).map fun r => bits r 31 0

/-! ### Skipped entries (R400) -/

/-- Lanes in UP. -/
def State.lanesUp (s : State) : Nat := (s.fabric.lanes.filter fun x => x.state == .up).length

/-- A Relief bank can be tested: not cascaded, and its rules find guests; a SPARE bank in SPARE form, and a bank that hosts no
guests of others (R211; the last DEDUCED). -/
def State.bankTestPlan (s : State) (q b : Nat) : Option (Nat × List Rule × List Place) :=
  let r := s.bankInForce q b
  let entries := s.shadowEntries q b
  if bankCascade r ≠ 0 ∨ (s.bankSt q b).state ≠ 0 ∨
      s.relief.arrays.any (fun e => e.1 == q && e.2.bank == b && e.2.homeBank + e.2.member != b) then none
  else if bankForm r = 2 ∨ entries.isEmpty then some (1, [], [])
  else
    let hosts := fun (l : List (Nat × List Place)) => l.filter fun e => e.1 != b
    (firstHolding entries.length (hosts (s.ternarySpace q (bankSegment r)))).map fun ps => (1, entries, ps)

/-- A sequencer is fenced or is being reloaded. -/
def State.seqBarsSlice (s : State) (n : Nat) : Bool := s.fenced (0x5A0 + n) || s.atelier.reloading

/-- An entry of the sweep is skipped (R400). A channel that is not in use has nothing to test, and a sequencer under test already is not
released again (DEDUCED, log entry 89). -/
def State.skips (s : State) (x : Slice) : Bool :=
  let u := x.unit
  s.fenced u || (s.unitFunctions u).any s.heldFn || (x.kind != 8 && (s.golden x).isNone) ||
    match x.kind with
    | 1 => s.fn (Fn.pipeNo u) == 0 || s.depth u == 3
    | 3 => !(s.lanePorts (u - 0x100)).isEmpty
    | 4 => decide (s.lanesUp < 138)
    | 5 => !s.channelInUse (u - 0x420)
    | 6 => !s.channelInUse (u - 0x420)
    | 9 => (List.range 8).any s.seqBarsSlice || (s.seq (u - 0x5A0)).service != .inService
    | 10 => decide (s.unitsWorkingOf ((u - 0x440) / 20) < 19)
    | 11 =>
      let q := Nat.xor ((u - 0x280) / 64) 1
      let b := 0x280 + 64 * q + (u - 0x280) % 64
      s.fenced b || s.sliceOn b || s.fenced (0x020 + q) || s.sliceOn (0x020 + q)
    | 12 => (s.bankTestPlan ((u - 0x380) / 32) ((u - 0x380) % 32)).isNone
    | 14 => s.fn (u - 0x040) != 0
    | _ => false

/-! ### Start and end of a slice (R397) -/

/-- A Relief bank is given over to its test: its rules in guests, the bank UNDER_TEST (R211). -/
def State.testBank (s : State) (q b : Nat) : State :=
  match s.bankTestPlan q b with
  | none => s
  | some (form, entries, places) => (s.clearGroup q b).placeGuests q b 4 form entries places

/-- What taking its unit out of service does, by the method of its kind. -/
def State.takeUnit (s : State) (x : Slice) : State :=
  let u := x.unit
  match x.kind with
  | 1 => if s.depth u = 2 then s.wakeTo u 1 else s
  | 4 => match (s.lane (u - 0x180)).state with
    | .up => s.laneDown (u - 0x180) .training
    | .hello => s.laneDown (u - 0x180) .training
    | _ => s
  | 9 => s.releaseSeq (u - 0x5A0)
  | 10 =>
    let p := (u - 0x440) / 20
    let s := if 2 ≤ s.depth p then s.wakeTo p 1 else s
    let s := s.moveJobs p
    if s.jobContexts p ≤ 14 * s.unitsWorkingOf p then s
    else s.suspendJobs (s.cipher.jobs.filter fun j => j.pipe == p && !j.suspended)
  | 12 => s.testBank ((u - 0x380) / 32) ((u - 0x380) % 32)
  | _ => s

/-- A slice starts. -/
def State.startSlice (s : State) (x : Slice) (requested : Bool) : State :=
  let run : SliceRun := { slice := x.number, part := x.part, requested := requested }
  let s := ({ s with kiln := { s.kiln with running := s.kiln.running ++ [run] } } : State).takeUnit x
  if requested then s.put Obj.sliceRequestResult 2 else s

/-- An entry of a kind is skipped, and counted. -/
def State.countSkip (s : State) (kind : Nat) (requested : Bool) : State :=
  let s := s.bump64 (Obj.slicesSkipped kind)
  if requested then s.put Obj.sliceRequestResult 5 else s

/-- An entry due is started or skipped. -/
def State.runEntry (s : State) (kind : Nat) (x : Option Slice) (requested : Bool) : State :=
  match x with
  | some x => if s.skips x then s.countSkip kind requested else s.startSlice x requested
  | none => s.countSkip kind requested

/-- SWEEP_POSITION moves on. -/
def State.advanceSweep (s : State) : State :=
  let p := s.obj? Obj.sweepPosition + 1
  if p = 6000 then (s.put Obj.sweepPosition 0).bump32 Obj.sweepsCompleted else s.put Obj.sweepPosition p

/-- The slice that a request names (R408). Which bundle of a link it tests is not stated (free); a region is the channel's
next. -/
def State.requestedSlice (s : State) (v : Nat) : Slice × State :=
  let kind := v / 4096
  let u := v % 4096
  if kind = 1 ∨ kind = 2 then
    let (a, s) := s.free 64
    ({ kind := kind, unit := u, part := a % 48 }, s)
  else ({ kind := kind, unit := u, part := if kind = 6 then s.regionNext (u - 0x420) else 0 }, s)

/-- No slice can start in a tick: SLICE is off, the Kiln is fenced, two run already, or the slices of a release take the ticks
(R399, R401, R408, R409). -/
def State.tickHeld (s : State) : Bool :=
  !s.sliceMode || s.fenced 0x5B2 || decide (2 ≤ s.kiln.running.length) || s.faults.release.any fun r => r.2

/-- KILN_TICK (R398, R408): the slice requested, or the next entry of the sweep. -/
def execKilnTick (s : State) : Result :=
  if s.tickHeld then .next s
  else
    let s := s.request 6
    match s.kiln.queued with
    | some v =>
      let (x, s) := ({ s with kiln := { s.kiln with queued := none } } : State).requestedSlice v
      .next (s.runEntry x.kind (some x) true)
    | none =>
      let e := sweepEntry (s.obj? Obj.sweepPosition)
      .next (s.advanceSweep.runEntry e.1 (s.entryOf e.1 e.2) false)

/-- The Kiln's hold of a unit ends without regard to the outcome. -/
def State.dropSlice (s : State) (r : SliceRun) : State :=
  { s with kiln := { s.kiln with running := s.kiln.running.filter fun x => x != r } }

/-- A slice passes: its unit returns to service as its method gives (R404). -/
def State.passSlice (s : State) (r : SliceRun) : State :=
  let kind := r.slice / 4096
  let s := ((s.dropSlice r).restoreSlice r.slice).bump64 (Obj.slicesPassed kind)
  let s := if kind = 6 then
      let c := r.slice % 4096 - 0x420
      s.put (Obj.regionNext c) (let n := r.part + 1; if n < 64 * s.gibPerChannel then n else 0)
    else s
  let s := if kind = 8 then { s with kiln := { s.kiln with retry := false } } else s
  if r.requested then s.put Obj.sliceRequestResult 3 else s

/-- LAST_FAILURE (field map Last failure). -/
def State.recordFailure (s : State) (slice part outcome observed golden : Nat) : State :=
  s.put Obj.lastFailure (field 128 s.time + field 112 slice + field 104 outcome + field 64 part + field 32 observed + golden)

/-- KILN_FAILED: the safe state of R69, with the slice in the Patina (R405, R407). -/
def State.kilnFailed (s : State) (slice : Nat) : State :=
  (s.log { kind := 10, unit := 0x5B2, detail := slice }).holdDomains.bootTo .idle 8

/-- A failed SIGNATURE slice (R405): the first makes the Atelier reload, the second is the end. Where no reload can start, the slice
runs again at once. -/
def State.failSignature (s : State) : State :=
  if s.kiln.retry then ({ s with kiln := { s.kiln with retry := false } } : State).kilnFailed signatureSlice
  else
    let s := { s with kiln := { s.kiln with retry := true } }
    if s.atelier.reloading then s
    else if s.mayReload then (s.startReload s.atelier.hold true).request 7
    else s.rerunSignature

/-- A slice fails, with its outcome and what was observed (R404). A unit that is not fenced for it returns to service. -/
def State.failSlice (s : State) (r : SliceRun) (outcome observed golden : Nat) : State :=
  let kind := r.slice / 4096
  let u := r.slice % 4096
  let s := (s.dropSlice r).bump32 (Obj.slicesFailed kind)
  let s := s.recordFailure r.slice r.part outcome observed golden
  let s := if r.requested then s.put Obj.sliceRequestResult 4 else s
  if kind = 8 then s.failSignature
  else
    let s := s.judge { unit := u, checker := 15, cls := 2, access := 11, master := 0x5B2, address := 0, cause := 3 }
    if s.fenced u then s else s.restoreSlice r.slice

/-- The slice of a run. -/
def SliceRun.what (r : SliceRun) : Slice := { kind := r.slice / 4096, unit := r.slice % 4096, part := r.part }

/-- SLICE_END (R402, R404, R405). -/
def execSliceEnd (which : Fin 2) (result : SliceResult) (s : State) : Result :=
  match s.kiln.running[which.val]? with
  | none => .next s
  | some r =>
    match result with
    | .signature good =>
      if r.slice / 4096 ≠ 8 then .next s
      else if good then .next (s.passSlice r)
      else .next (s.failSlice r 2 0 0)
    | .responses words =>
      if r.slice / 4096 = 8 then .next s
      else
        let g := (s.golden r.what).getD 0
        if misr words = g then .next (s.passSlice r) else .next (s.failSlice r 2 (misr words) g)

/-- SLICE_TIMEOUT (R399). -/
def execSliceTimeout (which : Fin 2) (s : State) : Result :=
  match s.kiln.running[which.val]? with
  | none => .next s
  | some r => .next (s.failSlice r 3 0 (if r.slice / 4096 = 8 then 0 else (s.golden r.what).getD 0))

/-- A write of SLICE_REQUEST, where R408 accepts it. -/
def State.sliceRequest (s : State) (v : Nat) : Option State :=
  let k := kindUnits (v / 4096)
  let u := v % 4096
  if u < k.1 ∨ k.1 + k.2 ≤ u ∨ s.kiln.queued.isSome ∨ s.kiln.running.any (fun r => r.requested) then none
  else some (({ s with kiln := { s.kiln with queued := some v } } : State).put Obj.sliceRequestResult 1)

/-- POWER_ON_KILN_PASS_END (R407, R78). The pass counts in none of the slice counters (DESIGN CHOICE). -/
def execPowerOnKilnPassEnd (failure : Option SliceFailure) (s : State) : Result :=
  match s.boot.step with
  | .kiln => match failure with
    | none => .next s.becomeReady
    | some f =>
      let slice := f.slice.toNat
      let hash := slice / 4096 == 8
      let s := s.recordFailure slice f.part.toNat (if f.timeout then 3 else 2) (if f.timeout || hash then 0 else f.observed.toNat)
        (if hash then 0 else f.golden.toNat)
      .next (s.kilnFailed slice)
  | _ => .next s

end Sys2Proof.Machine
end

