-- ==== Sys2Proof/Machine/Timing.lean ====
section
/-! DEFINITION. Timing pins, the SMBus target, the PCIe reset pin, the test access port, and the flow counter and Caliper commands
that no register write of their own carries (R455, R466-R472, R419, R425). -/

namespace Sys2Proof.Machine

/-! ### PPS and time of day (R470-R472) -/

/-- The timebase as an integer of nanoseconds. -/
def State.timebaseNow (s : State) : Int := (s.clock * 5 / 8 : Nat) + s.timebase

/-- The second k whose PPS_OUT instant the timebase stands at or past (R471). -/
def State.ppsSecond (s : State) : Int := (s.timebaseNow - toInt 32 (s.obj? Obj.ppsOutOffsetNs)) / 1000000000

/-- PPS_OUT judged against the instants passed from now on. -/
def State.ppsBase (s : State) : State := { s with timing := { s.timing with base := s.ppsSecond } }

/-- PPS_OUT rises where an instant has been reached that was not before, for a k not yet pulsed (R471). While the pins are held low
(R69) there is no edge at the ball for a message to follow (R472). -/
def State.ppsJudge (s : State) : State :=
  let k := s.ppsSecond
  let due := s.obj? Obj.ppsOutEnable == 1 && decide (s.timing.base < k) && s.timing.lastPulse.all fun l => decide (l < k)
  let s := s.ppsBase
  if due then
    { s with timing := { s.timing with ppsOut := true, lastPulse := some k, lastEdge := s.timebaseNow, todDue := s.pinColumn == .running } }
  else s

/-- PPS_IN_EDGE (R470): an edge less than 100 µs after the last accepted one is ignored. -/
def execPpsInEdge (s : State) : Result :=
  if !s.boot.powered || s.timing.lastIn.any (fun c => decide ((s.clock - c) * 5 < 100000 * 8)) then .next s
  else
    let stamp := ofInt 64 (s.timebaseNow - toInt 32 (s.obj? Obj.ppsInDelayNs))
    let s := { s with timing := { s.timing with lastIn := some s.clock } }
    .next ((s.put Obj.ppsInTime stamp).wrap32 Obj.ppsInCount)

/-- PPS_OUT_EDGE (R471). -/
def execPpsOutEdge (s : State) : Result := if s.boot.powered then .next s.ppsJudge else .next s

/-- PPS_OUT_WIDTH_EXPIRY (R471). -/
def execPpsOutWidthExpiry (s : State) : Result := .next { s with timing := { s.timing with ppsOut := false } }

/-- A time-of-day message (field map Time-of-day message). -/
def todMessage (flags edge : Nat) : List Byte :=
  let b := toBe 15 (field 104 0x5A56 + field 96 1 + field 88 flags + field 24 edge)
  b ++ [BitVec.ofNat 8 (crc8 b)]

/-- TOD_TX_START (R472): the UART's output is held low with its pin group (R69). -/
def execTodTxStart (s : State) : Result :=
  if !s.boot.powered || !s.timing.todDue then .next s
  else
    let m := todMessage (s.obj? Obj.todTxFlags) (ofInt 64 s.timing.lastEdge)
    let t := { s.timing with todDue := false, sent := if s.obj? Obj.todTxEnable = 1 ∧ s.pinColumn = .running then m else s.timing.sent }
    .next { s with timing := t }

/-- TOD_MESSAGE_RECEIVED (R472). -/
def execTodMessageReceived (message : List Byte) (s : State) : Result :=
  if !s.boot.powered then .next s
  else if message.length == 16 && beAt message 0 2 == 0x5A56 && beAt message 15 1 == crc8 (message.take 15) then
    .next ((s.put Obj.todRxLast (beNat message)).wrap32 Obj.todRxCount)
  else .next (s.bump32 Obj.todRxErrors)

/-- TIMEBASE_STEP (R471): a forward step that passes an instant raises PPS_OUT in its clock; a backward one raises nothing. -/
def execTimebaseStep (nanoseconds : Int) (s : State) : Result :=
  if !s.boot.powered then .next s
  else
    let s := { s with timebase := s.timebase + nanoseconds }
    .next (if 0 < nanoseconds then s.ppsJudge else s.ppsBase)

/-! ### SMBus (R466-R468) -/

/-- The life-cycle state lets the board read the objects of 0x1200-0x12FF (R80). -/
def State.boardReads (s : State) : Bool := s.boot.fuses != 0 && s.boot.fuses != 4

/-- The 7-bit address of the SMBus target: the straps as VDD_AON found them (R466). -/
def State.smbusAddress (s : State) : Nat := 0x4C + s.pins.straps.toNat

/-- The packet error code of a read of a command code: the CRC-8 of all bytes since the start, as SMBus has it (PRESUMED, log entry 99);
a block of 4 bytes comes behind its count. -/
def State.smbusReadPec (s : State) (code : Nat) (b : List Byte) : Nat :=
  let a := 2 * s.smbusAddress
  crc8 (toBe 1 a ++ toBe 1 code ++ toBe 1 (a + 1) ++ (if b.length = 4 then toBe 1 4 else []) ++ b)

/-- The packet error code of a Block Write of a command code. -/
def State.smbusWritePec (s : State) (code : Nat) (b : List Byte) : Nat :=
  crc8 (toBe 1 (2 * s.smbusAddress) ++ toBe 1 code ++ toBe 1 b.length ++ b)

/-- An SMBus read of `n` bytes under a command code: least significant byte first; a NACK where the life-cycle state forbids it
(DEDUCED). -/
def State.smbusRead (s : State) (allowed : Bool) (code n v : Nat) : State :=
  if !s.boot.powered then s
  else { s with answer := if allowed then .smbus (toLe n v) (s.smbusReadPec code (toLe n v)) else .nack }

/-- SMBUS_READ_BOOT_STATE (R467). -/
def execSmbusReadBootState (s : State) : Result := .next (s.smbusRead s.boardReads 0x01 1 (s.obj? Obj.bootState))

/-- SMBUS_READ_LIFE_STATE (R467). -/
def execSmbusReadLifeState (s : State) : Result := .next (s.smbusRead true 0x02 1 s.boot.fuses)

/-- SMBUS_READ_DIE_TEMP (R467). -/
def execSmbusReadDieTemp (s : State) : Result := .next (s.smbusRead s.boardReads 0x10 4 (s.obj? Obj.dieTemp))

/-- SMBUS_READ_TEMP_ALARM (R467). -/
def execSmbusReadTempAlarm (s : State) : Result := .next (s.smbusRead s.boardReads 0x11 4 (s.obj? Obj.tempAlarm))

/-- SMBUS_WRITE_TEMP_ALARM (R466, R467): a PEC that is sent and wrong leaves the write without effect; a write that the dictionary rejects is
answered with a NACK of its last byte. -/
def execSmbusWriteTempAlarm (value : List Byte) (pec : Option Byte) (s : State) : Result :=
  if !s.boot.powered || pec.any (fun c => c.toNat != s.smbusWritePec 0x11 value) then .next s
  else if value.length != 4 || !s.boardReads then .next { s with answer := .nack }
  else .next ({ s.put Obj.tempAlarm (leNat value) with answer := .none })

/-- RAIL_STATUS: the rails of group 1 are in range while the device answers (R64, R65). -/
def State.railStatus (s : State) : Nat := 3 + 4 * bits (s.obj? Obj.railStatus) 6 2

/-- SMBUS_READ_RAIL_STATUS (R467). -/
def execSmbusReadRailStatus (s : State) : Result := .next (s.smbusRead s.boardReads 0x12 4 s.railStatus)

/-- SMBUS_READ_RAIL_VOLTAGE (R467): the voltage measured at the die. -/
def execSmbusReadRailVoltage (rail : Fin 7) (millivolts : BitVec 16) (s : State) : Result :=
  .next (s.smbusRead true (0x20 + rail.val) 2 millivolts.toNat)

/-! ### PERST_N and the TAP (R455, R469) -/

/-- PERST_N_LOW (R455): the PCIe endpoint cannot be reached. -/
def execPerstNLow (s : State) : Result := .next { s with pins := { s.pins with perstN := false } }

/-- PERST_N_RISE (R455). -/
def execPerstNRise (s : State) : Result := .next { s with pins := { s.pins with perstN := true } }

/-- TRST_N_LOW (R469): the TAP is held in Test-Logic-Reset, and the pins follow the table Pin states. -/
def execTrstNLow (s : State) : Result :=
  .next { s with pins := { s.pins with trstN := false, tap := .testLogicReset } }

/-- An instruction of IEEE 1149.6 that drives pins is loaded: UB-PIN-2 while a function is not OFF; without effect in SCRAPPED
(R80). An instruction is loaded with TRST_N high alone (DEDUCED). -/
def State.loadInstruction (s : State) (t : Tap) : Result :=
  if !s.boot.powered || s.boot.fuses == 4 then .next s
  else if Fn.numbers.any fun n => s.fn n != 0 then undefinedCase "UB-PIN-2"
  else .next { s with pins := { s.pins with trstN := true, tap := t } }

/-- EXTEST_PULSE (R469). -/
def execExtestPulse (s : State) : Result := s.loadInstruction .extestPulse

/-- EXTEST_TRAIN (R469). -/
def execExtestTrain (s : State) : Result := s.loadInstruction .extestTrain

/-! ### Counters -/

/-- FLOW_FLUSH (R419): a line's FLOW_FLUSH_US has passed, and its delta is written back. A fenced channel takes no write
(DEDUCED). -/
def execFlowFlush (pair : Fin 2097152) (s : State) : Result :=
  if s.ready && (Sparse.find? s.flow pair.val).isSome && !s.flowLost pair.val then .next (s.flowWriteBack pair.val) else .next s

/-- A write of CALIPER_FREEZE (R425). -/
def State.caliperFreeze (s : State) (v : Nat) : State :=
  if v = 0 then s.put Obj.caliperFreeze 0
  else if s.obj? Obj.caliperFreeze = 1 then s
  else (s.put Obj.caliperFreeze 1).put Obj.caliperFrozenAt s.time

/-- CALIPER_CLEAR_ALL (R425). -/
def State.caliperClear (s : State) : State :=
  { s with dom := s.dom.filter fun e => e.1 / 2 ^ 32 != Obj.caliperEvents }

end Sys2Proof.Machine
end

