-- ==== Sys2Proof/Machine/Flags.lean ====
section
/-! DEFINITION. Flags and status values that follow a condition: the level flags of every summary object (R57, R58, R87, R103,
R135, R158, R191, R217, R240, R295, R318, R344, R369, R394, R427, R446), the modes in force (R89, R483), and the read-only
objects and regions that the blocks compute. Event flags are stored at their own objects. -/

namespace Sys2Proof.Machine

/-- A level flag at a bit. -/
def level (n : Nat) (b : Bool) : Nat := field n (b2n b)

/-- Bits 0, 1, 2 and so on from a list of flags. -/
def flagBits (bs : List Bool) : Nat := (bs.zipIdx.map fun b => level b.2 b.1).sum

/-! ### Modes in force (R89, R483) -/

/-- Relief banks in ternary form, all quadrants: STAGE_BANKS. -/
def State.stageBanks (s : State) : Nat :=
  ((List.range 128).filter fun k => bankForm (s.bankInForce (k / 32) (k % 32)) == 1 || s.takenTernary (k / 32) (k % 32)).length

/-- FENCED_UNITS. -/
def State.fencedUnits (s : State) : Nat := (s.faults.units.filter fun e => e.2.fenced).length

/-- A port-scoped mode is in force for a port: its setting in force is 1 and the port is in RUN (R89). -/
def State.portMode (s : State) (key : Nat → Nat) (p : Nat) : Bool := s.inForce (key p) == 1 && s.runs p

/-- A device-scoped mode's bit, by its bit number. -/
def State.deviceMode (s : State) (n : Nat) : Bool :=
  match n with
  | 1 => s.obj? Obj.spillEnable == 1
  | 3 => s.stageBanks != 0
  | 5 => s.obj? Obj.sliceEnable == 1
  | 7 => s.obj? Obj.captureEnable == 1
  | 9 => s.fabricOn
  | _ => false

/-- MODE_ACTIVE: each bit is 1 while its mode is in force at any scope (table Modes). -/
def State.modeActive (s : State) : Nat :=
  let ports := List.range 128
  flagBits [ports.any (s.portMode Obj.cutEnable), s.deviceMode 1, ports.any (s.portMode Obj.cipherEnable), s.deviceMode 3,
    (List.range 16).any fun g => s.inForce (Obj.sleepEnable g) == 1, s.deviceMode 5, s.fencedUnits != 0, s.deviceMode 7,
    ports.any (s.portMode Obj.learnEnable), s.deviceMode 9, ports.any (s.portMode Obj.timeEnable),
    Fn.numbers.any s.heldFn]

/-- The functions serving a port (R483): the Relief array is the one that serves the searches of the port's quadrant, which is the
neighbour's while the own one is not in RUN (R212; DESIGN CHOICE, log entry 110: R483 names no quadrant). -/
def State.servingFns (s : State) (p : Nat) : List Nat :=
  let g := p / 8
  let pipe := s.portPipe p
  let quadrant := match s.reliefServer (portQuadrant p) with
    | some q => [Fn.reliefNo q]
    | none => [Fn.reliefNo (portQuadrant p)]
  [p, Fn.schedNo g, Fn.cipherNo g] ++ (if pipe = 0xFF then [] else [Fn.pipeNo pipe]) ++ quadrant

/-- PORT_MODES_IN_FORCE of a port (R483). -/
def State.portModes (s : State) (p : Nat) : Nat :=
  let fs := s.servingFns p
  flagBits [s.portMode Obj.cutEnable p, s.deviceMode 1, s.portMode Obj.cipherEnable p, s.deviceMode 3,
    s.inForce (Obj.sleepEnable (p / 8)) == 1, s.deviceMode 5, fs.any fun n => s.fn n == 3, s.deviceMode 7,
    s.portMode Obj.learnEnable p, s.deviceMode 9, s.portMode Obj.timeEnable p, fs.any s.heldFn]

/-! ### Summary objects: stored event flags, and level flags -/

/-- LIFE_SUMMARY (R87). -/
def State.lifeSummary (s : State) : Nat :=
  s.obj? Obj.lifeSummary + level 0 (!s.ready) + level 3 s.atelier.flashRead

/-- COMM_SUMMARY (table Summary tree): event flags alone. -/
def State.commSummary (s : State) : Nat := s.obj? Obj.commSummary

/-- CLOCK_SUMMARY (R87). -/
def State.clockSummary (s : State) : Nat :=
  s.obj? Obj.clockSummary + level 0 (!s.refclk) + level 2 (s.pins.sdLost != 0) +
    level 3 (decide (toInt 32 (s.obj? Obj.tempAlarm) ≤ toInt 32 (s.obj? Obj.dieTemp))) + level 4 (s.railStatus != 127)

/-- MODE_SUMMARY (R103). -/
def State.modeSummary (s : State) : Nat := s.obj? Obj.modeSummary + level 0 (s.fencedUnits != 0)

/-- PORT_FLAGS of a port (R135). -/
def State.portFlags (s : State) (p : Nat) : Nat :=
  s.obj? (Obj.portFlags p) + level 0 (s.fn p != 0 && s.link p != 5) + level 3 (s.obj? (Obj.statsRxHalf p) != 0) +
    level 4 (s.obj? (Obj.statsTxHalf p) != 0) + level 9 (s.port p).remoteFault +
    level 10 (s.obj? (Obj.tsWriteCount p) != s.obj? (Obj.tsReadCount p))

/-- PORT_SUMMARY of ports 32k to 32k + 31 (R135). -/
def State.portSummary (s : State) (k : Nat) : Nat := flagBits ((List.range 32).map fun b => s.portFlags (32 * k + b) != 0)

/-- PIPE_SUMMARY (R158). -/
def State.pipeSummary (s : State) : Nat := flagBits ((List.range 17).map fun p => s.obj? (Obj.pipeFlags p) != 0)

/-- TABLE_SUMMARY (R191, R240). -/
def State.tableSummary (s : State) : Nat :=
  let committing := match s.versions.commit with
    | .none => false
    | _ => true
  let log := match s.buildingSlot with
    | some b => (s.slot b).log.length
    | none => 0
  s.obj? Obj.tableSummary + level 3 ((List.range 4).any fun q => decide (147456 < 10 * s.overflowInUse q)) +
    level 8 committing + level 12 (decide (943718 < log))

/-- The state of a bank as BANK_STATUS shows it. -/
def State.bankReads (s : State) (n : Nat) : Bool := s.relief.banks.any fun e => e.2.state == n

/-- RELIEF_SUMMARY (R217). -/
def State.reliefSummary (s : State) : Nat := s.obj? Obj.reliefSummary + level 2 (s.bankReads 3) + level 4 (s.bankReads 1)

/-- QUEUE_SUMMARY (R295, R318). -/
def State.queueSummary (s : State) : Nat :=
  let above := s.copies.any fun c => match c.loc with
    | .egress n => let p := s.queuePort n
                   decide (4 * s.obj? (Obj.creditTargetBytes p) < s.classBytes p (n % 8))
    | _ => false
  s.obj? Obj.queueSummary + level 0 (s.arm.shared == 0) + level 4 (decide (10 * s.binsFree < s.binsTotal)) +
    level 5 (!s.arm.spilled.isEmpty) + level 12 above

/-- CIPHER_SUMMARY (R369). -/
def State.cipherSummary (s : State) : Nat :=
  s.obj? Obj.cipherSummary + level 0 ((List.range 17).any fun p => decide (s.unitsWorkingOf p < 18)) + level 1 ((List.range 17).any s.lineReduced)

/-- ATELIER_SUMMARY (R446). -/
def State.atelierSummary (s : State) : Nat :=
  s.obj? Obj.atelierSummary + level 0 ((List.range 8).any fun n => s.fenced (0x5A0 + n)) + level 1 s.atelier.reloading

/-- FAULT_SUMMARY (R394). -/
def State.faultSummary (s : State) : Nat :=
  let gs := List.range 16
  s.obj? Obj.faultSummary + level 4 (s.fencedUnits != 0) + level 5 (gs.any fun g => s.groupPipe g != g) +
    level 6 (s.fenced 16 || !(s.groupsOf 16).isEmpty) + level 7 (!s.captureEmpty) + level 8 (gs.any fun g => s.groupPipe g == 0xFF) +
    level 9 (s.faults.below.any fun b => b) + level 10 (s.obj? Obj.injectPending != 0)

/-- COUNTER_SUMMARY (R427). -/
def State.counterSummary (s : State) : Nat :=
  s.obj? Obj.counterSummary + level 2 (s.flowUnavailable != 0) + level 4 (s.obj? Obj.caliperFreeze == 1)

/-- The rings of the table Rings. -/
def rings : List Nat := [0, 1, 2, 3, 4, 5, 8, 9]

/-- RING_STATUS of a ring (table Ring descriptor). -/
def State.ringStatus (s : State) (r : Nat) : Nat :=
  let n := ringOccupancy (s.ringCapacity r) (s.obj? (Obj.ringHead r)) (s.obj? (Obj.ringTail r))
  s.obj? (Obj.ringStatus r) + level 0 (n != 0) + level 1 (decide (s.obj? (Obj.ringWatermark r) ≤ n))

/-- RING_SUMMARY (table Summary tree). -/
def State.ringSummary (s : State) : Nat := (rings.map fun r => level r (bits (s.ringStatus r) 2 1 != 0)).sum

/-- FABRIC_SUMMARY (R344). -/
def State.fabricSummary (s : State) : Nat :=
  s.obj? Obj.fabricSummary + level 0 (decide (s.workingLanes < s.obj? Obj.minWorkingLanes)) +
    level 2 (s.fabric.lanes.any fun x => x.mismatch) + level 5 (s.fabric.waiting.any fun w => !s.reachable w.device)

/-- DEVICE_SUMMARY (R57). -/
def State.deviceSummary (s : State) : Nat :=
  flagBits [s.lifeSummary != 0, s.commSummary != 0, s.clockSummary != 0, s.modeSummary != 0,
    (List.range 4).any fun k => s.portSummary k != 0, s.pipeSummary != 0, s.tableSummary != 0, s.reliefSummary != 0,
    s.queueSummary != 0, s.cipherSummary != 0, s.atelierSummary != 0, s.faultSummary != 0, s.counterSummary != 0,
    s.ringSummary != 0, s.fabricSummary != 0]

/-! ### Status objects -/

/-- SEQ_STATE of a sequencer (table Atelier objects). -/
def State.seqState (s : State) (n : Nat) : Nat :=
  let q := s.seq n
  if s.fenced (0x5A0 + n) then 5
  else match q.service with
    | .underTest => 4
    | .releasing => 3
    | .loading => 3
    | .inService => if q.level ≠ 0 then 2 else if q.running.isSome then 1 else 0

/-- UNIT_FAULT_STATE of a unit (field map Unit fault state). -/
def State.unitWord (s : State) (u : Nat) : Nat :=
  let x := s.unitSt u
  level 31 x.fenced + level 30 x.pendingC + level 29 x.pendingU + field 26 (x.cause % 8) + min x.faults 65535

/-- The code of a fabric lane's state (table Fabric lane states). -/
def laneCode : LaneState → Nat
  | .disabled => 0
  | .training => 1
  | .hello => 2
  | .up => 3
  | .fenced => 4

/-- LANE_STATUS of a lane (field map Lane status). -/
def State.laneStatus (s : State) (l : Nat) : Nat :=
  let x := s.lane l
  field 61 (laneCode x.state) + field 49 x.peerDevice + field 41 x.peerLane + level 40 x.peerRole + field 24 x.credit +
    field 8 x.retrains

/-- The code of a SOP path (SESSION_PATH). -/
def pathCode : Path → Nat
  | .mg0Eth => 0
  | .mg0Udp => 1
  | .mg1Eth => 2
  | .mg1Udp => 3
  | .mailbox => 4

/-- An object of session `n` (0–7), by its sub-index. -/
def State.sessionView (s : State) (n sub : Nat) : Option Nat :=
  let x := s.sop.sessions.getD n .free
  match sub with
  | 1 => some (b2n x.isOpen)
  | 2 => some (pathCode x.path)
  | 3 => some (beNat (padTo 18 x.peer))
  | 4 => some x.nextSeq
  | 5 => some x.epoch
  | 6 => some (b2n x.auth)
  | _ => none

/-- The summary object at a sub-index of 0x10C1. -/
def State.summaryView (s : State) (sub : Nat) : Option Nat :=
  match sub with
  | 1 => some s.lifeSummary
  | 2 => some s.commSummary
  | 3 => some s.clockSummary
  | 4 => some s.modeSummary
  | 6 => some s.pipeSummary
  | 7 => some s.tableSummary
  | 8 => some s.reliefSummary
  | 9 => some s.queueSummary
  | 10 => some s.cipherSummary
  | 11 => some s.atelierSummary
  | 12 => some s.faultSummary
  | 13 => some s.counterSummary
  | 14 => some s.ringSummary
  | 15 => some s.fabricSummary
  | _ => none

/-- An object of the Maquette that its state gives (09). -/
def State.versionView (s : State) (index sub : Nat) : Option Nat :=
  let x := s.slot (sub - 1)
  match index with
  | 0x4080 =>
    match sub with
    | 1 => some s.currentSlot
    | 2 => some (s.slot s.currentSlot).number
    | 3 => some s.buildingCode
    | 4 => some (match s.versions.commit with
      | .none => 0
      | .pending _ => 1
      | .priming _ => 2)
    | 5 => some (match s.versions.commit with
      | .none => 0
      | .pending t => t
      | .priming t => t)
    | _ => none
  | 0x4082 => some (slotCode x.state)
  | 0x4083 => some x.inFlight
  | 0x4084 => some x.number
  | 0x4085 => some x.log.length
  | 0x4086 => some x.since
  | _ => none

/-- A status object of the Armature that its state gives (11). -/
def State.bufferView (s : State) (index sub : Nat) : Option Nat :=
  match index with
  | 0x6000 => if sub = 2 then some s.cellsFree else if sub = 4 then some s.arm.shared
      else if sub = 5 then some s.guaranteeReserved else none
  | 0x6002 => some (s.classCells (sub - 1))
  | 0x6003 => some (s.bankFree (sub - 1))
  | 0x6030 => if sub = 1 then some s.binsTotal else if sub = 2 then some s.binsFree
      else if sub = 3 then some s.arm.spilled.length else none
  | _ => none

/-- A status object of a ring (table Ring descriptor): sub-indices 03, where the ring's size is set, and 07. -/
def State.ringView (s : State) (index sub : Nat) : Option Nat :=
  let r := (index - 0xB000) / 16
  if sub = 7 then some (s.ringStatus r) else if index = 0xB020 ∧ sub = 3 then some (s.ringCapacity 2) else none

/-- Sub-indices in use at an index, 0x00 included (R26). -/
def Dict.subs (index : Nat) : List Nat :=
  let h := highest index
  if h = 0 then [] else 0 :: ((List.range h).map fun j => j + 1).filter fun j => (find index j).isSome

/-- The objects of `n` indices from an index on, in ascending order. -/
def Dict.objectsFrom : Nat → Nat → List (Nat × Nat)
  | _, 0 => []
  | index, n + 1 => ((subs index).map fun j => (index, j)) ++ objectsFrom (index + 1) n

/-- Every object, in ascending order. -/
def Dict.objects : List (Nat × Nat) := objectsFrom 0x1000 0xB010

/-- The objects whose value follows the state of their block; none for a stored object. -/
def State.view (s : State) (index sub : Nat) : Option Nat :=
  if sub = 0 then none
  else if index = 0x1010 then (if sub = 1 then some s.boot.fuses else none)
  else if index = 0x10C0 then some s.deviceSummary
  else if index = 0x10C1 then s.summaryView sub
  else if index = 0x10C2 then some (s.portSummary (sub - 1))
  else if index = 0x10F0 ∧ sub = 2 then some Dict.objects.length
  else if 0x1108 ≤ index ∧ index < 0x1110 then s.sessionView (index - 0x1108) sub
  else if index = 0x1220 ∧ sub = 3 then some s.railStatus
  else if index = 0x1400 ∧ sub = 1 then some s.modeActive
  else if index = 0x1401 ∧ sub = 5 then some s.stageBanks
  else if index = 0x1401 ∧ sub = 6 then some s.fencedUnits
  else if index = 0x1407 then some (s.portModes (sub - 1))
  else if 0x2000 ≤ index ∧ index < 0x2800 then
    (if index % 16 = 10 ∧ sub = 1 then some (s.portFlags ((index - 0x2000) / 16)) else none)
  else if index = 0x30A0 ∧ sub = 2 then some s.graphBusyBits
  else if 0x4000 ≤ index ∧ index < 0x4004 then
    (if sub = 3 then some (s.unitsInUse (index - 0x4000)) else if sub = 4 then some (s.overflowInUse (index - 0x4000)) else none)
  else if 0x4080 ≤ index ∧ index < 0x4087 then s.versionView index sub
  else if 0x5010 ≤ index ∧ index < 0x5014 then some (s.bankStatus (index - 0x5010) (sub - 1))
  else if 0x5020 ≤ index ∧ index < 0x5024 ∧ sub = 6 then some (s.entriesInUse (index - 0x5020))
  else if 0x6000 ≤ index ∧ index < 0x6040 then s.bufferView index sub
  else if 0x6800 ≤ index ∧ index < 0x6811 ∧ sub = 3 then some (s.recircDepthOf (index - 0x6800))
  else if 0x7000 ≤ index ∧ index < 0x7011 then
    (if sub = 1 then some (s.unitsWorkingOf (index - 0x7000)) else if sub = 2 then some (s.lineContextsOf (index - 0x7000))
     else if sub = 3 then some (b2n (decide (18 ≤ s.unitsWorkingOf (index - 0x7000)))) else none)
  else if index = 0x7040 ∧ sub = 4 then some s.cipher.jobs.length
  else if 0x8000 ≤ index ∧ index < 0x8008 then
    (if sub = 1 then some (s.seqState (index - 0x8000)) else if sub = 3 then some (min 32 (s.seq (index - 0x8000)).queue.length)
     else if sub = 5 then some ((s.coverOf (index - 0x8000)).getD (index - 0x8000)) else none)
  else if index = 0x9100 ∧ sub = 4 then some s.kiln.running.length
  else if index = 0xA000 ∧ sub = 5 then some s.flowUnavailable
  else if 0xB000 ≤ index ∧ index < 0xC000 then s.ringView index sub
  else if index = 0xC000 ∧ sub = 10 then some s.workingLanes
  else none

/-- The value of an object that is not a DOMAIN, as a read returns it. -/
def State.value (s : State) (index sub : Nat) : Nat :=
  if sub = 0 then Dict.highest index else (s.view index sub).getD (s.obj? (Dict.key index sub))

/-! ### The object directory (R30) -/

/-- The code of a type (table Object types). -/
def tyCode : Ty → Nat
  | .bool => 1
  | .u8 => 2
  | .u16 => 3
  | .u32 => 4
  | .u64 => 5
  | .i32 => 6
  | .enum8 => 7
  | .bits32 => 8
  | .octets => 9
  | .time64 => 10
  | .domain => 11

/-- The code of an access kind (table Access kinds). -/
def accessCode : Access → Nat
  | .const => 1
  | .ro => 2
  | .rw => 3
  | .wo => 4
  | .rwh => 5

/-- Bytes of an object's DOMAIN region, as a READ of it returns them (R479). -/
def State.regionSize (s : State) (index sub : Nat) : Nat :=
  if index = 0x10F0 ∧ sub = 1 then 16 * Dict.objects.length
  else if index = 0xB020 ∧ sub = 1 then 192 * s.ringCapacity 2
  else match Dict.find index sub with
    | some f => f.size
    | none => 0

/-- DEFAULT of an object's directory record (R30). -/
def State.directoryDefault (s : State) (f : Family) (index sub : Nat) : Nat :=
  let d := Dict.reset (Dict.key index sub)
  match f.ty with
  | .domain => s.regionSize index sub
  | .octets =>
    if f.size ≤ 8 then d
    else if index = 0x7020 then 0x8000000000000000
    else d % 256
  | _ => if index = 0x10F0 then Dict.objects.length else d

/-- A directory record (field map Directory record). -/
def State.directoryRecord (s : State) (index sub : Nat) : Nat :=
  let name := field 112 index + field 104 sub
  match Dict.find index sub with
  | none => name + field 100 2 + field 96 1 + field 80 0xFFFF + field 64 1 + Dict.highest index
  | some f =>
    let owner := if f.access = .rwh then (ownerOf (Dict.key index sub)).getD 0xFFFF else 0xFFFF
    let size := if f.ty = .domain then 0 else f.size
    name + field 100 (tyCode f.ty) + field 96 (accessCode f.access) + field 80 owner + field 64 size +
      s.directoryDefault f index sub

/-! ### Regions that the blocks compute -/

/-- VOQ_BUFFER_STATE of a VOQ, or of a replication queue above the VOQs (11 Objects). -/
def State.voqRecord (s : State) (n : Nat) : Nat :=
  if n < 131072 then
    let bins := s.voqBins n
    level 63 (s.spilled n) + level 62 (bins.any fun b => b.isOpen) + field 42 (s.queueCells (.voq n) % 2 ^ 20) +
      field 18 (bins.length % 2 ^ 24)
  else field 42 (s.queueCells (.repl (n - 131072)) % 2 ^ 20)

/-- SCHED_BUCKETS of a local node: whole bytes of both buckets. -/
def State.bucketRecord (s : State) (g n : Nat) : Nat :=
  let x := s.node g n
  field 32 (ofInt 32 (x.c / 65536)) + ofInt 32 (x.p / 65536)

/-- EGRESS_QUEUE_STATE of an egress queue. -/
def State.egressRecord (s : State) (n : Nat) : Nat :=
  let frames := (s.copiesAt (.egress n)).length
  field 44 (s.queueCells (.egress n) % 2 ^ 20) + field 24 (frames % 2 ^ 20) + level 23 (s.queueEligible (n / 4096) (n % 4096))

/-- The size and value of the records of a region that its block computes; none for a region of stored bytes. -/
def State.regionRecords (s : State) (index sub : Nat) : Option (Nat × (Nat → Nat)) :=
  if index = 0x10F0 ∧ sub = 1 then
    let os := Dict.objects.toArray
    some (16, fun i => let o := os.getD i (0, 0); s.directoryRecord o.1 o.2)
  else if 0x4000 ≤ index ∧ index < 0x4004 ∧ sub = 11 then some (16, s.unitView (index - 0x4000))
  else if index = 0x5030 ∧ sub = 2 then some (64, fun i => s.ruleView (i / 1024) (i % 1024))
  else if index = 0x6050 then some (8, s.voqRecord)
  else if index = 0x6110 ∧ sub = 2 then some (4, fun i => ofInt 32 (s.credit i))
  else if 0x6200 ≤ index ∧ index < 0x6210 ∧ sub = 3 then some (8, s.bucketRecord (index - 0x6200))
  else if index = 0x6300 ∧ sub = 2 then some (16, fun i => let p := s.policer i; field 64 (ofInt 64 p.tc) + ofInt 64 p.te)
  else if index = 0x6400 then some (8, s.egressRecord)
  else if index = 0x7030 ∧ sub = 4 then some (1, s.keySlotState)
  else if index = 0x7023 then
    some (32, fun i => let r := s.saRecord i; if secyXpn (s.secy (i / 20)) then r else putBits r 191 160 0)
  else if index = 0x9003 then some (4, s.unitWord)
  else if index = 0xC002 then some (8, s.laneStatus)
  else none

/-- Bytes of a region as a DOMAIN_READ returns them, its effects apart. -/
def State.regionBytes (s : State) (index sub off n : Nat) : List Byte :=
  match s.regionRecords index sub with
  | some (size, value) =>
    let first := off / size
    let count := (off + n - 1) / size + 1 - first
    slice ((List.range count).flatMap fun i => toBe size (value (first + i))) (off - first * size) n
  | none =>
    let b := s.bytes (Dict.key index sub) off n
    if Dict.key index sub = Obj.ringRecords 2 then b.mapIdx fun i x => if s.captureLost ((off + i) / 192) then 0 else x else b

end Sys2Proof.Machine
end

