-- ==== Sys2Proof/Machine/Writes.lean ====
section
/-! DEFINITION. What an accepted write of an object that is not a DOMAIN does, by the rule of the chapter that owns it. The
answer is an abort code where that rule rejects the value. -/

namespace Sys2Proof.Machine

/-- What comes of a write that passed the checks of its type: an abort code of the owning rule, or an outcome. -/
abbrev Written := Except Nat Result

/-- A write that its rule rejects (step 11 of the table SOP check order). -/
def refuseValue : Written := .error Abort.valueRange

/-- A write whose effect is a next state. -/
def wrote (s : State) : Written := .ok (.next s)

/-- A write that its rule may reject with VALUE_RANGE. -/
def wroteIf : Option State → Written
  | some s => wrote s
  | none => refuseValue

/-- A write of 0 or 1 that acts where it is 1. -/
def onOne (s : State) (v : Nat) (f : State → State) : Written := wrote (if v = 1 then f s else s)

/-! ### Settings that a function holds (R94, R99) -/

/-- Settings that a stopped function holds at their value in force: RWH ones, and the mode settings of ports and groups. -/
def frozenKind (f : Family) : Bool :=
  decide (f.access = .rwh) || f.index == 0x1402 || f.index == 0x1404 || f.index == 0x1405 || f.index == 0x1406

/-- The function that holds a written setting back, while it does. -/
def State.holdsBack (s : State) (f : Family) (key : Nat) : Bool :=
  frozenKind f && match s.freezer key with
    | some n => s.heldFn n
    | none => false

/-- A setting stored; the value in force stays where its function holds it (R94, R99). -/
def State.storeSetting (s : State) (f : Family) (key v : Nat) : State :=
  let s' := if s.holdsBack f key && (Sparse.find? s.frozen key).isNone then
      { s with frozen := Sparse.insert s.frozen key (s.obj? key) } else s
  s'.put key v

/-- Bytes of a region stored; those in force stay where their function holds them (R94). -/
def State.storeBytes (s : State) (f : Family) (key off : Nat) (b : List Byte) : State :=
  let s' := if s.holdsBack f key then
      { s with frozenDom := (List.range b.length).foldl (fun m i =>
          let a := Defaults.domAddr key (off + i)
          if (Sparse.find? m a).isSome then m else Sparse.insert m a (Sparse.get Defaults.dom s.dom a)) s.frozenDom }
    else s
  s'.putBytes key off b

/-! ### Sessions, reset and boot (02, 03) -/

/-- LIFE_REQUEST (R81): a signature, where one is judged, is an operand or a free value. -/
def State.writeLife (s : State) (v : Nat) (signature : Option Bool) : Written :=
  if v / 256 ≠ 0x4C4346 ∨ 4 < v % 256 then refuseValue
  else match signature with
    | some good => wrote (s.lifeRequest (v % 256) good)
    | none => let (x, s) := s.free 1
              wrote (s.lifeRequest (v % 256) (x == 1))

/-- UPLOAD_START (R77). -/
def State.writeUpload (s : State) (v : Nat) : Written :=
  if s.obj? Obj.bootState ≠ 7 then refuseValue else wrote (if v = 1 then s.upload else s)

/-- RESET_REQUEST (R70, R72): 1 warm, 2 cold. -/
def State.writeReset (s : State) (v : Nat) : State := if v = 1 then s.warmCause 4 else s.beginReset .cold 3

/-- An object of 0x1000–0x11FF. -/
def State.writeIdentity (s : State) (f : Family) (key v : Nat) (signature : Option Bool) : Written :=
  if key = Obj.lifeRequest then s.writeLife v signature
  else if key = Obj.lifeSummaryClear then wrote (s.clearFlags Obj.lifeSummary v)
  else if key = Obj.commSummaryClear then wrote (s.clearFlags Obj.commSummary v)
  else if key = Obj.sopAuthRequired then
    wrote (let s := s.storeSetting f key v
           if v = 1 then s.closeSessions fun x => !x.auth else s)
  else if key = Obj.sopKeySlot then wrote ((s.storeSetting f key v).closeSessions fun x => x.auth)
  else if 0x1108 ≤ f.index ∧ f.index < 0x1110 then
    onOne s v fun s => s.closeSession (key / 256 - 0x1107)
  else wrote (s.storeSetting f key v)

/-- An object of 0x1200–0x12FF. -/
def State.writeClocks (s : State) (f : Family) (key v : Nat) : Written :=
  if key = Obj.resetRequest then wrote (s.writeReset v)
  else if key = Obj.uploadStart then s.writeUpload v
  else if key = Obj.clockSummaryClear then wrote (s.clearFlags Obj.clockSummary v)
  else if key = Obj.ppsOutEnable then
    wrote (let s := (s.storeSetting f key v).ppsBase
           if v = 0 then { s with timing := { s.timing with ppsOut := false } } else s)
  else if key = Obj.ppsOutOffsetNs then wrote (s.storeSetting f key v).ppsBase
  else if f.index = 0x1232 then wrote (s.storeSetting f key (clearBits v 0x7C80))
  else wrote (s.storeSetting f key v)

/-! ### Modes and functions (04) -/

/-- The function whose FUNCTION_REQUEST an index and sub-index name. -/
def requestedFn (index sub : Nat) : Nat :=
  match index with
  | 0x1411 => sub - 1
  | 0x1413 => Fn.schedNo (sub - 1)
  | 0x1415 => Fn.cipherNo (sub - 1)
  | 0x1417 => Fn.pipeNo (sub - 1)
  | 0x1419 => Fn.reliefNo (sub - 1)
  | _ => Fn.fabricNo

/-- A FUNCTION_REQUEST object's index. -/
def isRequest (index : Nat) : Bool :=
  index == 0x1411 || index == 0x1413 || index == 0x1415 || index == 0x1417 || index == 0x1419 || index == 0x141B

/-- An object of 0x1400–0x14FF. -/
def State.writeModes (s : State) (f : Family) (key v : Nat) : Written :=
  if isRequest f.index then s.requestFn (requestedFn f.index (key % 256)) v
  else if key = Obj.modeSummaryClear then wrote (s.clearFlags Obj.modeSummary v)
  else
    let s' := s.storeSetting f key v
    if f.index = 0x1406 ∧ v = 0 ∧ !s.holdsBack f key then wrote (s'.sleepOff (key % 256 - 1)) else wrote s'

/-! ### Ports and pipes (05, 06) -/

/-- An object of 0x2000–0x27FF. -/
def State.writePort (s : State) (f : Family) (key v : Nat) : Written :=
  let p := (key / 256 - 0x2000) / 16
  if key = Obj.underrunStepReset p then onOne s v fun s => s.underrunStepReset p
  else if key = Obj.portFlagsClear p then wrote (s.clearFlags (Obj.portFlags p) v)
  else if key = Obj.statsRxHalfClear p then wrote (s.clearFlags (Obj.statsRxHalf p) v)
  else if key = Obj.statsTxHalfClear p then wrote (s.clearFlags (Obj.statsTxHalf p) v)
  else if key = Obj.statsClear p then wrote (s.statsClear p v)
  else wrote (s.storeSetting f key v)

/-- A graph copy becomes the selected one (R155): UB-PAR-1 where its transitions overrun. -/
def State.selectGraph (s : State) (v : Nat) : Written :=
  if s.graphOverruns (v == 1) then .ok (undefinedCase "UB-PAR-1")
  else if s.graphMisfits (v == 1) then .ok (undefinedCase "UB-PAR-2")
  else wrote (s.put Obj.parseGraphSelect v)

/-- STANDARD_GRAPH_LOAD (R155): a busy copy takes no write. -/
def State.loadStandard (s : State) (v : Nat) : Written :=
  if v ≠ 1 then wrote s
  else if s.graphBusy (s.obj? Obj.parseGraphSelect == 0) then refuseValue
  else wrote s.loadStandardGraph

/-- An object of 0x3000–0x30FF. -/
def State.writeParser (s : State) (f : Family) (key v : Nat) : Written :=
  if f.index = 0x3000 then wrote (s.clearFlags (Obj.pipeFlags (key / 256 - 0x3000)) v)
  else if key = Obj.parseGraphSelect then s.selectGraph v
  else if key = Obj.standardGraphLoad then s.loadStandard v
  else wrote (s.storeSetting f key v)

/-! ### Lookup and Relief (07, 08, 09) -/

/-- The entries of a family with entry `j` written: every LENGTH_CODE within the family's, lengths in use strictly decreasing,
and each segment within the pool (R177). -/
def probesGood (entries : List Nat) (fam : Nat) : Bool :=
  let used := (entries.map fun e => bits e 31 24).filter fun c => c != 0
  entries.all (fun e => decide (bits e 31 24 ≤ if fam = 0 then 33 else 129) &&
    decide (bits e 23 12 + bits e 11 0 + 1 ≤ 4096)) &&
    (used.zip (used.drop 1)).all fun p => decide (p.2 < p.1)

/-- PROBE_LENGTH (R177). -/
def State.writeProbe (s : State) (fam j v : Nat) : Written :=
  let entries := (List.range 12).map fun i => if i = j then v else s.probeEntry fam i
  if !probesGood entries fam || (s.em.units.any fun u => u.keyType == fam + 1) then refuseValue
  else wrote (s.put (Obj.probeLength fam j) v)

/-- EM_SEED1 or EM_SEED2 (R165). -/
def State.writeSeed (s : State) (key v : Nat) : Written :=
  let q := key / 256 - 0x4000
  if s.em.units.any fun u => u.copy == q then refuseValue else wrote (s.put key v)

/-- An object of 0x4000–0x4FFF. -/
def State.writeTables (s : State) (f : Family) (key v : Nat) : Written :=
  if f.index = 0x4000 then s.writeSeed key v
  else if key = Obj.tableSummaryClear then wrote (s.clearFlags Obj.tableSummary v)
  else if f.index = 0x4020 then s.writeProbe (key / 256 - 0x4020) (key % 256 - 1) v
  else if key = Obj.versionCancel then onOne s v State.versionCancel
  else wrote (s.storeSetting f key v)

/-- An object of 0x5000–0x5FFF. -/
def State.writeRelief (s : State) (f : Family) (key v : Nat) : Written :=
  if key = Obj.reliefSummaryClear then wrote (s.clearFlags Obj.reliefSummary v) else wrote (s.storeSetting f key v)

/-! ### Buffers, queues and rewrite (10, 11, 12) -/

/-- Ring pointers at a position outside the ring's new capacity: HEAD and TAIL become one free pointer within it. -/
def State.refitCapture (s : State) : State :=
  let cap := s.ringCapacity 2
  if bits (s.obj? (Obj.ringHead 2)) 30 0 < cap then s
  else
    let (x, s) := s.free 32
    let ptr := field 31 (bits x 31 31) + bits x 30 0 % cap
    (s.put (Obj.ringHead 2) ptr).put (Obj.ringTail 2) ptr

/-- CAPTURE_RING_MIB (R268, R285): rejected while capture is on, the ring holds records, or a channel would keep fewer than
1,024 spill bins. -/
def State.writeCaptureSize (s : State) (v : Nat) : Written :=
  let s' := s.put Obj.captureRingMib v
  if s.obj? Obj.captureEnable = 1 ∨ !s.ringEmpty 2 ∨ (!s.channels.isEmpty && decide (s'.binsPerChannel < 1024)) then refuseValue
  else wrote s'.refitCapture

/-- An object of 0x6000–0x6FFF. -/
def State.writeBuffers (s : State) (f : Family) (key v : Nat) : Written :=
  if key = Obj.queueSummaryClear then wrote (s.clearFlags Obj.queueSummary v)
  else if key = Obj.classQuotaCells 2 ∧ v < 128 then refuseValue
  else if key = Obj.headroomCells ∧ 786432 < s.guaranteeReserved + v then refuseValue
  else if f.index = 0x6800 then wrote (s.restartPeak (key / 256 - 0x6800))
  else if key = Obj.captureRingMib then s.writeCaptureSize v
  else if key = Obj.sampleSeed then wrote ((s.put key v).seedSamples v)
  else wrote (s.storeSetting f key v)

/-! ### Cipher, Atelier, faults and the Kiln (14, 15, 16, 18) -/

/-- A SecY configuration keeps its field map (R351). -/
def secyGood (v : Nat) : Bool :=
  bits v 253 252 != 3 && !(bit v 250 && bit v 249) && bits v 246 224 == 0 && bits v 63 0 == 0

/-- KEY_ERASE (R361): bit [12] chooses the job keys. -/
def State.writeErase (s : State) (v : Nat) : Written :=
  let n := bits v 11 0
  let job := bit v 12
  if job && decide (64 ≤ n) then refuseValue
  else wrote (((s.eraseKey (if job then 4096 + n else n)).request 4).raiseTrap 4 1 3)

/-- An object of 0x7000–0x71FF. -/
def State.writeCipher (s : State) (f : Family) (key v : Nat) : Written :=
  if f.index = 0x7020 then (if secyGood v then wrote (s.storeSetting f key v) else refuseValue)
  else if key = Obj.keyErase then s.writeErase v
  else if key = Obj.keyClearLoad then wroteIf (s.writeClearLoad v)
  else if key = Obj.jobAbort then wrote (s.abortJob v)
  else if key = Obj.cipherSummaryClear then wrote (s.clearFlags Obj.cipherSummary v)
  else wrote (s.storeSetting f key v)

/-- An object of 0x8000–0x80FF. -/
def State.writeAtelier (s : State) (f : Family) (key v : Nat) : Written :=
  if key = Obj.reloadStart then wroteIf (s.reloadStart v)
  else if key = Obj.atelierSummaryClear then wrote (s.clearFlags Obj.atelierSummary v)
  else wrote (s.storeSetting f key v)

/-- FENCE_REQUEST (R381, R388): a DDR5 channel released is retrained by sequencer 7 (table Work classes). -/
def State.writeFence (s : State) (v : Nat) : Written :=
  let channel := (bits v 31 24 == 2 || bits v 31 24 == 3) && 0x420 ≤ bits v 11 0 && bits v 11 0 < 0x430
  wroteIf ((s.fenceRequest v).map fun s => if channel then s.request 7 else s)

/-- An object of 0x9000–0x9FFF. -/
def State.writeFaults (s : State) (f : Family) (key v : Nat) : Written :=
  if key = Obj.firstErrorClear then onOne s v State.clearFirst
  else if key = Obj.faultAck then wroteIf (s.faultAck v)
  else if key = Obj.faultSummaryClear then wrote (s.clearFlags Obj.faultSummary v)
  else if key = Obj.fenceRequest then s.writeFence v
  else if f.index = 0x9021 then (if v = 1 then wroteIf (s.groupReturn (key % 256 - 1)) else wrote s)
  else if key = Obj.inject then wroteIf (s.writeInject v)
  else if key = Obj.sliceRequest then wroteIf (s.sliceRequest v)
  else wrote (s.storeSetting f key v)

/-! ### Counters, rings and the fabric (17, 02, 13) -/

/-- An object of 0xA000–0xAFFF. -/
def State.writeCounters (s : State) (f : Family) (key v : Nat) : Written :=
  if key = Obj.counterSummaryClear then wrote (s.clearFlags Obj.counterSummary v)
  else if key = Obj.caliperFreeze then wrote (s.caliperFreeze v)
  else if key = Obj.caliperClearAll then onOne s v State.caliperClear
  else wrote (s.storeSetting f key v)

/-- A pointer that a ring of this capacity holds (R61). -/
def pointerGood (capacity p : Nat) : Bool := decide (bits p 30 0 < capacity)

/-- The places from one pointer on to another, over both laps of a ring (R61). -/
def pointerSpan (capacity head tail : Nat) : Nat :=
  let place := fun p => bits p 31 31 * capacity + bits p 30 0
  (place head + 2 * capacity - place tail) % (2 * capacity)

/-- RING_HEAD of a host-to-device ring advanced (R60, R62): UB-DIC-2 past the device's TAIL. Records on ring 8 ask for
sequencer 0 (R430). -/
def State.writeHead (s : State) (r v : Nat) : Written :=
  let cap := s.ringCapacity r
  let tail := s.obj? (Obj.ringTail r)
  let head := s.obj? (Obj.ringHead r)
  if !pointerGood cap v || decide (cap < pointerSpan cap v tail) ||
      decide (pointerSpan cap v tail < pointerSpan cap head tail) then .ok (undefinedCase "UB-DIC-2")
  else
    let s := s.put (Obj.ringHead r) v
    wrote (if r = 8 ∧ v ≠ head then s.request 0 else s)

/-- RING_TAIL of a device-to-host ring advanced (R62): UB-DIC-1 outside the span from TAIL to HEAD. Room on ring 4 lets ended
jobs complete (R365). -/
def State.writeTail (s : State) (r v : Nat) : Written :=
  let cap := s.ringCapacity r
  let tail := s.obj? (Obj.ringTail r)
  let head := s.obj? (Obj.ringHead r)
  if !pointerGood cap v || decide (pointerSpan cap head tail < pointerSpan cap v tail) then
    .ok (undefinedCase "UB-DIC-1")
  else
    let s := s.put (Obj.ringTail r) v
    wrote (if r = 4 then s.flushEnded (s.cipher.ended.length) else s)

/-- An object of 0xB000–0xBFFF. -/
def State.writeRing (s : State) (f : Family) (key v : Nat) : Written :=
  let r := (key / 256 - 0xB000) / 16
  if key = Obj.ringHead r then s.writeHead r v
  else if key = Obj.ringTail r then s.writeTail r v
  else if key = Obj.ringStatusClear r then wrote (s.clearFlags (Obj.ringStatus r) v)
  else wrote (s.storeSetting f key v)

/-- An object of 0xC000–0xCFFF. -/
def State.writeFabric (s : State) (f : Family) (key v : Nat) : Written :=
  if key = Obj.fabricSummaryClear then wrote (s.clearFlags Obj.fabricSummary v) else wrote (s.storeSetting f key v)

/-- The effect of an accepted write of an object, by its index range (table Index map). `signature` is the verdict on a signature
that the write has judged, where the command carries one. -/
def State.writeObject (s : State) (f : Family) (key v : Nat) (signature : Option Bool) : Written :=
  match f.index / 4096 with
  | 1 => if f.index < 0x1200 then s.writeIdentity f key v signature
         else if f.index < 0x1400 then s.writeClocks f key v else s.writeModes f key v
  | 2 => s.writePort f key v
  | 3 => s.writeParser f key v
  | 4 => s.writeTables f key v
  | 5 => s.writeRelief f key v
  | 6 => s.writeBuffers f key v
  | 7 => s.writeCipher f key v
  | 8 => s.writeAtelier f key v
  | 9 => s.writeFaults f key v
  | 10 => s.writeCounters f key v
  | 11 => s.writeRing f key v
  | _ => s.writeFabric f key v

end Sys2Proof.Machine
end

