-- ==== Sys2Proof/Machine/Regions.lean ====
section
/-! DEFINITION. What an accepted write of bytes of a DOMAIN region does, by the rule of the chapter that owns it: reserved
fields read 0 (R5), the records a rule rejects, the misuses of the table Undefined cases, and the effects beside the stored
bytes. -/

namespace Sys2Proof.Machine

/-! ### Records of a written piece -/

/-- The numbers in a byte string cut into records of `n` bytes, most significant byte first. -/
def recordsOf (n : Nat) (b : List Byte) : List Nat := (List.range (b.length / n)).map fun i => beAt b (n * i) n

/-- The records of a byte string changed, each with its number counted from `first`. -/
def mapRecords (n first : Nat) (g : Nat → Nat → Nat) (b : List Byte) : List Byte :=
  (recordsOf n b).zipIdx.flatMap fun r => toBe n (g (first + r.2) r.1)

/-- A mask of the bits [hi:lo]. -/
def maskBits (hi lo : Nat) : Nat := (2 ^ (hi + 1 - lo) - 1) * 2 ^ lo

/-- Records of `n` bytes whose bits of a mask read 0 (R5). -/
def reserve (n mask : Nat) (b : List Byte) : List Byte := mapRecords n 0 (fun _ v => clearBits v mask) b

/-- A record with a 1 in a mask. -/
def hits (n mask : Nat) (b : List Byte) : Bool := (recordsOf n b).any fun v => Nat.land v mask != 0

/-- Bytes stored in a region. -/
def storeIn (s : State) (f : Family) (key off : Nat) (b : List Byte) : Written := wrote (s.storeBytes f key off b)

/-! ### The parse graph and the direct tables (06, 07) -/

/-- TEMPLATES or TRANSITIONS of a graph copy (R155). -/
def State.writeGraph (s : State) (f : Family) (key off : Nat) (b : List Byte) : Written :=
  if s.graphBusy (f.index == 0x30A2) then refuseValue
  else storeIn s f key off (if f.sub = 1 then reserve 16 (maskBits 26 0) b else reserve 8 (maskBits 55 32) b)

/-- A lookup profile keeps R175. -/
def profileGood (b : List Byte) : Bool :=
  let ds := (recordsOf 4 b).filter fun d => bit d 31
  let type := fun d => bits d 30 26
  let family := fun n => (ds.filter fun d => type d == n).length
  ds.all (fun d => decide (1 ≤ type d) && decide (type d ≤ 6) && (!bit d 24 || (type d == 5 && bit d 23))) &&
    decide (family 1 ≤ 1) && decide (family 2 ≤ 1)

/-- A direct table of index 0x4040: UB-EM-2 for a 1 in a reserved field. -/
def State.writeDirect (s : State) (f : Family) (key off : Nat) (b : List Byte) : Written :=
  let profiles := f.sub == 4
  let bad := match f.sub with
    | 1 => hits 16 (maskBits 72 0) b
    | 2 => hits 8 (maskBits 32 0) b
    | 3 => hits 8 (maskBits 25 0) b
    | _ => hits 4 (maskBits 21 0) b
  if profiles && !((List.range (b.length / 32)).all fun i => profileGood (slice b (32 * i) 32)) then refuseValue
  else if bad then .ok (undefinedCase "UB-EM-2")
  else storeIn s f key off b

/-! ### Relief (08) -/

/-- The bank holds host rules. -/
def State.bankHolds (s : State) (b : Nat) : Bool := s.relief.table.any fun r => r.homeBank + r.member == b

/-- The banks of the cascade group of bank `b` under a record. -/
def cascadeBanks (r b : Nat) : List Nat := (List.range (bankGroup r)).map fun j => bankLead r b + j

/-- A record keeps R194, for bank `b` of the records `rs` of its quadrant, and its group keeps R195. -/
def bankGood (rs : List Nat) (b : Nat) : Bool :=
  let r := rs.getD b 0
  let lead := rs.getD (bankLead r b) 0
  bankForm r != 3 && bankCascade r != 3 && bits r 249 160 == 0 && (bankForm r == 0 || bankMask r == 0) &&
    (cascadeBanks r b).all (fun j => bankForm (rs.getD j 0) == bankForm r && bankCascade (rs.getD j 0) == bankCascade r) &&
    decide (bankSegment lead + bankGroup r ≤ 4)

/-- A bank's record may be replaced by another while the bank holds what it holds (R196). -/
def State.bankMayChange (s : State) (q b old new : Nat) : Bool :=
  let rules := s.relief.table.filter fun r => r.homeBank + r.member == b
  (s.bankSt q b).state == 0 && !(s.relief.banks.any fun e => e.1 / 32 == q && e.2.guests.contains b) &&
    !(bankForm new == 1 && bankForm old != 1 && rules.any fun r => 512 ≤ r.homeIndex) &&
    !(bankForm new == 0 && rules.any fun r => r.care != bankMask new) &&
    !(bankForm new == 2 && !rules.isEmpty) &&
    !(bankCascade new != bankCascade old && (cascadeBanks old b ++ cascadeBanks new b).any s.bankHolds)

/-- BANK_CONFIG (R194-R196). -/
def State.writeBanks (s : State) (f : Family) (key off : Nat) (b : List Byte) : Written :=
  let q := key / 256 - 0x5000
  let old := (List.range 32).map (s.bankRecord q)
  let rs := recordsOf 32 (splice (s.bytes key 0 1024) off b)
  let written := (List.range (b.length / 32)).map fun i => off / 32 + i
  if (List.range 32).all (bankGood rs) && written.all fun i => s.bankMayChange q i (old.getD i 0) (rs.getD i 0) then
    storeIn s f key off b
  else refuseValue

/-- A search profile keeps R197 and R199 under the bank records of its quadrant. -/
def searchGood (rs : List Nat) (profile : List Byte) : Bool :=
  let words := recordsOf 8 (profile.take 32)
  let banks := (words.filter fun w => bit w 63).flatMap fun w => bitList 32 w
  let whole := words.all fun w => !bit w 63 ||
    (bitList 32 w).all fun x => (cascadeBanks (rs.getD x 0) x).all fun y => bit w y
  decide (banks.length ≤ 8) && distinct banks && whole && banks.all (fun x => bankForm (rs.getD x 0) != 2) &&
    words.all (fun w => bits w 61 32 == 0) &&
    (recordsOf 4 (slice profile 32 160)).all (fun d => bits d 5 0 == 0 && !(bit d 30 && 14 ≤ bits d 9 6)) &&
    beNat (profile.drop 192) == 0

/-- SEARCH_PROFILES (R197, R199). -/
def State.writeSearches (s : State) (f : Family) (key off : Nat) (b : List Byte) : Written :=
  let rs := (List.range 32).map (s.bankRecord (key / 256 - 0x5000))
  if (List.range (b.length / 256)).all fun i => searchGood rs (slice b (256 * i) 256) then storeIn s f key off b
  else refuseValue

/-- The staging rows that the Relief commands on ring 8 name. -/
def State.namedRows (s : State) : List Nat :=
  let cap := s.ringCapacity 8
  let tail := bits (s.obj? (Obj.ringTail 8)) 30 0
  let n := ringOccupancy cap (s.obj? (Obj.ringHead 8)) (s.obj? (Obj.ringTail 8))
  (List.range n).flatMap fun i =>
    let c := ruleCommand (beNat (s.bytes (Obj.ringRecords 8) (32 * ((tail + i) % cap)) 32))
    if 0x10 ≤ c.op ∧ c.op ≤ 0x12 then (List.range ((s.ruleGroup c).getD 1)).map fun j => c.row + j else []

/-- A staged image as it reads back (field maps Rule image and Relief result): VISIBLE and the reserved bits read 0. -/
def stagedMask : Nat := maskBits 166 0

/-- RULE_STAGING (R204): UB-REL-1 while a submitted command names a written row. -/
def State.writeStaging (s : State) (f : Family) (key off : Nat) (b : List Byte) : Written :=
  if s.namedRows.any fun r => off / 64 ≤ r && r < (off + b.length) / 64 then .ok (undefinedCase "UB-REL-1")
  else storeIn s f key off (reserve 64 stagedMask b)

/-! ### Buffers, queues and rewrite (10, 11, 12) -/

/-- A write after which the guarantees and the headroom fit the store (R280). -/
def fitsStore (s : State) : Written :=
  if s.guaranteeReserved + s.obj? Obj.headroomCells ≤ 786432 then wrote s else refuseValue

/-- BUFFER_PROFILES (R279, R280). -/
def State.writeProfiles (s : State) (f : Family) (key off : Nat) (b : List Byte) : Written :=
  if (recordsOf 16 b).any fun r => 12 ≤ profileAlpha r then refuseValue
  else fitsStore (s.storeBytes f key off (reserve 16 (maskBits 39 0) b))

/-- A tree entry as it reads back (field map Tree entry). -/
def treeStored (n v : Nat) : Nat :=
  if n < 8 then Nat.land v 0xFFC00000 else if n < 648 then Nat.land v 0xFFF80000 else Nat.land v 0x00380000

/-- A rates record as it reads back (field map Rates record). -/
def ratesStored (n v : Nat) : Nat :=
  clearBits v (maskBits 169 160 + maskBits 103 96 + maskBits 39 0 + if n < 648 then maskBits 177 170 else 0)

/-- A rates record keeps R310. -/
def ratesGood (v : Nat) : Bool :=
  let cir := bits v 159 128
  let pir := bits v 95 64
  bits v 191 184 != 0 && !(pir != 0 && pir < cir) && !(cir != 0 && bits v 127 104 < 64) && !(pir != 0 && bits v 63 40 < 64)

/-- SCHED_RATES (R310). -/
def State.writeRates (s : State) (f : Family) (key off : Nat) (b : List Byte) : Written :=
  let x := mapRecords 24 (off / 24) ratesStored b
  let profile := fun v => bits v 177 170
  if !(recordsOf 24 x).all ratesGood then refuseValue
  else if (recordsOf 24 x).map profile == (recordsOf 24 (s.bytes key off b.length)).map profile then storeIn s f key off x
  else fitsStore (s.storeBytes f key off x)

/-- POLICERS (R313): each entry's buckets follow its new sizes. -/
def State.writePolicers (s : State) (f : Family) (key off : Nat) (b : List Byte) : Written :=
  let first := off / 32
  let n := b.length / 32
  let old := (List.range n).map fun i => s.policerEntry (first + i)
  let s := s.storeBytes f key off (reserve 32 (maskBits 211 192 + maskBits 135 128 + maskBits 71 0) b)
  wrote ((List.range n).foldl (fun s i => s.policerWritten (first + i) (old.getD i 0)) s)

/-! ### Cipher, Atelier and counters (14, 17, 18) -/

/-- An SA record of record number `i` as it reads back: NEXT_PN has 32 bits under the suites that are not XPN (R352). -/
def State.saStored (s : State) (i v : Nat) : Nat :=
  clearBits v (maskBits 242 192 + if secyXpn (s.secy (i / 20)) then 0 else maskBits 191 160)

/-- KEY_LOAD (R359): BUSY while a load is processed; a request joins sequencer 4 (R430). -/
def State.writeKey (s : State) (b : List Byte) : Written :=
  if s.cipher.load.isSome then .error 0x1B else wrote ((s.startLoad b).request 4)

/-- JOB_BUFFER (R362): UB-CIP-2 over bytes of a job in progress. -/
def State.writeJobBuffer (s : State) (f : Family) (key off : Nat) (b : List Byte) : Written :=
  if s.jobsTouch off b.length then .ok (undefinedCase "UB-CIP-2") else storeIn s f key off b

/-- RELOAD_IMAGE (R442). -/
def State.writeReload (s : State) (f : Family) (key off : Nat) (b : List Byte) : Written :=
  if s.obj? Obj.reloadStatus = 1 ∨ s.obj? Obj.reloadStatus = 2 then refuseValue else storeIn s f key off b

/-- A pair of FLOW_COUNTERS set (R421); a fenced channel takes no write. -/
def State.writePair (s : State) (pair packets octets : Nat) : State :=
  if s.flowLost pair then s else s.flowWrite pair packets octets

/-- FLOW_COUNTERS (R421). -/
def State.writeFlow (s : State) (off : Nat) (b : List Byte) : Written :=
  wrote ((recordsOf 16 b).zipIdx.foldl (fun s r => s.writePair (off / 16 + r.2) (bits r.1 127 64) (bits r.1 63 0)) s)

/-- NH_COUNTER_MAP (R422): UB-CNT-2 for a 1 in a reserved field. -/
def State.writeNhMap (s : State) (f : Family) (key off : Nat) (b : List Byte) : Written :=
  if hits 4 (maskBits 30 21) b then .ok (undefinedCase "UB-CNT-2") else storeIn s f key off b

/-- Event numbers that the table Caliper events lists (R424). -/
def listedEvent (e : Nat) : Bool :=
  e ≤ 0x120 || (0x128 ≤ e && e ≤ 0x18D) || (0x190 ≤ e && e ≤ 0x1CF) || (0x200 ≤ e && e ≤ 0x310) ||
    (0x318 ≤ e && e ≤ 0x328) || (0x330 ≤ e && e ≤ 0x335) || (0x338 ≤ e && e ≤ 0x33B)

/-- CALIPER_EVENTS (R424): UB-CNT-2 for a 1 in a reserved field; COUNT is set, and SATURATED follows it. -/
def State.writeEvents (s : State) (f : Family) (key off : Nat) (b : List Byte) : Written :=
  if hits 8 (maskBits 62 48) b then .ok (undefinedCase "UB-CNT-2")
  else storeIn s f key off (mapRecords 8 (off / 8) (fun e v => if listedEvent e then caliperRecord (bits v 47 0) else 0) b)

/-! ### Rings (02) -/

/-- A position of a ring lies between TAIL and HEAD. -/
def State.ringHolds (s : State) (r i : Nat) : Bool :=
  let cap := s.ringCapacity r
  let tail := s.obj? (Obj.ringTail r)
  (i + cap - bits tail 30 0) % cap < ringOccupancy cap (s.obj? (Obj.ringHead r)) tail

/-- The reserved bits of a record of ring 8, by its opcode (field maps Command record, Relief command record and Version command
record). -/
def commandMask (op : Nat) : Nat :=
  if 0x10 ≤ op ∧ op ≤ 0x12 then maskBits 246 240 + maskBits 196 0
  else if 0x20 ≤ op ∧ op ≤ 0x22 then maskBits 247 240 + maskBits 222 0
  else if 1 ≤ op ∧ op ≤ 6 then maskBits 246 240 + maskBits 218 196
  else 0

/-- The records of a host-to-device ring as they read back (R5). -/
def recordsStored (r : Nat) (b : List Byte) : List Byte :=
  if r = 8 then mapRecords 32 0 (fun _ v => clearBits v (commandMask (bits v 255 248))) b
  else if r = 9 then reserve 64 (maskBits 475 448 + maskBits 231 0) b
  else b

/-- RING_RECORDS of a host-to-device ring: UB-DIC-3 over a record between TAIL and HEAD. -/
def State.writeRecords (s : State) (f : Family) (key off : Nat) (b : List Byte) : Written :=
  let r := (key / 256 - 0xB000) / 16
  if (List.range (b.length / f.granule)).any fun i => s.ringHolds r (off / f.granule + i) then
    .ok (undefinedCase "UB-DIC-3")
  else storeIn s f key off (recordsStored r b)

/-! ### All regions -/

/-- A region of indices 0x6000–0x6FFF. -/
def State.writeBufferRegion (s : State) (f : Family) (key off : Nat) (b : List Byte) : Written :=
  if key = Obj.bufferProfiles then s.writeProfiles f key off b
  else if key = Obj.classMaps then storeIn s f key off (reserve 1 0xE0 b)
  else if key = Obj.voqProfile then fitsStore (s.storeBytes f key off b)
  else if f.index = 0x6200 then
    (if f.sub = 1 then storeIn s f key off (mapRecords 4 (off / 4) treeStored b) else s.writeRates f key off b)
  else if key = Obj.policers then s.writePolicers f key off b
  else if key = Obj.nextHopTable then storeIn s f key off (reserve 16 0xF b)
  else if key = Obj.encapTable then storeIn s f key off (reserve 128 (maskBits 942 896) b)
  else if key = Obj.smacTable then storeIn s f key off (reserve 8 0xFFFF b)
  else if key = Obj.groupTable then
    storeIn (s.stopNaming (s.blocksOf (off / 8) (b.length / 8))) f key off (reserve 8 (maskBits 28 0) b)
  else if key = Obj.replicationList then
    (if s.rewritesEarly (off / 8) (b.length / 8) then .ok (undefinedCase "UB-RW-2")
     else storeIn s f key off (reserve 8 (maskBits 22 0) b))
  else storeIn s f key off b

/-- A region of indices 0x7000–0xFFFF. -/
def State.writeOtherRegion (s : State) (f : Family) (key off : Nat) (b : List Byte) : Written :=
  if key = Obj.rxScTable then storeIn s f key off (reserve 16 (maskBits 126 64) b)
  else if key = Obj.saTable then storeIn s f key off (mapRecords 32 (off / 32) s.saStored b)
  else if key = Obj.keyLoad then s.writeKey b
  else if key = Obj.jobBuffer then s.writeJobBuffer f key off b
  else if key = Obj.reloadImage then s.writeReload f key off b
  else if key = Obj.flowCounters then s.writeFlow off b
  else if key = Obj.nhCounterMap then s.writeNhMap f key off b
  else if key = Obj.caliperEvents then s.writeEvents f key off b
  else if key = Obj.systemPortMap then storeIn s f key off (reserve 4 0xFFF b)
  else s.writeRecords f key off b

/-- The effect of an accepted write of bytes of a region. -/
def State.writeRegion (s : State) (f : Family) (key off : Nat) (b : List Byte) : Written :=
  match f.index / 4096 with
  | 3 => s.writeGraph f key off b
  | 4 => s.writeDirect f key off b
  | 5 => if f.index = 0x5030 then s.writeStaging f key off b
         else if f.sub = 1 then s.writeBanks f key off b else s.writeSearches f key off b
  | 6 => s.writeBufferRegion f key off b
  | 1 => storeIn s f key off b
  | 2 => storeIn s f key off b
  | _ => s.writeOtherRegion f key off b

/-- Bytes of the capture ring read from DDR5, in bursts of 64 (R424). -/
def State.captureRead (s : State) (off n : Nat) : State :=
  (List.range ((off + n + 63) / 64 - off / 64)).foldl (fun s i =>
    let stripe := (off / 64 + i) / 64
    if s.stripeLost stripe then s else s.ddr5Read (s.stripeChannel stripe) 1) s

/-- The bytes that a read of a region returns, and the state after it: a read of flow counters may clear them (R420). -/
def State.readRegion (s : State) (key off n : Nat) : List Byte × State :=
  if key = Obj.flowCounters then s.flowReads (off / 16) (n / 16)
  else (s.regionBytes (key / 256) (key % 256) off n, if key = Obj.ringRecords 2 then s.captureRead off n else s)

end Sys2Proof.Machine
end

