-- ==== Sys2Proof/Machine/Access.lean ====
section
/-! DEFINITION. How the dictionary serves an access (R26-R29, R32-R37, R46 steps 9-12, R80, R479, R482), and the commands that
write one object with a behaviour of its own. -/

namespace Sys2Proof.Machine

/-- An access to one object, once its path has taken it: a value's bytes stand most significant first. -/
inductive Op where
  | read
  | write (value : List Byte)
  | domainRead (off n : Nat)
  | domainWrite (off : Nat) (data : List Byte)
  deriving DecidableEq, Repr

/-- An access that writes. -/
def Op.writes : Op → Bool
  | .read => false
  | .write _ => true
  | .domainRead _ _ => false
  | .domainWrite _ _ => true

/-! ### Where an object is held (R35, R36, R60, R482) -/

/-- An index whose objects the Plinth holds. -/
def plinthIndex (index : Nat) : Bool :=
  index < 0x1300 || (0x1400 ≤ index && index < 0x1500) || (0x9000 ≤ index && index < 0xA000)

/-- An object that the Plinth holds in every state. Sub-index 0x00 holds a constant of the dictionary itself. -/
def plinthHolds (index sub : Nat) : Bool :=
  sub == 0 || plinthIndex index || (0xB000 ≤ index && index < 0xC000 && (2 ≤ sub || index == 0xB050))

/-- The pipe that holds an index's objects. -/
def pipeOfIndex (index : Nat) : Option Nat :=
  if 0x3000 ≤ index ∧ index ≤ 0x3010 then some (index - 0x3000)
  else if 0x6800 ≤ index ∧ index ≤ 0x6810 then some (index - 0x6800)
  else if 0x7000 ≤ index ∧ index ≤ 0x7010 then some (index - 0x7000)
  else none

/-- The port that holds an index's objects. -/
def portOfIndex (index : Nat) : Option Nat :=
  if 0x2000 ≤ index ∧ index < 0x2800 then some ((index - 0x2000) / 16) else none

/-- A front SerDes group is powered: a port of it has a function other than OFF, or a FRONT_LANE slice runs on a lane of it. -/
def State.groupPowered (s : State) (g : Nat) : Bool :=
  (groupPorts g).any (fun p => s.fn p != 0) || (List.range 8).any fun l => s.sliceOn (0x100 + 8 * g + l)

/-- The block that holds an index's objects is off: a pipe in OFF, or a port of a group that is off. -/
def State.blockOff (s : State) (index : Nat) : Bool :=
  match pipeOfIndex index, portOfIndex index with
  | some p, _ => s.fn (Fn.pipeNo p) == 0 || s.depth p == 3
  | none, some p => !s.groupPowered (p / 8)
  | none, none => false

/-- A setting that the Plinth keeps while its block is off. -/
def keptSetting (f : Family) : Bool := decide (f.access = .rw) || decide (f.access = .rwh)

/-- The Plinth holds the object now. -/
def State.inPlinth (s : State) (f : Family) (index sub : Nat) : Bool :=
  plinthHolds index sub || (s.blockOff index && keptSetting f)

/-- The unit that holds an index's objects, where one unit does (DEDUCED from the table Units). -/
def unitOfIndex (index : Nat) : Option Nat :=
  match pipeOfIndex index, portOfIndex index with
  | some p, _ => some p
  | none, some p => some (0x040 + p)
  | none, none =>
    if index = 0x7030 then some 0x5B0
    else if 0x4000 ≤ index ∧ index < 0x4004 then some (0x020 + index % 16)
    else if 0x4080 ≤ index ∧ index ≤ 0x4090 then some 0x5B9
    else if 0x5000 ≤ index ∧ index < 0x5030 then some (0x020 + index % 16)
    else if 0x6000 ≤ index ∧ index ≤ 0x6050 then some 0x5B7
    else if 0x6200 ≤ index ∧ index < 0x6210 then some (0x5C0 + (index - 0x6200))
    else if 0x6100 ≤ index ∧ index ≤ 0x6400 then some 0x5B8
    else if index = 0x6830 then some 0x5BA
    else if 0xC000 ≤ index ∧ index < 0xD000 then some 0x5B6
    else none

/-- The bytes of a region that an access touches: the first, and how many. -/
def Op.span : Op → Nat × Nat
  | .domainRead off n => (off, n)
  | .domainWrite off b => (off, b.length)
  | _ => (0, 0)

/-- A stretch of `n` bytes from `off` on meets part `k` of a region cut into parts of a size. -/
def meetsPart (size off n k : Nat) : Bool := decide (off < size * (k + 1)) && decide (size * k < off + n)

/-- EM_COPY_VIEW of copy `q`: units in a fenced bank (512 KiB of the view each), or overflow units of a fenced crossbar (DEDUCED). -/
def State.viewFenced (s : State) (q off n : Nat) : Bool :=
  (s.fenced (0x020 + q) && decide (33554432 < off + n)) ||
    (List.range 64).any fun b => s.fenced (0x280 + 64 * q + b) && meetsPart 524288 off n b

/-- RULE_VIEW: a stripe of which neither copy in DDR5 can be read (R285). -/
def State.rulesUnread (s : State) (off n : Nat) : Bool :=
  (List.range 512).any fun k =>
    meetsPart 4096 off n k && !s.channelInUse (s.stripeChannel k) && !s.channelInUse (s.stripeChannel (k + 1))

/-- The unit that holds what an access names is fenced (R36). A direct table is held in the four crossbars, a port's SecY objects in
the cipher of its group, and the SecY records of a region in the ciphers of their groups (DEDUCED). -/
def State.holderFenced (s : State) (index sub : Nat) (op : Op) : Bool :=
  let (off, n) := op.span
  let groups := fun size => (List.range 16).any fun g => s.fenced (0x5D0 + g) && meetsPart size off n g
  if 0x4000 ≤ index ∧ index < 0x4004 ∧ sub = 0x0B then s.viewFenced (index - 0x4000) off n
  else if index = 0x4040 then (List.range 4).all fun q => s.fenced (0x020 + q)
  else if index = 0x5030 ∧ sub = 2 then s.rulesUnread off n
  else if index = 0x7020 ∨ index = 0x7021 then s.fenced (0x5D0 + (sub - 1) / 8)
  else if index = 0x7022 then groups 512
  else if index = 0x7023 then groups 5120
  else match unitOfIndex index with
    | some u => s.fenced u
    | none => false

/-! ### The checks of an access (R46, steps 9 to 12) -/

/-- The life-cycle state allows an access to an index (R80). -/
def State.lifeAllows (s : State) (index : Nat) : Bool :=
  if s.boot.fuses = 0 then index < 0x1200
  else if s.boot.fuses = 4 then index == 0x1000 || index == 0x1010
  else true

/-- The object of an index and sub-index; sub-index 0x00 is a U8 CONST at every index in use (R26). -/
def object? (index sub : Nat) : Except Nat Family :=
  let h := Dict.highest index
  if h = 0 then .error 0x10
  else if sub = 0 then
    .ok { index := index, indices := 1, step := 1, sub := 0, subs := 1, ty := .u8, size := 1, access := .const, default := h,
          check := .any, granule := 0 }
  else match Dict.find index sub with
    | some f => .ok f
    | none => .error 0x11

/-- The access kind refuses an access (R28, R29): an abort code. -/
def State.kindRefuses (s : State) (f : Family) (key : Nat) (op : Op) : Option Nat :=
  match f.access with
  | .const => if op.writes then some Abort.readOnly else none
  | .ro => if op.writes then some Abort.readOnly else none
  | .rw => none
  | .wo => if op.writes then none else some Abort.writeOnly
  | .rwh => if op.writes && !((ownerOf key).map (fun n => s.fn n == 1)).getD true then some Abort.notHeld else none

/-- Lengths, alignment and bounds (R27, R479): an abort code. -/
def State.shapeRefuses (s : State) (f : Family) (index sub : Nat) : Op → Option Nat
  | .read => none
  | .write b => if f.ty = .domain ∨ b.length ≠ f.size then some 0x15 else none
  | .domainRead off n =>
    if f.ty ≠ .domain then some 0x15
    else if off % f.granule ≠ 0 ∨ n % f.granule ≠ 0 then some 0x17
    else if s.regionSize index sub < off + n then some 0x18 else none
  | .domainWrite off b =>
    if f.ty ≠ .domain then some 0x15
    else if off % f.granule ≠ 0 ∨ b.length % f.granule ≠ 0 then some 0x17
    else if s.regionSize index sub < off + b.length then some 0x18 else none

/-- A value that its object takes (R27). -/
def Check.takes : Check → Nat → Bool
  | .any, _ => true
  | .range low high, v => decide (low ≤ v) && decide (v ≤ high)
  | .zeroOr low high, v => v == 0 || (decide (low ≤ v) && decide (v ≤ high))
  | .signed low high, v => decide (low ≤ toInt 32 v) && decide (toInt 32 v ≤ high)
  | .oneOf values, v => values.contains v
  | .bits mask, v => clearBits v mask == 0
  | .multiple unit low high, v => v % unit == 0 && decide (low ≤ v) && decide (v ≤ high)

/-- A written value outside what its object takes: an abort code. -/
def valueRefuses (f : Family) : Op → Option Nat
  | .write b => if f.check.takes (beNat b) then none else some Abort.valueRange
  | _ => none

/-- The domain or unit that holds the object does not serve it (R35, R36, R482): an abort code. -/
def State.placeRefuses (s : State) (f : Family) (index sub : Nat) (op : Op) : Option Nat :=
  if s.inPlinth f index sub then (if isRequest index && !s.ready then some 0x1A else none)
  else if !s.ready || s.boot.pllHold || s.blockOff index then some 0x1A
  else if s.holderFenced index sub op then some 0x19 else none

/-- Steps 9 to 12 of the table SOP check order, the Atelier queue apart: an abort code, or the object. -/
def State.admits (s : State) (op : Op) (index sub : Nat) : Except Nat Family :=
  match object? index sub with
  | .error e => .error e
  | .ok f =>
    if !s.lifeAllows index then .error 0x1C
    else match s.kindRefuses f (Dict.key index sub) op with
      | some e => .error e
      | none => match s.shapeRefuses f index sub op with
        | some e => .error e
        | none => match valueRefuses f op with
          | some e => .error e
          | none => match s.placeRefuses f index sub op with
            | some e => .error e
            | none => .ok f

/-! ### Serving -/

/-- An access served: its abort code, what it returns, and what comes of it. -/
structure Served where
  code : Nat
  data : List Byte
  outcome : Result

/-- An access rejected: it has no effect (R28). -/
def State.rejected (s : State) (code : Nat) : Served := { code := code, data := [], outcome := .next s }

/-- What a write gives back. -/
def State.outcomeOf (s : State) : Written → Served
  | .error e => s.rejected e
  | .ok r => { code := 0, data := [], outcome := r }

/-- An access to a pipe in GATED or RETAIN wakes it to GATED (R35). -/
def State.wakeFor (s : State) (index : Nat) : State :=
  match pipeOfIndex index with
  | some p => if s.blockOff index then s else s.wakeTo p 1
  | none => s

/-- The units of EM_COPY_VIEW are written by the command ring alone (UB-EM-1). -/
def writesCopyView (op : Op) (index sub : Nat) : Bool :=
  match op with
  | .domainWrite _ _ => 0x4000 ≤ index && index < 0x4004 && sub == 0x0B
  | _ => false

/-- An access served at once. -/
def State.serve (s : State) (op : Op) (index sub : Nat) (signature : Option Bool) : Served :=
  if writesCopyView op index sub && s.lifeAllows index then { code := 0, data := [], outcome := undefinedCase "UB-EM-1" }
  else match s.admits op index sub with
    | .error e => s.rejected e
    | .ok f =>
      let s := s.wakeFor index
      let key := Dict.key index sub
      match op with
      | .read =>
        let data := if f.ty = .domain then toBe 8 (s.regionSize index sub) else toBe f.size (s.value index sub)
        { code := 0, data := data, outcome := .next s }
      | .write b => s.outcomeOf (s.writeObject f key (beNat b) signature)
      | .domainRead off n =>
        let r := s.readRegion key off n
        { code := 0, data := r.1, outcome := .next r.2 }
      | .domainWrite off b => s.outcomeOf (s.writeRegion f key off b)

/-- An access to bytes of a region. -/
def Op.regional : Op → Bool
  | .domainRead _ _ => true
  | .domainWrite _ _ => true
  | _ => false

/-- An access that the Atelier serves (R37, table Work classes): bytes of a region, a function state change, or an object held in a
fast domain. Before READY no routine runs, and the Plinth serves what it holds by itself (DEDUCED). -/
def State.slowAccess (s : State) (op : Op) (index sub : Nat) : Bool :=
  s.ready && match object? index sub with
    | .ok f => op.regional || !s.inPlinth f index sub || isRequest index
    | .error _ => false

/-- The slow queue of sequencer 5 is full (R432). A request that only waits its turn on its path is not of it. -/
def State.slowFull (s : State) : Bool := 32 ≤ (s.sop.slow.filter fun x => x.atelier).length

/-- A slow request answered BUSY (R432). -/
def State.noteBusy (s : State) : State := (s.bump32 Obj.slowBusyAnswers).flag Obj.atelierSummary 3

/-- An access served where it does not wait: BUSY where it is a slow one and the queue is full, unless an earlier check answers. -/
def State.serveNow (s : State) (op : Op) (index sub : Nat) (signature : Option Bool) : Served :=
  match s.admits op index sub with
  | .ok _ => if s.slowAccess op index sub && s.slowFull then s.noteBusy.rejected 0x1B else s.serve op index sub signature
  | .error _ => s.serve op index sub signature

/-! ### Writes of one object -/

/-- The outcome of an access with its answer. -/
def answering (r : Result) (a : Answer) : Result :=
  match r with
  | .next s => .next { s with answer := a }
  | .fault f => .fault f
  | .refused x => .refused x

/-- Bytes written to an object by the host. Nothing answers while the device is unpowered. -/
def State.hostWriteBytes (s : State) (index sub : Nat) (b : List Byte) (signature : Option Bool) : Result :=
  if !s.boot.powered then .next s
  else
    let r := s.serveNow (.write b) index sub signature
    answering r.outcome (.code r.code)

/-- A value written to an object by the host. -/
def State.hostWrite (s : State) (key v : Nat) : Result :=
  s.hostWriteBytes (key / 256) (key % 256) (toBe (((Dict.find (key / 256) (key % 256)).map Family.size).getD 0) v) none

end Sys2Proof.Machine
end

