-- ==== Sys2Proof/Machine/Controls.lean ====
section
/-! DEFINITION. The commands that write one object with a behaviour of its own, or one flow counter pair: each is a host write of
that object, served as any other (R34), and answers the abort code. -/

namespace Sys2Proof.Machine

/-- OBJECT_WRITE (R34). -/
def execObjectWrite (index : BitVec 16) (sub : BitVec 8) (value : List Byte) (s : State) : Result :=
  s.hostWriteBytes index.toNat sub.toNat value none

/-- RESET_REQUEST_WARM (R72). -/
def execResetRequestWarm (s : State) : Result := s.hostWrite Obj.resetRequest 1

/-- RESET_REQUEST_COLD (R70). -/
def execResetRequestCold (s : State) : Result := s.hostWrite Obj.resetRequest 2

/-- UPLOAD_START (R77): a write of 0 starts nothing. -/
def execUploadStart (value : Bool) (s : State) : Result := s.hostWrite Obj.uploadStart (b2n value)

/-- LIFE_REQUEST (R81). -/
def execLifeRequest (value : BitVec 32) (signatureGood : Bool) (s : State) : Result :=
  s.hostWriteBytes 0x1010 2 (toBe 4 value.toNat) (some signatureGood)

/-- SESSION_FORCE_CLOSE (R48). -/
def execSessionForceClose (session : Fin 8) (s : State) : Result := s.hostWrite (Obj.sessionForceClose session.val) 1

/-- SOP_KEY_SLOT_WRITE (R48). -/
def execSopKeySlotWrite (value : BitVec 8) (s : State) : Result := s.hostWrite Obj.sopKeySlot value.toNat

/-- SOP_AUTH_REQUIRED_WRITE (R48). -/
def execSopAuthRequiredWrite (value : BitVec 8) (s : State) : Result := s.hostWrite Obj.sopAuthRequired value.toNat

/-- RING_HEAD (R60). -/
def execRingHead (ring : Fin 256) (value : BitVec 32) (s : State) : Result := s.hostWrite (Obj.ringHead ring.val) value.toNat

/-- RING_TAIL (R62). -/
def execRingTail (ring : Fin 256) (value : BitVec 32) (s : State) : Result := s.hostWrite (Obj.ringTail ring.val) value.toNat

/-- RING_STATUS_CLEAR (R62). -/
def execRingStatusClear (ring : Fin 256) (value : BitVec 32) (s : State) : Result :=
  s.hostWrite (Obj.ringStatusClear ring.val) value.toNat

/-- The key of a function's FUNCTION_REQUEST object (table Functions). -/
def requestKey : Fn → Nat
  | .port p => Dict.key 0x1411 (1 + p.val)
  | .sched g => Dict.key 0x1413 (1 + g.val)
  | .cipher g => Dict.key 0x1415 (1 + g.val)
  | .pipe p => Dict.key 0x1417 (1 + p.val)
  | .relief q => Dict.key 0x1419 (1 + q.val)
  | .fabric => Dict.key 0x141B 1

/-- FUNCTION_REQUEST_HOLD (R94). -/
def execFunctionRequestHold (fn : Fn) (s : State) : Result := s.hostWrite (requestKey fn) 1

/-- FUNCTION_REQUEST_RUN (R94). -/
def execFunctionRequestRun (fn : Fn) (s : State) : Result := s.hostWrite (requestKey fn) 2

/-- FUNCTION_REQUEST_OFF (R94). -/
def execFunctionRequestOff (fn : Fn) (s : State) : Result := s.hostWrite (requestKey fn) 3

/-- FUNCTION_REQUEST_FENCE (R94). -/
def execFunctionRequestFence (fn : Fn) (s : State) : Result := s.hostWrite (requestKey fn) 4

/-- COMM_SUMMARY_CLEAR (R58). -/
def execCommSummaryClear (value : BitVec 32) (s : State) : Result := s.hostWrite Obj.commSummaryClear value.toNat

/-- MODE_SUMMARY_CLEAR (R103). -/
def execModeSummaryClear (value : BitVec 32) (s : State) : Result := s.hostWrite Obj.modeSummaryClear value.toNat

/-- LIFE_SUMMARY_CLEAR (R87). -/
def execLifeSummaryClear (value : BitVec 32) (s : State) : Result := s.hostWrite Obj.lifeSummaryClear value.toNat

/-- CLOCK_SUMMARY_CLEAR (R87). -/
def execClockSummaryClear (value : BitVec 32) (s : State) : Result := s.hostWrite Obj.clockSummaryClear value.toNat

/-- UNDERRUN_STEP_RESET (R125). -/
def execUnderrunStepReset (port : Port) (s : State) : Result := s.hostWrite (Obj.underrunStepReset port.val) 1

/-- STATS_CLEAR_RECEIVE (R133). -/
def execStatsClearReceive (port : Port) (s : State) : Result := s.hostWrite (Obj.statsClear port.val) 1

/-- STATS_CLEAR_TRANSMIT (R133). -/
def execStatsClearTransmit (port : Port) (s : State) : Result := s.hostWrite (Obj.statsClear port.val) 2

/-- STATS_CLEAR_BOTH (R133). -/
def execStatsClearBoth (port : Port) (s : State) : Result := s.hostWrite (Obj.statsClear port.val) 3

/-- PORT_FLAGS_CLEAR (R135). -/
def execPortFlagsClear (port : Port) (value : BitVec 32) (s : State) : Result :=
  s.hostWrite (Obj.portFlagsClear port.val) value.toNat

/-- STATS_RX_HALF_CLEAR (R133). -/
def execStatsRxHalfClear (port : Port) (value : BitVec 32) (s : State) : Result :=
  s.hostWrite (Obj.statsRxHalfClear port.val) value.toNat

/-- STATS_TX_HALF_CLEAR (R133). -/
def execStatsTxHalfClear (port : Port) (value : BitVec 32) (s : State) : Result :=
  s.hostWrite (Obj.statsTxHalfClear port.val) value.toNat

/-- PARSE_GRAPH_SELECT (R155). -/
def execParseGraphSelect (value : BitVec 8) (s : State) : Result := s.hostWrite Obj.parseGraphSelect value.toNat

/-- STANDARD_GRAPH_LOAD (R155). -/
def execStandardGraphLoad (s : State) : Result := s.hostWrite Obj.standardGraphLoad 1

/-- PIPE_FLAGS_CLEAR (R158). -/
def execPipeFlagsClear (pipe : Pipe) (value : BitVec 32) (s : State) : Result :=
  s.hostWrite (Obj.pipeFlagsClear pipe.val) value.toNat

/-- TABLE_SUMMARY_CLEAR (R191). -/
def execTableSummaryClear (value : BitVec 32) (s : State) : Result := s.hostWrite Obj.tableSummaryClear value.toNat

/-- RELIEF_SUMMARY_CLEAR (R217). -/
def execReliefSummaryClear (value : BitVec 32) (s : State) : Result := s.hostWrite Obj.reliefSummaryClear value.toNat

/-- VERSION_CANCEL (R231). -/
def execVersionCancel (s : State) : Result := s.hostWrite Obj.versionCancel 1

/-- SAMPLE_SEED (R265). -/
def execSampleSeed (value : BitVec 32) (s : State) : Result := s.hostWrite Obj.sampleSeed value.toNat

/-- RECIRC_DEPTH_PEAK (R253). -/
def execRecircDepthPeak (pipe : Pipe) (value : BitVec 16) (s : State) : Result :=
  s.hostWrite (Obj.recircDepthPeak pipe.val) value.toNat

/-- QUEUE_SUMMARY_CLEAR (R295). -/
def execQueueSummaryClear (value : BitVec 32) (s : State) : Result := s.hostWrite Obj.queueSummaryClear value.toNat

/-- FABRIC_SUMMARY_CLEAR (R344). -/
def execFabricSummaryClear (value : BitVec 32) (s : State) : Result := s.hostWrite Obj.fabricSummaryClear value.toNat

/-- A DOMAIN region written by the host. -/
def State.hostWriteRegion (s : State) (index sub off : Nat) (b : List Byte) : Result :=
  if !s.boot.powered then .next s
  else
    let r := s.serveNow (.domainWrite off b) index sub none
    answering r.outcome (.code r.code)

/-- KEY_LOAD (R359). -/
def execKeyLoad (record : List Byte) (s : State) : Result := s.hostWriteRegion 0x7030 1 0 record

/-- KEY_ERASE (R361). -/
def execKeyErase (value : BitVec 16) (s : State) : Result := s.hostWrite Obj.keyErase value.toNat

/-- KEY_CLEAR_LOAD (R359). -/
def execKeyClearLoad (value : BitVec 8) (s : State) : Result := s.hostWrite Obj.keyClearLoad value.toNat

/-- JOB_ABORT (R366). -/
def execJobAbort (tag : BitVec 16) (s : State) : Result := s.hostWrite Obj.jobAbort tag.toNat

/-- CIPHER_SUMMARY_CLEAR (R369). -/
def execCipherSummaryClear (value : BitVec 32) (s : State) : Result := s.hostWrite Obj.cipherSummaryClear value.toNat

/-- FAULT_ACK (R374). -/
def execFaultAck (value : BitVec 16) (s : State) : Result := s.hostWrite Obj.faultAck value.toNat

/-- FIRST_ERROR_CLEAR (R377). -/
def execFirstErrorClear (s : State) : Result := s.hostWrite Obj.firstErrorClear 1

/-- HOST_FENCE (R381): operation 1 of FENCE_REQUEST. -/
def execHostFence (unit : BitVec 12) (s : State) : Result := s.hostWrite Obj.fenceRequest (field 24 1 + unit.toNat)

/-- RELEASE (R388): operation 2. -/
def execRelease (unit : BitVec 12) (s : State) : Result := s.hostWrite Obj.fenceRequest (field 24 2 + unit.toNat)

/-- RELEASE_WITHOUT_SLICE (R388): operation 3. -/
def execReleaseWithoutSlice (unit : BitVec 12) (s : State) : Result := s.hostWrite Obj.fenceRequest (field 24 3 + unit.toNat)

/-- GROUP_RETURN (R387). -/
def execGroupReturn (group : Group) (s : State) : Result := s.hostWrite (Obj.groupReturn group.val) 1

/-- INJECT (R389). -/
def execInject (value : BitVec 32) (s : State) : Result := s.hostWrite Obj.inject value.toNat

/-- FAULT_SUMMARY_CLEAR (R394). -/
def execFaultSummaryClear (value : BitVec 32) (s : State) : Result := s.hostWrite Obj.faultSummaryClear value.toNat

/-- SLICE_REQUEST (R408). -/
def execSliceRequest (value : BitVec 16) (s : State) : Result := s.hostWrite Obj.sliceRequest value.toNat

/-- FLOW_COUNTER_READ (R420): `count` pairs from a pair on. -/
def execFlowCounterRead (pair : Fin 2097152) (count : Fin 89) (s : State) : Result :=
  if !s.boot.powered then .next s
  else if count.val = 0 then .next { s with answer := .code 0x15 }
  else
    let r := s.serveNow (.domainRead (16 * pair.val) (16 * count.val)) 0xA000 1 none
    answering r.outcome (if r.code = 0 then .completion r.data else .code r.code)

/-- FLOW_COUNTER_WRITE (R421). -/
def execFlowCounterWrite (pair : Fin 2097152) (packets octets : BitVec 64) (s : State) : Result :=
  s.hostWriteRegion 0xA000 1 (16 * pair.val) (toBe 8 packets.toNat ++ toBe 8 octets.toNat)

/-- CALIPER_FREEZE (R425). -/
def execCaliperFreeze (s : State) : Result := s.hostWrite Obj.caliperFreeze 1

/-- CALIPER_RESTART (R425). -/
def execCaliperRestart (s : State) : Result := s.hostWrite Obj.caliperFreeze 0

/-- CALIPER_CLEAR_ALL (R425). -/
def execCaliperClearAll (s : State) : Result := s.hostWrite Obj.caliperClearAll 1

/-- COUNTER_SUMMARY_CLEAR (R427). -/
def execCounterSummaryClear (value : BitVec 32) (s : State) : Result := s.hostWrite Obj.counterSummaryClear value.toNat

/-- RELOAD_START_IMAGE (R442). -/
def execReloadStartImage (s : State) : Result := s.hostWrite Obj.reloadStart 1

/-- RELOAD_START_HOLD (R442). -/
def execReloadStartHold (s : State) : Result := s.hostWrite Obj.reloadStart 2

/-- ATELIER_SUMMARY_CLEAR (R446). -/
def execAtelierSummaryClear (value : BitVec 32) (s : State) : Result := s.hostWrite Obj.atelierSummaryClear value.toNat

end Sys2Proof.Machine
end

