-- ==== Sys2Proof/Machine/Receive.lean ====
section
/-! DEFINITION. The MAC of a port: reception, flow control, cut-through start and the end of transmission, with PTP timestamps
(R14, R22, R90, R114-R122, R129-R134, R284, R353-R355, R386). -/

namespace Sys2Proof.Machine

/-! ### What the receive MAC finds (R114-R120) -/

/-- The frame check sequence of a frame is right. -/
def fcsGood (b : List Byte) : Bool := decide (4 ≤ b.length) && fcs (b.take (b.length - 4)) == b.drop (b.length - 4)

/-- MAX_FRAME of a port. -/
def State.maxFrame (s : State) (p : Nat) : Nat := s.inForce (Obj.maxFrame p)

/-- A group address that the filter tests: not broadcast, and not 01-80-C2-00-00-00 to -0F (R119). -/
def filtersAddress (b : List Byte) : Bool :=
  let da := beAt b 0 6
  decide (6 ≤ b.length) && bit da 40 && da != 2 ^ 48 - 1 && !(0x0180C2000000 ≤ da && da ≤ 0x0180C200000F)

/-- The bin of an address (R120). -/
def filterBin (b : List Byte) : Nat := bits (crc32 (b.take 6)) 31 23

/-- The group-address filter rejects a frame (R119). -/
def State.filtered (s : State) (p : Nat) (b : List Byte) : Bool :=
  let n := filterBin b
  filtersAddress b && s.obj? (Obj.groupFilterBypass p) == 0 &&
    !bit ((s.bytes (Obj.groupFilter p) (n / 8) 1).headD 0).toNat (n % 8)

/-- The code that a frame has met once its head is in: the port is held, or the filter rejects it (R97, R119). -/
def State.headCode (s : State) (p : Nat) (b : List Byte) : Option Nat :=
  if !s.runs p then some 0x07 else if s.filtered p b then some 0x08 else none

/-- The code of an error that the PCS or the FEC reports (R115). -/
def errorCode (err : RxError) : Option Nat :=
  match err with
  | .pcs => some 0x05
  | .fec _ => some 0x0F
  | _ => none

/-- What reception meets first of an error, of a frame that the FIFO refuses, and of one too long (R114, R115). The FIFO takes no byte
beyond MAX_FRAME and so refuses before that; where an error stands among the bytes the command does not say: which is met first is then
a free value. -/
def State.judgeMet (s : State) (p : Nat) (b : List Byte) (fifo : Option Nat) (err : RxError) : State × Option Nat :=
  let other := if fifo.isSome then fifo else if s.maxFrame p < b.length then some 0x02 else none
  match errorCode err, other with
  | some e, some c => let (x, s) := s.free 1
                      (s, some (if x = 1 then e else c))
  | some e, none => (s, some e)
  | none, c => (s, c)

/-- The code of what is found at a frame's tail (R114): too short, or a bad FCS. -/
def tailCode (b : List Byte) : Option Nat :=
  if b.length < 64 then some 0x01 else if !fcsGood b then some 0x04 else none

/-- The code that a frame meets at the MAC after its destination address, once it has arrived whole (R114, R115). -/
def State.judgeWhole (s : State) (p : Nat) (b : List Byte) (fifo : Option Nat) (err : RxError) : State × Option Nat :=
  match s.judgeMet p b fifo err with
  | (s, some c) => (s, some c)
  | (s, none) => (s, tailCode b)

/-- What the FEC reports, counted (R134, R135). -/
def State.fecReport (s : State) (p : Nat) (err : RxError) : State :=
  match err with
  | .fec more => (s.rxStat p 0x1D (more + 1)).flag (Obj.portFlags p) 2
  | .corrected n symbols =>
    (List.range (min 8 symbols.length)).foldl (fun s k =>
      s.put (Obj.fecLaneSymbols p k) (satAdd 32 (s.obj? (Obj.fecLaneSymbols p k)) (symbols.getD k 0))) (s.rxStat p 0x1C n)
  | _ => s

/-- The statistics of a delimited frame (R133, R134). -/
def State.macStats (s : State) (p : Nat) (b : List Byte) : State :=
  let l := b.length
  let good := fcsGood b
  let s := s.rxDelimited p l (s.maxFrame p)
  if l < 64 then s.rxStat p (if good then 9 else 10) 1
  else if s.maxFrame p < l then s.rxStat p (if good then 11 else 12) 1
  else if good then s else s.rxStat p 8 1

/-! ### MAC control frames (R116, R121) -/

/-- The frame is a MAC control frame. -/
def isControl (b : List Byte) : Bool := beAt b 12 2 == 0x8808

/-- A good MAC control frame is consumed: PAUSE and PFC act as RX_FLOW_CONTROL says (R116, R121). -/
def State.control (s : State) (p : Nat) (b : List Byte) : State :=
  let op := beAt b 14 2
  let mode := s.obj? (Obj.rxFlowControl p)
  if op = 0x0001 then
    let s := (s.rxStat p 0x10 1).code (s.portPipe p) 0x09
    if mode = 1 then ((List.range 8).foldl (fun s c => s.pauseFor p c (beAt b 16 2)) s).startTx p else s
  else if op = 0x0101 then
    let s := (s.rxStat p 0x11 1).code (s.portPipe p) 0x09
    let vector := Nat.land (beAt b 16 2) (s.obj? (Obj.pfcClassEnable p))
    if mode = 2 then ((bitList 8 vector).foldl (fun s c => s.pauseFor p c (beAt b (18 + 2 * c) 2)) s).startTx p else s
  else (s.rxStat p 0x12 1).code (s.portPipe p) 0x0A

/-! ### The link cipher on receive (R348, R353, R382) -/

/-- A frame judged by the link cipher as far as it has arrived: the bytes that the parser sees and what is latched, or the code
that ends it. -/
def State.decipher (s : State) (p : Nat) (b : List Byte) (whole : Bool) : State × Except Nat (List Byte × Option Seal) :=
  let g := p / 8
  if !s.cipherOn p then (s, .ok (b, none))
  else if s.fn (Fn.cipherNo g) = 3 then (s, .error 0xD0)
  else if !s.runs (Fn.cipherNo g) then (s, .error 0xB7)
  else match s.judgeSecure p b whole with
    | (s, .error c) => (s, .error c)
    | (s, .ok none) => (s, .ok (b, none))
    | (s, .ok (some x)) =>
      let (full, s) := if s.lineReduced (s.portPipe p) then s.free 1 else (0, s)
      if full = 1 then (s.secyCount p 7, .error 0xB8) else (s, .ok ((x.open b whole).1, some x))

/-- The ICV of a whole protected frame is checked, its blocks counted: whether it is good. -/
def State.checkIcv (s : State) (p : Nat) (x : Seal) (b : List Byte) : State × Bool :=
  let good := (x.open b true).2
  ((s.lineBlocks (s.portPipe p) (gcmBlocks (secureLength b))).icvChecked p x good, good)

/-! ### The ingress FIFO (R14, R97, R385-R387) -/

/-- Bytes that front frames of a group hold in a pipe's ingress FIFO. -/
def State.fifoBytes (s : State) (pipe g : Nat) : Nat :=
  ((s.framesAt (.fifo pipe)).filter fun f => f.port / 8 == g).map Frame.stored |>.sum

/-- A pipe serves two groups or more (R386). -/
def State.doubled (s : State) (pipe : Nat) : Bool := decide (2 ≤ (s.groupsOf pipe).length)

/-- A FIFO of a pipe has no room for `n` more bytes of a group. -/
def State.fifoFull (s : State) (pipe g n : Nat) : Bool :=
  decide ((if s.doubled pipe then 131072 else 262144) < s.fifoBytes pipe g + n)

/-- The code of a FIFO without room (R14, R386). -/
def State.fullCode (s : State) (pipe : Nat) : Nat := if s.doubled pipe then 0xD2 else 0x06

/-- The code that ends a frame of `n` bytes which a port's MAC would write into the ingress FIFO, if one does: the lowest (R23). -/
def State.refuseIngress (s : State) (p n : Nat) : Option Nat :=
  let g := p / 8
  let pipe := s.groupPipe g
  if pipe = 0xFF then some 0xD7
  else lowestCode [(!s.runs (Fn.pipeNo pipe) && !s.fenced pipe, 0x06), (s.fifoFull pipe g n, s.fullCode pipe),
    (s.fenced pipe, 0xD1), (s.faults.returns.contains g, 0xD8)]

/-- A frame as it enters an ingress half, before its first pass. -/
def arrivingFrame (source : Source) (port : Nat) (loc : FrameLoc) (b : List Byte) (complete : Bool) (time : Nat)
    (modes : PortModes) : Frame :=
  { id := 0, source := source, port := port, loc := loc, bytes := b, complete := complete, late := none, ingressTime := time,
    modes := modes, stamp := none, stampClock := 0, pass := 0, resume := none, graphB := false,
    latched := { firstTemplate := 0, failureAction := 0, slowMask := 0, parseContinue := false, checksum := false,
                 reliefFirst := 0, reliefNext := 0 },
    cls := 0, colour := .green, bd := 0, vrf := 0, vlan := none, parseFlags := 0, codes := [], forward := none,
    fwdRedirect := false, fwdMiss := false, fwdTemplate := 0, learned := false, kept := none, policer := none,
    context := { fwdClass := 0, fwdOffset := 0, labelStart := 0, labelDepth := 0, level1 := none, level2 := none,
                 level3 := none, entropy := 0 },
    retained := [], lateRegion := none, tail := none, record := none, cells := [], cellClass := 0, refs := 0, headers := [], copied := false,
    crossed := none }

/-- The ingress timestamp of a frame that begins now on a port (R129): every frame is stamped, since its records give the time whether or
not TIME is in force (R151, R190). -/
def State.ingressStamp (s : State) (p : Nat) : Nat := (s.time + 2 ^ 64 - s.obj? (Obj.rxPhyDelayNs p)) % 2 ^ 64

/-- A front frame written into its pipe's ingress FIFO, with what it took from its port as it began. -/
def State.enterFifo (s : State) (p : Nat) (b : List Byte) (complete : Bool) (time : Nat) (modes : PortModes) : State :=
  s.addFrame (arrivingFrame .front p (.fifo (s.portPipe p)) b complete time modes)

/-- A frame that the MAC has received good is counted (R134): one that the MAC itself has dropped, 0x06 to 0x08 included, is none of
them, one that the cipher then drops is (DESIGN CHOICE, log entry 109). -/
def State.accept (s : State) (p : Nat) (b : List Byte) : State := s.rxGood p b

/-- A frame not yet in the FIFO ends at its port with a code. -/
def State.endAtArrival (s : State) (p code : Nat) : State := (s.rxCode p code).code (s.portPipe p) code

/-- The code with which the ingress FIFO refuses a frame as far as it has arrived: none for a frame that does not go there, and no byte
goes there beyond MAX_FRAME (R14, R114). -/
def State.fifoCode (s : State) (p : Nat) (b : List Byte) (whole : Bool) : Option Nat :=
  if b.length < 14 || isControl b then none
  else match s.decipher p b whole with
    | (s, .ok (plain, _)) => s.refuseIngress p (min plain.length (s.maxFrame p))
    | (_, .error _) => none

/-- A whole frame that the MAC has found good goes on from there: cipher, then FIFO. `later` is the code that the cipher has found in
its head, `time` and `modes` what it took from its port as it began. -/
def State.takeWhole (s : State) (p : Nat) (b : List Byte) (later : Option Nat) (time : Nat) (modes : PortModes) : State :=
  match s.decipher p b true with
  | (s, .error c) => s.endAtArrival p (later.getD c)
  | (t, .ok (plain, latch)) =>
    match later with
    | some c => s.endAtArrival p c
    | none =>
      let (t, good) := match latch with
        | some x => t.checkIcv p x b
        | none => (t, true)
      if good then t.enterFifo p plain true time modes else t.endAtArrival p 0xB0

/-- A whole frame received, with the code its head met (R23, R114-R116). -/
def State.receiveWhole (s : State) (p : Nat) (b : List Byte) (head later : Option Nat) (time : Nat) (modes : PortModes)
    (err : RxError) : State :=
  let s := s.macStats p b
  match head with
  | some c => s.endAtArrival p c
  | none => match s.judgeWhole p b (if later.isSome then none else s.fifoCode p b true) err with
    | (s, some c) => s.endAtArrival p c
    | (s, none) =>
      let s := s.accept p b
      if isControl b then s.control p b else s.takeWhole p b later time modes

/-! ### Frames received in two parts (R19, R24, R90) -/

/-- The head of a frame: what is decided from it is, and a frame that passes is written into the FIFO while its rest arrives. One whose
Ethertype has not arrived is held back until it has, so that no control frame passes (R116). -/
def State.receiveHead (s : State) (p : Nat) (b : List Byte) (err : RxError) : State :=
  let time := s.ingressStamp p
  let modes := s.modesAt p
  let (s, code) := match s.headCode p b with
    | some c => (s, some c)
    | none => s.judgeMet p b (s.fifoCode p b false) err
  let s := s.setPort p fun x =>
    { x with rxActive := true, rxBytes := b, rxFrame := none, rxCode := code, rxLater := none, rxModes := modes, rxTime := time, rxSeal := none }
  if code.isSome || b.length < 14 || isControl b then s
  else match s.decipher p b false with
    | (_, .error c) => s.setPort p fun x => { x with rxLater := some c }
    | (t, .ok (plain, latch)) =>
      let id := t.nextId
      (t.enterFifo p plain false time modes).setPort p fun x => { x with rxFrame := some id, rxSeal := latch }

/-- The VOQ through which a copy has passed while its frame was incomplete. -/
def Copy.passedVoq (c : Copy) : Option Nat :=
  match c.loc with
  | .voq _ => none
  | .staged _ => none
  | .bin _ _ => none
  | _ => c.voq

/-- A frame's learn events may be judged: its FCS, and its ICV where it has one, is good (R188). -/
def State.readyLearns (s : State) (frame : Nat) : State :=
  let now := s.clock
  { s with em := { s.em with learns := s.em.learns.map fun (l : Learn) =>
    if l.frame = frame then { l with ready := l.ready <|> some now } else l } }

/-- An exception record written to ring 1, and the code its frame ends with: the record's CAUSE where the ring is full (R22, R151). -/
def State.pushException (s : State) (pipe : Nat) (r : List Byte) : State × Nat :=
  if s.ringFull 1 then (s.ringPush 1 [], (r.getD 8 0).toNat)
  else ((s.ringPush 1 r).bump64 (Obj.exceptionRecords pipe), 0x00)

/-- A frame whose passes are over ends at its tail with the code it has held since (R23), or with what its exception record gives it,
of which the tail tells FRAME_LENGTH (R151). -/
def State.endAtTail (s : State) (f : Frame) (length : Nat) : State :=
  match f.record with
  | none => s.endFrame f.id (f.late.getD 0)
  | some (pipe, r) =>
    let (s, code) := s.pushException pipe (toBe 32 (putBits (beNat (r.take 32)) 167 154 length) ++ r.drop 32)
    s.endFrame f.id code

/-- A frame takes the rest of its bytes: its cells, its VOQ's balance and the streams that carry it take them too (R300, R331).
One whose passes are over ends with the code it has held since (R23). -/
def State.takeTail (s : State) (frame : Nat) (b : List Byte) : State :=
  match s.frame? frame with
  | none => s
  | some f =>
    let rest := b.drop f.bytes.length
    let s := s.setFrame frame fun f => { f with bytes := b }
    let w : Writer := { port := s.portPipe f.port, cls := f.cellClass, rivals := [] }
    match s.growCells w frame with
    | (s, some code) => s.loseFrame frame code code
    | (s, none) =>
      if f.loc = .ending then s.endAtTail f b.length else
      let cs := s.copies.filter fun c => c.frame == frame
      let s := cs.foldl (fun s c => match c.passedVoq with
        | some v => s.payCredit v rest.length
        | none => s) s
      let s := cs.foldl (fun s c => match s.openStream c.id with
        | some key => s.appendTail key c.id rest false
        | none => s) s
      s.completeFrame frame

/-- The rest of a frame's bytes has arrived good. One with a region end to check waits for that check (R146). -/
def State.finishFrame (s : State) (frame : Nat) (b : List Byte) : State :=
  let s := s.readyLearns frame
  if (s.frame? frame).any fun f => f.lateRegion.isSome then s.setFrame frame fun f => { f with tail := some b }
  else s.takeTail frame b

/-! ### Late length checks (R146) -/

/-- A conflict found at a frame's tail is counted. -/
def State.countConflict (s : State) (pipe : Nat) : State := (s.bump64 (Obj.lateConflicts pipe)).flag (Obj.pipeFlags pipe) 1

/-- A frame of `n` bytes falls short of a region end that lay beyond its windows. -/
def Frame.fallsShort (f : Frame) (n : Nat) : Bool := f.lateRegion.any fun r => decide (n < r + 4)

/-- The check of a frame at its tail: a frame that falls short ends with 0x20 unless FAILURE_ACTION 2 forwards it, a frame whose
passes are over with its own code where that is a parser code. -/
def State.checkTail (s : State) (f : Frame) (b : List Byte) : State :=
  let short := f.fallsShort b.length
  let s := if short then s.countConflict (s.framePipe f) else s
  let s := s.setFrame f.id fun f => { f with lateRegion := none, tail := none }
  if short && f.latched.failureAction != 2 then
    if f.loc = .ending then (if f.late.getD 0 < 0x40 then s.endAtTail f b.length else s.endFrame f.id 0x20)
    else s.loseFrame f.id 0x20 0x20
  else s.takeTail f.id b

/-- LATE_LENGTH_CHECK (R146). -/
def execLateLengthCheck (frame : Nat) (s : State) : Result :=
  match s.frame? frame with
  | none => .next s
  | some f => match f.tail with
    | some b => .next (s.checkTail f b)
    | none => .next s

/-- The code of a frame whose head still stands in the ingress FIFO and whose rest, up to `n` bytes in all, finds no room there (R14). -/
def State.tailRefused (s : State) (frame n : Nat) : Option Nat :=
  match s.frame? frame with
  | none => none
  | some f => match f.loc with
    | .fifo pipe => if s.fifoFull pipe (f.port / 8) (n - f.stored) then some (s.fullCode pipe) else none
    | _ => none

/-- The tail of a frame whose head is in the FIFO, or beyond it. -/
def State.finishReception (s : State) (p frame : Nat) (b : List Byte) (latch : Option Seal) (err : RxError) : State :=
  let n := match latch with
    | some x => (x.open b true).1.length
    | none => b.length
  match s.judgeWhole p b (s.tailRefused frame (min n (s.maxFrame p))) err with
  | (s, some c) =>
    let late := if c = 0x02 then 0x03 else c
    (s.rxCode p c).loseFrame frame c late
  | (s, none) =>
    let s := s.accept p b
    match latch with
    | none => s.finishFrame frame b
    | some x =>
      if !secureGood b then (s.secyCount p 2).loseFrame frame 0xB1 0xB1
      else match s.checkIcv p x b with
        | (s, true) => s.finishFrame frame (x.open b true).1
        | (s, false) => s.loseFrame frame 0xB0 0xB0

/-- The rest of a frame in reception. A destination address that its head did not hold is tested now (R119). -/
def State.receiveTail (s : State) (p : Nat) (rest : List Byte) (err : RxError) : State :=
  let x := s.port p
  let b := x.rxBytes ++ rest
  let s := s.setPort p fun y => { y with rxActive := false, rxBytes := [], rxFrame := none, rxCode := none, rxLater := none, rxSeal := none }
  match x.rxFrame with
  | some f => (s.macStats p b).finishReception p f b x.rxSeal err
  | none =>
    let late := x.rxCode.isNone && decide (x.rxBytes.length < 6) && s.filtered p b
    s.receiveWhole p b (if late then some 0x08 else x.rxCode) x.rxLater x.rxTime x.rxModes err

/-- A frame, or a part of one, at the pins of a port: none is delimited without a link, and a part that does not fit what is in
reception is not taken. -/
def State.receive (s : State) (p : Nat) (part : RxPart) (b : List Byte) (err : RxError) : State :=
  let active := (s.port p).rxActive
  let fits := match part with
    | .tail => active
    | _ => !active
  if !s.ready || s.link p != 5 || !fits then s
  else
    let s := s.fecReport p err
    match part with
    | .whole => s.receiveWhole p b (s.headCode p b) none (s.ingressStamp p) (s.modesAt p) err
    | .head => s.receiveHead p b err
    | .tail => s.receiveTail p b err

/-- RECEIVED_FRAME (R114). -/
def execReceivedFrame (port : Port) (part : RxPart) (bytes : List Byte) (err : RxError) (s : State) : Result :=
  .next (s.receive port.val part bytes err)

/-- PAUSE_FRAME (R116, R121): the frame's own bytes say what it is. -/
def execPauseFrame (port : Port) (bytes : List Byte) (s : State) : Result := .next (s.receive port.val .whole bytes .none)

/-- PFC_FRAME (R116, R121). -/
def execPfcFrame (port : Port) (bytes : List Byte) (s : State) : Result := .next (s.receive port.val .whole bytes .none)

/-- MAC_CONTROL_FRAME (R116). -/
def execMacControlFrame (port : Port) (bytes : List Byte) (s : State) : Result :=
  .next (s.receive port.val .whole bytes .none)

/-- HOST_INJECTION (R13): a frame without its FCS, parsed as if the port it names had received it, waits for a slot of its class.
A pipe that admits no frame takes none. -/
def execHostInjection (port : Port) (bytes : List Byte) (s : State) : Result :=
  let p := port.val
  let pipe := s.portPipe p
  if !s.ready || pipe == 0xFF || s.fenced pipe || !s.runs (Fn.pipeNo pipe) then .next s
  else .next (s.addFrame (arrivingFrame .host p (.inject pipe) (bytes ++ fcs bytes) true s.time (s.modesAt p)))

/-! ### Cut-through start (R90, R284) -/

/-- A copy's frame may leave port `p` by cut-through: the port has CUT in force and its frame's source is no slower. -/
def State.mayCut (s : State) (p : Nat) (c : Copy) (f : Frame) : Bool :=
  let t := s.cutThreshold p
  let rate := s.obj? (Obj.portDataRate p)
  let source := match f.crossed with
    | some (cut, row) => cut && decide (rate ≤ rowRate row)
    | none => decide (rate ≤ s.obj? (Obj.portDataRate f.port))
  (s.modesAt p).cut && decide (t < s.maxFrame p) && source && !c.returned && decide (t ≤ f.stored)

/-- CUT_THROUGH_START (R284). -/
def execCutThroughStart (port : Port) (s : State) : Result :=
  let p := port.val
  if !s.mayTransmit p || (s.port p).tx.isSome then .next s
  else match s.nextToStart p with
    | none => .next s
    | some c => match s.frame? c.frame with
      | some f => if !f.complete && s.mayCut p c f then .next (s.beginTx p c true) else .next s
      | none => .next s

/-! ### PTP (R129-R131) -/

/-- What stands at a place of a frame that is read for its PTP message: an Ethernet header, what an
Ethertype says, a label, an IP header, or what an IP protocol number says. -/
inductive WireAt where
  | ethernet | label | ip4 | ip6
  | type (ethertype : Nat)
  | protocol (number : Nat)
  deriving DecidableEq, Repr

/-- Where the PTP message stands in a frame, read on from a place, and whether UDP carries it: behind tags, labels, IP tunnels, IPv6
extension headers, GRE, VXLAN and GENEVE. -/
def locateFrom (b : List Byte) : Nat → WireAt → Nat → Option (Nat × Bool)
  | 0, _, _ => none
  | n + 1, kind, i =>
    match kind with
    | .ethernet =>
      let j := i + 12 + tagLength 4 (b.drop (i + 12))
      locateFrom b n (.type (beAt b j 2)) (j + 2)
    | .type e =>
      if e = 0x88F7 then some (i, false)
      else if e = 0x0800 then locateFrom b n .ip4 i
      else if e = 0x86DD then locateFrom b n .ip6 i
      else if e = 0x8847 ∨ e = 0x8848 then locateFrom b n .label i
      else if e = 0x6558 then locateFrom b n .ethernet i
      else none
    | .label =>
      if !bit (beAt b i 4) 8 then locateFrom b n .label (i + 4)
      else
        let v := beAt b (i + 4) 1 / 16
        if v = 4 then locateFrom b n .ip4 (i + 4)
        else if v = 6 then locateFrom b n .ip6 (i + 4)
        else if v = 0 then locateFrom b n .ethernet (i + 8)
        else locateFrom b n .ethernet (i + 4)
    | .ip4 => if beAt b (i + 6) 2 % 0x2000 ≠ 0 then none else locateFrom b n (.protocol (beAt b (i + 9) 1)) (i + 4 * (beAt b i 1 % 16))
    | .ip6 => locateFrom b n (.protocol (beAt b (i + 6) 1)) (i + 40)
    | .protocol p =>
      if p = 17 then
        let port := beAt b (i + 2) 2
        if port = 319 then some (i + 8, true)
        else if port = 4789 then locateFrom b n .ethernet (i + 16)
        else if port = 6081 then locateFrom b n (.type (beAt b (i + 10) 2)) (i + 16 + 4 * (beAt b (i + 8) 1 % 64))
        else none
      else if p = 0 ∨ p = 43 ∨ p = 60 then locateFrom b n (.protocol (beAt b i 1)) (i + 8 * (beAt b (i + 1) 1 + 1))
      else if p = 44 then (if bits (beAt b (i + 2) 2) 15 3 = 0 then locateFrom b n (.protocol (beAt b i 1)) (i + 8) else none)
      else if p = 4 then locateFrom b n .ip4 i
      else if p = 41 then locateFrom b n .ip6 i
      else if p = 47 then
        let flags := beAt b i 1
        locateFrom b n (.type (beAt b (i + 2) 2)) (i + 4 + 4 * (b2n (bit flags 7) + b2n (bit flags 5) + b2n (bit flags 4)))
      else none

/-- Where the PTP message stands in a frame that leaves, found from its Ethernet header, and whether UDP carries it. -/
def locatePtp (b : List Byte) : Option (Nat × Bool) := locateFrom b 64 .ethernet 0

/-- Where the PTP message of a frame stands in its edited bytes: for a frame parsed here, as far from the end as its header was;
for one from the fabric, where the bytes show it (DESIGN CHOICE: nothing that crosses the fabric places it). -/
def Frame.ptpAt (f : Frame) (edited : List Byte) : Option (Nat × Bool) :=
  if f.isRemote then locatePtp edited
  else match f.headers.find? fun h => h.1 == 12 with
    | some (_, off, _) =>
      let udp := f.headers.any fun h => h.1 == 9 && h.2.1 + h.2.2 == off
      if f.stored - 4 - off ≤ edited.length then some (edited.length - (f.stored - 4 - off), udp) else none
    | none => none

/-- A 16-bit one's complement sum of a byte string. -/
def onesSum (b : List Byte) : Nat :=
  (List.range (ceilDiv b.length 2)).foldl (fun a i =>
    let v := a + beAt (padTo (2 * ceilDiv b.length 2) b) (2 * i) 2
    if 65536 ≤ v then v - 65535 else v) 0

/-- A checksum updated for a field that changes from `m` to `n` (R130). -/
def updateChecksum (sum : Nat) (m n : List Byte) : Nat :=
  let v := 65535 - onesSum (toBe 2 (65535 - sum) ++ (m.map fun x => ~~~x) ++ n)
  if v = 0 then 65535 else v

/-- correctionField with a residence in nanoseconds added, in units of 2^-16 ns (R130). The spec states no sum that its 64 bits
cannot hold: that value is free. -/
def State.corrected (s : State) (field residence : Nat) : Nat × State :=
  let v := toInt 64 field + toInt 64 residence * 65536
  if -(2 ^ 63) ≤ v ∧ v < 2 ^ 63 then (ofInt 64 v, s) else s.free 64

/-- A frame's event message is treated by PTP_STEP of port `p` (R130): the edited bytes that leave, before any padding. The first record
written goes to position 0 of TS_RECORDS: the nth, counted from 0, to n mod 16 (DESIGN CHOICE, log entry 109). -/
def State.ptpStep (s : State) (p : Nat) (f : Frame) (b : List Byte) (t : Tx) : State × List Byte :=
  let stamp := t.stamp
  let marked := bit f.parseFlags 6 && (f.isRemote || f.modes.time) && t.timed
  match (if marked then f.ptpAt b else none) with
  | none => (s, b)
  | some (at_, udp) =>
    if s.obj? (Obj.ptpStep p) = 1 then
      let old := slice b (at_ + 8) 8
      let (v, s) := s.corrected (beNat old) ((stamp + 2 ^ 64 - f.ingressTime) % 2 ^ 64)
      let new := toBe 8 v
      let sum := beAt b (at_ - 2) 2
      let b := splice b (at_ + 8) new
      (s, if udp && sum != 0 then splice b (at_ - 2) (toBe 2 (updateChecksum sum old new)) else b)
    else if s.obj? (Obj.ptpStep p) = 2 then
      let n := s.obj? (Obj.tsWriteCount p)
      let rec_ := field 64 (stamp % 2 ^ 64) + field 48 (beAt b (at_ + 30) 2) + field 40 (beAt b (at_ + 4) 1) +
        field 36 (beAt b at_ 1 % 16)
      ((s.putBytes (Obj.tsRecords p) (16 * (n % 16)) (toBe 16 rec_)).wrap32 (Obj.tsWriteCount p), b)
    else (s, b)

/-! ### The end of transmission (R22, R117, R118, R354, R355) -/

/-- A frame padded to 60 bytes before its FCS (R118). -/
def padded (b : List Byte) : List Byte := b ++ List.replicate (60 - b.length) 0

/-- The frame as it leaves the MAC, FCS apart: protected where it is (R354). -/
def Tx.onWire (t : Tx) (b : List Byte) : List Byte :=
  match t.protect with
  | some x => x.apply b
  | none => b

/-- A protected frame would leave longer than MAX_FRAME (R355). -/
def Tx.tooLong (t : Tx) (b : List Byte) (maxFrame : Nat) : Bool :=
  match t.protect with
  | some x => decide (maxFrame < protectedLength x.config (b.length + 4))
  | none => false

/-- The blocks of a frame that leaves protected are counted. -/
def State.sendBlocks (s : State) (p : Nat) (t : Tx) (n : Nat) : State :=
  match t.protect with
  | some _ => s.lineBlocks (s.portPipe p) (gcmBlocks (n - 12))
  | none => s

/-- The frame in transmission on a port has left whole, or is stomped at MAX_FRAME. -/
def State.endTransmit (s : State) (p : Nat) (t : Tx) (c : Copy) (f : Frame) : State :=
  let (s, edited) := s.ptpStep p f c.edited t
  let b := padded edited
  let s := s.sendBlocks p t b.length
  if t.tooLong b (s.maxFrame p) then (s.secyCount p 11).stomp p 0xB6
  else
    let wire := t.onWire b
    let s := (s.setPort p fun x => { x with tx := none }).txGood p (wire ++ fcs wire)
    s.endAtPort p c.id 0x00

/-- TRANSMIT_END (R22): the last byte of a copy leaves. A copy whose frame's tail has not arrived cannot end. -/
def execTransmitEnd (port : Port) (s : State) : Result :=
  let p := port.val
  match (s.port p).tx with
  | none => .next s
  | some t => match s.copy? t.copy with
    | none => .next s
    | some c => match s.frame? c.frame with
      | some f => if f.complete then .next ((s.endTransmit p t c f).startTx p) else .next s
      | none => .next s

/-! ### Cut-through cells (R275) -/

/-- GRANT_TIMEOUT (R275): a frame still being written, whose cell was not granted in time, is tail-dropped. -/
def execGrantTimeout (frame : Nat) (s : State) : Result :=
  match s.frame? frame with
  | some f => if f.complete || f.cells.isEmpty then .next s else .next (s.loseFrame frame 0x85 0x85)
  | none => .next s

end Sys2Proof.Machine
end

