-- ==== Sys2Proof/Machine/Lookup.lean ====
section
/-! DEFINITION. The probes of a pass: profiles, keys, prefix lookup, parity and cross-quadrant probes, and the learn events they
raise (R169-R184, R188, R242, R250). -/

namespace Sys2Proof.Machine

/-! ### Direct tables (R180, R181) -/

/-- A port profile entry. -/
def State.portProfile (s : State) (p : Nat) : Nat := s.record Obj.portProfiles 16 p

/-- A BD entry. -/
def State.bdEntry (s : State) (bd : Nat) : Nat := s.record Obj.bdTable 8 bd

/-- A VRF entry. -/
def State.vrfEntry (s : State) (vrf : Nat) : Nat := s.record Obj.vrfTable 8 vrf

/-- The first VLAN instance's VLAN ID. -/
def vlanId (i : ParseInput) (xs : List Instance) : Option Nat := (xs.find? fun x => x.cls == 2).map fun x => i.field x.offset 4 12

/-- A frame's BD, from its port profile and the VLAN ID of its first pass (R181). -/
def State.frameBd (s : State) (p : Nat) (vlan : Option Nat) : Nat :=
  let e := s.portProfile p
  match bit e 87, vlan with
  | true, some v => (bits e 101 88 + v) % 16384
  | _, _ => bits e 115 102

/-! ### Keys (R162, R174, R177) -/

/-- The class of the instance that a key type reads (R174). -/
def keyClass (t : Nat) : Nat := if t = 5 then 1 else if t = 1 ∨ t = 3 then 4 else if t = 2 ∨ t = 4 then 5 else 3

/-- The address that a descriptor reads from its instance. -/
def keyAddress (i : ParseInput) (t : Nat) (source : Bool) (off : Nat) : Nat :=
  if t = 5 then i.field off (if source then 48 else 0) 48
  else if t = 6 then i.field off 0 20
  else if t = 1 ∨ t = 3 then i.field off (if source then 96 else 128) 32
  else i.field off (if source then 64 else 192) 128

/-- The key of a prefix lookup at a LEN_INDEX: the address kept to the length's most significant bits. -/
def State.prefixKeyAt (s : State) (t vrf address j : Nat) : Nat :=
  let len := bits (s.probeEntry (t - 1) j) 31 24 - 1
  if t = 1 then field 64 vrf + field 60 j + field 28 (address / 2 ^ (32 - len) * 2 ^ (32 - len))
  else field 142 vrf + field 138 j + field 10 (address / 2 ^ (128 - len) * 2 ^ (128 - len))

/-- The key of a probe that is no prefix probe. -/
def exactKey (t bd vrf space address : Nat) : Nat :=
  if t = 5 then field 64 bd + address
  else if t = 6 then field 64 space + address
  else if t = 3 then field 64 vrf + address
  else field 142 vrf + address

/-! ### One probe (R169, R182, R184) -/

/-- The bank of a bucket serves no probe: it is fenced (R184), or under test by an EM_BANK slice (R397). -/
def State.emBankAway (s : State) (q n : Nat) : Bool :=
  s.emBankFenced q n || s.kindOn 11 (0x280 + 64 * q + n / 32768)

/-- A bucket of a key in copy `q` lies in a bank that is away. -/
def State.emCut (s : State) (q t key : Nat) : Bool :=
  s.emBankAway q (s.bucket1 q t key) || s.emBankAway q (s.bucket2 q t key)

/-- What copy `q` answers to a probe of a key: none where it cannot serve it. Beside a bank that is away, a unit in the other bucket or
the overflow store is found: there stand those re-placed (R184). The whole answer is the other copy's where its crossbar is fenced, or
where a bank that is away may hold the key (DEDUCED, log entry 112). -/
def State.emAnswer (s : State) (q slot t key : Nat) : Option (Option EmUnit) :=
  if s.fenced (0x20 + q) then none
  else if !s.emCut q t key then some (s.emFind q slot t key)
  else match s.emFind q slot t key with
    | some u => if u.n < overflowBase && s.emBankAway q u.n then none else some (some u)
    | none => none

/-- A probe's hit: the unit, by the events of quadrant `q`. -/
def State.countHit (s : State) (q : Nat) (u : Option EmUnit) : State :=
  match u with
  | some x => (s.count (0x128 + 8 * q + 3)).countN (0x128 + 8 * q + 6) (b2n (decide (overflowBase ≤ x.n)))
  | none => s

/-- A probe missed on parity or on fenced banks. -/
def State.lostProbe (s : State) (k : Nat) : State := (s.bump64 k).flag Obj.tableSummary 1

/-- What one probe gives: its unit, and whether it spent a slot on a retry. -/
structure ProbeOut where
  unit : Option EmUnit
  retried : Bool
  deriving DecidableEq, Repr

/-- The number of the bucket or overflow unit that a probe of copy `c` reads at a place. -/
def State.readPlace (s : State) (c t key : Nat) : EmRead → Nat
  | .first => s.bucket1 c t key
  | .second => s.bucket2 c t key
  | .overflow n => overflowBase + n.val

/-- The unit that a parity error at a place of copy `c` is reported against, and its address there (R182): the bank of a bucket, or the
quadrant's lookup crossbar for the overflow store. -/
def parityUnit (c n : Nat) : Nat × Nat :=
  if overflowBase ≤ n then (0x20 + c, n - overflowBase) else (0x280 + 64 * c + n / 32768, n % 32768)

/-- A parity error met by a probe of copy `c` (R182): the retry, and the fault that it is. The overflow store's errors are those of
checker 1 of the crossbar (table Units). -/
def State.probeParity (s : State) (pipe q c slot t key : Nat) (parity : ParityEvent) (place : EmRead) : State × ProbeOut :=
  let n := s.readPlace c t key place
  let r := Nat.xor c 1
  let answer := if s.obj? Obj.emParityRetry = 1 then s.emAnswer r slot t key else none
  let report := fun (cls : Nat) =>
    { unit := (parityUnit c n).1, checker := b2n (decide (overflowBase ≤ n)), cls := cls, access := 2, master := pipe,
      address := (parityUnit c n).2 : Report }
  let s := (s.markCorrupt c n).request 2
  let s := if answer.isSome then (s.bump64 (Obj.emParityRetries c)).count (0x128 + 8 * q + 5) else s
  match answer, parity with
  | some u, .once => ((s.countHit q u).judge (report 0), { unit := u, retried := true })
  | _, _ => ((s.lostProbe (Obj.emParityMisses c)).judge (report 1), { unit := none, retried := answer.isSome })

/-- A probe of a key from a pass of quadrant `q` stamped with a slot: in its own copy, or whole in copy `q` XOR 1. -/
def State.probe (s : State) (pipe q slot t key : Nat) (parity : ParityEvent × EmRead) : State × ProbeOut :=
  let s := s.count (0x128 + 8 * q)
  let cross := (s.emAnswer q slot t key).isNone
  let c := if cross then Nat.xor q 1 else q
  let s := if cross then s.count (0x128 + 8 * q + 5) else s
  match s.emAnswer c slot t key with
  | none => (s.lostProbe (Obj.emLostProbes q), { unit := none, retried := false })
  | some u =>
    if parity.1 = .clean || decide (s.readPlace c t key parity.2 < overflowBase) && s.emBankAway c (s.readPlace c t key parity.2) then
      (s.countHit q u, { unit := u, retried := false })
    else s.probeParity pipe q c slot t key parity.1 parity.2

/-! ### Prefix lookup (R177-R179) -/

/-- A length's filter in copy `q` reports a key. -/
def State.filterReports (s : State) (q t key : Nat) : Bool := (s.filterBits q t key).all fun n => s.filterCount q n != 0

/-- The candidate mask of a prefix lookup: the lengths in use whose filters report their key, and one whose filter word met a
parity error (R179, R182). The filters of a fenced crossbar are those of copy `q` XOR 1. -/
def State.candidates (s : State) (q t vrf address : Nat) (parity : List Nat) : Nat :=
  let c := if s.fenced (0x20 + q) then Nat.xor q 1 else q
  ((List.range 12).map fun j =>
    if bits (s.probeEntry (t - 1) j) 31 24 != 0 &&
        (parity.contains j || s.filterReports c t (s.prefixKeyAt t vrf address j)) then 2 ^ j else 0).sum

/-- The parity errors in the filter words that a prefix lookup reads (R182). -/
def State.filterParity (s : State) (pipe q t : Nat) (parity : List Nat) : State :=
  parity.foldl (fun s j => if bits (s.probeEntry (t - 1) j) 31 24 = 0 then s else
    (s.request 2).judge { unit := 0x20 + q, checker := 2, cls := 0, access := 2, master := pipe, address := j }) s

/-- The parity that the next probe meets. -/
def nextParity (ps : List (ParityEvent × EmRead)) : ParityEvent × EmRead := ps.head?.getD (.clean, .first)

/-- How a pass's prefix probes end. -/
inductive PrefixEnd where
  | hit (u : EmUnit) | miss | more (index : Nat) | limit
  deriving DecidableEq, Repr

/-- How the prefix probes of a pass end, the slots spent on retries, and the probes issued. -/
structure PrefixOut where
  ended : PrefixEnd
  retries : Nat
  probes : Nat
  deriving DecidableEq, Repr

/-- The prefix probes of one pass over the candidates left (R179). -/
def State.prefixProbes (s : State) (pipe q slot vrf pass : Nat) (w : PrefixWork) :
    List (ParityEvent × EmRead) → List Nat → Nat → State × PrefixOut
  | _, [], used => (s, { ended := .miss, retries := 0, probes := used })
  | ps, j :: js, used =>
    if w.allowance ≤ used then (s, { ended := if pass < 3 then .more j else .limit, retries := 0, probes := used })
    else
      let (s, o) := (s.count (0x128 + 8 * q + 1)).probe pipe q slot w.keyType (s.prefixKeyAt w.keyType vrf w.address j) (nextParity ps)
      match o.unit with
      | some u => (s, { ended := .hit u, retries := b2n o.retried, probes := used + 1 })
      | none =>
        let (s, x) := (s.bump64 Obj.prefixFalseProbes).prefixProbes pipe q slot vrf pass w ps.tail js (used + 1)
        (s, { x with retries := x.retries + b2n o.retried })

/-- The prefix probes of a pass from the work's continue-index on. -/
def State.runPrefix (s : State) (pipe q slot vrf pass : Nat) (w : PrefixWork) (parity : List (ParityEvent × EmRead)) :
    State × PrefixOut :=
  s.prefixProbes pipe q slot vrf pass w parity ((bitList 12 w.mask).filter fun j => w.index ≤ j) 0

/-! ### What a result means (R161, R176, R242, R250) -/

/-- The forwarding result of a unit. -/
def resultForward (r : Nat) : Forward := if bits r 39 36 = 0 then .nextHop (bits r 35 18) else .drop

/-- META of a result. -/
def resultMeta (r : Nat) : Nat := bits r 9 0

/-- The outcome of a FORWARD descriptor of a type that missed (table of R176). -/
def State.missOutcome (s : State) (t bd vrf : Nat) : Forward :=
  let v := s.vrfEntry vrf
  if t = 5 then (let g := bits (s.bdEntry bd) 49 34; if g = 0xFFFF then .miss 0x42 else .flood g)
  else if t = 6 then .miss 0x45
  else if t = 1 ∨ t = 3 then (if bit v 63 then .nextHop (bits v 62 45) else .miss 0x40)
  else if bit v 44 then .nextHop (bits v 43 26) else .miss 0x40

/-- FLOW_BYTES of a frame by a pass's vector (R250). Where that pass has no IP instance, the addresses of the frame's first Ethernet
instance, of any pass, are taken (DEDUCED, log entry 113). -/
def flowBytes (b : List Byte) (headers : List (Nat × Nat × Nat)) (xs : List Instance) : List Byte :=
  match pickInstance (xs.filter fun x => x.cls == 4 || x.cls == 5) 4 true, pickInstance xs 5 true with
  | some v4, some v6 => if v4.offset < v6.offset then ip6 v6 else ip4 v4
  | some v4, none => ip4 v4
  | none, some v6 => ip6 v6
  | none, none => match headers.find? fun h => h.1 == 1 with
    | some e => slice b e.2.1 12
    | none => []
where
  /-- The first 4 bytes of the layer 4 instance that follows an offset. -/
  layer4 (off : Nat) : List Byte :=
    match xs.find? fun x => off < x.offset && (x.cls == 9 || x.cls == 10 || x.cls == 11) with
    | some x => slice b x.offset 4
    | none => []
  /-- The flow bytes of an IPv4 instance. -/
  ip4 (x : Instance) : List Byte := slice b (x.offset + 12) 8 ++ slice b (x.offset + 9) 1 ++ layer4 x.offset
  /-- The flow bytes of an IPv6 instance. -/
  ip6 (x : Instance) : List Byte := slice b (x.offset + 8) 32 ++ slice b (x.offset + 6) 1 ++ layer4 x.offset

/-- H[13:0] of R250 for a pass. -/
def flowEntropy (b : List Byte) (headers : List (Nat × Nat × Nat)) (xs : List Instance) : Nat :=
  crc32c (flowBytes b headers xs) % 2 ^ 14

/-! ### The probes of a profile (R173-R176, R187, R188) -/

/-- Probe descriptor `k` of a profile. -/
def State.descriptor (s : State) (profile k : Nat) : Nat := beNat (s.bytes Obj.lookupProfiles (32 * profile + 4 * k) 4)

/-- The descriptors of a profile. -/
def State.descriptors (s : State) (profile : Nat) : List Nat := (List.range 8).map (s.descriptor profile)

/-- The probes that a prefix descriptor of the profile may use (R175). -/
def allowanceOf (ds : List Nat) : Nat := min 4 (8 - ((ds.filter fun d => bit d 31).length - 1))

/-- What a pass's probes read beside the tables. -/
structure PassView where
  pipe : Nat
  quadrant : Nat
  slot : Nat
  frame : Frame
  input : ParseInput
  instances : List Instance

/-- The probes of a pass under way. -/
structure Probing where
  state : State
  gain : LookupGain
  /-- parity still to be met, by probes and in filter words -/
  parity : List (ParityEvent × EmRead)
  bloom : List Nat
  /-- a prefix descriptor has issued; slots spent on retries; some probe was issued -/
  prefixed : Bool
  retries : Nat

/-- Nothing gained. -/
def noGain : LookupGain :=
  { forward := none, missed := none, metas := List.replicate 8 0, forwardMeta := 0, entropy := 0, more := none,
    limit := false, learned := false }

/-- A LEARN descriptor of a frame raises an event (R188): LEARN was in force on its port as it was received, its BD allows it, and no earlier pass
issued one. -/
def State.mayLearn (s : State) (f : Frame) : Bool :=
  !f.learned && !f.isRemote && f.modes.learn && bit (s.bdEntry f.bd) 33

/-- The learn event of a LEARN descriptor, if it raises one. -/
def State.learn (s : State) (f : Frame) (pipe mac : Nat) (u : Option EmUnit) : State :=
  let l : Learn := { frame := f.id, pipe := pipe, miss := u.isNone, port := f.port, entryPort := 0, bd := f.bd, mac := mac, vlan := f.vlan,
                     slot := f.stamp.getD 0, time := f.ingressTime, ready := if f.complete then some s.clock else none }
  if !s.mayLearn f then s
  else match u with
    | none => { s with em := { s.em with learns := s.em.learns ++ [l] } }
    | some x =>
      if bit x.result 17 && bits x.result 16 10 != f.port then
        { s with em := { s.em with learns := s.em.learns ++ [{ l with entryPort := bits x.result 16 10 }] } }
      else s

/-- The hit bit of a unit set (R187). -/
def State.setHit (s : State) (u : Option EmUnit) : State :=
  match u with
  | some x => let h := x.copy * 2 ^ 22 + x.n
    if s.em.hits.contains h then s else { s with em := { s.em with hits := s.em.hits ++ [h] } }
  | none => s

/-- A descriptor's outcome joined to the gain: it issued, and what it hit, if it did. -/
def LookupGain.join (g : LookupGain) (k : Nat) (forward : Bool) (place : Option KeyedAt) (missed : Forward) (u : Option EmUnit) :
    LookupGain :=
  let g := if forward && g.missed.isNone then { g with missed := some (missed, place) } else g
  match u with
  | some x =>
    let g := { g with metas := g.metas.set k (resultMeta x.result) }
    if forward && g.forward.isNone then
      { g with forward := some (resultForward x.result, place), forwardMeta := resultMeta x.result }
    else g
  | none => g

/-- What a prefix lookup that gives no result leaves its frame with: code 0x43 where it has run out of passes, which is no miss
(R179, DEDUCED), else the miss outcome of its family (R176). -/
def State.prefixMiss (s : State) (t : Nat) (f : Frame) : PrefixEnd → Forward
  | .limit => .miss 0x43
  | _ => s.missOutcome t f.bd f.vrf

/-- The unit that a prefix lookup hit. -/
def PrefixEnd.unit : PrefixEnd → Option EmUnit
  | .hit u => some u
  | _ => none

/-- What a prefix lookup that has not come to its end leaves for later passes. -/
def LookupGain.prefixed (g : LookupGain) (w : PrefixWork) : PrefixEnd → LookupGain
  | .more j => { g with more := some { w with index := j } }
  | .limit => { g with limit := true }
  | _ => g

/-- The prefix descriptor of a pass: the lookup it begins, run. -/
def Probing.prefix (a : Probing) (v : PassView) (k t allowance : Nat) (forward source : Bool) (x : Instance) : Probing :=
  let f := v.frame
  let address := keyAddress v.input t source x.offset
  let mask := a.state.candidates v.quadrant t f.vrf address a.bloom
  let s := (a.state.filterParity v.pipe v.quadrant t a.bloom).countN (0x128 + 8 * v.quadrant + 2) (popCount 12 mask)
  let place : KeyedAt := { cls := x.cls, offset := x.offset, template := x.template }
  let w : PrefixWork := { keyType := t, address := address, mask := mask, index := 0, allowance := allowance, forward := forward,
                          place := place, entropy := a.gain.entropy }
  let (s, x) := s.runPrefix v.pipe v.quadrant v.slot f.vrf f.pass w a.parity
  let g := (a.gain.join k forward (some place) (s.prefixMiss t f x.ended) x.ended.unit).prefixed w x.ended
  { state := s, gain := g, parity := a.parity.drop x.probes, bloom := [], prefixed := true, retries := a.retries + x.retries }

/-- A descriptor that is no prefix descriptor: its probe. -/
def Probing.exact (a : Probing) (v : PassView) (k t : Nat) (d : Nat) (x : Instance) : Probing :=
  let f := v.frame
  let address := keyAddress v.input t (bit d 23) x.offset
  let key := exactKey t f.bd f.vrf (bits (a.state.portProfile f.port) 86 73) address
  let (s, o) := a.state.probe v.pipe v.quadrant v.slot t key (nextParity a.parity)
  let place : Option KeyedAt := if t = 5 then none else some { cls := x.cls, offset := x.offset, template := x.template }
  let s := if bit d 24 then (s.setHit o.unit).learn f v.pipe address o.unit else s
  let g := a.gain.join k (bit d 25) place (s.missOutcome t f.bd f.vrf) o.unit
  { state := s, gain := { g with learned := g.learned || bit d 24 }, parity := a.parity.tail, bloom := a.bloom, prefixed := a.prefixed,
    retries := a.retries + b2n o.retried }

/-- Descriptor `k` of a profile runs where its instance exists. -/
def Probing.step (v : PassView) (allowance : Nat) (a : Probing) (kd : Nat × Nat) : Probing :=
  let d := kd.2
  let t := bits d 30 26
  if !bit d 31 || t == 0 || 6 < t then a
  else match pickInstance v.instances (keyClass t) (bit d 22) with
    | none => a
    | some x =>
      if prefixKey t then (if a.prefixed then a else a.prefix v kd.1 t allowance (bit d 25) (bit d 23) x)
      else a.exact v kd.1 t d x

/-- The descriptors of the lookup profile that a parsed pass runs (R173). -/
def State.passDescriptors (s : State) (f : Frame) : List Nat :=
  let e := s.portProfile f.port
  s.descriptors (if f.pass = 0 then bits e 127 122 else bits e 121 116)

/-- The probes of descriptors `first` to `last` - 1 of a parsed pass (R173, R175), from what those before gave. -/
def State.probeFrom (s : State) (v : PassView) (env : GrantEnv) (g : LookupGain) (prefixed : Bool) (first last : Nat) : Probing :=
  let ds := s.passDescriptors v.frame
  let a : Probing := { state := s, gain := g, parity := env.emParity, bloom := env.bloomParity.map fun j => j.val, prefixed := prefixed,
                       retries := 0 }
  ((((List.range 8).zip ds).take last).drop first).foldl (Probing.step v (allowanceOf ds)) a

/-- Descriptor `k` of a parsed pass issues a probe, where a prefix descriptor has issued or not. -/
def State.issues (s : State) (f : Frame) (xs : List Instance) (prefixed : Bool) (k : Nat) : Bool :=
  let d := (s.passDescriptors f).getD k 0
  let t := bits d 30 26
  bit d 31 && 1 ≤ t && t ≤ 6 && (pickInstance xs (keyClass t) (bit d 22)).isSome && !(prefixKey t && prefixed)

/-- The pending prefix probes of a lookup-continuation pass (R173, R179). -/
def State.probeRest (s : State) (pipe q : Nat) (f : Frame) (w : PrefixWork) (env : GrantEnv) : Probing :=
  let (s, x) := s.runPrefix pipe q (f.stamp.getD 0) f.vrf f.pass w env.emParity
  let g := ({ noGain with entropy := w.entropy } : LookupGain).join 0 w.forward (some w.place)
    (s.prefixMiss w.keyType f x.ended) x.ended.unit
  { state := s, gain := g.prefixed w x.ended, parity := env.emParity.drop x.probes, bloom := [], prefixed := true, retries := x.retries }

/-- A frame takes what a pass's probes give (R176). -/
def Frame.gained (f : Frame) (g : LookupGain) : Frame :=
  let put := fun (f : Frame) (x : Forward × Option KeyedAt) (miss : Bool) =>
    { f with forward := some x.1, fwdRedirect := false, fwdMiss := miss,
             fwdTemplate := (x.2.map KeyedAt.template).getD 0,
             context := { f.context with fwdClass := (x.2.map KeyedAt.cls).getD 0, fwdOffset := (x.2.map KeyedAt.offset).getD 0,
                                         entropy := g.entropy } }
  let f := match g.forward, g.missed with
    | some x, _ => put f x false
    | none, some x => if f.forward.isNone || f.fwdMiss then put f x true else f
    | none, none => f
  { f with learned := f.learned || g.learned, codes := if g.limit then f.codes ++ [0x43] else f.codes }

end Sys2Proof.Machine
end

