-- ==== Sys2Proof/Machine/Grant.lean ====
section
/-! DEFINITION. The ingress half: slots, passes and the end of a frame's last pass (R13, R137, R147, R150-R156, R172, R200-R209,
R223, R243, R253-R256, R298, R312-R314, R386, R426). -/

namespace Sys2Proof.Machine

/-! ### Slots (R13, R386, R426) -/

/-- A class that competes for ingress slots. -/
inductive SlotClass where
  | recirculation | front | injection | atelier
  deriving DecidableEq, Repr

/-- The preference order of slot `n` of the window (table of R13). -/
def slotPreference (n : Nat) : List SlotClass :=
  if n = 4 ∨ n = 9 ∨ n = 14 then [.recirculation, .front, .injection, .atelier]
  else if n = 15 then [.injection, .atelier, .front, .recirculation]
  else [.front, .recirculation, .injection, .atelier]

/-- A slot of the ingress half of a pipe used, and counted in a class of the table Slot classes. -/
def State.useSlot (s : State) (pipe cls : Nat) : State :=
  (s.count (16 * pipe + cls)).setPipe pipe fun x => { x with window := (x.window + 1) % 16, slotsIn := x.slotsIn + 1 }

/-- Slots spent on parity retries. -/
def State.spendSlots (s : State) (pipe : Nat) : Nat → State
  | 0 => s
  | n + 1 => (s.useSlot pipe 2).spendSlots pipe n

/-- The window of a frame's next pass is held whole (R137). The window ends at the frame end, so its last byte is known not to be of the
FCS once four more have arrived, or the tail (DEDUCED). -/
def Frame.windowHeld (f : Frame) : Bool :=
  let start := match f.resume with
    | some (.parse _ off _ _) => off
    | _ => 0
  f.complete || decide (start + 260 ≤ f.bytes.length)

/-- The head of a group's frames in a pipe's ingress FIFO. -/
def State.groupHead (s : State) (pipe g : Nat) : Option Frame := (s.framesAt (.fifo pipe)).find? fun f => f.port / 8 == g

/-- The front frame offered by a pipe: the groups that it serves take turns (R386). -/
def State.frontOffer (s : State) (pipe : Nat) : Option Frame :=
  let gs := s.groupsOf pipe
  let last := (s.pipe pipe).lastGroup
  let order := gs.filter (fun g => last < g) ++ gs.filter fun g => g ≤ last
  order.findSome? fun g => (s.groupHead pipe g).filter Frame.windowHeld

/-- The frame that a class offers. Replayed passes go ahead of the recirculation queue (R172). -/
def State.slotOffer (s : State) (pipe : Nat) : SlotClass → Option Frame
  | .recirculation => match (s.framesAt (.replay pipe)).head? with
    | some f => some f
    | none => ((s.framesAt (.recirc pipe)).head?).filter Frame.windowHeld
  | .front => s.frontOffer pipe
  | .injection => (s.framesAt (.inject pipe)).find? fun f => !f.isAtelier
  | .atelier => (s.framesAt (.inject pipe)).find? Frame.isAtelier

/-- A pipe is awake (R84). -/
def State.awake (s : State) (pipe : Nat) : Bool := s.obj? (Obj.sleepDepth pipe) == 0 && (s.pipe pipe).waking.isNone

/-- A pipe grants slots: awake, unfenced, its function in RUN, or in HOLD or DRAINING with frames left to serve (R97). -/
def State.grants (s : State) (pipe : Nat) : Bool :=
  let f := s.fn (Fn.pipeNo pipe)
  s.ready && s.awake pipe && !s.fenced pipe && (f == 1 || f == 2 || f == 4)

/-- The frame that takes the next slot. -/
def State.slotFrame (s : State) (pipe : Nat) : Option Frame :=
  (slotPreference (s.pipe pipe).window).findSome? (s.slotOffer pipe)

/-! ### The start of a pass (R155, R156, R223) -/

/-- A frame takes, at its first grant, the settings of its port and the graph copy then selected. -/
def State.latchFrame (s : State) (f : Frame) : Frame :=
  let p := f.port
  { f with
    graphB := s.obj? Obj.parseGraphSelect == 1,
    latched := { firstTemplate := s.obj? (Obj.firstTemplate p), failureAction := s.obj? (Obj.failureAction p),
                 slowMask := s.obj? (Obj.slowPathMask p), parseContinue := s.obj? (Obj.parseContinue p) == 1,
                 checksum := s.obj? (Obj.ipv4ChecksumCheck p) == 1,
                 reliefFirst := s.obj? (Obj.reliefProfileFirst p), reliefNext := s.obj? (Obj.reliefProfileNext p) } }

/-- A frame leaves its queue for a pass: it is stamped and latched at its first, and counts up at each further one. A replayed
pass goes on as it was. -/
def State.beginPass (s : State) (f : Frame) (pipe : Nat) : State :=
  match f.loc with
  | .replay _ => s
  | .recirc _ =>
    let s := (s.setFrame f.id fun f => { f with pass := f.pass + 1 }).bump64 (Obj.recircPasses pipe)
    match f.resume with
    | some (.lookup _) => s.bump64 Obj.prefixContinuations
    | _ => s.bump64 (Obj.continuationPasses pipe)
  | _ =>
    let s := ((s.stamp f.id).setFrame f.id s.latchFrame).bump64 (Obj.parsedFrames pipe)
    if f.isFront then s.setPipe pipe fun x => { x with lastGroup := f.port / 8 } else s

/-! ### The parse of a pass (R143, R147, R150, R152) -/

/-- Where a frame's pass starts to parse. -/
def Frame.parseStart (f : Frame) : ParseStart :=
  match f.resume with
  | some (.parse t off level region) =>
    { template := t, offset := off, level := level, region := region, continued := true, retained := f.retained }
  | _ => { template := f.latched.firstTemplate, offset := 0, level := 0, region := none, continued := false, retained := [] }

/-- The slow-path causes of a walk that the frame's mask sends to the exception ring (R150). -/
def Parse.masked (p : Parse) (mask : Nat) : List Cause := p.causes.filter fun c => bit mask (c.code - 0x28)

/-- The treatment of causes whose mask bit is 0: an unknown next value is payload (R150). -/
def Parse.unmasked (p : Parse) (mask : Nat) : Parse :=
  if p.causes.any (fun c => c.code == 0x2A) && !bit mask 2 then { p with flags := setBit p.flags 7 } else p

/-- A walk of a frame's pass. -/
def State.parseFrame (s : State) (f : Frame) : Parse :=
  (parsePass f.bytes f.complete f.latched.checksum (s.graphTemplate f.graphB) (s.graphTransition f.graphB) f.parseStart).unmasked
    f.latched.slowMask

/-- The input that a frame's pass reads fields from. -/
def State.parseView (s : State) (f : Frame) : ParseInput :=
  let st := f.parseStart
  parseInput f.bytes f.complete st.offset st.level f.latched.checksum (s.graphTemplate f.graphB) (s.graphTransition f.graphB)

/-- A stopped walk may continue in another pass (R147): no slow-path cause was found, whatever its mask bit makes of it. -/
def Frame.mayContinue (f : Frame) (p : Parse) : Bool :=
  f.latched.parseContinue && decide (f.pass < 3) && p.causes.isEmpty

/-- The failure of a walk: its code and the header that raised it. A stop that may not continue is one (R147). -/
def Frame.failure (f : Frame) (p : Parse) : Option Cause :=
  match p.ended with
  | .complete => none
  | .stop t off _ => if f.mayContinue p then none else some { code := 0x22, offset := off, template := t }
  | .fail code off t => some { code := code, offset := off, template := t }

/-- The resume record of a walk that goes on in another pass. -/
def Frame.resumeOf (f : Frame) (p : Parse) : Option Resume :=
  match p.ended with
  | .stop t off level => if f.mayContinue p then some (.parse t off level p.regions.getLast?) else none
  | _ => none

/-- The first instance at a tunnel level. -/
def levelFirst (xs : List Instance) (l : Nat) : Option Nat := (xs.find? fun x => x.level == l).map Instance.offset

/-- A frame carries what a walk found (R148, R181, R242, R298). -/
def State.parsed (s : State) (f : Frame) (p : Parse) (i : ParseInput) : Frame :=
  let xs := p.instances
  let c := f.context
  let labels := xs.filter fun x => x.cls == 3
  let c := { c with
    labelStart := if c.labelDepth = 0 then (labels.head?.map Instance.offset).getD 0 else c.labelStart,
    labelDepth := min 63 (c.labelDepth + labels.length),
    level1 := c.level1.orElse fun _ => levelFirst xs 1,
    level2 := c.level2.orElse fun _ => levelFirst xs 2,
    level3 := c.level3.orElse fun _ => levelFirst xs 3 }
  let f : Frame := { f with
    parseFlags := p.flags, retained := p.retained, context := c,
    lateRegion := match f.lateRegion, p.lateRegion with
      | some a, some b => some (max a b)
      | a, none => a
      | none, b => b,
    headers := f.headers ++ xs.map fun x => (x.cls, x.offset, x.length) }
  if f.pass = 0 then
    let vlan := vlanId i xs
    let bd := s.frameBd f.port vlan
    let k := s.firstClass f.port f.bytes f.headers
    { f with vlan := vlan, bd := bd, vrf := bits (s.bdEntry bd) 63 50, cls := k.1, colour := k.2 }
  else f

/-! ### Exception records (R151) -/

/-- An exception record (field map Exception record header). -/
def exceptionRecord (f : Frame) (pipe start : Nat) (c : Cause) : List Byte :=
  let captured := slice f.bytes start 224
  let nh := if c.code = 0x29 then f.nextHop else none
  toBe 32 (field 192 (f.ingressTime % 2 ^ 64) + field 184 c.code + field 177 (f.port % 128) + field 172 (pipe % 32) +
    field 170 (f.pass % 4) + field 168 (f.stamp.getD 0 % 4) + field 154 (f.bytes.length % 2 ^ 14) + field 146 captured.length +
    field 132 (start % 2 ^ 14) + field 118 (c.offset % 2 ^ 14) + field 112 (c.template % 64) + field 96 (f.parseFlags % 2 ^ 16) +
    field 78 (nh.getD 0 % 2 ^ 18) + field 77 (b2n nh.isSome) + field 76 (b2n f.graphB)) ++ captured

/-- A frame handed to the host on ring 1: the code it ends with (R22, R151). The record of a frame whose reception goes on is held
until its tail, since it gives the frame's length. -/
def State.toException (s : State) (f : Frame) (pipe start : Nat) (c : Cause) : State × Nat :=
  let r := exceptionRecord f pipe start c
  if f.complete then s.pushException pipe r
  else (s.setFrame f.id fun g => { g with record := some (pipe, r) }, 0x00)

/-- The cause of lowest code. -/
def lowestCause : List Cause → Option Cause
  | [] => none
  | c :: cs => some (cs.foldl (fun a b => if b.code < a.code then b else a) c)

/-! ### The end of a pass (R153, R176, R208, R243, R266, R312) -/

/-- The codes of R426's class BACK_STARVED. -/
def backCode (c : Nat) : Bool := c == 0x64 || (0x80 ≤ c && c ≤ 0x87)

/-- The slot of a pass that ends its frame with a code, or lets it go on. -/
def State.judgeSlot (s : State) (pipe : Nat) (code : Option Nat) : State :=
  s.useSlot pipe (if code.any backCode then 7 else 0)

/-- A frame's last pass ends it with a code. -/
def State.endPass (s : State) (frame pipe code : Nat) : State :=
  match s.frame? frame with
  | none => s
  | some f => ((s.captureIngress f pipe code).judgeSlot pipe (some code)).endIngress frame code

/-- A pass that is replayed re-enters ahead of the recirculation queue, its slot spent (R172, R203, R314). -/
def State.replayPass (s : State) (f : Frame) (pipe cls : Nat) (kept : Option Kept) : State :=
  (((s.setFrame f.id fun _ => { f with kept := kept }).moveFrame f.id (.replay pipe))).useSlot pipe cls

/-- A pass sends its frame round (R147, R179, R253, R256). -/
def State.sendRound (s : State) (f : Frame) (pipe : Nat) (r : Resume) : State :=
  let s := s.setFrame f.id fun _ => { f with resume := some r, kept := none }
  match s.enterRecirc f.id pipe with
  | (s, some code) => s.endPass f.id pipe code
  | (s, none) => s.useSlot pipe 4

/-- The forwarding action decrements a TTL that is 0 or 1 (R150, R243). -/
def State.ttlExpires (s : State) (f : Frame) : Bool :=
  match f.nextHop, ttlByte f.context.fwdClass with
  | some n, some k =>
    let e := s.nextHopEntry n
    nhKind e != 2 && bit e 22 && decide ((f.bytes.getD (f.context.fwdOffset + k) 0).toNat ≤ 1)
  | _, _ => false

/-- The codes of lookup and Relief that a frame holds when its last pass ends (R176, R208). A frame forwarded by a REDIRECT takes
no code 0x40 or 0x42–0x45. -/
def Frame.lookupCodes (f : Frame) : List Nat :=
  (f.codes.filter fun c => !(f.fwdRedirect && c == 0x43)) ++ match f.forward with
    | some .drop => [0x41]
    | some (.miss c) => [c]
    | none => [0x44]
    | _ => []

/-- The least of a list of codes. -/
def leastCode : List Nat → Option Nat
  | [] => none
  | c :: cs => some (cs.foldl min c)

/-- The code that ends a frame for its next hop's KIND (R243). -/
def State.dropsNextHop (s : State) (f : Frame) : Bool := f.nextHop.any fun n => nhKind (s.nextHopEntry n) == 2

/-- The ingress writer of a frame (table Requester ports). -/
def Frame.writer (f : Frame) (pipe : Nat) (rivals : List (List (Fin 37))) : Writer :=
  let rivals := rivals.map fun l => l.map Fin.val
  match f.source with
  | .atelier => { port := 36, cls := 5, rivals := rivals }
  | .host => { port := pipe, cls := 4, rivals := rivals }
  | _ => { port := pipe, cls := 0, rivals := rivals }

/-- A frame that goes on is enqueued as its forwarding result says, or the code that refuses it (R243, R257, R299). -/
def State.enqueue (s : State) (f : Frame) (w : Writer) : State × Option Nat :=
  match f.forward with
  | some (.flood g) => s.offerRepl w f.id g
  | some (.nextHop n) =>
    let e := s.nextHopEntry n
    if nhKind e = 1 then s.offerRepl w f.id (bits e 111 96) else s.offerVoq w f.id (bits e 125 112) n
  | _ => (s, none)

/-- A metered frame leaves the ingress half. -/
def State.leaveIngress (s : State) (f : Frame) (pipe : Nat) (rivals : List (List (Fin 37))) : State :=
  let s := (s.setFrame f.id fun _ => { f with kept := none }).captureIngress f pipe 0
  match s.enqueue f (f.writer pipe rivals) with
  | (s, some code) => (s.judgeSlot pipe (some code)).endIngress f.id code
  | (s, none) => s.judgeSlot pipe none

/-- The policer of a frame meters it (R312, R314). -/
def State.meterFrame (s : State) (f : Frame) (pipe : Nat) (env : GrantEnv) : State :=
  match f.policer with
  | none => s.leaveIngress f pipe env.rivals
  | some n =>
    if env.contention = .policer ∧ bits (s.policerEntry n) 255 254 ≠ 0 then
      ((s.bump64 Obj.policerReplays).flag Obj.queueSummary 9).replayPass f pipe 1 (some .police)
    else
      let (stored, s) := s.lengthOf f
      match s.police n stored f.cls f.colour with
      | (s, .ok cls, colour) => s.leaveIngress { f with cls := cls, colour := colour } pipe env.rivals
      | (s, .error code, colour) => (s.setFrame f.id fun _ => { f with colour := colour }).endPass f.id pipe code

/-- The end of a frame's last pass, up to metering: TTL expiry, then the codes of lookup, then the next hop's KIND. -/
def State.judgePass (s : State) (f : Frame) (pipe start : Nat) (env : GrantEnv) : State :=
  let s := s.setFrame f.id fun _ => f
  if s.ttlExpires f then
    if bit f.latched.slowMask 1 then
      let (s, code) := s.toException f pipe start { code := 0x29, offset := f.context.fwdOffset, template := f.fwdTemplate }
      s.endPass f.id pipe code
    else s.endPass f.id pipe 0x2C
  else match leastCode f.lookupCodes with
    | some code => s.endPass f.id pipe code
    | none => if s.dropsNextHop f then s.endPass f.id pipe 0x65 else s.meterFrame f pipe env

/-! ### The Relief searches of a pass (R200, R203, R208, R209) -/

/-- The metadata words of a pass (table Metadata words). -/
def Frame.metaWords (f : Frame) (g : LookupGain) : List Nat :=
  [f.port, f.bd, f.vrf, f.parseFlags, f.pass] ++ g.metas ++ [g.forwardMeta]

/-- The search profile of a parsed pass. -/
def Frame.reliefProfile (f : Frame) : Nat := if f.pass = 0 then f.latched.reliefFirst else f.latched.reliefNext

/-- A parsed pass runs a search set (R200, R212). -/
def State.searchesIn (s : State) (q : Nat) (f : Frame) : Bool := !(searchWords (s.setProfile q f.reliefProfile)).isEmpty

/-- The searches of a set whose winners' readouts have failed take another outcome; the events stand in ascending search number of the
winners. -/
def failWinners (failed : ParityEvent → Bool) : List (Bool × SearchOut) → List ParityEvent → List (Bool × SearchOut)
  | (m, .hit r) :: os, p :: ps => (m, if failed p then .unanswered 0x53 else .hit r) :: failWinners failed os ps
  | o :: os, ps => o :: failWinners failed os ps
  | [], _ => []

/-- Parity met in the winners' readouts (R209): the set's outcome, and whether a slot was spent. One repeat of the set answers for all
of its winners. -/
def State.readoutParity (s : State) (pipe : Nat) (o : SetOut) (parity : List ParityEvent) : State × SetOut × Nat :=
  let events := o.winners.zip parity
  match o.array with
  | none => (s, o, 0)
  | some a =>
    if events.all fun e => e.2 == .clean then (s, o, 0)
    else
      let retry := s.obj? Obj.reliefParityRetry == 1
      let failed := fun (p : ParityEvent) => p != .clean && !(retry && p == .once)
      let s := if retry then (s.bump64 (Obj.readoutRetries a)).count (0x148 + 8 * a + 6) else s
      let s := events.foldl (fun s e =>
        if e.2 = .clean then s
        else
          let s := if failed e.2 then (s.bump64 (Obj.readoutFailures a)).flag Obj.reliefSummary 1 else s
          s.judge { unit := 0x380 + 32 * a + e.1.rule.bank, checker := 0, cls := b2n (failed e.2), access := 2, master := pipe,
                    address := e.1.rule.position }) s
      (s, { o with outs := failWinners failed o.outs parity }, b2n retry)

/-- A frame takes what a pass's searches give (R208). -/
def Frame.searched (f : Frame) (g : ReliefGain) (entropy : Nat) : Frame :=
  let f := match g.redirect with
    | some n => { f with forward := some (.nextHop n), fwdRedirect := true, fwdMiss := false, fwdTemplate := 0,
                         context := { f.context with fwdClass := 0, fwdOffset := 0, entropy := entropy } }
    | none => f
  { f with cls := g.cls.getD f.cls, policer := g.policer.orElse fun _ => f.policer, codes := f.codes ++ g.code.toList }

/-- The searches of a parsed pass: the frame after them, and the slots spent. -/
def State.searchFrame (s : State) (pipe q : Nat) (f : Frame) (i : ParseInput) (xs : List Instance) (g : LookupGain)
    (parity : List ParityEvent) : State × Frame × Nat :=
  if !s.searchesIn q f then (s, f, 0)
  else
    let o := s.searchSet q f.reliefProfile { input := i, instances := xs, words := f.metaWords g, slot := f.stamp.getD 0 }
    let s := s.countSet q f.reliefProfile o
    let (s, o, n) := s.readoutParity pipe o parity
    (s, f.searched (o.gain (s.obj? (Obj.reliefDefaultAction f.port))) g.entropy, n)

/-! ### Passes -/

/-- A pass goes on from its searches: round again, or to the end of the frame's last pass. A parse continuation goes before a
prefix continuation of the same pass (DESIGN CHOICE). -/
def State.closePass (s : State) (f : Frame) (pipe start : Nat) (resume : Option Resume) (g : LookupGain) (env : GrantEnv) : State :=
  match resume, g.more with
  | some r, _ => s.sendRound f pipe r
  | none, some w => s.sendRound f pipe (.lookup w)
  | none, none => s.judgePass f pipe start env

/-- A pass's search set stays in flight on an array that a fault has stopped: its slot is spent, and is counted when the pass ends
(R214). -/
def State.stallPass (s : State) (f : Frame) (pipe array : Nat) (g : LookupGain) : State :=
  ((s.setFrame f.id fun _ => { f with kept := some (.search g) }).moveFrame f.id (.searching pipe array)).setPipe pipe fun x =>
    { x with window := (x.window + 1) % 16, slotsIn := x.slotsIn + 1 }

/-- A parsed pass from its searches on. `f` holds what the walk found, `before` is the frame as the pass took it, `g` what the
probes gave. -/
def State.searchPass (s : State) (f before : Frame) (pipe : Nat) (p : Parse) (i : ParseInput) (g : LookupGain) (env : GrantEnv) : State :=
  let q := portQuadrant f.port
  let server := s.setServer q f.reliefProfile
  let shared := server.any s.sharedArray
  if env.contention = .reliefStopped ∧ s.searchesIn q f ∧ server.isSome then
    s.stallPass { before with lateRegion := f.lateRegion } pipe (server.getD q) g
  else if env.contention = .reliefPort ∧ s.searchesIn q f ∧ shared then
    s.replayPass { before with lateRegion := f.lateRegion } pipe 3 (some (.search g))
  else
    let (s, f, n) := s.searchFrame pipe q (f.gained g) i p.instances g env.reliefParity
    (s.spendSlots pipe n).closePass f pipe i.windowStart (f.resumeOf p) g env

/-- The descriptor whose probe finds no bank within its 4 clocks (R172). -/
def unserved (env : GrantEnv) : Option Nat :=
  match env.contention with
  | .emBank k => some k.val
  | _ => none

/-- A pass is replayed for want of a bank of quadrant `q`, keeping what it has (R172). -/
def State.replayProbes (s : State) (f : Frame) (pipe q : Nat) (kept : Option Kept) : State :=
  ((s.bump64 (Obj.emReplays q)).count (0x128 + 8 * q + 4)).replayPass f pipe 1 kept

/-- A parsed pass from its probes on: from descriptor `first`, with what those before it gave. A probe that finds no bank makes the pass
replay, keeping the results of those before it (R172). -/
def State.probePass (s : State) (f before : Frame) (pipe : Nat) (p : Parse) (i : ParseInput) (env : GrantEnv) (g : LookupGain)
    (first : Nat) (prefixed : Bool) : State :=
  let q := portQuadrant f.port
  let v : PassView := { pipe := pipe, quadrant := q, slot := f.stamp.getD 0, frame := f, input := i, instances := p.instances }
  let k := (unserved env).getD 8
  let a := s.probeFrom v env g prefixed first k
  let s := a.state.spendSlots pipe a.retries
  if first ≤ k ∧ k < 8 ∧ s.issues f p.instances a.prefixed k then
    s.replayProbes { before with lateRegion := f.lateRegion } pipe q (some (.probe a.gain k a.prefixed))
  else
    let b := s.probeFrom v { env with emParity := a.parity } a.gain a.prefixed (max first k) 8
    (b.state.spendSlots pipe b.retries).searchPass f before pipe p i b.gain env

/-- A walk that found a failure is counted (R152). -/
def State.countFailure (s : State) (pipe : Nat) (fail : Option Cause) : State :=
  if fail.isSome then (s.bump64 (Obj.parseFailures pipe)).flag (Obj.pipeFlags pipe) 0 else s

/-- A region end that a whole frame falls short of, found with the walk (R146). `fresh` says that the pass is not a replay. -/
def State.checkWhole (s : State) (f : Frame) (pipe : Nat) (fresh : Bool) : State × Frame × Bool :=
  if !f.complete then (s, f, false)
  else
    let short := f.fallsShort f.bytes.length
    (if short && fresh then s.countConflict pipe else s, { f with lateRegion := none }, short && f.latched.failureAction != 2)

/-- A frame waits as a replayed pass. -/
def Frame.replayed (f : Frame) : Bool :=
  match f.loc with
  | .replay _ => true
  | _ => false

/-- A parsed pass of a frame (R143-R153): a frame that the walk fails, or that the slow path takes, leaves before lookup. -/
def State.parsedPass (s : State) (f : Frame) (pipe : Nat) (env : GrantEnv) : State :=
  let p := s.parseFrame f
  let i := s.parseView f
  let fail := f.failure p
  let s := if f.replayed then s else s.countFailure pipe fail
  let p := if fail.isSome ∧ f.latched.failureAction = 2 then { p with flags := setBit p.flags 1 } else p
  let (s, g, short) := s.checkWhole (s.parsed f p i) pipe (!f.replayed)
  let put := fun (s : State) => s.setFrame f.id fun _ => g
  match fail, f.latched.failureAction with
  | some c, 0 => (put s).endPass f.id pipe c.code
  | some c, 1 =>
    let (s, code) := (put s).toException g pipe i.windowStart c
    s.endPass f.id pipe code
  | _, _ =>
    if short then (put s).endPass f.id pipe 0x20
    else match lowestCause (p.masked f.latched.slowMask) with
      | some c =>
        let (s, code) := (put s).toException g pipe i.windowStart c
        s.endPass f.id pipe code
      | none => match f.kept with
        | some (.search gain) => s.searchPass g f pipe p i gain env
        | some (.probe gain k prefixed) => s.probePass g f pipe p i env gain k prefixed
        | _ => s.probePass g f pipe p i env { noGain with entropy := flowEntropy g.bytes g.headers p.instances } 0 false

/-- A lookup-continuation pass: its pending prefix probes alone (R173, R179, R200). -/
def State.lookupPass (s : State) (f : Frame) (pipe : Nat) (w : PrefixWork) (env : GrantEnv) : State :=
  let q := portQuadrant f.port
  if (unserved env).isSome then s.replayProbes f pipe q none
  else
    let a := s.probeRest pipe q f w env
    (a.state.spendSlots pipe a.retries).closePass (f.gained a.gain) pipe 0 none a.gain env

/-- A pass whose search set is in flight on a quadrant's array as the quadrant's drain is forced: the set gives nothing, and code 0x54
ends the frame with its last pass (R214). The slot that the pass has spent is counted now. -/
def State.endSearch (s : State) (f : Frame) : State :=
  let pipe := s.framePipe f
  let env : GrantEnv := { contention := .none, emParity := [], bloomParity := [], reliefParity := [], rivals := [] }
  match f.kept with
  | some (.search g) =>
    let p := s.parseFrame f
    let i := s.parseView f
    let s := s.setPipe pipe fun x => { x with window := (x.window + 15) % 16, slotsIn := x.slotsIn - 1 }
    let x := (s.parsed f p i).gained g
    s.closePass { x with codes := x.codes ++ [0x54] } pipe i.windowStart (f.resumeOf p) g env
  | _ => s

/-- Every search set in flight on a quadrant's array ends (R214). -/
def State.endSearches (s : State) (q : Nat) : State :=
  (s.frames.filter fun f => f.searchingOn q).foldl (fun s f => s.endSearch f) s

/-- FORCED_DRAIN (R98, R214). -/
def execForcedDrain (fn : Fn) (s : State) : Result :=
  let n := fnNumber fn
  if s.fn n = 4 then
    let s := if 0x300 ≤ n ∧ n < 0x400 then s.endSearches (n - 0x300) else s.forceWork n
    .next (((s.holdFromRun n).put Obj.lastForcedDrain n).flag Obj.modeSummary 2)
  else .next s

/-- One pass of a frame that has left its queue. -/
def State.runPass (s : State) (f : Frame) (pipe : Nat) (env : GrantEnv) : State :=
  match f.kept, f.resume with
  | some .police, _ => s.meterFrame f pipe env
  | _, some (.lookup w) => s.lookupPass f pipe w env
  | _, _ => s.parsedPass f pipe env

/-- INGRESS_SLOT_GRANT (R13, R137): the next slot of a pipe goes to the first class of its order that offers a pass. -/
def execIngressSlotGrant (pipe : Pipe) (env : GrantEnv) (s : State) : Result :=
  let n := pipe.val
  if !s.grants n || 2 ≤ (s.pipe n).slotsIn then .next s
  else match s.slotFrame n with
    | none => .next s
    | some f =>
      let s := s.beginPass f n
      match s.frame? f.id with
      | some f => .next (s.runPass f n env)
      | none => .next s

end Sys2Proof.Machine
end

