-- ==== Sys2Proof/Machine/Egress.lean ====
section
/-! DEFINITION. The egress half: one scheduler decision per slot, and the release of a copy by Chisel (R16, R234, R266, R303–R308,
R386, R418, R426). -/

namespace Sys2Proof.Machine

/-- A slot of the egress half of a pipe used, and counted in a class of the table Slot classes. -/
def State.useEgressSlot (s : State) (pipe cls : Nat) : State :=
  (s.count (16 * pipe + 8 + cls)).setPipe pipe fun x => { x with slotsOut := x.slotsOut + 1 }

/-- The groups whose ports a pipe's egress half serves: not one whose return drains it (R387), nor one whose tree does not read RUN
(R97, R382). -/
def State.egressGroups (s : State) (pipe : Nat) : List Nat :=
  (s.groupsOf pipe).filter fun g => s.treeRuns g && !s.faults.returns.contains g

/-- The ports of a pipe whose trees hold an eligible queue, in ascending order (R303, R304): a node above it that is shaped out does not
matter here. -/
def State.eligiblePorts (s : State) (pipe : Nat) : List Nat :=
  (s.egressGroups pipe).flatMap fun g =>
    let ports := ((s.groupQueues g).filter (s.queueEligible g)).map fun j => s.queuePort (4096 * g + j)
    ((List.range 8).map fun k => 8 * g + k).filter ports.contains

/-- Bytes of a port's selected frames not yet fully transmitted. -/
def State.sendingBytes (s : State) (p : Nat) : Nat := s.queueBytes (.selected p) + s.queueBytes (.transmit p)

/-- A port with an eligible queue is ready (R303): PORT_DATA_RATE is in Mb/s, and a rate of r Mb/s is r × 0.032 bytes in 256 ns. -/
def State.portReady (s : State) (p : Nat) : Bool :=
  s.sendingBytes p == 0 || decide (1000 * s.sendingBytes p < s.obj? (Obj.portDataRate p) * 32 + 2048000)

/-- The shaped bytes of a frame of stored length S at a port (R308). -/
def State.shapedBytes (s : State) (p stored : Nat) : Int := (stored : Int) + toInt 8 (s.obj? (Obj.shapeAdjust p))

/-- Chisel releases a copy: it is captured, counted by its next hop, and waits for its port's MAC. -/
def State.release (s : State) (pipe p : Nat) (c : Copy) (f : Frame) (b : List Byte) : State :=
  let read := c.nextHop.map s.readRewrite
  let s := (s.setCopy c.id fun x => { x with edited := b, rewrite := read }).moveCopy c.id (.selected p)
  let s := (s.captureEgress f c pipe p b).countNextHop c.nextHop 1 (b.length + b2n f.complete * 4)
  s.startTx p

/-- The head of an egress queue is dequeued along a walk from a port: the copy that Chisel makes of it, or its end. -/
def State.dequeue (s : State) (pipe p : Nat) (picks : List Pick) (c : Copy) (f : Frame) : Result :=
  let (stored, s) := s.lengthOf f
  let s := s.chargeWalk (p / 8) (p % 8) picks (s.shapedBytes p stored)
  let s := s.useEgressSlot pipe 0
  match s.chisel f c.nextHop with
  | .bytes b => .next (s.release pipe p c f b)
  | .ends code => .next (s.endAtPort p c.id code)
  | .misuse => undefinedCase "UB-RW-1"

/-- The walk of a ready port's tree, and what it finds. -/
def State.transmitOn (s : State) (pipe p : Nat) : Result :=
  let g := p / 8
  let s := s.setPipe pipe fun x => { x with lastPort := p }
  match s.walkTree g (p % 8) with
  | (s, [a, b, q]) =>
    match (s.copiesAt (.egress (4096 * g + (q.child - 648)))).head? with
    | none => .next (s.useEgressSlot pipe 7)
    | some c => match s.frame? c.frame with
      | none => .next (s.useEgressSlot pipe 7)
      | some f => if s.stale f then .next ((s.endCopy c.id 0x60).useEgressSlot pipe 5) else s.dequeue pipe p [a, b, q] c f
  | (s, _) => .next (s.useEgressSlot pipe 7)

/-- A pipe's egress half decides: awake, unfenced, and its function reads RUN (R97). -/
def State.decides (s : State) (pipe : Nat) : Bool := s.ready && s.awake pipe && !s.fenced pipe && s.runs (Fn.pipeNo pipe)

/-- EGRESS_DECISION (R303): without an eligible queue the slot is left to be counted at the clock's end. -/
def execEgressDecision (pipe : Pipe) (s : State) : Result :=
  let n := pipe.val
  if !s.decides n || 2 ≤ (s.pipe n).slotsOut then .next s
  else
    let ports := s.eligiblePorts n
    if ports.isEmpty then .next s
    else match afterPlace (ports.filter s.portReady) (s.pipe n).lastPort with
      | some p => s.transmitOn n p
      | none => .next (s.useEgressSlot n 7)

end Sys2Proof.Machine
end

