-- ==== Sys2Proof/Machine/Sop.lean ====
section
/-! DEFINITION. The Sirro Object Protocol and the PCIe windows (02): carriage, checks, sessions, the mailbox, the slow queue, BAR0
and BAR2. -/

namespace Sys2Proof.Machine

/-! ### Messages (R38, R42, R43) -/

/-- A SOP header (field map SOP header). -/
def sopHeader (ver rsp auth opcode session seq length index sub status : Nat) : Nat :=
  field 124 ver + field 123 rsp + field 122 auth + field 112 opcode + field 96 session + field 64 seq + field 48 length +
    field 32 index + field 24 sub + field 16 status

/-- The header and payload of a received message, as they were sent. -/
def sopSigned (m : SopMessage) (opcode : Nat) : List Byte :=
  toBe 16 (sopHeader m.ver.toNat (b2n m.rsp) (b2n m.auth) opcode m.session.toNat m.seq.toNat m.length.toNat m.index.toNat
    m.sub.toNat m.status.toNat + field 120 m.rsvdHigh.toNat + m.rsvdLow.toNat) ++ m.payload

/-- The IV of a message (table of R43). -/
def sopIv (epoch session seq direction : Nat) : List Byte :=
  toBe 12 (field 64 epoch + field 48 session + field 16 seq + field 15 direction)

/-- The trailer of a message: a GMAC tag under a key, or a CRC-32C (R42, R43). -/
def sopTrailer (key : Option Key) (epoch session seq direction : Nat) (b : List Byte) : List Byte :=
  match key with
  | some k => Aes.gcmTag k.bytes (sopIv epoch session seq direction) b []
  | none => toBe 4 (crc32c b)

/-- The response to a message (table SOP header). -/
def sopResponse (m : SopMessage) (opcode status : Nat) (payload : List Byte) (key : Option Key) (epoch : Nat) : List Byte :=
  let b := toBe 16 (sopHeader 1 1 (b2n m.auth) opcode m.session.toNat m.seq.toNat payload.length m.index.toNat m.sub.toNat
    status) ++ payload
  b ++ sopTrailer key epoch m.session.toNat m.seq.toNat 1 b

/-- The session a message names, from 1 on. -/
def State.sopSession (s : State) (m : SopMessage) : Session := s.sop.sessions.getD (m.session.toNat - 1) .free

/-- The message names an open session. -/
def State.sopOpen (s : State) (m : SopMessage) : Bool :=
  1 ≤ m.session.toNat && m.session.toNat ≤ 8 && (s.sopSession m).isOpen

/-- The epoch of a message's IV (R43). -/
def State.sopEpoch (s : State) (m : SopMessage) : Nat := if s.sopOpen m then (s.sopSession m).epoch else 0

/-- The GMAC key: that of the slot SOP_KEY_SLOT names. -/
def State.sopKey (s : State) : Option Key := s.keyAt (4096 + s.obj? Obj.sopKeySlot)

/-! ### The checks of a message (R46, steps 1 to 8) -/

/-- The lane of a path, where it has one. -/
def pathLane : Path → Option Nat
  | .mg0Eth => some 0
  | .mg0Udp => some 0
  | .mg1Eth => some 1
  | .mg1Udp => some 1
  | .mailbox => none

/-- The carriage is UDP. -/
def pathUdp : Path → Bool
  | .mg0Udp => true
  | .mg1Udp => true
  | _ => false

/-- PCIe requests reach the device. -/
def State.pcieReached (s : State) : Bool := s.boot.powered && s.pins.perstN && !s.fenced 0x5B5

/-- A datagram's destination is the device's address and SOP_UDP_PORT (R38). -/
def State.udpAddressed (s : State) (c : Carriage) : Bool :=
  let v6 := c.dest.length == 18
  let own := if v6 then toBe 16 (s.obj? Obj.sopIpv6Address) else toBe 4 (s.obj? Obj.sopIpv4Address)
  beNat own != 0 && c.dest == own ++ toBe 2 (s.obj? Obj.sopUdpPort) && !c.ipOptions && !c.fragment && !(v6 && c.zeroChecksum)

/-- Step 1: the carriage is valid, enabled and addressed to this lane (R38, SOP_CARRIAGE_ENABLE, R379). -/
def State.carriageGood (s : State) (c : Carriage) : Bool :=
  match pathLane c.path with
  | none => s.pcieReached
  | some lane =>
    s.boot.powered && !s.fenced (0x5B3 + lane) && bit (s.obj? Obj.sopCarriageEnable) (pathCode c.path) &&
      if pathUdp c.path then s.udpAddressed c
      else decide (c.tags.length ≤ 1) && c.dest == toBe 6 (s.obj? (if lane = 0 then Obj.mg0Mac else Obj.mg1Mac))

/-- Step 2: a request whose lengths agree. -/
def sopShaped (m : SopMessage) : Bool :=
  !m.rsp && m.length.toNat == m.payload.length && decide (m.payload.length ≤ 1408) &&
    m.trailer.length == if m.auth then 16 else 4

/-- Step 3: the trailer is right. -/
def State.sopAuthentic (s : State) (opcode : Nat) (m : SopMessage) : Bool :=
  if m.auth then
    (s.sopOpen m || (m.session.toNat == 0 && opcode == 0x10)) && s.sopKey.isSome &&
      m.trailer == sopTrailer s.sopKey (s.sopEpoch m) m.session.toNat m.seq.toNat 0 (sopSigned m opcode)
  else m.trailer == sopTrailer none 0 0 0 0 (sopSigned m opcode)

/-- A sessionless READ (R40). -/
def sopSessionless (m : SopMessage) (opcode : Nat) : Bool := m.session.toNat == 0 && opcode == 1

/-- Steps 4 to 6: the code of the response that refuses a message. -/
def State.sopRefuses (s : State) (opcode : Nat) (m : SopMessage) : Option Nat :=
  let x := s.sopSession m
  if m.ver.toNat ≠ 1 then some 1
  else if m.session.toNat ≠ 0 ∧ !(s.sopOpen m && x.path == m.carriage.path && x.peer == m.carriage.peer) then some 5
  else if sopSessionless m opcode then none
  else if (m.session.toNat ≠ 0 ∧ x.auth ≠ m.auth) ∨ (s.obj? Obj.sopAuthRequired = 1 ∧ !m.auth) then some 8
  else none

/-- The SEQ a message's session expects. -/
def State.sopExpected (s : State) (m : SopMessage) : Nat :=
  if m.session.toNat = 0 then s.obj? Obj.session0NextSeq else (s.sopSession m).nextSeq

/-- The stored response that a message may be a repetition for (R49). -/
def State.sopStored (s : State) (m : SopMessage) : Option (List Byte) :=
  if m.session.toNat = 0 then
    (if s.sop.peer0 == (m.carriage.path, m.carriage.peer) then s.sop.stored0 else none)
  else (s.sopSession m).stored

/-- What step 7 decides (R49). -/
inductive SeqVerdict where
  | serve | replay (response : List Byte) | refuse (code : Nat)
  deriving DecidableEq, Repr

/-- A counter of R44 has reached 0xFFFF_FFFF. -/
def State.sopExhausted (s : State) : Bool :=
  s.obj? Obj.session0NextSeq == 0xFFFFFFFF || s.obj? Obj.commEpoch == 0xFFFFFFFF

/-- Step 7: the SEQ rule. Once a counter of R44 is exhausted it answers every OPEN on session 0 with SESSION_EXHAUSTED, whatever its
SEQ and its payload and whether a session is free (R44; DEDUCED, log entry 25). -/
def State.sopSeq (s : State) (opcode : Nat) (m : SopMessage) : SeqVerdict :=
  let seq := m.seq.toNat
  let expected := s.sopExpected m
  if sopSessionless m opcode then .serve
  else if opcode = 0x10 ∧ m.session.toNat = 0 ∧ s.sopExhausted then .refuse 7
  else if seq = expected then (if expected = 0xFFFFFFFF then .refuse 7 else .serve)
  else if seq + 1 = expected then match s.sopStored m with
    | some b => .replay b
    | none => .refuse 6
  else .refuse 6

/-- Step 8: the opcode is allowed on the session, and a sessionless READ names an object of R40. -/
def sopAllowed (opcode : Nat) (m : SopMessage) : Bool :=
  let index := m.index.toNat
  if m.session.toNat = 0 then opcode == 0x10 || (opcode == 1 && ((0x1000 ≤ index && index ≤ 0x10FF) || index == 0x1101))
  else (1 ≤ opcode && opcode ≤ 5) || opcode == 0x11 || opcode == 0x12

/-! ### Serving a message (R40, R41, R44, R47, R48) -/

/-- The access a message asks for; none where its payload does not fit its opcode. -/
def sopOp (m : SopMessage) (opcode : Nat) : Option Op :=
  let n := m.payload.length
  match opcode with
  | 1 => if n = 0 then some .read else none
  | 2 => some (.write m.payload)
  | 4 => if n = 12 ∧ 1 ≤ beAt m.payload 8 2 ∧ beAt m.payload 8 2 ≤ 1408 then
      some (.domainRead (beAt m.payload 0 8) (beAt m.payload 8 2)) else none
  | _ => if 9 ≤ n ∧ n ≤ 1408 then some (.domainWrite (beAt m.payload 0 8) (m.payload.drop 8)) else none

/-- Step 9 alone: an access whose payload or width does not fit is judged by it first. -/
def State.misfit (s : State) (op : Op) (index sub : Nat) : Nat :=
  match object? index sub with
  | .error e => e
  | .ok f => if !s.lifeAllows index then 0x1C else (s.kindRefuses f (Dict.key index sub) op).getD 0x15

/-- The state a result leads to, where it is a next state. -/
def nextOr (s : State) : Result → State
  | .next t => t
  | _ => s

/-- The items of a MULTI_READ: index and sub-index. -/
def sopItems (m : SopMessage) : List (Nat × Nat) :=
  (List.range (m.payload.length / 4)).map fun k => (beAt m.payload (4 * k) 2, beAt m.payload (4 * k + 2) 1)

/-- The entry of an item read: status, length, two zero bytes and the padded value. -/
def itemEntry (code : Nat) (data : List Byte) : List Byte :=
  [BitVec.ofNat 8 code, BitVec.ofNat 8 data.length, 0, 0] ++ padTo (4 * ceilDiv data.length 4) data

/-- The items read in list order, while their entries and 4 bytes for each later one fit 1,408 bytes (R41). -/
def State.readItems (s : State) (used : Nat) : List (Nat × Nat) → List Byte × State
  | [] => ([], s)
  | (index, sub) :: rest =>
    let r := s.serve .read index sub none
    let e := itemEntry r.code r.data
    if used + e.length + 4 * rest.length ≤ 1408 then
      let (b, s) := (nextOr s r.outcome).readItems (used + e.length) rest
      (e ++ b, s)
    else ((List.range (rest.length + 1)).flatMap fun _ => itemEntry 3 [], s)

/-- An OPEN that step 7 has passed (R44, R47). -/
def State.openSession (s : State) (m : SopMessage) : Served :=
  let epoch := s.obj? Obj.commEpoch
  if m.payload.length ≠ 4 then s.rejected 0x15
  else match s.sop.sessions.findIdx? fun x => !x.isOpen with
    | none => s.rejected 9
    | some i =>
      let idle := beNat m.payload
      let s' := (s.put Obj.commEpoch (epoch + 1)).setSession (i + 1) fun _ =>
        { isOpen := true, path := m.carriage.path, peer := m.carriage.peer, nextSeq := 1, epoch := epoch + 1, auth := m.auth,
          idleMs := if idle = 0 then s.obj? Obj.sessionIdleTimeout else idle, stored := none }
      { code := 0, data := toBe 2 (i + 1) ++ toBe 2 0 ++ toBe 4 (epoch + 1), outcome := .next s' }

/-- Steps 8 to 12 and the effect of a message that is served at once. -/
def State.sopServe (s : State) (opcode : Nat) (m : SopMessage) : Served :=
  let index := m.index.toNat
  let sub := m.sub.toNat
  if !sopAllowed opcode m then s.rejected 2
  else match opcode with
    | 3 =>
      let n := m.payload.length / 4
      if m.payload.length % 4 ≠ 0 ∨ n = 0 ∨ 64 < n then s.rejected 0x15
      else
        let r := s.readItems 0 (sopItems m)
        { code := 0, data := r.1, outcome := .next r.2 }
    | 0x10 => s.openSession m
    | 0x11 => if m.payload.isEmpty then { code := 0, data := [], outcome := .next (s.closeSession m.session.toNat) }
              else s.rejected 0x15
    | 0x12 => s.rejected (if m.payload.isEmpty then 0 else 0x15)
    | _ => match sopOp m opcode with
      | some op => s.serve op index sub none
      | none => s.rejected (s.misfit (if opcode = 5 then .domainWrite 0 [] else .read) index sub)

/-- The access passes its checks and the Atelier serves it. -/
def State.waits (s : State) (op : Op) (index sub : Nat) : Bool :=
  match s.admits op index sub with
  | .ok _ => s.slowAccess op index sub
  | .error _ => false

/-- A message asks for work that the Atelier does (R37). -/
def State.sopSlow (s : State) (opcode : Nat) (m : SopMessage) : Bool :=
  sopAllowed opcode m && match opcode with
    | 3 => m.payload.length % 4 == 0 && decide ((sopItems m).length ≤ 64) && (sopItems m).any fun x => s.waits .read x.1 x.2
    | 0x10 => false
    | 0x11 => false
    | 0x12 => false
    | _ => match sopOp m opcode with
      | some op => s.waits op m.index.toNat m.sub.toNat
      | none => false

/-! ### Responses -/

/-- The SEQ that a served message's session expects next (R49). -/
def State.sopAdvance (s : State) (opcode : Nat) (m : SopMessage) : State :=
  if sopSessionless m opcode then s
  else if m.session.toNat = 0 then s.put Obj.session0NextSeq (m.seq.toNat + 1)
  else s.setSession m.session.toNat fun x => { x with nextSeq := m.seq.toNat + 1 }

/-- A response stored for a repetition (R49), or none while its request waits. -/
def State.sopStore (s : State) (opcode : Nat) (m : SopMessage) (epoch : Nat) (b : Option (List Byte)) : State :=
  if sopSessionless m opcode then s
  else if m.session.toNat = 0 then
    { s with sop := { s.sop with stored0 := b, peer0 := (m.carriage.path, m.carriage.peer) } }
  else s.setSession m.session.toNat fun x => if x.isOpen && x.epoch == epoch then { x with stored := b } else x

/-- The mailbox's part in a message on its path: whether it carried it. -/
def byMailbox (c : Carriage) : Bool := decide (c.path = .mailbox)

/-- The device's own address in a carriage: the MAC address of the lane, or the IP address of the request's family followed by
SOP_UDP_PORT; empty for the mailbox (R38). -/
def State.ownAddress (s : State) (c : Carriage) : List Byte :=
  match pathLane c.path with
  | none => []
  | some lane =>
    if pathUdp c.path then
      (if c.dest.length = 18 then toBe 16 (s.obj? Obj.sopIpv6Address) else toBe 4 (s.obj? Obj.sopIpv4Address)) ++
        toBe 2 (s.obj? Obj.sopUdpPort)
    else toBe 6 (s.obj? (if lane = 0 then Obj.mg0Mac else Obj.mg1Mac))

/-- A response sent from the device's present address to the request's source, or placed in MBOX_RESPONSE (R38, R55, R56). -/
def State.deliver (s : State) (c : Carriage) (b : List Byte) : State :=
  let s := { s with answer := .sop c.path (s.ownAddress c) c.peer c.tags b }
  if byMailbox c then
    { s.putBytes mailboxKey 0x800 b with
      sop := { s.sop with mboxBusy := false, mboxDone := true, mboxLength := b.length } }
  else s

/-- A message discarded without a response (R46). -/
def State.discard (s : State) (mailbox : Bool) : State :=
  let s := { s with answer := .discarded }
  if mailbox then { s with sop := { s.sop with mboxBusy := false, mboxDiscarded := true } } else s

/-- A discard that counts in an object (R46, COMM_SUMMARY [0]). -/
def State.discardCounted (s : State) (mailbox : Bool) (counter : Nat) : State :=
  let t := (s.bump32 counter).discard mailbox
  if s.obj? counter = 0xFFFFFFFF then t else t.flag Obj.commSummary 0

/-- The stored response of a message's session is still its own: none with a later SEQ has been accepted (R49). -/
def State.sopLatest (s : State) (m : SopMessage) : Bool := s.sopExpected m == m.seq.toNat + 1

/-- A message that waited served: its response is stored, while it is its session's latest, and sent first, and what it does to the
device follows (R48, R49, R56, R72). -/
def State.sopAnswer (s : State) (opcode : Nat) (m : SopMessage) (key : Option Key) (epoch : Nat) : Result :=
  let r := s.sopServe opcode m
  let b := sopResponse m opcode r.code (if r.code = 0 then r.data else []) key epoch
  let t := if s.sopLatest m then s.sopStore opcode m epoch (some b) else s
  ((t.deliver m.carriage b).sopServe opcode m).outcome

/-- Two paths share an access path of R32: a management lane, or the mailbox. -/
def samePath (a b : Path) : Bool := pathLane a == pathLane b

/-- A message waits its turn behind one of its path that waits (R32): a dictionary access. OPEN, CLOSE and NOP are none (DESIGN
CHOICE, log entry 27). -/
def State.sopBehind (s : State) (opcode : Nat) (m : SopMessage) : Bool :=
  decide (1 ≤ opcode ∧ opcode ≤ 5) && s.sop.slow.any fun x => samePath x.message.carriage.path m.carriage.path

/-- A message that passed steps 1 to 7. -/
def State.sopAccept (s : State) (opcode : Nat) (m : SopMessage) (key : Option Key) : Result :=
  let epoch := s.sopEpoch m
  let atelier := s.sopSlow opcode m
  if atelier || s.sopBehind opcode m then
    if atelier && s.slowFull then
      let b := sopResponse m opcode 0x1B [] key epoch
      .next (((s.noteBusy.sopAdvance opcode m).sopStore opcode m epoch (some b)).deliver m.carriage b)
    else
      let s := (s.sopAdvance opcode m).sopStore opcode m epoch none
      let s := if atelier then s.request 5 else s
      let waiting : SlowRequest := { atelier := atelier, opcode := opcode, message := m, key := key, epoch := epoch }
      .next { s with answer := .queued, sop := { s.sop with slow := s.sop.slow ++ [waiting] } }
  else
    let r := s.sopServe opcode m
    let b := sopResponse m opcode r.code (if r.code = 0 then r.data else []) key epoch
    let t := ((s.sopAdvance opcode m).sopStore opcode m epoch (some b)).deliver m.carriage b
    (t.sopServe opcode m).outcome

/-- A message received over a path (R46). -/
def State.sopMessage (s : State) (opcode : Nat) (m : SopMessage) : Result :=
  let box := byMailbox m.carriage
  let key := if m.auth then s.sopKey else none
  let refuse := fun code =>
    .next (s.deliver m.carriage (sopResponse m opcode code [] key (s.sopEpoch m)))
  if !s.carriageGood m.carriage then .next (s.discard false)
  else if !sopShaped m then .next (s.discardCounted box Obj.sopMalformed)
  else if !s.sopAuthentic opcode m then .next (s.discardCounted box (if m.auth then Obj.sopAuthFails else Obj.sopCheckFails))
  else match s.sopRefuses opcode m with
    | some code => refuse code
    | none => match s.sopSeq opcode m with
      | .refuse code => refuse code
      | .replay b => .next (s.deliver m.carriage b)
      | .serve => s.sopAccept opcode m key

/-! ### PCIe (R50-R55) -/

/-- A rejected PCIe access recorded (R52). -/
def State.recordAbort (s : State) (code index sub : Nat) : State :=
  ((s.put Obj.pcieLastAbort (field 24 code + field 8 (index % 65536) + sub % 256)).bump32 Obj.pcieAbortCount).flag
    Obj.commSummary 2

/-- The mailbox starts on a message, or is busy (R55). -/
def State.mailboxStart (s : State) (go : State → Result) : Result :=
  if s.sop.mboxBusy then .next (s.recordAbort 0x1B 0 0)
  else go { s with sop := { s.sop with mboxBusy := true, mboxDone := false, mboxDiscarded := false } }

/-- A message received: over the mailbox, its doorbell is part of it. -/
def State.receiveSop (s : State) (opcode : Nat) (m : SopMessage) : Result :=
  if !s.boot.powered then .next s
  else if byMailbox m.carriage && s.pcieReached then s.mailboxStart fun s => s.sopMessage opcode m
  else s.sopMessage opcode m

/-- The carriage of the mailbox. -/
def mailboxCarriage : Carriage :=
  { path := .mailbox, peer := [], dest := [], tags := [], ipOptions := false, fragment := false, zeroChecksum := false }

/-- The message in a string of at least 16 bytes (table SOP header). The trailer is what follows LENGTH bytes of payload. -/
def parseSop (b : List Byte) : SopMessage :=
  let h := beAt b 0 16
  let n := bits h 63 48
  { carriage := mailboxCarriage, ver := BitVec.ofNat 4 (bits h 127 124), rsp := bit h 123, auth := bit h 122,
    rsvdHigh := BitVec.ofNat 2 (bits h 121 120), session := BitVec.ofNat 16 (bits h 111 96), seq := BitVec.ofNat 32 (bits h 95 64),
    length := BitVec.ofNat 16 n, index := BitVec.ofNat 16 (bits h 47 32), sub := BitVec.ofNat 8 (bits h 31 24),
    status := BitVec.ofNat 8 (bits h 23 16), rsvdLow := BitVec.ofNat 16 (bits h 15 0), payload := slice b 16 n,
    trailer := b.drop (16 + n) }

/-- A write of MBOX_DOORBELL (R55). -/
def State.doorbell (s : State) (v : Nat) : Result :=
  let n := bits v 15 0
  s.mailboxStart fun s =>
    if n < 16 ∨ 0x800 < n then .next (s.discardCounted true Obj.sopMalformed)
    else
      let b := s.bytes mailboxKey 0 n
      s.sopMessage (beAt b 1 1) (parseSop b)

/-- MBOX_STATUS. -/
def State.mboxStatus (s : State) : Nat :=
  level 31 s.sop.mboxBusy + level 30 s.sop.mboxDone + level 29 s.sop.mboxDiscarded + s.sop.mboxLength % 65536

/-- A byte of BAR4 as it reads. -/
def State.bar4Byte (s : State) (off : Nat) : Byte :=
  if off < 0x1000 then Sparse.get Defaults.dom s.dom (Defaults.domAddr mailboxKey off)
  else if 0x1004 ≤ off ∧ off < 0x1008 then (toLe 4 s.mboxStatus).getD (off - 0x1004) 0
  else 0

/-- A read through BAR4. -/
def State.bar4Read (s : State) (off n : Nat) : Result :=
  if !s.pcieReached then .next s
  else .next { s with answer := .completion ((List.range n).map fun i => s.bar4Byte (off + i)) }

/-- A write through BAR4 (R55): MBOX_REQUEST takes bytes, UB-DIC-5 while the mailbox is busy; the doorbell takes 4 bytes. -/
def State.bar4Write (s : State) (off : Nat) (b : List Byte) : Result :=
  if !s.pcieReached then .next s
  else if off = 0x1000 ∧ b.length = 4 then s.doorbell (leNat b)
  else if 0x800 ≤ off then .next { s with answer := .none }
  else if s.sop.mboxBusy then undefinedCase "UB-DIC-5"
  else .next { s.putBytes mailboxKey off (b.take (0x800 - off)) with answer := .none }

/-- The completion of a read that is rejected or not served (R52, R54). -/
def allOnes (n : Nat) : List Byte := List.replicate n 0xFF

/-- A PCIe access served: a rejected one is recorded and completes all the same (R52). -/
def State.pcieDone (s : State) (r : Served) (index sub : Nat) (good bad : Answer) : Result :=
  if r.code = 0 then answering r.outcome good
  else .next { (nextOr s r.outcome).recordAbort r.code index sub with answer := bad }

/-- BAR0 and BAR2 are open (R54). -/
def State.directOn (s : State) : Bool := s.obj? Obj.pcieDirectEnable == 1

/-- An octet string's bytes stand in order in a slot; other values stand least significant byte first (R51). -/
def slotOrder (index sub : Nat) (b : List Byte) : List Byte :=
  match Dict.find index sub with
  | some f => if f.ty = .octets then b else b.reverse
  | none => b.reverse

/-- A read through BAR0 (R51). -/
def State.bar0Read (s : State) (off n : Nat) : Result :=
  let index := off / 0x800
  let sub := off % 0x800 / 8
  if !s.pcieReached then .next s
  else if !s.directOn then .next { s with answer := .completion (allOnes n) }
  else
    let fits := off % 8 == 0 && (n == 1 || n == 2 || n == 4 || n == 8)
    let r := if fits then s.serveNow .read index sub none else s.rejected (s.misfit .read index sub)
    s.pcieDone r index sub (.completion (padTo n (slotOrder index sub r.data))) (.completion (allOnes n))

/-- A write of a width that BAR0 carries (R51). -/
def slotWidth (index sub n : Nat) : Bool :=
  match Dict.find index sub with
  | some f => decide (f.ty ≠ .domain) && f.size == n && (n == 1 || n == 2 || n == 4 || n == 8)
  | none => false

/-- A write through BAR0 (R51, R52). -/
def State.bar0Write (s : State) (off : Nat) (b : List Byte) : Result :=
  let index := off / 0x800
  let sub := off % 0x800 / 8
  let op : Op := .write (slotOrder index sub b)
  if !s.pcieReached then .next s
  else if !s.directOn then .next { s with answer := .none }
  else
    let r := if 8 < off % 8 + b.length then s.rejected 0x15
      else if off % 8 == 0 && slotWidth index sub b.length then s.serveNow op index sub none
      else s.rejected (s.misfit op index sub)
    s.pcieDone r index sub .none .none

/-- An octet string that a BAR2 window reaches as a region: its size (R51). -/
def windowOctets (index sub : Nat) : Option Nat :=
  match Dict.find index sub with
  | some f => if f.ty = .octets ∧ (f.size = 3 ∨ f.size = 5 ∨ f.size = 6 ∨ f.size = 7 ∨ 8 < f.size) then some f.size else none
  | none => none

/-- The index, sub-index and region byte of a BAR2 offset (R53). A sum of base and offset past 2^64 wraps (DESIGN CHOICE, log
entry 106). -/
def State.window (s : State) (off : Nat) : Nat × Nat × Nat :=
  let w := off / 0x100000 % 4
  let t := s.obj? (Obj.windowObject w)
  (bits t 23 8, bits t 7 0, (s.obj? (Obj.windowBase w) + off % 0x100000) % 2 ^ 64)

/-- A read through a BAR2 window (R53). -/
def State.bar2Read (s : State) (off n : Nat) : Result :=
  let (index, sub, at_) := s.window off
  if !s.pcieReached then .next s
  else if !s.directOn then .next { s with answer := .completion (allOnes n) }
  else
    let r := match windowOctets index sub with
      | some size =>
        if size < at_ + n then s.rejected (let e := s.misfit .read index sub; if e = 0x15 then 0x18 else e)
        else
          let r := s.serveNow .read index sub none
          { r with data := slice r.data at_ n }
      | none => s.serveNow (.domainRead at_ n) index sub none
    s.pcieDone r index sub (.completion r.data) (.completion (allOnes n))

/-- A DOMAIN_WRITE of the object waits in the slow queue. -/
def State.domainWriteWaits (s : State) (index sub : Nat) : Bool :=
  s.sop.slow.any fun x => x.opcode == 5 && x.message.index.toNat == index && x.message.sub.toNat == sub

/-- The misuse that a window write of an object is while a DOMAIN_WRITE to it is in process on another path (R136, R159, R192, R218,
R270, R296, R319, R370, R428, R447). -/
def concurrentCase (index sub : Nat) : Option String :=
  let key := Dict.key index sub
  if 0x2000 ≤ index ∧ index < 0x2800 ∧ index % 16 = 6 ∧ sub = 1 then some "UB-PORT-2"
  else if (index = 0x30A1 ∨ index = 0x30A2) ∧ sub ≤ 2 then some "UB-PAR-3"
  else if index = 0x4040 then some "UB-EM-3"
  else if (0x5000 ≤ index ∧ index < 0x5004) ∨ key = Obj.ruleStaging then some "UB-REL-2"
  else if key = Obj.nextHopTable ∨ key = Obj.encapTable ∨ key = Obj.smacTable ∨ key = Obj.groupTable ∨
      key = Obj.replicationList then some "UB-RW-3"
  else if key = Obj.bufferProfiles then some "UB-BUF-1"
  else if key = Obj.classMaps ∨ (0x6200 ≤ index ∧ index < 0x6210 ∧ sub ≤ 2) ∨ key = Obj.nhQueueSet ∨ key = Obj.policers then
    some "UB-Q-1"
  else if key = Obj.rxScTable ∨ key = Obj.saTable ∨ key = Obj.jobBuffer then some "UB-CIP-3"
  else if key = Obj.flowCounters ∨ key = Obj.nhCounterMap ∨ key = Obj.caliperEvents then some "UB-CNT-1"
  else if key = Obj.reloadImage then some "UB-ATL-1"
  else none

/-- Bytes of a region written through a window: served, or the misuse of a write to an object that another path is writing. -/
def State.windowWrite (s : State) (index sub off : Nat) (b : List Byte) : Served :=
  match s.admits (.domainWrite off b) index sub, concurrentCase index sub with
  | .ok _, some case =>
    if s.domainWriteWaits index sub then { code := 0, data := [], outcome := undefinedCase case }
    else s.serveNow (.domainWrite off b) index sub none
  | _, _ => s.serveNow (.domainWrite off b) index sub none

/-- A write through a BAR2 window (R53). -/
def State.bar2Write (s : State) (off : Nat) (b : List Byte) : Result :=
  let (index, sub, at_) := s.window off
  if !s.pcieReached then .next s
  else if !s.directOn then .next { s with answer := .none }
  else
    let r := match windowOctets index sub with
      | some size =>
        if size < at_ + b.length then
          s.rejected (let e := s.misfit (.write b) index sub; if e = 0x15 then 0x18 else e)
        else s.serveNow (.write (splice (toBe size (s.value index sub)) at_ b)) index sub none
      | none => s.windowWrite index sub at_ b
    s.pcieDone r index sub .none .none

/-! ### Commands -/

/-- READ (R40, R51, R55). -/
def execRead (access : ReadAccess) (s : State) : Result :=
  match access with
  | .sop m => s.receiveSop 1 m
  | .bar0 off n => s.bar0Read off.toNat n
  | .bar4 off n => s.bar4Read off.toNat n

/-- WRITE (R34, R51, R55). -/
def execWrite (access : WriteAccess) (s : State) : Result :=
  match access with
  | .sop m => s.receiveSop 2 m
  | .bar0 off b => s.bar0Write off.toNat b
  | .bar4 off b => s.bar4Write off.toNat b

/-- MULTI_READ (R41). -/
def execMultiRead (message : SopMessage) (s : State) : Result := s.receiveSop 3 message

/-- DOMAIN_READ (R479, R53). -/
def execDomainRead (access : DomainReadAccess) (s : State) : Result :=
  match access with
  | .sop m => s.receiveSop 4 m
  | .bar2 off n => s.bar2Read off.toNat n

/-- DOMAIN_WRITE (R479, R53). -/
def execDomainWrite (access : DomainWriteAccess) (s : State) : Result :=
  match access with
  | .sop m => s.receiveSop 5 m
  | .bar2 off b => s.bar2Write off.toNat b

/-- OPEN (R47). -/
def execSopOpen (message : SopMessage) (s : State) : Result := s.receiveSop 0x10 message

/-- CLOSE (R48). -/
def execSopClose (message : SopMessage) (s : State) : Result := s.receiveSop 0x11 message

/-- NOP (R48). -/
def execSopNop (message : SopMessage) (s : State) : Result := s.receiveSop 0x12 message

/-- A request for an address on a management lane, answered where it is the device's (R39). -/
def State.resolve (s : State) (lane : Nat) (own target : List Byte) : State :=
  if s.boot.powered && !s.fenced (0x5B3 + lane) && beNat own != 0 && target == own then
    { s with answer := .resolved lane target }
  else s

/-- ARP_REQUEST (R39). -/
def execArpRequest (lane : Fin 2) (target : List Byte) (s : State) : Result :=
  .next (s.resolve lane.val (toBe 4 (s.obj? Obj.sopIpv4Address)) target)

/-- NEIGHBOUR_SOLICITATION (R39). -/
def execNeighbourSolicitation (lane : Fin 2) (target : List Byte) (s : State) : Result :=
  .next (s.resolve lane.val (toBe 16 (s.obj? Obj.sopIpv6Address)) target)

/-- SESSION_IDLE_TIMEOUT (R48): the event of an idle time that has passed. -/
def execSessionIdleTimeout (session : Fin 8) (s : State) : Result :=
  if (s.sop.sessions.getD session.val .free).isOpen then .next ((s.closeSession (session.val + 1)).flag Obj.commSummary 1)
  else .next s

/-- MBOX_DOORBELL (R55). -/
def execMboxDoorbell (value : BitVec 32) (s : State) : Result :=
  if s.pcieReached then s.doorbell value.toNat else .next s

/-- SLOW_REQUEST_COMPLETE (R32, R37, R432): the request that has waited longest is served, and its response is sent. One that only
waited its turn is served so too (DESIGN CHOICE, log entry 27). -/
def execSlowRequestComplete (s : State) : Result :=
  match s.sop.slow with
  | [] => .next s
  | x :: rest =>
    ({ s with sop := { s.sop with slow := rest } } : State).sopAnswer x.opcode x.message x.key x.epoch

end Sys2Proof.Machine
end

