-- ==== Sys2Proof/Machine/Dispatch.lean ====
section
/-! DEFINITION. One arm per command: the direct call of its meaning. -/

namespace Sys2Proof.Machine

/-- The effect of a command on everything but the queue of commands that wait. -/
def exec (i : Instr) (s : State) : Host.Outcome State Fault Refusal :=
  match i with
  | .powerOn straps => Sys2Proof.Machine.execPowerOn straps s
  | .railLoss rail => Sys2Proof.Machine.execRailLoss rail s
  | .railReturn => Sys2Proof.Machine.execRailReturn s
  | .coldNLow => Sys2Proof.Machine.execColdNLow s
  | .coldNRise => Sys2Proof.Machine.execColdNRise s
  | .warmNLow => Sys2Proof.Machine.execWarmNLow s
  | .warmNRise => Sys2Proof.Machine.execWarmNRise s
  | .resetRequestWarm => Sys2Proof.Machine.execResetRequestWarm s
  | .resetRequestCold => Sys2Proof.Machine.execResetRequestCold s
  | .pllLossOfLock pll => Sys2Proof.Machine.execPllLossOfLock pll s
  | .pllLockRestored => Sys2Proof.Machine.execPllLockRestored s
  | .clockLossBeforeReady source => Sys2Proof.Machine.execClockLossBeforeReady source s
  | .clocksStable => Sys2Proof.Machine.execClocksStable s
  | .pllsLocked => Sys2Proof.Machine.execPllsLocked s
  | .configBlockRead block => Sys2Proof.Machine.execConfigBlockRead block s
  | .imageReadEnd image => Sys2Proof.Machine.execImageReadEnd image s
  | .imageVerified signatureGood => Sys2Proof.Machine.execImageVerified signatureGood s
  | .sramWipeEnd => Sys2Proof.Machine.execSramWipeEnd s
  | .ddr5TrainingEnd failed => Sys2Proof.Machine.execDdr5TrainingEnd failed s
  | .ddr5ResetRelease => Sys2Proof.Machine.execDdr5ResetRelease s
  | .ddr5ReinitEnd => Sys2Proof.Machine.execDdr5ReinitEnd s
  | .ddr5WipeEnd => Sys2Proof.Machine.execDdr5WipeEnd s
  | .powerOnKilnPassEnd failure => Sys2Proof.Machine.execPowerOnKilnPassEnd failure s
  | .uploadStart value => Sys2Proof.Machine.execUploadStart value s
  | .lifeRequest value signatureGood => Sys2Proof.Machine.execLifeRequest value signatureGood s
  | .fuseBlowEnd => Sys2Proof.Machine.execFuseBlowEnd s
  | .pipeGatedEntry pipe => Sys2Proof.Machine.execPipeGatedEntry pipe s
  | .pipeRetainEntry pipe => Sys2Proof.Machine.execPipeRetainEntry pipe s
  | .pipeOffEntry pipe => Sys2Proof.Machine.execPipeOffEntry pipe s
  | .pipeWake pipe cause => Sys2Proof.Machine.execPipeWake pipe cause s
  | .pipeWakeEnd pipe => Sys2Proof.Machine.execPipeWakeEnd pipe s
  | .read access => Sys2Proof.Machine.execRead access s
  | .write access => Sys2Proof.Machine.execWrite access s
  | .multiRead message => Sys2Proof.Machine.execMultiRead message s
  | .domainRead access => Sys2Proof.Machine.execDomainRead access s
  | .domainWrite access => Sys2Proof.Machine.execDomainWrite access s
  | .sopOpen message => Sys2Proof.Machine.execSopOpen message s
  | .sopClose message => Sys2Proof.Machine.execSopClose message s
  | .sopNop message => Sys2Proof.Machine.execSopNop message s
  | .arpRequest lane target => Sys2Proof.Machine.execArpRequest lane target s
  | .neighbourSolicitation lane target => Sys2Proof.Machine.execNeighbourSolicitation lane target s
  | .sessionIdleTimeout session => Sys2Proof.Machine.execSessionIdleTimeout session s
  | .sessionForceClose session => Sys2Proof.Machine.execSessionForceClose session s
  | .sopKeySlotWrite value => Sys2Proof.Machine.execSopKeySlotWrite value s
  | .sopAuthRequiredWrite value => Sys2Proof.Machine.execSopAuthRequiredWrite value s
  | .mboxDoorbell value => Sys2Proof.Machine.execMboxDoorbell value s
  | .slowRequestComplete => Sys2Proof.Machine.execSlowRequestComplete s
  | .objectWrite index sub value => Sys2Proof.Machine.execObjectWrite index sub value s
  | .ringHead ring value => Sys2Proof.Machine.execRingHead ring value s
  | .ringTail ring value => Sys2Proof.Machine.execRingTail ring value s
  | .ringStatusClear ring value => Sys2Proof.Machine.execRingStatusClear ring value s
  | .commSummaryClear value => Sys2Proof.Machine.execCommSummaryClear value s
  | .functionRequestHold fn => Sys2Proof.Machine.execFunctionRequestHold fn s
  | .functionRequestRun fn => Sys2Proof.Machine.execFunctionRequestRun fn s
  | .functionRequestOff fn => Sys2Proof.Machine.execFunctionRequestOff fn s
  | .functionRequestFence fn => Sys2Proof.Machine.execFunctionRequestFence fn s
  | .drainComplete fn => Sys2Proof.Machine.execDrainComplete fn s
  | .forcedDrain fn => Sys2Proof.Machine.execForcedDrain fn s
  | .startComplete fn => Sys2Proof.Machine.execStartComplete fn s
  | .modeSummaryClear value => Sys2Proof.Machine.execModeSummaryClear value s
  | .lifeSummaryClear value => Sys2Proof.Machine.execLifeSummaryClear value s
  | .clockSummaryClear value => Sys2Proof.Machine.execClockSummaryClear value s
  | .pagesReceived port pages => Sys2Proof.Machine.execPagesReceived port pages s
  | .anWaitExpiry port => Sys2Proof.Machine.execAnWaitExpiry port s
  | .pdDwellExpiry port => Sys2Proof.Machine.execPdDwellExpiry port s
  | .rateDetected port => Sys2Proof.Machine.execRateDetected port s
  | .trainingComplete port => Sys2Proof.Machine.execTrainingComplete port s
  | .trainingLimitExpiry port => Sys2Proof.Machine.execTrainingLimitExpiry port s
  | .linkUp port => Sys2Proof.Machine.execLinkUp port s
  | .linkLoss port cause => Sys2Proof.Machine.execLinkLoss port cause s
  | .holdTimeExpiry port => Sys2Proof.Machine.execHoldTimeExpiry port s
  | .receivedFrame port part bytes err => Sys2Proof.Machine.execReceivedFrame port part bytes err s
  | .pauseFrame port bytes => Sys2Proof.Machine.execPauseFrame port bytes s
  | .pfcFrame port bytes => Sys2Proof.Machine.execPfcFrame port bytes s
  | .macControlFrame port bytes => Sys2Proof.Machine.execMacControlFrame port bytes s
  | .pauseTimerExpiry port cls => Sys2Proof.Machine.execPauseTimerExpiry port cls s
  | .pauseWatchdogExpiry port cls => Sys2Proof.Machine.execPauseWatchdogExpiry port cls s
  | .pauseWatchdogIgnoreEnd port cls => Sys2Proof.Machine.execPauseWatchdogIgnoreEnd port cls s
  | .cutThroughStart port => Sys2Proof.Machine.execCutThroughStart port s
  | .transmitUnderrun port => Sys2Proof.Machine.execTransmitUnderrun port s
  | .transmitEnd port => Sys2Proof.Machine.execTransmitEnd port s
  | .cleanFramesLimit port => Sys2Proof.Machine.execCleanFramesLimit port s
  | .underrunStepReset port => Sys2Proof.Machine.execUnderrunStepReset port s
  | .statsClearReceive port => Sys2Proof.Machine.execStatsClearReceive port s
  | .statsClearTransmit port => Sys2Proof.Machine.execStatsClearTransmit port s
  | .statsClearBoth port => Sys2Proof.Machine.execStatsClearBoth port s
  | .portFlagsClear port value => Sys2Proof.Machine.execPortFlagsClear port value s
  | .statsRxHalfClear port value => Sys2Proof.Machine.execStatsRxHalfClear port value s
  | .statsTxHalfClear port value => Sys2Proof.Machine.execStatsTxHalfClear port value s
  | .ingressSlotGrant pipe env => Sys2Proof.Machine.execIngressSlotGrant pipe env s
  | .lateLengthCheck frame => Sys2Proof.Machine.execLateLengthCheck frame s
  | .parseGraphSelect value => Sys2Proof.Machine.execParseGraphSelect value s
  | .standardGraphLoad => Sys2Proof.Machine.execStandardGraphLoad s
  | .pipeFlagsClear pipe value => Sys2Proof.Machine.execPipeFlagsClear pipe value s
  | .insert => Sys2Proof.Machine.execInsert s
  | .modify => Sys2Proof.Machine.execModify s
  | .delete => Sys2Proof.Machine.execDelete s
  | .lookup => Sys2Proof.Machine.execLookup s
  | .hitTest => Sys2Proof.Machine.execHitTest s
  | .learnEvent => Sys2Proof.Machine.execLearnEvent s
  | .bucketRestore copy place => Sys2Proof.Machine.execBucketRestore copy place s
  | .scrub copy place => Sys2Proof.Machine.execScrub copy place s
  | .bucketRebuild copy bank bucket => Sys2Proof.Machine.execBucketRebuild copy bank bucket s
  | .tableSummaryClear value => Sys2Proof.Machine.execTableSummaryClear value s
  | .ruleWrite => Sys2Proof.Machine.execRuleWrite s
  | .ruleDelete => Sys2Proof.Machine.execRuleDelete s
  | .ruleRead => Sys2Proof.Machine.execRuleRead s
  | .shadowMismatch quadrant bank position => Sys2Proof.Machine.execShadowMismatch quadrant bank position s
  | .shadowRebuild quadrant bank => Sys2Proof.Machine.execShadowRebuild quadrant bank s
  | .rehomingSwitch quadrant bank => Sys2Proof.Machine.execRehomingSwitch quadrant bank s
  | .reliefSummaryClear value => Sys2Proof.Machine.execReliefSummaryClear value s
  | .versionOpen => Sys2Proof.Machine.execVersionOpen s
  | .commit => Sys2Proof.Machine.execCommit s
  | .versionAbort => Sys2Proof.Machine.execVersionAbort s
  | .abortComplete => Sys2Proof.Machine.execAbortComplete s
  | .primingStart => Sys2Proof.Machine.execPrimingStart s
  | .commitSwitch => Sys2Proof.Machine.execCommitSwitch s
  | .slotRetire slot => Sys2Proof.Machine.execSlotRetire slot s
  | .cleanupComplete slot => Sys2Proof.Machine.execCleanupComplete slot s
  | .versionCancel => Sys2Proof.Machine.execVersionCancel s
  | .staleSweep queue => Sys2Proof.Machine.execStaleSweep queue s
  | .slotAudit slot => Sys2Proof.Machine.execSlotAudit slot s
  | .castWalk => Sys2Proof.Machine.execCastWalk s
  | .castWalkEnd => Sys2Proof.Machine.execCastWalkEnd s
  | .sampleSeed value => Sys2Proof.Machine.execSampleSeed value s
  | .recircDepthPeak pipe value => Sys2Proof.Machine.execRecircDepthPeak pipe value s
  | .grantTimeout frame => Sys2Proof.Machine.execGrantTimeout frame s
  | .spillWrite => Sys2Proof.Machine.execSpillWrite s
  | .binFlush voq => Sys2Proof.Machine.execBinFlush voq s
  | .spillReturn => Sys2Proof.Machine.execSpillReturn s
  | .ddr5Reread channel place burst => Sys2Proof.Machine.execDdr5Reread channel place burst s
  | .queueSummaryClear value => Sys2Proof.Machine.execQueueSummaryClear value s
  | .voqPass voq => Sys2Proof.Machine.execVoqPass voq s
  | .creditGrant port => Sys2Proof.Machine.execCreditGrant port s
  | .egressDecision pipe => Sys2Proof.Machine.execEgressDecision pipe s
  | .shaperRefill group node => Sys2Proof.Machine.execShaperRefill group node s
  | .fabricLaneTrained lane => Sys2Proof.Machine.execFabricLaneTrained lane s
  | .hello lane word => Sys2Proof.Machine.execHello lane word s
  | .fabricLaneLoss lane => Sys2Proof.Machine.execFabricLaneLoss lane s
  | .dataCell lane cell => Sys2Proof.Machine.execDataCell lane cell s
  | .controlCell lane cell => Sys2Proof.Machine.execControlCell lane cell s
  | .request word => Sys2Proof.Machine.execRequest word s
  | .grant word => Sys2Proof.Machine.execGrant word s
  | .linkCredit lane word => Sys2Proof.Machine.execLinkCredit lane word s
  | .reach lane word => Sys2Proof.Machine.execReach lane word s
  | .cellFillTimeout device stream => Sys2Proof.Machine.execCellFillTimeout device stream s
  | .cellPlacement device => Sys2Proof.Machine.execCellPlacement device s
  | .unreachableHoldExpiry device => Sys2Proof.Machine.execUnreachableHoldExpiry device s
  | .staleCellDiscard device => Sys2Proof.Machine.execStaleCellDiscard device s
  | .reachBlockExpiry lane block => Sys2Proof.Machine.execReachBlockExpiry lane block s
  | .reorderTimeout device => Sys2Proof.Machine.execReorderTimeout device s
  | .requestRefresh voq => Sys2Proof.Machine.execRequestRefresh voq s
  | .requestFlagExpiry port cls device => Sys2Proof.Machine.execRequestFlagExpiry port cls device s
  | .fabricSummaryClear value => Sys2Proof.Machine.execFabricSummaryClear value s
  | .gcmEncrypt => Sys2Proof.Machine.execGcmEncrypt s
  | .gcmDecrypt => Sys2Proof.Machine.execGcmDecrypt s
  | .cmac => Sys2Proof.Machine.execCmac s
  | .wrap => Sys2Proof.Machine.execWrap s
  | .unwrap => Sys2Proof.Machine.execUnwrap s
  | .exportKey => Sys2Proof.Machine.execExportKey s
  | .jobEnd job => Sys2Proof.Machine.execJobEnd job s
  | .jobResume job => Sys2Proof.Machine.execJobResume job s
  | .keyLoad record => Sys2Proof.Machine.execKeyLoad record s
  | .keyLoadEnd => Sys2Proof.Machine.execKeyLoadEnd s
  | .keyErase value => Sys2Proof.Machine.execKeyErase value s
  | .keyClearLoad value => Sys2Proof.Machine.execKeyClearLoad value s
  | .jobAbort tag => Sys2Proof.Machine.execJobAbort tag s
  | .cipherSummaryClear value => Sys2Proof.Machine.execCipherSummaryClear value s
  | .fault event => Sys2Proof.Machine.execFault event s
  | .faultAck value => Sys2Proof.Machine.execFaultAck value s
  | .correctedAutoAck unit => Sys2Proof.Machine.execCorrectedAutoAck unit s
  | .firstErrorClear => Sys2Proof.Machine.execFirstErrorClear s
  | .hostFence unit => Sys2Proof.Machine.execHostFence unit s
  | .release unit => Sys2Proof.Machine.execRelease unit s
  | .releaseWithoutSlice unit => Sys2Proof.Machine.execReleaseWithoutSlice unit s
  | .releaseEnd slicePassed => Sys2Proof.Machine.execReleaseEnd slicePassed s
  | .fenceSweep unit => Sys2Proof.Machine.execFenceSweep unit s
  | .takeover => Sys2Proof.Machine.execTakeover s
  | .groupReturn group => Sys2Proof.Machine.execGroupReturn group s
  | .groupReturnEnd group => Sys2Proof.Machine.execGroupReturnEnd group s
  | .inject value => Sys2Proof.Machine.execInject value s
  | .timingMargin quadrant picoseconds => Sys2Proof.Machine.execTimingMargin quadrant picoseconds s
  | .faultSummaryClear value => Sys2Proof.Machine.execFaultSummaryClear value s
  | .kilnTick => Sys2Proof.Machine.execKilnTick s
  | .sliceEnd which result => Sys2Proof.Machine.execSliceEnd which result s
  | .sliceTimeout which => Sys2Proof.Machine.execSliceTimeout which s
  | .sliceRequest value => Sys2Proof.Machine.execSliceRequest value s
  | .flowFlush pair => Sys2Proof.Machine.execFlowFlush pair s
  | .flowCounterRead pair count => Sys2Proof.Machine.execFlowCounterRead pair count s
  | .flowCounterWrite pair packets octets => Sys2Proof.Machine.execFlowCounterWrite pair packets octets s
  | .caliperFreeze => Sys2Proof.Machine.execCaliperFreeze s
  | .caliperRestart => Sys2Proof.Machine.execCaliperRestart s
  | .caliperClearAll => Sys2Proof.Machine.execCaliperClearAll s
  | .counterSummaryClear value => Sys2Proof.Machine.execCounterSummaryClear value s
  | .routineDispatch sequencer => Sys2Proof.Machine.execRoutineDispatch sequencer s
  | .continueWord sequencer => Sys2Proof.Machine.execContinueWord sequencer s
  | .jumpWord sequencer => Sys2Proof.Machine.execJumpWord sequencer s
  | .branchSet sequencer => Sys2Proof.Machine.execBranchSet sequencer s
  | .branchClear sequencer => Sys2Proof.Machine.execBranchClear sequencer s
  | .callWord sequencer => Sys2Proof.Machine.execCallWord sequencer s
  | .returnWord sequencer => Sys2Proof.Machine.execReturnWord sequencer s
  | .waitWord sequencer => Sys2Proof.Machine.execWaitWord sequencer s
  | .checkpoint sequencer => Sys2Proof.Machine.execCheckpoint sequencer s
  | .endRoutine sequencer => Sys2Proof.Machine.execEndRoutine sequencer s
  | .trapReturn sequencer => Sys2Proof.Machine.execTrapReturn sequencer s
  | .microTrap sequencer => Sys2Proof.Machine.execMicroTrap sequencer s
  | .reloadStartImage => Sys2Proof.Machine.execReloadStartImage s
  | .reloadStartHold => Sys2Proof.Machine.execReloadStartHold s
  | .reloadVerified signatureGood => Sys2Proof.Machine.execReloadVerified signatureGood s
  | .sequencerRelease => Sys2Proof.Machine.execSequencerRelease s
  | .sequencerLoaded matched => Sys2Proof.Machine.execSequencerLoaded matched s
  | .atelierSummaryClear value => Sys2Proof.Machine.execAtelierSummaryClear value s
  | .ppsInEdge => Sys2Proof.Machine.execPpsInEdge s
  | .ppsOutEdge => Sys2Proof.Machine.execPpsOutEdge s
  | .ppsOutWidthExpiry => Sys2Proof.Machine.execPpsOutWidthExpiry s
  | .todTxStart => Sys2Proof.Machine.execTodTxStart s
  | .todMessageReceived message => Sys2Proof.Machine.execTodMessageReceived message s
  | .perstNLow => Sys2Proof.Machine.execPerstNLow s
  | .perstNRise => Sys2Proof.Machine.execPerstNRise s
  | .ddr5Alert channel => Sys2Proof.Machine.execDdr5Alert channel s
  | .trstNLow => Sys2Proof.Machine.execTrstNLow s
  | .extestPulse => Sys2Proof.Machine.execExtestPulse s
  | .extestTrain => Sys2Proof.Machine.execExtestTrain s
  | .smbusReadBootState => Sys2Proof.Machine.execSmbusReadBootState s
  | .smbusReadLifeState => Sys2Proof.Machine.execSmbusReadLifeState s
  | .smbusReadDieTemp => Sys2Proof.Machine.execSmbusReadDieTemp s
  | .smbusReadTempAlarm => Sys2Proof.Machine.execSmbusReadTempAlarm s
  | .smbusWriteTempAlarm value pec => Sys2Proof.Machine.execSmbusWriteTempAlarm value pec s
  | .smbusReadRailStatus => Sys2Proof.Machine.execSmbusReadRailStatus s
  | .smbusReadRailVoltage rail millivolts => Sys2Proof.Machine.execSmbusReadRailVoltage rail millivolts s
  | .powerRemoval every => Sys2Proof.Machine.execPowerRemoval every s
  | .sdRefclkLoss clock => Sys2Proof.Machine.execSdRefclkLoss clock s
  | .sdRefclkReturn clock => Sys2Proof.Machine.execSdRefclkReturn clock s
  | .timebaseStep nanoseconds => Sys2Proof.Machine.execTimebaseStep nanoseconds s
  | .hostInjection port bytes => Sys2Proof.Machine.execHostInjection port bytes s
  | .flashRereadEnd image signatureGood => Sys2Proof.Machine.execFlashRereadEnd image signatureGood s
  | .dieTempUpdate millidegrees => Sys2Proof.Machine.execDieTempUpdate millidegrees s

end Sys2Proof.Machine
end

