-- ==== Sys2Proof/Machine/Tick.lean ====
section
/-! DEFINITION. One core clock in which no command arrives (DESIGN CHOICE, log entry 1): the free-running count advances, the slots
of the clock that no pass and no decision used are accounted (R426), Cast reads list entries (R260), the fabric lanes send (R325), a table command under
way writes its next copy (R167), the Armature applies frees and computes F (R272, R280), and the flow counters' banks take
the increments that wait (R419). -/

namespace Sys2Proof.Machine

/-- The slots of a pipe are counted in this clock: its function reads HOLD, RUN, DRAINING or STARTING (R426). -/
def State.slotsCounted (s : State) (p : Nat) : Bool :=
  let f := s.fn (0x200 + p)
  f == 1 || f == 2 || f == 4 || f == 5

/-- The slots of a clock accounted in one pipe: an asleep clock in event 0x110 + p, unused slots in FRONT_STARVED (R426). Slots
spent beyond the clock's two are the next clock's. -/
def State.accountSlots (s : State) (p : Nat) : State :=
  let x := s.pipe p
  let s := if !s.slotsCounted p then s
    else if 1 ≤ s.depth p then s.count (0x110 + p)
    else (s.countN (16 * p + 6) (2 - x.slotsIn)).countN (16 * p + 14) (2 - x.slotsOut)
  s.setPipe p fun y => { y with window := (y.window + (2 - x.slotsIn)) % 16, slotsIn := x.slotsIn - 2, slotsOut := x.slotsOut - 2 }

/-- A core clock passes. -/
def tick (s : State) : State :=
  let s := ((List.range 17).foldl (fun s p => s.accountSlots p) s).lanesSend
  let s := if s.ready then s.castClock.writeNext.armatureClock.creditClock.noteAble.flowClock else s
  { s with clock := s.clock + 1 }

end Sys2Proof.Machine
end

