-- ==== Sys2Proof/Safety.lean ====
section
/-! DEFINITION. What counts as a safe run, in the terms claims use. -/

namespace Sys2Proof.Safety

open Sys2Proof.Machine

/-- A step that goes on. -/
def goesOn (s : State) : Prop := ∃ t, step s = .next t

/-- A command that runs to a next state. -/
def completes (c : Instr) (s : State) : Prop := ∃ t, exec c s = .next t

/-- The identifiers of the table Undefined cases (R477). -/
def undefinedCases : List String :=
  ["UB-ATL-1", "UB-BOOT-1", "UB-BOOT-2", "UB-BOOT-3", "UB-BOOT-4", "UB-BUF-1", "UB-BUF-2", "UB-CIP-1", "UB-CIP-2", "UB-CIP-3",
    "UB-CNT-1", "UB-CNT-2", "UB-DIC-1", "UB-DIC-2", "UB-DIC-3", "UB-DIC-4", "UB-DIC-5", "UB-EM-1", "UB-EM-2", "UB-EM-3",
    "UB-FAB-1", "UB-FAB-2", "UB-FAB-3", "UB-FLT-1", "UB-KLN-1", "UB-MODE-1", "UB-MODE-2", "UB-PAR-1", "UB-PAR-2", "UB-PAR-3",
    "UB-PIN-1", "UB-PIN-2", "UB-PIN-3", "UB-PIN-4", "UB-PORT-1", "UB-PORT-2", "UB-Q-1", "UB-REL-1", "UB-REL-2", "UB-RW-1",
    "UB-RW-2", "UB-RW-3", "UB-VER-1"]

/-- A fault that a misuse of that table raises. -/
def namedFault : Fault → Prop
  | .unbounded identifier => identifier ∈ undefinedCases

/-- The device is powered and its life-cycle state neither BLANK nor SCRAPPED, so an object the Plinth holds answers (R80). -/
def plinthOpen (s : State) : Prop := s.boot.powered = true ∧ s.boot.fuses ≠ 0 ∧ s.boot.fuses ≠ 4

/-- The fast domains run too, and the Atelier's queue of slow requests has room (R37, R432, R482). -/
def fastOpen (s : State) : Prop :=
  plinthOpen s ∧ s.ready = true ∧ s.boot.pllHold = false ∧ s.sop.slow.length < 32

/-- The objects that the start of a reset sequence writes: BOOT_STATE, LAST_RESET_CAUSE, and ring 5's HEAD, RING_DROPPED and STATUS. -/
def resetWrites : List Nat :=
  [Obj.bootState, Obj.lastResetCause, Obj.ringHead 5, Obj.ringDropped 5, Obj.ringStatus 5]

/-- The state on which a message is judged: on the mailbox's path the mailbox has started on it (R55). -/
def boxed (s : State) (m : SopMessage) : State :=
  if m.carriage.path = .mailbox then
    { s with sop := { s.sop with mboxBusy := true, mboxDone := false, mboxDiscarded := false } }
  else s

/-- The command that receives a message, beside its opcode (table SOP header). -/
def sopCommands (m : SopMessage) : List (Instr × Nat) :=
  [(.read (.sop m), 1), (.write (.sop m), 2), (.multiRead m, 3), (.domainRead (.sop m), 4), (.domainWrite (.sop m), 5),
    (.sopOpen m, 0x10), (.sopClose m, 0x11), (.sopNop m, 0x12)]

/-- The device is powered, and a message on the mailbox's path finds the mailbox reached and not busy. -/
def sopHeard (s : State) (m : SopMessage) : Prop :=
  s.boot.powered = true ∧ (m.carriage.path = .mailbox → s.pcieReached = true ∧ s.sop.mboxBusy = false)

/-- A message that steps 1 to 8 of the table SOP check order let through. -/
structure SopPasses (s : State) (opcode : Nat) (m : SopMessage) : Prop where
  carriage : s.carriageGood m.carriage = true
  shaped : sopShaped m = true
  authentic : s.sopAuthentic opcode m = true
  taken : s.sopRefuses opcode m = none
  seq : s.sopSeq opcode m = .serve
  allowed : sopAllowed opcode m = true

/-- The key of a message's trailer. -/
def sopKeyOf (s : State) (m : SopMessage) : Option Key := if m.auth then s.sopKey else none

/-- The response a message gets, and the state in which it has been stored and sent (R48, R49). -/
def sopReply (s : State) (opcode : Nat) (m : SopMessage) (code : Nat) (data : List Byte) : List Byte :=
  sopResponse m opcode code data (sopKeyOf s m) (s.sopEpoch m)
def sopReplied (s : State) (opcode : Nat) (m : SopMessage) (code : Nat) (data : List Byte) : State :=
  ((s.sopAdvance opcode m).sopStore opcode m (s.sopEpoch m) (some (sopReply s opcode m code data))).deliver m.carriage
    (sopReply s opcode m code data)

/-- How many version slots are in a state that a condition names. -/
def slotsIn (v : Versions) (p : SlotState → Bool) : Nat := v.slots.countP fun x => p x.state

/-- R220: exactly one version slot is CURRENT, at most one is BUILDING, and at most one is in DRAINING, RETIRING or PRIMING. Without
a building slot the other two are FREE and no commit is under way. -/
def SlotsGood (v : Versions) : Prop :=
  v.slots.length = 3 ∧ slotsIn v (fun x => x = .current) = 1 ∧ slotsIn v (fun x => x = .building) ≤ 1 ∧
    slotsIn v (fun x => x = .draining || x = .retiring || x = .priming) ≤ 1 ∧
    (slotsIn v (fun x => x = .building) = 0 → slotsIn v (fun x => x = .free) = 2 ∧ v.commit = .none)

/-- The shape of the block: both maps of the dictionary in their canonical form, 128 ports, 17 pipes, 8 sessions (R47), 3 version
slots (R220), 160 fabric lanes (R320) and 8 sequencers (R430). -/
structure Shape (s : State) : Prop where
  dict : s.dictWf = true
  ports : s.ports.length = 128
  pipes : s.pipes.length = 17
  sessions : s.sop.sessions.length = 8
  slots : s.versions.slots.length = 3
  lanes : s.fabric.lanes.length = 160
  seqs : s.atelier.seqs.length = 8

end Sys2Proof.Safety
end

