-- ==== Sys2Proof/Certificates/Slice0/Obligations.lean ====
section
/-! DEFINITION. The statements for the provers. -/

open Sys2Proof Sys2Proof.Machine Sys2Proof.Safety

/-! ### The machine as a whole -/

/-- Whatever command stands at the front of the queue, the step is that command's effect with the rest of the queue kept. -/
def Obligations.StepRunsFrontCommand : Prop :=
  ∀ (c : Instr) (s : State), step { s with pending := c :: s.pending } = exec c s

/-- With nothing waiting, the step is one core clock (log entry 1, the model's choice): the count advances by 1, no session, key,
function passage or boot step changes and no value that the spec leaves open is taken; frames and copies change only where Cast
walks a list, and exact-match units and versions only where a table command is being written. -/
def Obligations.IdleStepIsOneClock : Prop :=
  ∀ s : State, s.pending = [] → ∃ t, step s = .next t ∧ t.clock = s.clock + 1 ∧ t.pending = [] ∧ t.freeIx = s.freeIx ∧
    (s.walks = [] ∨ s.ready = false → t.frames = s.frames ∧ t.copies = s.copies) ∧
    (s.em.writing = none ∨ s.ready = false → t.em = s.em ∧ t.versions = s.versions) ∧
    t.boot = s.boot ∧ t.pins = s.pins ∧ t.sop = s.sop ∧ t.goals = s.goals ∧ t.ports = s.ports ∧
    t.cipher = s.cipher ∧ t.relief = s.relief

/-- Right after reset every object reads its default and every region its own, every function is OFF, BOOT_STATE reads WAIT_RAILS,
no session is open, no frame is held and no command waits. Where it rests on the model's own choices: log entries 4 to 8. -/
def Obligations.ResetLeavesDefaults : Prop :=
  (∀ k, State.reset.obj? k = Dict.reset k) ∧
  (∀ k off n, State.reset.bytes k off n = Sparse.getN Defaults.dom [] (Defaults.domAddr k off) n) ∧
  (∀ n ∈ Fn.numbers, State.reset.fn n = 0) ∧ State.reset.obj? Obj.bootState = 0 ∧
  (∀ x ∈ State.reset.sop.sessions, x.isOpen = false) ∧ State.reset.frames = [] ∧ State.reset.copies = [] ∧
  State.reset.pending = []

/-- The state after reset has the block's shape, and its version slots stand as R220 says. -/
def Obligations.ResetHasShape : Prop := Shape State.reset ∧ SlotsGood State.reset.versions

/-- From every state of the block's shape whose version slots stand as R220 says, a step keeps the shape: both maps of the
dictionary in canonical form, 128 ports, 17 pipes, 8 sessions, 3 slots, 160 fabric lanes, 8 sequencers. -/
def Obligations.StepKeepsShape : Prop :=
  ∀ s t : State, Shape s → SlotsGood s.versions → step s = .next t → Shape t

/-- R220 is kept by every step: exactly one version slot is CURRENT, at most one BUILDING, and at most one DRAINING, RETIRING or
PRIMING. -/
def Obligations.StepKeepsVersionSlots : Prop :=
  ∀ s t : State, Shape s → SlotsGood s.versions → step s = .next t →
    slotsIn t.versions (fun x => x = .current) = 1 ∧ slotsIn t.versions (fun x => x = .building) ≤ 1 ∧
      slotsIn t.versions (fun x => x = .draining || x = .retiring || x = .priming) ≤ 1 ∧ SlotsGood t.versions

/-- No command puts a command into the queue or takes one from it, and none is refused. -/
def Obligations.CommandsLeaveTheQueue : Prop :=
  ∀ (c : Instr) (s : State), Shape s → SlotsGood s.versions →
    (∀ t, exec c s = .next t → t.pending = s.pending) ∧ ∀ r, exec c s ≠ .refused r

/-- A step stops only at a misuse of the table Undefined cases, and names it by an identifier of that table. Where it rests on the
model's own choices: log entry 11. -/
def Obligations.StepStopsOnlyOnListedMisuse : Prop :=
  ∀ s : State, Shape s → SlotsGood s.versions → (∃ t, step s = .next t) ∨ ∃ i ∈ undefinedCases, step s = .fault (.unbounded i)

/-- The life-cycle fuses change at the end of a blow, or at a loss of power during one (R82), and then to the target that the blow was
for. -/
def Obligations.OnlyABlowChangesTheLifeState : Prop :=
  ∀ (c : Instr) (s t : State), Shape s → SlotsGood s.versions → exec c s = .next t → t.boot.fuses ≠ s.boot.fuses →
    (c = .fuseBlowEnd ∨ ∃ every, c = .powerRemoval every) ∧ s.boot.blowing = some t.boot.fuses

/-- The values the spec leaves open are taken in order: no step takes one twice (the model's own counter, log entry 2). -/
def Obligations.OpenValuesAreTakenInOrder : Prop :=
  ∀ s t : State, Shape s → SlotsGood s.versions → step s = .next t → s.freeIx ≤ t.freeIx

/-- Setting an object changes what it reads and nothing else: every other object reads as before, and no other field of the state
changes. The same for the bytes of a DOMAIN region. -/
def Obligations.SettingAnObjectChangesItAlone : Prop :=
  ∀ (s : State) (k v : Nat), s.dictWf = true →
    (s.put k v).obj? k = v ∧ (∀ j, j ≠ k → (s.put k v).obj? j = s.obj? j) ∧ ({ s.put k v with obj := s.obj } : State) = s ∧
    (s.put k v).dictWf = true ∧
    ∀ (off : Nat) (b : List Byte), (s.putBytes k off b).bytes k off b.length = b ∧
      (∀ a, a < Defaults.domAddr k off ∨ Defaults.domAddr k off + b.length ≤ a →
        Sparse.get Defaults.dom (s.putBytes k off b).dom a = Sparse.get Defaults.dom s.dom a) ∧
      ({ s.putBytes k off b with dom := s.dom } : State) = s ∧ (s.putBytes k off b).dictWf = true

/-! ### Power, resets and boot (03) -/

/-- What a reset wipes and keeps, by its kind (table What each reset wipes): the cause is recorded; frames, ports, pipes, tables,
versions, buffers, queues, the fabric and the Kiln stand as after power-on; a cold reset and a life-cycle change leave every object
at its default, close the sessions and wipe the keys; a warm reset and the return of the rails keep the objects 0x1100-0x11FF; a
warm reset keeps the keys and WARM_KILN; both keep the Patina's RING_WATERMARK. Where it rests on the model's own choices: log entry
39. -/
def Obligations.ResetsWipeAndKeep : Prop :=
  ∀ (s : State) (kind : SeqKind) (cause : Nat), s.dictWf = true →
    let t := s.beginReset kind cause
    let r := State.reset
    t.obj? Obj.lastResetCause = cause ∧ t.boot.fuses = s.boot.fuses ∧ t.frames = [] ∧ t.copies = [] ∧ t.ports = r.ports ∧
    t.pipes = r.pipes ∧ t.em = r.em ∧ t.relief = r.relief ∧ t.versions = r.versions ∧ t.arm = r.arm ∧ t.queues = r.queues ∧
    t.fabric = r.fabric ∧ t.kiln = r.kiln ∧ t.flow = r.flow ∧ t.timing = r.timing ∧ t.goals = [] ∧
    (kind = .cold ∨ kind = .lifeChange → t.sop = r.sop ∧ t.cipher = r.cipher ∧
      ∀ k, physicalKey k = false → k ∉ resetWrites → t.obj? k = Dict.reset k) ∧
    (kind = .railReturn ∨ kind = .warm → ∀ k, 0x1100 ≤ k / 256 → k / 256 ≤ 0x11FF → t.obj? k = s.obj? k) ∧
    (kind = .railReturn ∨ kind = .warm → t.obj? (Obj.ringWatermark 5) = s.obj? (Obj.ringWatermark 5)) ∧
    (kind = .warm → t.cipher.keys = s.cipher.keys ∧ t.obj? Obj.warmKiln = s.obj? Obj.warmKiln)

/-- A sequence that waits goes as far as it may: it waits for the rails, then for COLD_N, a warm one for WARM_N; a cold one stops in
BLANK and SCRAPPED; then it waits for SYS_REFCLK, a warm one for the PLLs too; a cold one starts the PLLs, a warm one wipes SRAM and
resets the DDR5 devices. Where it rests on the model's own choices: log entries 9, 107. -/
def Obligations.SequencesGoAsFarAsTheyMay : Prop :=
  ∀ s : State, s.dictWf = true →
    let t := s.tryStart
    (s.railsIn = false → t.obj? Obj.bootState = 0 ∧ t.boot.step = .rails) ∧
    (s.railsIn = true → s.pins.coldN = false → t.obj? Obj.bootState = 9 ∧ t.boot.step = .coldHeld) ∧
    (s.railsIn = true → s.pins.coldN = true →
      (s.boot.kind = .warm → s.warmHolds = true → t.obj? Obj.bootState = 9 ∧ t.boot.step = .warmHeld) ∧
      (s.warmHolds = true ↔ s.pins.warmN = false ∧ s.pins.warmIgnored = false) ∧
      (s.boot.kind ≠ .warm → s.boot.fuses = 0 ∨ s.boot.fuses = 4 → t.obj? Obj.bootState = 10 ∧ t.boot.step = .idle) ∧
      ((s.boot.kind = .warm ∧ s.warmHolds = false) ∨ (s.boot.kind ≠ .warm ∧ s.boot.fuses ≠ 0 ∧ s.boot.fuses ≠ 4) →
        (s.refclk = false ∨ (s.boot.kind = .warm ∧ s.pllsIn = false) → t.obj? Obj.bootState = 1 ∧ t.boot.step = .clocks) ∧
        (s.refclk = true ∧ (s.boot.kind = .warm → s.pllsIn = true) → t.boot.released = s.clock ∧
          (s.boot.kind = .warm → t.obj? Obj.bootState = 3 ∧ t.boot.step = .ddr5Reset ∧ t.boot.sramWiping = true) ∧
          (s.boot.kind ≠ .warm → t.obj? Obj.bootState = 1 ∧ t.boot.step = .plls)))) ∧
    (∀ k, k ≠ Obj.bootState → t.obj? k = s.obj? k) ∧ ({ t with obj := s.obj, boot := s.boot } : State) = s

/-- POWER_ON and POWER_REMOVAL leave nothing of an earlier use but the fuses, which read as their old or their new state where they
were being blown (R82); VDD_AON removed alone while a rail of group 2 or 3 is in range is UB-BOOT-2. Where it rests on the model's
own choices: log entries 10, 11. -/
def Obligations.PowerCommands : Prop :=
  ∀ s : State,
    (∀ straps, exec (.powerOn straps) s = .next { State.reset with
      pending := s.pending, freeIx := s.freeIx, pins := { s.pins with straps := straps, sdLost := 0, warmIgnored := false },
      boot := { State.reset.boot with fuses := s.boot.fuses } }) ∧
    (∀ every, every = true ∨ bits (s.obj? Obj.railStatus) 6 2 = 0 →
      (s.boot.blowing = none → exec (.powerRemoval every) s = .next { State.reset with
        pending := s.pending, freeIx := s.freeIx, pins := s.pins,
        boot := { State.reset.boot with powered := false, fuses := s.boot.fuses } }) ∧
      ∀ target, s.boot.blowing = some target → ∃ fuses, (fuses = s.boot.fuses ∨ fuses = target) ∧
        exec (.powerRemoval every) s = .next { State.reset with
          pending := s.pending, freeIx := s.freeIx + 1, pins := s.pins,
          boot := { State.reset.boot with powered := false, fuses := fuses } }) ∧
    (bits (s.obj? Obj.railStatus) 6 2 ≠ 0 → exec (.powerRemoval false) s = .fault (.unbounded "UB-BOOT-2"))

/-- The reset pins and requests: COLD_N low begins a cold reset and WARM_N low a warm one, each held until its pin rises; a warm
cause is absorbed while a sequence runs and ignored in NO_IMAGE, KILN_FAILED and NOT_STARTED; RESET_REQUEST takes WARM and COLD. Where
it rests on the model's own choices: log entries 9, 34, 35, 107. -/
def Obligations.ResetCauses : Prop :=
  ∀ s : State, s.boot.powered = true →
    (exec .coldNLow s = .next (({ s with pins := { s.pins with coldN := false } } : State).beginReset .cold 1)) ∧
    (s.boot.step = .coldHeld → exec .coldNRise s = .next (({ s with pins := { s.pins with coldN := true } } : State).tryStart)) ∧
    (s.boot.step = .idle → s.obj? Obj.bootState ∉ [7, 8, 10] → s.ignoresWarm = false) ∧
    (s.pins.coldN = true → s.boot.step = .idle → s.ignoresWarm = false →
      exec .warmNLow s = .next
        (({ s with pins := { s.pins with warmN := false, warmIgnored := false } } : State).beginReset .warm 2)) ∧
    (s.boot.step ≠ .idle ∨ s.ignoresWarm = true → exec .warmNLow s = .next
      { s with pins := { s.pins with warmN := false, warmIgnored := s.ignoresWarm } }) ∧
    (s.boot.step = .warmHeld → exec .warmNRise s = .next
      (({ s with pins := { s.pins with warmN := true, warmIgnored := false } } : State).tryStart)) ∧
    (s.boot.step = .readyHeld → ∃ t, exec .warmNRise s = .next t ∧ t.boot.step = .idle ∧ t.pins.warmN = true ∧
      (s.dictWf = true → t.ready = true ∧ ∀ k, k ≠ Obj.bootState → k ≠ Obj.bootElapsed → t.obj? k = s.obj? k)) ∧
    (plinthOpen s → s.boot.step = .idle → s.ignoresWarm = false →
      exec .resetRequestWarm s = .next { s.beginReset .warm 4 with answer := .code 0 }) ∧
    (plinthOpen s → s.boot.step ≠ .idle ∨ s.ignoresWarm = true → exec .resetRequestWarm s = .next { s with answer := .code 0 }) ∧
    (plinthOpen s → exec .resetRequestCold s = .next { s.beginReset .cold 3 with answer := .code 0 })

/-- Loss of a rail of group 2 or 3 takes every function OFF with all the traffic it holds, wipes the keys and closes the
authenticated sessions, and BOOT_STATE reads WAIT_RAILS; the return of the rails begins a rail-return reset, or lets a cold sequence
that waits for them go on. Where it rests on the model's own choices: log entries 9, 38. -/
def Obligations.RailCommands : Prop :=
  ∀ (s : State) (rail : Fin 5), s.boot.powered = true → s.dictWf = true →
    (s.boot.step ≠ .rails → ∃ t, exec (.railLoss rail) s = .next t ∧ t.obj? Obj.bootState = 0 ∧ t.boot.step = .rails ∧
      t.boot.kind = .railReturn ∧ t.cipher = State.reset.cipher ∧ t.goals = [] ∧ t.frames = [] ∧ t.copies = [] ∧
      t.ports = State.reset.ports ∧ t.fabric = State.reset.fabric ∧ bit (t.obj? Obj.railStatus) (2 + rail.val) = false ∧
      (∀ x ∈ t.sop.sessions, x.isOpen = true → x.auth = false)) ∧
    (s.boot.step = .rails → s.boot.kind = .railReturn → exec .railReturn s =
      .next ((s.put Obj.railStatus (putBits (s.obj? Obj.railStatus) 6 2 31)).beginReset .railReturn 7)) ∧
    (s.boot.step = .rails → s.boot.kind ≠ .railReturn → exec .railReturn s =
      .next (s.put Obj.railStatus (putBits (s.obj? Obj.railStatus) 6 2 31)).tryStart)

/-- Clocks: a sequence that waits for SYS_REFCLK and the PLLs starts over once they are stable, and is abandoned, waiting, where one
is lost before READY; a running loss of lock that holds the fast domains ends in a warm reset when lock is restored. Where it rests
on the model's own choices: log entry 9. -/
def Obligations.ClockCommands : Prop :=
  ∀ s : State,
    (s.boot.powered = true → s.boot.step = .clocks → exec .clocksStable s =
      .next (s.put Obj.clockStatus (putBits (s.obj? Obj.clockStatus) 2 0 7)).tryStart) ∧
    (s.boot.step = .plls → exec .pllsLocked s = .next
      ((({ s with boot := { s.boot with sramWiping := true, ddr5Wiped := false, step := .config } } : State).put Obj.clockStatus
        (putBits (s.obj? Obj.clockStatus) 2 0 7)).put Obj.bootState 2)) ∧
    (s.boot.step = .clocks → s.boot.kind ≠ .warm → ∃ t, exec .pllsLocked s = .next t ∧ t.boot = { s.boot with
      released := s.clock, sramWiping := true, ddr5Wiped := false, step := .config }) ∧
    (s.boot.pllHold = true → exec .pllLockRestored s =
      .next ((s.put Obj.clockStatus (putBits (s.obj? Obj.clockStatus) 2 0 7)).beginReset .warm 6)) ∧
    (∀ source, s.dictWf = true → s.boot.powered = true → s.boot.step ∉ [.idle, .rails, .coldHeld] →
      ∃ t, exec (.clockLossBeforeReady source) s = .next t ∧ t.obj? Obj.bootState = 1 ∧ t.boot.step = .clocks ∧
        t.boot.sramWiping = false ∧ t.frames = s.frames ∧ t.sop = s.sop ∧
        ∀ k, k ≠ Obj.bootState → k ≠ Obj.clockStatus → k ≠ Obj.clockSummary → t.obj? k = s.obj? k) ∧
    (∀ pll, s.ready = false → exec (.pllLossOfLock pll) s =
      exec (.clockLossBeforeReady (match pll with
        | .core => .corePll
        | .ddr5 => .ddr5Pll)) s) ∧
    (∀ pll, s.ready = true → exec (.pllLossOfLock pll) s =
      let u := match pll with
        | .core => 0x5BB
        | .ddr5 => 0x5BC
      .next ((s.loseClock (match pll with
        | .core => .corePll
        | .ddr5 => .ddr5Pll)).judge { unit := u, checker := 0, cls := 2, access := 13, master := u, address := 0 }))

/-- The steps of a boot, each from the one before: the configuration block and the image are judged, image B follows a rejected
image A, an image that verifies is loaded, the DDR5 channels are trained or re-initialised, and the wipes end in the Kiln pass or,
for a warm sequence without one, in READY. Where it rests on the model's own choices: log entries 9, 36, 37. -/
def Obligations.BootSteps : Prop :=
  ∀ s : State,
    (∀ block, s.boot.step = .config →
      (configDefect block = 0 → exec (.configBlockRead block) s =
        .next (({ s with boot := { s.boot with config := block, step := .imageRead 1 } } : State).put Obj.bootState 2)) ∧
      (configDefect block ≠ 0 → exec (.configBlockRead block) s =
        .next ((({ s with boot := { s.boot with step := .idle } } : State).put Obj.bootFailDetail
          (2 ^ 24 + configDefect block)).put Obj.bootState 7))) ∧
    (∀ image n, s.boot.step = .imageRead n → imageDefect image = 0 → exec (.imageReadEnd image) s =
      .next (({ s with boot := { s.boot with image := image.take 393216, step := .imageCheck n } } : State).put Obj.bootState 2)) ∧
    (∀ image, s.boot.step = .imageRead 2 → imageDefect image ≠ 0 → exec (.imageReadEnd image) s =
      .next ((({ s with boot := { s.boot with image := image.take 393216, step := .idle } } : State).put Obj.bootFailDetail
        (3 * 2 ^ 24 + imageDefect image)).put Obj.bootState 7)) ∧
    (∀ good, s.dictWf = true → s.boot.step = .imageCheck 1 → good = false ∨ imageAllows s.boot.image s.boot.fuses = false →
      ∃ t, exec (.imageVerified good) s = .next t ∧ t.boot.step = .imageRead 2 ∧ t.obj? Obj.bootState = 2 ∧
        bit (t.obj? Obj.lifeSummary) 1 = true) ∧
    (∀ n, s.dictWf = true → s.boot.step = .imageCheck n → imageAllows s.boot.image s.boot.fuses = true →
      ∃ t, exec (.imageVerified true) s = .next t ∧ t.boot.step = .training ∧ t.obj? Obj.bootState = 3 ∧ t.obj? Obj.bootImage = n ∧
        t.obj? Obj.microcodeLevel = imageLevel s.boot.image ∧ t.obj? Obj.imageHoldLevel = imageLevel s.boot.image ∧
        t.atelier.seqs = s.atelier.seqs.map (fun q => { q with store := imageStore s.boot.image })) ∧
    (s.boot.ddr5Wiped = false → exec .sramWipeEnd s = .next { s with boot := { s.boot with sramWiping := false } }) ∧
    (s.boot.ddr5Wiped = true → s.boot.sramWiping = true → exec .sramWipeEnd s =
      .next ({ s with boot := { s.boot with sramWiping := false } } : State).wipesEnded) ∧
    (∀ failed, s.boot.step = .training → ∃ t, exec (.ddr5TrainingEnd failed) s = .next t ∧ t.boot.step = .ddr5Wipe ∧
      t.boot.trained = clearBits s.fitted failed.toNat) ∧
    (s.boot.step = .ddr5Reset → exec .ddr5ResetRelease s =
      .next (({ s with boot := { s.boot with step := .ddr5Reinit } } : State).put Obj.bootState 3)) ∧
    (s.boot.step = .ddr5Reinit → ∃ t, exec .ddr5ReinitEnd s = .next t ∧ t.boot = { s.boot with step := .ddr5Wipe }) ∧
    (s.boot.step = .ddr5Wipe → s.boot.ddr5Wiped = false → s.boot.sramWiping = true → exec .ddr5WipeEnd s =
      .next { s with boot := { s.boot with ddr5Wiped := true } }) ∧
    (s.boot.step = .ddr5Wipe → s.boot.ddr5Wiped = false → s.boot.sramWiping = false → exec .ddr5WipeEnd s =
      .next ({ s with boot := { s.boot with ddr5Wiped := true } } : State).wipesEnded) ∧
    (s.boot.step = .kiln → exec (.powerOnKilnPassEnd none) s = .next s.becomeReady) ∧
    (∀ f, s.dictWf = true → s.boot.step = .kiln → ∃ t, exec (.powerOnKilnPassEnd (some f)) s = .next t ∧ t.obj? Obj.bootState = 8)

/-- READY is reached once both wipes have ended, at once for a warm sequence with WARM_KILN at 0 and after the Kiln pass for the
others; with WARM_N low the device waits in IN_RESET. Where it rests on the model's own choices: log entry 9. -/
def Obligations.TheBootEndsInReady : Prop :=
  ∀ s : State, s.dictWf = true →
    (s.boot.kind = .warm → s.obj? Obj.warmKiln = 0 → s.wipesEnded = s.becomeReady) ∧
    (s.boot.kind ≠ .warm ∨ s.obj? Obj.warmKiln ≠ 0 → s.wipesEnded =
      ({ s with boot := { s.boot with step := .kiln } } : State).put Obj.bootState 5) ∧
    (s.warmHolds = true → s.becomeReady = ({ s with boot := { s.boot with step := .readyHeld } } : State).put Obj.bootState 9) ∧
    (s.warmHolds = false → s.becomeReady.ready = true ∧ s.becomeReady.boot.step = .idle ∧
      s.becomeReady.boot.striped = s.obj? Obj.ddr5ChannelsInUse ∧ s.becomeReady.frames = s.frames ∧ s.becomeReady.sop = s.sop ∧
      ∀ k, k ≠ Obj.bootState → k ≠ Obj.bootElapsed → s.becomeReady.obj? k = s.obj? k)

/-- UPLOAD_START is taken in NO_IMAGE alone, where a write of 1 starts the check. LIFE_REQUEST takes 0x4C4346 in [31:8] with a
life-cycle code in [7:0]; the fuses are blown where it needs no authorisation, and LIFE_SUMMARY [2] is set where it is rejected. A
blow that ends puts its target into the fuses, and a cold reset follows as a life-cycle change. Where it rests on the model's own
choices: log entry 35. -/
def Obligations.UploadAndLifeRequests : Prop :=
  (∀ (s : State) (target : Nat), s.boot.blowing = some target →
    ∃ t, exec .fuseBlowEnd s = .next t ∧ t = ({ s with boot := { s.boot with fuses := target } } : State).beginReset .lifeChange 5 ∧
      t.boot.fuses = target ∧ (s.dictWf = true → t.obj? Obj.lastResetCause = 5)) ∧
  ∀ (s : State) (good : Bool), s.dictWf = true → plinthOpen s →
    (∀ b, s.obj? Obj.bootState ≠ 7 → exec (.uploadStart b) s = .next { s with answer := .code 0x16 }) ∧
    (s.obj? Obj.bootState = 7 → exec (.uploadStart true) s = .next { s.upload with answer := .code 0 } ∧
      exec (.uploadStart false) s = .next { s with answer := .code 0 }) ∧
    (∀ v : BitVec 32, v.toNat / 256 ≠ 0x4C4346 ∨ 4 < v.toNat % 256 → exec (.lifeRequest v good) s = .next { s with answer := .code 0x16 }) ∧
    (∀ target : BitVec 8, let v := BitVec.ofNat 32 (0x4C4346 * 256 + target.toNat)
      s.boot.blowing = none →
      (lifeTransition s.boot.fuses target.toNat = some false → exec (.lifeRequest v good) s = .next
        { ({ s with boot := { s.boot with blowing := some target.toNat } } : State).put Obj.lifeRequestStatus 1 with
          answer := .code 0 }) ∧
      (lifeTransition s.boot.fuses target.toNat = some true → s.lifeRecord target.toNat = true → good = true →
        exec (.lifeRequest v good) s = .next
          { ({ s with boot := { s.boot with blowing := some target.toNat } } : State).put Obj.lifeRequestStatus 1 with
            answer := .code 0 }) ∧
      (target.toNat ≤ 4 → lifeTransition s.boot.fuses target.toNat = none → exec (.lifeRequest v good) s = .next
        { (s.put Obj.lifeRequestStatus 2).flag Obj.lifeSummary 2 with answer := .code 0 }))
/-! ### Host writes of one object (02) -/

/-- OBJECT_WRITE answers a rejected access with the code of the first check that rejects it, in the table's order (existence, life
cycle, access kind, length, value), and changes nothing else. Where it rests on the model's own choices: log entries 13, 32. -/
def Obligations.RejectedWritesChangeNothing : Prop :=
  ∀ (s : State) (i : BitVec 16) (j : BitVec 8) (b : List Byte), s.boot.powered = true →
    let answers := fun code => exec (.objectWrite i j b) s = .next { s with answer := .code code }
    (Dict.highest i.toNat = 0 → answers 0x10) ∧
    (Dict.highest i.toNat ≠ 0 → j ≠ 0 → Dict.find i.toNat j.toNat = none → answers 0x11) ∧
    (∀ f, j ≠ 0 → Dict.highest i.toNat ≠ 0 → Dict.find i.toNat j.toNat = some f →
      (s.lifeAllows i.toNat = false → answers 0x1C) ∧
      (s.lifeAllows i.toNat = true →
        (f.access = .const ∨ f.access = .ro → answers 0x12) ∧
        (f.access = .rw ∨ f.access = .wo → f.ty = .domain ∨ b.length ≠ f.size → answers 0x15) ∧
        (f.access = .rw ∨ f.access = .wo → f.ty ≠ .domain → b.length = f.size → f.check.takes (beNat b) = false →
          answers 0x16)))

/-- OBJECT_WRITE stores the written value in a setting of the Plinth, answers 0 and changes nothing else: the addresses of the SOP
and the BAR2 windows. Where it rests on the model's own choices: log entry 12. -/
def Obligations.SettingsTakeTheirWrites : Prop :=
  ∀ (s : State) (b : List Byte) (e : Nat × Nat × Nat), plinthOpen s →
    e ∈ [(0x1100, 2, 6), (0x1100, 3, 6), (0x1100, 4, 4), (0x1100, 5, 16), (0x1100, 6, 2), (0x1110, 1, 4), (0x1111, 1, 4),
      (0x1112, 1, 4), (0x1113, 1, 4), (0x1110, 2, 8), (0x1111, 2, 8), (0x1112, 2, 8), (0x1113, 2, 8)] →
    b.length = e.2.2 → exec (.objectWrite (BitVec.ofNat 16 e.1) (BitVec.ofNat 8 e.2.1) b) s =
      .next { s.put (Dict.key e.1 e.2.1) (beNat b) with answer := .code 0 }

/-- Writing a summary's companion object clears the event flags whose bit is 1, answers 0 and changes nothing else; a 1 in a bit
outside the summary is answered VALUE_RANGE. The summaries the Plinth holds. Where it rests on the model's own choices: log entry
15. -/
def Obligations.PlinthSummariesClear : Prop :=
  ∀ (s : State) (v : BitVec 32), plinthOpen s →
    ∀ e ∈ ([(.commSummaryClear v, Obj.commSummary, 0x7), (.lifeSummaryClear v, Obj.lifeSummary, 0xF),
        (.clockSummaryClear v, Obj.clockSummary, 0x1F), (.modeSummaryClear v, Obj.modeSummary, 0xF),
        (.faultSummaryClear v, Obj.faultSummary, 0xFFF)] : List (Instr × Nat × Nat)),
      (clearBits v.toNat e.2.2 = 0 → exec e.1 s = .next { s.clearFlags e.2.1 v.toNat with answer := .code 0 }) ∧
      (clearBits v.toNat e.2.2 ≠ 0 → exec e.1 s = .next { s with answer := .code 0x16 })

/-- The same for the summaries of the fast domains, while they run: TABLE, RELIEF, QUEUE, FABRIC, CIPHER, COUNTER, ATELIER. Where it
rests on the model's own choices: log entry 15. -/
def Obligations.FastSummariesClear : Prop :=
  ∀ (s : State) (v : BitVec 32), fastOpen s → s.fenced 0x5B6 = false → s.fenced 0x5B7 = false →
    ∀ e ∈ ([(.tableSummaryClear v, Obj.tableSummary, 0x1F1F), (.reliefSummaryClear v, Obj.reliefSummary, 0x1F),
        (.queueSummaryClear v, Obj.queueSummary, 0x1F7F), (.fabricSummaryClear v, Obj.fabricSummary, 0x3F),
        (.cipherSummaryClear v, Obj.cipherSummary, 0x7F), (.counterSummaryClear v, Obj.counterSummary, 0x1F),
        (.atelierSummaryClear v, Obj.atelierSummary, 0x3F)] : List (Instr × Nat × Nat)),
      (clearBits v.toNat e.2.2 = 0 → exec e.1 s = .next { s.clearFlags e.2.1 v.toNat with answer := .code 0 }) ∧
      (clearBits v.toNat e.2.2 ≠ 0 → exec e.1 s = .next { s with answer := .code 0x16 })

/-- The same for the flags and half-full flags of a port of a powered group, the resets of its counters and of UNDERRUN_STEP, the
flags of a pipe and its RECIRC_DEPTH_PEAK, and a ring's STATUS; an access to a sleeping pipe wakes it to GATED. Where it rests on
the model's own choices: log entries 15, 19. -/
def Obligations.PortAndPipeClears : Prop :=
  ∀ (s : State), fastOpen s →
    (∀ (p : Port) (v : BitVec 32), s.fenced (0x040 + p.val) = false → s.groupPowered (p.val / 8) = true →
      (clearBits v.toNat 0xFFF = 0 → exec (.portFlagsClear p v) s =
        .next { s.clearFlags (Obj.portFlags p.val) v.toNat with answer := .code 0 }) ∧
      (clearBits v.toNat 0x1FFFFFFF = 0 → exec (.statsRxHalfClear p v) s =
        .next { s.clearFlags (Obj.statsRxHalf p.val) v.toNat with answer := .code 0 }) ∧
      (clearBits v.toNat 0x1FFFF = 0 → exec (.statsTxHalfClear p v) s =
        .next { s.clearFlags (Obj.statsTxHalf p.val) v.toNat with answer := .code 0 }) ∧
      exec (.underrunStepReset p) s = .next { s.underrunStepReset p.val with answer := .code 0 } ∧
      exec (.statsClearReceive p) s = .next { s.statsClear p.val 1 with answer := .code 0 } ∧
      exec (.statsClearTransmit p) s = .next { s.statsClear p.val 2 with answer := .code 0 } ∧
      exec (.statsClearBoth p) s = .next { s.statsClear p.val 3 with answer := .code 0 }) ∧
    (∀ (p : Pipe) (v : BitVec 32), s.fenced p.val = false → s.fn (Fn.pipeNo p.val) ≠ 0 → s.depth p.val ≠ 3 →
      (clearBits v.toNat 7 = 0 → exec (.pipeFlagsClear p v) s =
        .next { (s.wakeTo p.val 1).clearFlags (Obj.pipeFlags p.val) v.toNat with answer := .code 0 }) ∧
      exec (.recircDepthPeak p 0) s = .next { (s.wakeTo p.val 1).restartPeak p.val with answer := .code 0 }) ∧
    (∀ (r : Fin 256) (v : BitVec 32), r.val ∈ rings → clearBits v.toNat 7 = 0 → exec (.ringStatusClear r v) s =
      .next { s.clearFlags (Obj.ringStatus r.val) v.toNat with answer := .code 0 })

/-- A ring's pointer moves where its consumer or producer puts it within the ring: HEAD of a host-to-device ring, whose records on
ring 8 ask sequencer 0 for service, and TAIL of a device-to-host ring. A pointer past the other end is UB-DIC-2 or UB-DIC-1. Where
it rests on the model's own choices: log entry 70. -/
def Obligations.RingPointersMove : Prop :=
  ∀ (s : State) (r : Fin 256) (v : BitVec 32), plinthOpen s →
    let cap := s.ringCapacity r.val
    let head := s.obj? (Obj.ringHead r.val)
    let tail := s.obj? (Obj.ringTail r.val)
    (r.val = 8 ∨ r.val = 9 →
      (bits v.toNat 30 0 < cap → pointerSpan cap v.toNat tail ≤ cap → pointerSpan cap head tail ≤ pointerSpan cap v.toNat tail →
        exec (.ringHead r v) s = .next
          { (if r.val = 8 ∧ v.toNat ≠ head then (s.put (Obj.ringHead r.val) v.toNat).request 0
             else s.put (Obj.ringHead r.val) v.toNat) with answer := .code 0 }) ∧
      (cap < pointerSpan cap v.toNat tail → exec (.ringHead r v) s = .fault (.unbounded "UB-DIC-2"))) ∧
    (r.val ∈ [0, 1, 2, 3, 5] →
      (bits v.toNat 30 0 < cap → pointerSpan cap v.toNat tail ≤ pointerSpan cap head tail →
        exec (.ringTail r v) s = .next { s.put (Obj.ringTail r.val) v.toNat with answer := .code 0 }) ∧
      (pointerSpan cap head tail < pointerSpan cap v.toNat tail → exec (.ringTail r v) s = .fault (.unbounded "UB-DIC-1"))) ∧
    (r.val = 4 → bits v.toNat 30 0 < cap → pointerSpan cap v.toNat tail ≤ pointerSpan cap head tail →
      exec (.ringTail r v) s = .next
        { (s.put (Obj.ringTail 4) v.toNat).flushEnded s.cipher.ended.length with answer := .code 0 })

/-- The settings of sessions: SESSION_FORCE_CLOSE closes its session; SOP_KEY_SLOT closes the authenticated sessions, and
SOP_AUTH_REQUIRED written 1 the others. Where it rests on the model's own choices: log entry 12. -/
def Obligations.SessionSettings : Prop :=
  ∀ s : State, plinthOpen s →
    (∀ n : Fin 8, exec (.sessionForceClose n) s = .next { s.closeSession (n.val + 1) with answer := .code 0 } ∧
      (s.sop.sessions.length = 8 → ((s.closeSession (n.val + 1)).sop.sessions.getD n.val .free).isOpen = false)) ∧
    (∀ v : BitVec 8, v.toNat ≤ 63 → exec (.sopKeySlotWrite v) s =
      .next { (s.put Obj.sopKeySlot v.toNat).closeSessions (fun x => x.auth) with answer := .code 0 }) ∧
    (∀ v : BitVec 8, 63 < v.toNat → exec (.sopKeySlotWrite v) s = .next { s with answer := .code 0x16 }) ∧
    (exec (.sopAuthRequiredWrite 0) s = .next { s.put Obj.sopAuthRequired 0 with answer := .code 0 }) ∧
    (exec (.sopAuthRequiredWrite 1) s =
      .next { (s.put Obj.sopAuthRequired 1).closeSessions (fun x => !x.auth) with answer := .code 0 })

/-! ### Functions and sleep (03, 04) -/

/-- A FUNCTION_REQUEST begins the transitions of the table Function transitions, and no other: HOLD from OFF (where the slices on
the function's units end) and from RUN, RUN from HOLD, OFF from HOLD and, once its fence may be lifted, from FENCED; anything else
is answered VALUE_RANGE. Two ports that would share lanes are UB-MODE-2. Where it rests on the model's own choices: log entries 23,
24. -/
def Obligations.FunctionRequests : Prop :=
  ∀ (s : State) (fn : Fn), fastOpen s →
    let n := fnNumber fn
    let st := s.fn n
    (st = 0 → s.mayStart n false = true → exec (.functionRequestHold fn) s =
      .next { (s.passFn n 5 .hold).endSlices (fun u => (s.unitFunctions u).contains n) with answer := .code 0 }) ∧
    (st = 2 → s.mayStart n false = true → exec (.functionRequestHold fn) s = .next { s.beginDrain n with answer := .code 0 }) ∧
    (st ≠ 0 ∧ st ≠ 2 ∨ s.mayStart n false = false → exec (.functionRequestHold fn) s = .next { s with answer := .code 0x16 }) ∧
    (st = 1 → s.mayStart n true = true → n < 0x100 ∧ s.sharesLanes n = true →
      exec (.functionRequestRun fn) s = .fault (.unbounded "UB-MODE-2")) ∧
    (st = 1 → s.mayStart n true = true → ¬ (n < 0x100 ∧ s.sharesLanes n = true) →
      exec (.functionRequestRun fn) s = .next { s.passFn n 5 .run with answer := .code 0 }) ∧
    (st ≠ 1 ∨ s.mayStart n true = false → exec (.functionRequestRun fn) s = .next { s with answer := .code 0x16 }) ∧
    (st = 1 → s.mayStop n = true → exec (.functionRequestOff fn) s = .next { s.reachOff n with answer := .code 0 }) ∧
    (st = 3 → s.liftable n = true → s.mayStop n = true → exec (.functionRequestOff fn) s =
      .next { s.reachOff n with answer := .code 0 }) ∧
    (st ≠ 1 ∧ (st ≠ 3 ∨ s.liftable n = false) ∨ s.mayStop n = false →
      exec (.functionRequestOff fn) s = .next { s with answer := .code 0x16 }) ∧
    (∀ t, s.hostFence (Units.ofFunction n) = some t → exec (.functionRequestFence fn) s = .next { t with answer := .code 0 }) ∧
    (s.hostFence (Units.ofFunction n) = none → exec (.functionRequestFence fn) s = .next { s with answer := .code 0x16 })

/-- DRAIN_COMPLETE, FORCED_DRAIN and START_COMPLETE complete from every state and for every function: DRAINING ends in HOLD once its
work is done, or by force, which drops the work in flight, records the function in LAST_FORCED_DRAIN and sets MODE_SUMMARY [2];
STARTING ends in the goal it was begun for; at any other time they change nothing. A passage reads its state and keeps its goal.
Where it rests on the model's own choices: log entry 9. -/
def Obligations.FunctionPassages : Prop :=
  ∀ (s : State) (fn : Fn),
    let n := fnNumber fn
    let forced := if 0x300 ≤ n ∧ n < 0x400 then s.endSearches (n - 0x300) else s.forceWork n
    (s.fn n = 4 → s.drained n = true → exec (.drainComplete fn) s = .next (s.holdFromRun n)) ∧
    (s.fn n = 4 → s.drained n = false → exec (.drainComplete fn) s = .next s) ∧
    (s.fn n = 4 → exec (.forcedDrain fn) s =
      .next (((forced.holdFromRun n).put Obj.lastForcedDrain n).flag Obj.modeSummary 2)) ∧
    (s.fn n ≠ 4 → exec (.drainComplete fn) s = .next s ∧ exec (.forcedDrain fn) s = .next s) ∧
    (s.fn n = 5 → s.goal n = some .run → exec (.startComplete fn) s = .next (s.reachRun n)) ∧
    (s.fn n = 5 → s.goal n = some .hold → exec (.startComplete fn) s = .next (s.holdFromOff n)) ∧
    (s.fn n ≠ 5 ∨ s.goal n = none → exec (.startComplete fn) s = .next s) ∧
    (n ≠ 0x400 → s.holdFromRun n = s.setFn n 1) ∧
    (n = 0x400 → s.holdFromRun n = ((s.setFn n 1).closeReassembly 0xC4).clearRequests) ∧
    (Shape s → SlotsGood s.versions →
      (∀ v g, (s.passFn n v g).fn n = v ∧ (s.passFn n v g).goal n = some g) ∧ (∀ v, (s.setFn n v).fn n = v) ∧
      (s.fn n = 4 → ∃ t, exec (.forcedDrain fn) s = .next t ∧ t.obj? Obj.lastForcedDrain = n ∧
        bit (t.obj? Obj.modeSummary) 2 = true))

/-- A pipe sleeps deeper by the conditions of its depth, pipe 16 in a takeover as deep as RETAIN, and wakes whole for arrivals and
work, to GATED for an access or a slice; a pipe in OFF keeps nothing, and wakes for a port or a takeover alone. Each but the entry
into OFF changes the pipe's depth, its waking and WAKE_COUNT alone. Where it rests on the model's own choices: log entries 9, 108.
-/
def Obligations.PipesSleepAndWake : Prop :=
  ∀ (s : State) (pipe : Pipe), s.ready = true →
    let p := pipe.val
    (s.depth p = 0 → (s.pipe p).waking = none → s.pipeOn p = true → s.pipeIdle p = true →
      exec (.pipeGatedEntry pipe) s = .next (s.put (Obj.sleepDepth p) 1)) ∧
    ((s.pipe p).waking = none → s.pipeOn p = true → s.pipeIdle p = true → s.mayDeepen p = true →
      (p < 16 → s.depth p = 1 → s.sleepOn p = true → 1 ≤ s.obj? (Obj.sleepPolicy p) →
        exec (.pipeRetainEntry pipe) s = .next (s.put (Obj.sleepDepth p) 2)) ∧
      (p = 16 → s.groupsOf 16 = [] → s.depth p ≤ 1 → exec (.pipeRetainEntry pipe) s = .next (s.put (Obj.sleepDepth p) 2)) ∧
      (p = 16 → s.groupsOf 16 ≠ [] → s.depth p = 1 → s.sleepOn p = true →
        exec (.pipeRetainEntry pipe) s = .next (s.put (Obj.sleepDepth p) 2)) ∧
      (p < 16 → s.depth p ≠ 3 → s.sleepOn p = true → s.obj? (Obj.sleepPolicy p) = 2 →
        (∀ q ∈ s.pipePorts p, (s.fn q = 0 ∨ s.fn q = 3) ∧ s.egressCopies q = []) →
        exec (.pipeOffEntry pipe) s =
          .next ((s.setPipe p fun _ => PipeSt.reset (s.obj? Obj.sampleSeed) p).put (Obj.sleepDepth p) 3))) ∧
    (s.depth p < 3 → ∀ cause ∈ ([.arrival, .egressWork] : List WakeCause), exec (.pipeWake pipe cause) s = .next (s.wakeTo p 0)) ∧
    (s.depth p < 3 → ∀ cause ∈ ([.access, .slice] : List WakeCause), exec (.pipeWake pipe cause) s = .next (s.wakeTo p 1)) ∧
    (s.depth p = 3 → ∀ cause ∈ ([.arrival, .egressWork, .access, .slice] : List WakeCause), exec (.pipeWake pipe cause) s = .next s) ∧
    (∀ d, d < s.depth p → (s.pipe p).waking = none →
      s.wakeTo p d = (if 2 ≤ s.depth p then (s.setPipe p fun x => { x with waking := some d }).bump32 (Obj.wakeCount p)
        else s.setPipe p fun x => { x with waking := some d })) ∧
    (∀ d, (s.pipe p).waking = some d → exec (.pipeWakeEnd pipe) s =
      .next ((s.setPipe p fun x => { x with waking := none }).put (Obj.sleepDepth p) (min d (s.depth p))))

/-! ### Links (05) -/

/-- A link comes up by the table Link states: pages with a common row lead to training, pages without one set PORT_FLAGS [11]; the
parallel-detect rates are tried in turn, and a detected rate runs with no FEC; training ends in CHECK, or at its limit in
arbitration anew where AN_ENABLE is 1. Where it rests on the model's own choices: log entry 9. -/
def Obligations.LinksComeUp : Prop :=
  ∀ (s : State) (port : Port),
    let p := port.val
    (∀ pages, s.ready = true → s.link p = 1 →
      let s' := s.put (Obj.partnerBasePage p) pages.basePage.toNat
      (∀ r, commonRow (s'.offeredRows p) (bitList 20 pages.rows.toNat) = some r → exec (.pagesReceived port pages) s =
        .next ((s'.setPort p fun x => { x with row := r, fec := resolvedFec r pages, anResult := 1, exchanged := false }).toTraining p)) ∧
      (commonRow (s'.offeredRows p) (bitList 20 pages.rows.toNat) = none → exec (.pagesReceived port pages) s =
        .next ((s'.flag (Obj.portFlags p) 11).setPort p fun x => { x with exchanged := true }))) ∧
    (∀ pages, s.ready = true → s.link p = 2 → exec (.pagesReceived port pages) s =
      .next ((s.put (Obj.partnerBasePage p) pages.basePage.toNat).put (Obj.linkState p) 1)) ∧
    (s.link p = 1 → (s.port p).exchanged = true → exec (.anWaitExpiry port) s =
      .next (s.setPort p fun x => { x with exchanged := false })) ∧
    (∀ b, s.link p = 1 → (s.port p).exchanged = false → s.inForce (Obj.portWidth p) = 1 → s.nextRate p 0 = some b →
      exec (.anWaitExpiry port) s = .next ((s.setPort p fun x => { x with tryRate := b }).put (Obj.linkState p) 2)) ∧
    (∀ b, s.link p = 2 → s.nextRate p ((s.port p).tryRate + 1) = some b → exec (.pdDwellExpiry port) s =
      .next (s.setPort p fun x => { x with tryRate := b })) ∧
    (s.link p = 2 → s.nextRate p ((s.port p).tryRate + 1) = none → exec (.pdDwellExpiry port) s = .next (s.put (Obj.linkState p) 1)) ∧
    (s.link p = 2 → exec (.rateDetected port) s = .next ((s.setPort p fun x => { x with
      row := (if (s.port p).tryRate = 0 then 2 else if (s.port p).tryRate = 1 then 1 else 3), fec := 0, anResult := 2 }).put
        (Obj.linkState p) 4)) ∧
    (s.link p = 3 → exec (.trainingComplete port) s = .next (s.put (Obj.linkState p) 4)) ∧
    (s.dictWf = true → s.link p = 3 → s.inForce (Obj.anEnable p) = 1 → exec (.trainingLimitExpiry port) s =
      .next ((s.flag (Obj.portFlags p) 8).put (Obj.linkState p) 1)) ∧
    (s.dictWf = true → s.link p = 3 → s.inForce (Obj.anEnable p) ≠ 1 →
      exec (.trainingLimitExpiry port) s = .next (s.flag (Obj.portFlags p) 8))

/-- A link that reaches UP shows the row in use, its rate, FEC and way of resolution, and what waits starts; one that is lost enters
HOLDING, with its frame on the wire cut off and its frame in reception ended; a loss in another state tells whether remote fault is
received; a hold time that runs out flushes the port. Where it rests on the model's own choices: log entries 9, 109. -/
def Obligations.LinksGoUpAndDown : Prop :=
  ∀ (s : State) (port : Port),
    let p := port.val
    let x := s.port p
    (s.link p = 4 ∨ s.link p = 6 →
      let u := if s.link p = 6 then s.bump32 (Obj.holdResumes p) else s
      exec (.linkUp port) s = .next
        ((((((((u.put (Obj.linkState p) 5).put (Obj.lastLinkChange p) s.time).put (Obj.speedInUse p) x.row).put
          (Obj.portDataRate p) (rowRate x.row)).put (Obj.fecInUse p) x.fec).put (Obj.anResult p) x.anResult).setPort p
            fun y => { y with flushed := false, holdRunning := false, remoteFault := false }).startTx p)) ∧
    (∀ cause, s.link p = 5 →
      let a := s.setPort p fun x => { x with remoteFault := cause == .remoteFault }
      let u := (((a.put (Obj.linkState p) 6).bump32 (Obj.linkDownCount p)).put (Obj.lastLinkChange p) s.time).flag (Obj.portFlags p) 1
      let v := ((u.stomp p 0x0D).endReception p 0x05 0x05).clearPauses p
      let w := v.setPort p fun x => { x with holdRunning := v.runs p }
      exec (.linkLoss port cause) s =
        .next (if w.runs p = true ∧ w.obj? (Obj.holdTimeUs p) = 0 then (w.linkDownFlush p).leaveHolding p else w)) ∧
    (∀ cause, s.link p ≠ 5 → s.link p ≠ 0 → exec (.linkLoss port cause) s =
      .next (s.setPort p fun x => { x with remoteFault := cause == .remoteFault })) ∧
    (∀ cause, s.link p = 0 → exec (.linkLoss port cause) s = .next s) ∧
    ((s.port p).holdRunning = true → s.runs p = true → exec (.holdTimeExpiry port) s = .next ((s.linkDownFlush p).leaveHolding p))

/-! ### Frames at the MAC (05) -/

/-- What the MAC makes of a whole frame on a port whose link is UP: a frame that its head condemns (0x07 not in RUN, 0x08 filtered),
the ingress FIFO refuses, or what follows condemns (0x05, 0x0F, 0x02, 0x01, 0x04), ends at its arrival with that code; a good control
frame is consumed by the MAC, whatever command brought it; any other goes on to the cipher and the ingress FIFO. A frame that a pipe
takes from the host waits for injection whole, and joins the frames held under the next number. Where it rests on the model's own
choices: log entries 43, 44, 47, 109. -/
def Obligations.WholeFramesReceived : Prop :=
  (∀ (s : State) (port : Port) (b : List Byte), s.ready = true → s.link port.val = 5 → (s.port port.val).rxActive = false →
    let p := port.val
    let heard := fun err => (s.fecReport p err).macStats p b
    (∀ err c, (s.fecReport p err).headCode p b = some c →
      exec (.receivedFrame port .whole b err) s = .next ((heard err).endAtArrival p c)) ∧
    (∀ err c t, (s.fecReport p err).headCode p b = none →
      (heard err).judgeWhole p b ((heard err).fifoCode p b true) err = (t, some c) →
      exec (.receivedFrame port .whole b err) s = .next (t.endAtArrival p c)) ∧
    (∀ (t : State) err, errorCode err = none → (∀ c, t.judgeWhole p b (some c) err = (t, some c)) ∧
      (t.maxFrame p < b.length → t.judgeWhole p b none err = (t, some 0x02)) ∧
      (b.length ≤ t.maxFrame p → t.judgeWhole p b none err = (t, tailCode b))) ∧
    (∀ (t : State) err e, errorCode err = some e → b.length ≤ t.maxFrame p → t.judgeWhole p b none err = (t, some e)) ∧
    (s.headCode p b = none → b.length ≤ (s.macStats p b).maxFrame p → tailCode b = none →
      (isControl b = false → (s.macStats p b).fifoCode p b true = none → exec (.receivedFrame port .whole b .none) s =
        .next (((s.macStats p b).rxGood p b).takeWhole p b none (s.ingressStamp p) (s.modesAt p))) ∧
      (isControl b = true →
        ∀ c ∈ ([.receivedFrame port .whole b .none, .pauseFrame port b, .pfcFrame port b, .macControlFrame port b] : List Instr),
          exec c s = .next (((s.macStats p b).rxGood p b).control p b))) ∧
    (exec (.receivedFrame port .tail b .none) s = .next s)) ∧
  ∀ (s : State) (port : Port) (b : List Byte), s.ready = true → s.portPipe port.val ≠ 0xFF →
    s.fenced (s.portPipe port.val) = false → s.runs (Fn.pipeNo (s.portPipe port.val)) = true →
    ∃ t f, exec (.hostInjection port b) s = .next t ∧ t.frames = s.frames ++ [f] ∧ f.id = s.nextId ∧ f.port = port.val ∧
      f.source = .host ∧ f.loc = .inject (s.portPipe port.val) ∧ f.bytes = b ++ fcs b ∧ f.complete = true ∧ f.pass = 0 ∧
      t.nextId = s.nextId + 1 ∧ t.obj = s.obj ∧ t.copies = s.copies ∧ t.ports = s.ports

/-- Pauses (R118-R124): a PAUSE frame with RX_FLOW_CONTROL 1 pauses every class for its quanta, a PFC frame with RX_FLOW_CONTROL 2
the enabled classes its vector names, both with code 0x09, and another MAC control frame ends with 0x0A; a timer that expires ends
its class's pause; a watchdog that expires breaks it, counts the break, sets PORT_FLAGS [5], writes a Patina record and ignores the
class's control frames until its time ends. Where it rests on the model's own choices: log entry 9. -/
def Obligations.PausesBeginAndEnd : Prop :=
  (∀ (s : State) (port : Port) (cls : TrafficClass),
    let p := port.val
    let c := cls.val
    ((s.pause p c).paused = true → exec (.pauseTimerExpiry port cls) s =
      .next ((s.setPause p c fun x => { x with paused := false, quanta := 0 }).startTx p)) ∧
    ((s.pause p c).paused = true → s.obj? (Obj.pauseWatchdogMs p c) ≠ 0 → exec (.pauseWatchdogExpiry port cls) s =
      .next ((((((s.setPause p c fun x => { x with paused := false, quanta := 0, ignoring := true }).bump32
        (Obj.pauseWatchdogBreaks p)).flag (Obj.portFlags p) 5).log
          { kind := 8, unit := 0x040 + p, detail := field 4 p + c }).startTx p))) ∧
    (exec (.pauseWatchdogIgnoreEnd port cls) s = .next (s.setPause p c fun x => { x with ignoring := false })) ∧
    (s.ports.length = 128 → (s.port p).pauses.length = 8 → ∀ f, (s.setPause p c f).pause p c = f (s.pause p c) ∧
      ∀ d : TrafficClass, d ≠ cls → (s.setPause p c f).pause p d.val = s.pause p d.val)) ∧
  ∀ (s : State) (p : Nat) (b : List Byte),
    let counted := fun sub => (s.rxStat p sub 1).code (s.portPipe p) 0x09
    (beAt b 14 2 = 0x0001 → s.obj? (Obj.rxFlowControl p) = 1 → s.control p b =
      ((List.range 8).foldl (fun s c => s.pauseFor p c (beAt b 16 2)) (counted 0x10)).startTx p) ∧
    (beAt b 14 2 = 0x0001 → s.obj? (Obj.rxFlowControl p) ≠ 1 → s.control p b = counted 0x10) ∧
    (beAt b 14 2 = 0x0101 → s.obj? (Obj.rxFlowControl p) = 2 → s.control p b =
      ((bitList 8 (Nat.land (beAt b 16 2) ((counted 0x11).obj? (Obj.pfcClassEnable p)))).foldl
        (fun s c => s.pauseFor p c (beAt b (18 + 2 * c) 2)) (counted 0x11)).startTx p) ∧
    (beAt b 14 2 = 0x0101 → s.obj? (Obj.rxFlowControl p) ≠ 2 → s.control p b = counted 0x11) ∧
    (beAt b 14 2 ≠ 0x0001 → beAt b 14 2 ≠ 0x0101 → s.control p b = (s.rxStat p 0x12 1).code (s.portPipe p) 0x0A) ∧
    (∀ c quanta, (s.pause p c).ignoring = true → s.pauseFor p c quanta = s) ∧
    (∀ c quanta, (s.pause p c).ignoring = false →
      s.pauseFor p c quanta = s.setPause p c fun x => { x with paused := quanta != 0, quanta := quanta })

/-- A frame that ends leaves the engine: no other frame and no copy is touched, its code is counted in the Caliper's event 0x200 +
code unless the Caliper is frozen, and the in-flight count of its version slot falls by one. -/
def Obligations.EndedFramesLeave : Prop :=
  ∀ (s : State) (id code : Nat) (f : Frame), s.dictWf = true → code < 256 → s.frame? id = some f →
    let t := s.endFrame id code
    (s.obj? Obj.caliperFreeze ≠ 1 → bits (t.record Obj.caliperEvents 8 (0x200 + code)) 47 0 =
      satAdd 48 (bits (s.record Obj.caliperEvents 8 (0x200 + code)) 47 0) 1) ∧
    t.frames = s.frames.filter (fun g => g.id != id) ∧ t.copies = s.copies ∧ t.ports = s.ports ∧ t.sop = s.sop ∧ t.boot = s.boot ∧
    (∀ i, f.stamp = some i → i < s.versions.slots.length → (t.slot i).inFlight = (s.slot i).inFlight - 1) ∧
    (∀ i j, f.stamp = some i → j ≠ i → t.slot j = s.slot j) ∧ (f.stamp = none → t.versions = s.versions)

/-- The transmit side of a port: a copy whose frame is still arriving starts where CUT may carry it; a copy whose frame is whole
ends its transmission; a cut-through frame that runs dry is stomped with 0x0B, sets PORT_FLAGS [6], restarts CLEAN_FRAMES and raises
UNDERRUN_STEP; CLEAN_FRAMES at its limit lowers UNDERRUN_STEP. Where it rests on the model's own choices: log entries 9, 45. -/
def Obligations.TransmitSide : Prop :=
  ∀ (s : State) (port : Port),
    let p := port.val
    (∀ c f, s.mayTransmit p = true → (s.port p).tx = none → s.nextToStart p = some c → s.frame? c.frame = some f →
      f.complete = false → s.mayCut p c f = true → exec (.cutThroughStart port) s = .next (s.beginTx p c true)) ∧
    (∀ x c f, (s.port p).tx = some x → s.copy? x.copy = some c → s.frame? c.frame = some f →
      (f.complete = true → exec (.transmitEnd port) s = .next ((s.endTransmit p x c f).startTx p)) ∧
      (f.complete = false → exec (.transmitEnd port) s = .next s) ∧
      (x.cut = true → f.complete = false →
        let u := ((s.stomp p 0x0B).flag (Obj.portFlags p) 6).put (Obj.cleanFrames p) 0
        exec (.transmitUnderrun port) s = .next ((if s.cutThreshold p < s.inForce (Obj.maxFrame p) then
          u.put (Obj.underrunStep p) (min (u.obj? (Obj.underrunStep p) + 1) 255) else u).startTx p)) ∧
      (x.cut = false ∨ f.complete = true → exec (.transmitUnderrun port) s = .next s)) ∧
    (s.obj? (Obj.cleanFrames p) < 2 ^ 20 → exec (.cleanFramesLimit port) s = .next s) ∧
    (2 ^ 20 ≤ s.obj? (Obj.cleanFrames p) → exec (.cleanFramesLimit port) s =
      .next ((s.put (Obj.underrunStep p) (s.obj? (Obj.underrunStep p) - 1)).put (Obj.cleanFrames p) 0))


/-! ### The Object Protocol and the PCIe windows (02) -/

/-- Steps 1 to 7 of the table SOP check order, for the command of every opcode: a message is discarded without a response by steps 1
to 3 (a malformed one, a wrong tag and a wrong check counted), answered with the code of steps 4 to 7, or repeated. A session serves
the SEQ it expects, and 0xFFFFFFFF never; the SEQ before it is a repetition, answered with the stored response; any other is
BAD_SEQUENCE (R49); once a counter of R44 has reached 0xFFFFFFFF, every OPEN on session 0 is SESSION_EXHAUSTED. Where it rests on
the model's own choices: log entry 25. -/
def Obligations.MessagesAreChecked : Prop :=
  ∀ (s : State) (m : SopMessage), sopHeard s m → ∀ e ∈ sopCommands m,
    let u := boxed s m
    let box := byMailbox m.carriage
    let answers := fun code => exec e.1 s = .next (u.deliver m.carriage (sopReply u e.2 m code []))
    (u.carriageGood m.carriage = false → exec e.1 s = .next (u.discard false)) ∧
    (u.carriageGood m.carriage = true →
      (sopShaped m = false → exec e.1 s = .next (u.discardCounted box Obj.sopMalformed)) ∧
      (sopShaped m = true → u.sopAuthentic e.2 m = false →
        exec e.1 s = .next (u.discardCounted box (if m.auth then Obj.sopAuthFails else Obj.sopCheckFails))) ∧
      (sopShaped m = true → u.sopAuthentic e.2 m = true →
        (m.ver ≠ 1 → answers 1) ∧
        (m.ver = 1 → m.session ≠ 0 → u.sopOpen m = false → answers 5) ∧
        (∀ code, u.sopRefuses e.2 m = some code → answers code) ∧
        (u.sopRefuses e.2 m = none →
          (∀ code, u.sopSeq e.2 m = .refuse code → answers code) ∧
          (∀ b, u.sopSeq e.2 m = .replay b → exec e.1 s = .next (u.deliver m.carriage b)) ∧
          (u.sopSeq e.2 m = .serve → sopAllowed e.2 m = false → exec e.1 s = .next (sopReplied u e.2 m 2 []))))) ∧
    (sopSessionless m e.2 = false →
      let seq := m.seq.toNat
      let expected := u.sopExpected m
      let exhausted := e.2 = 0x10 ∧ m.session.toNat = 0 ∧ u.sopExhausted = true
      (exhausted → u.sopSeq e.2 m = .refuse 7) ∧
      (u.sopExhausted = true ↔ u.obj? Obj.session0NextSeq = 0xFFFFFFFF ∨ u.obj? Obj.commEpoch = 0xFFFFFFFF) ∧
      (¬ exhausted →
        (seq = expected → seq ≠ 0xFFFFFFFF → u.sopSeq e.2 m = .serve) ∧
        (seq = expected → seq = 0xFFFFFFFF → u.sopSeq e.2 m = .refuse 7) ∧
        (∀ b, seq + 1 = expected → u.sopStored m = some b → u.sopSeq e.2 m = .replay b) ∧
        (seq + 1 = expected → u.sopStored m = none → u.sopSeq e.2 m = .refuse 6) ∧
        (seq ≠ expected → seq + 1 ≠ expected → u.sopSeq e.2 m = .refuse 6)) ∧
      (∀ n, m.session.toNat = n + 1 → n < u.sop.sessions.length → (u.sopAdvance e.2 m).obj = u.obj ∧
        ((u.sopAdvance e.2 m).sop.sessions.getD n .free).nextSeq = seq + 1) ∧
      (m.session = 0 → u.sopAdvance e.2 m = u.put Obj.session0NextSeq (seq + 1)))

/-- A message that passes every check, and finds nothing of its path waiting, is served: READ and DOMAIN_READ return the object's
bytes, WRITE stores a setting of the Plinth, MULTI_READ returns its entries, CLOSE and NOP return nothing, OPEN takes the first free
session with the next epoch; the response advances SEQ, is stored and is sent before the effect. Where it rests on the model's own
choices: log entry 26. -/
def Obligations.MessagesAreServed : Prop :=
  ∀ (s : State) (m : SopMessage), s.dictWf = true → sopHeard s m →
    let u := boxed s m
    let index := m.index.toNat
    let sub := m.sub.toNat
    (∀ f, SopPasses u 1 m → m.payload = [] → u.admits .read index sub = .ok f → u.slowAccess .read index sub = false →
      u.sopBehind 1 m = false → exec (.read (.sop m)) s = .next ((sopReplied u 1 m 0 (if f.ty = .domain then toBe 8 (u.regionSize index sub)
        else toBe f.size ((u.wakeFor index).value index sub))).wakeFor index)) ∧
    (∀ e ∈ [(0x1100, 2, 6), (0x1100, 3, 6), (0x1100, 4, 4), (0x1100, 5, 16), (0x1100, 6, 2), (0x1110, 1, 4), (0x1111, 1, 4),
        (0x1112, 1, 4), (0x1113, 1, 4), (0x1110, 2, 8), (0x1111, 2, 8), (0x1112, 2, 8), (0x1113, 2, 8)],
      SopPasses u 2 m → u.sopBehind 2 m = false → s.boot.fuses ≠ 0 → s.boot.fuses ≠ 4 → index = e.1 → sub = e.2.1 → m.payload.length = e.2.2 →
        exec (.write (.sop m)) s = .next ((sopReplied u 2 m 0 []).put (Dict.key index sub) (beNat m.payload))) ∧
    (∀ n, SopPasses u 3 m → u.sopBehind 3 m = false → m.payload.length = 4 * n → 1 ≤ n → n ≤ 64 →
      (∀ x ∈ sopItems m, u.waits .read x.1 x.2 = false) →
      exec (.multiRead m) s = .next ((sopReplied u 3 m 0 (u.readItems 0 (sopItems m)).1).readItems 0 (sopItems m)).2) ∧
    (∀ f off n, SopPasses u 4 m → m.payload.length = 12 → off = beAt m.payload 0 8 → n = beAt m.payload 8 2 → 1 ≤ n → n ≤ 1408 →
      u.admits (.domainRead off n) index sub = .ok f → u.slowAccess (.domainRead off n) index sub = false → u.sopBehind 4 m = false →
      exec (.domainRead (.sop m)) s = .next
        (((sopReplied u 4 m 0 ((u.wakeFor index).readRegion (Dict.key index sub) off n).1).wakeFor index).readRegion
          (Dict.key index sub) off n).2) ∧
    (SopPasses u 0x11 m → m.payload = [] →
      exec (.sopClose m) s = .next ((sopReplied u 0x11 m 0 []).closeSession m.session.toNat)) ∧
    (SopPasses u 0x12 m → m.payload = [] → exec (.sopNop m) s = .next (sopReplied u 0x12 m 0 [])) ∧
    (∀ i, SopPasses u 0x10 m → m.payload.length = 4 →
      (u.sop.sessions.findIdx? fun x => !x.isOpen) = some i →
      let epoch := u.obj? Obj.commEpoch + 1
      let idle := beNat m.payload
      exec (.sopOpen m) s = .next
        (((sopReplied u 0x10 m 0 (toBe 2 (i + 1) ++ toBe 2 0 ++ toBe 4 epoch)).put Obj.commEpoch epoch).setSession (i + 1) fun _ =>
          { isOpen := true, path := m.carriage.path, peer := m.carriage.peer, nextSeq := 1, epoch := epoch, auth := m.auth,
            idleMs := if idle = 0 then u.obj? Obj.sessionIdleTimeout else idle, stored := none })) ∧
    (SopPasses u 0x10 m → m.payload.length = 4 →
      (u.sop.sessions.findIdx? fun x => !x.isOpen) = none → exec (.sopOpen m) s = .next (sopReplied u 0x10 m 9 []))

/-- Work for the Atelier: a message that asks for it waits in the queue of 32, or is answered BUSY, and any other waits where one of
its path does; the oldest that waits is served in its turn, a READ or a DOMAIN_READ with its bytes, and its response is stored while
it is its session's latest. An idle session that times out closes and sets COMM_SUMMARY [1]. Address requests for the device's own
address are answered. Where it rests on the model's own choices: log entries 27, 28. -/
def Obligations.WaitingMessagesAndSessions : Prop :=
  ∀ s : State,
    (∀ (m : SopMessage), sopHeard s m → ∀ e ∈ sopCommands m, let u := boxed s m
      SopPasses u e.2 m → u.sopSlow e.2 m = true →
        (u.slowFull = false →
          let t := ((u.sopAdvance e.2 m).sopStore e.2 m (u.sopEpoch m) none).request 5
          exec e.1 s = .next { t with answer := .queued, sop := { t.sop with slow := t.sop.slow ++
            [{ atelier := true, opcode := e.2, message := m, key := sopKeyOf u m, epoch := u.sopEpoch m }] } }) ∧
        (u.slowFull = true → let t := ((u.noteBusy.sopAdvance e.2 m).sopStore e.2 m (u.sopEpoch m) (some (sopReply u e.2 m 0x1B [])))
          exec e.1 s = .next (t.deliver m.carriage (sopReply u e.2 m 0x1B [])))) ∧
    (∀ (m : SopMessage), sopHeard s m → ∀ e ∈ sopCommands m, let u := boxed s m
      SopPasses u e.2 m → u.sopSlow e.2 m = false → u.sopBehind e.2 m = true →
        let t := (u.sopAdvance e.2 m).sopStore e.2 m (u.sopEpoch m) none
        exec e.1 s = .next { t with answer := .queued, sop := { t.sop with slow := t.sop.slow ++
          [{ atelier := false, opcode := e.2, message := m, key := sopKeyOf u m, epoch := u.sopEpoch m }] } }) ∧
    (s.sop.slow = [] → exec .slowRequestComplete s = .next s) ∧
    (∀ x rest f, s.sop.slow = x :: rest → x.opcode = 1 → x.message.payload = [] → sopAllowed 1 x.message = true →
      let m := x.message
      let u : State := { s with sop := { s.sop with slow := rest } }
      u.admits .read m.index.toNat m.sub.toNat = .ok f →
      let b := sopResponse m 1 0 (if f.ty = .domain then toBe 8 (u.regionSize m.index.toNat m.sub.toNat)
        else toBe f.size ((u.wakeFor m.index.toNat).value m.index.toNat m.sub.toNat)) x.key x.epoch
      exec .slowRequestComplete s = .next
        (((if u.sopLatest m = true then u.sopStore 1 m x.epoch (some b) else u).deliver m.carriage b).wakeFor m.index.toNat)) ∧
    (∀ x rest f off n, s.sop.slow = x :: rest → x.opcode = 4 → x.message.payload.length = 12 → off = beAt x.message.payload 0 8 →
      n = beAt x.message.payload 8 2 → 1 ≤ n → n ≤ 1408 → sopAllowed 4 x.message = true →
      let m := x.message
      let key := Dict.key m.index.toNat m.sub.toNat
      let u : State := { s with sop := { s.sop with slow := rest } }
      u.admits (.domainRead off n) m.index.toNat m.sub.toNat = .ok f →
      let b := sopResponse m 4 0 ((u.wakeFor m.index.toNat).readRegion key off n).1 x.key x.epoch
      exec .slowRequestComplete s = .next
        ((((if u.sopLatest m = true then u.sopStore 4 m x.epoch (some b) else u).deliver m.carriage b).wakeFor
          m.index.toNat).readRegion key off n).2) ∧
    (∀ n : Fin 8, (s.sop.sessions.getD n.val .free).isOpen = true →
      exec (.sessionIdleTimeout n) s = .next ((s.closeSession (n.val + 1)).flag Obj.commSummary 1)) ∧
    (∀ (lane : Fin 2) (own : List Byte), s.boot.powered = true → s.fenced (0x5B3 + lane.val) = false → beNat own ≠ 0 →
      (own = toBe 4 (s.obj? Obj.sopIpv4Address) →
        exec (.arpRequest lane own) s = .next { s with answer := .resolved lane.val own } ∧
        ∀ other, other ≠ own → exec (.arpRequest lane other) s = .next s) ∧
      (own = toBe 16 (s.obj? Obj.sopIpv6Address) →
        exec (.neighbourSolicitation lane own) s = .next { s with answer := .resolved lane.val own } ∧
        ∀ other, other ≠ own → exec (.neighbourSolicitation lane other) s = .next s))

/-- PCIe: BAR0 reads an object and writes a setting of 1, 2, 4 or 8 bytes, least significant byte first; BAR2 reads and writes the
region its window names, a record of a host-to-device ring between TAIL and HEAD being UB-DIC-3 and a write that meets a
DOMAIN_WRITE in process a misuse of its own; a rejected access is recorded and completes with all ones; with PCIE_DIRECT_ENABLE 0
every read of BAR0 and BAR2 returns all ones, every write is dropped, and neither is recorded (R54). The mailbox's doorbell is the
command of the message placed, and a write of MBOX_REQUEST while it is busy is UB-DIC-5. Where it rests on the model's own choices:
log entries 29, 30. -/
def Obligations.PcieWindows : Prop :=
  ∀ s : State, s.pcieReached = true →
    (∀ (off : BitVec 27) (n : Nat), off.toNat % 8 = 0 → n ∈ [1, 2, 4, 8] →
      let index := off.toNat / 0x800
      let sub := off.toNat % 0x800 / 8
      (s.directOn = true → ∀ f, s.admits .read index sub = .ok f → s.slowAccess .read index sub = false ∨ s.slowFull = false →
        exec (.read (.bar0 off n)) s = .next { s.wakeFor index with
          answer := .completion (padTo n (slotOrder index sub (if f.ty = .domain then
            toBe 8 (s.regionSize index sub) else toBe f.size ((s.wakeFor index).value index sub)))) }) ∧
      (s.directOn = true → ∀ e, s.admits .read index sub = .error e →
        exec (.read (.bar0 off n)) s = .next { s.recordAbort e index sub with answer := .completion (allOnes n) })) ∧
    (s.obj? Obj.pcieDirectEnable = 0 →
      (∀ (off : BitVec 27) (n : Nat), exec (.read (.bar0 off n)) s = .next { s with answer := .completion (allOnes n) }) ∧
      (∀ (off : BitVec 22) (n : Nat), exec (.domainRead (.bar2 off n)) s = .next { s with answer := .completion (allOnes n) }) ∧
      (∀ (off : BitVec 27) (b : List Byte), exec (.write (.bar0 off b)) s = .next { s with answer := .none }) ∧
      (∀ (off : BitVec 22) (b : List Byte), exec (.domainWrite (.bar2 off b)) s = .next { s with answer := .none })) ∧
    (∀ e ∈ [(0x1100, 4, 4), (0x1100, 6, 2), (0x1110, 1, 4), (0x1111, 1, 4), (0x1112, 1, 4), (0x1113, 1, 4), (0x1110, 2, 8),
        (0x1111, 2, 8), (0x1112, 2, 8), (0x1113, 2, 8)], ∀ b : List Byte, plinthOpen s → s.directOn = true → b.length = e.2.2 →
      exec (.write (.bar0 (BitVec.ofNat 27 (e.1 * 0x800 + e.2.1 * 8)) b)) s =
        .next { s.put (Dict.key e.1 e.2.1) (leNat b) with answer := .none }) ∧
    (∀ (off : BitVec 22) (n index sub at_ : Nat), s.window off.toNat = (index, sub, at_) → windowOctets index sub = none →
      s.directOn = true → (∀ f, s.admits (.domainRead at_ n) index sub = .ok f →
        s.slowAccess (.domainRead at_ n) index sub = false ∨ s.slowFull = false →
        exec (.domainRead (.bar2 off n)) s = .next { ((s.wakeFor index).readRegion (Dict.key index sub) at_ n).2 with
          answer := .completion ((s.wakeFor index).readRegion (Dict.key index sub) at_ n).1 }) ∧
      (∀ e, s.admits (.domainRead at_ n) index sub = .error e →
        exec (.domainRead (.bar2 off n)) s = .next { s.recordAbort e index sub with answer := .completion (allOnes n) })) ∧
    (∀ (off : BitVec 22) (b : List Byte) (index at_ : Nat), s.window off.toNat = (index, 1, at_) → index = 0xB080 ∨ index = 0xB090 →
      fastOpen s → s.directOn = true → at_ + b.length ≤ s.regionSize index 1 →
        let record := if index = 0xB080 then 32 else 64
        let ring := if index = 0xB080 then 8 else 9
        let held := (List.range (b.length / record)).any fun i => s.ringHolds ring (at_ / record + i)
        at_ % record = 0 → b.length % record = 0 →
        (held = false → exec (.domainWrite (.bar2 off b)) s =
          .next { s.putBytes (Dict.key index 1) at_ (recordsStored ring b) with answer := .none }) ∧
        (held = true → exec (.domainWrite (.bar2 off b)) s = .fault (.unbounded "UB-DIC-3"))) ∧
    (∀ (off : BitVec 22) (b : List Byte) (index sub at_ : Nat) (case : String) (f : Family), s.window off.toNat = (index, sub, at_) →
      windowOctets index sub = none → s.directOn = true → s.admits (.domainWrite at_ b) index sub = .ok f →
      s.domainWriteWaits index sub = true → concurrentCase index sub = some case →
        exec (.domainWrite (.bar2 off b)) s = .fault (.unbounded case)) ∧
    (∀ v : BitVec 32, let n := v.toNat % 65536
      let m := parseSop (s.bytes mailboxKey 0 n)
      s.sop.mboxBusy = false →
      (n < 16 ∨ 0x800 < n → exec (.mboxDoorbell v) s = .next ((boxed s m).discardCounted true Obj.sopMalformed)) ∧
      (16 ≤ n → n ≤ 0x800 → ∀ e ∈ sopCommands m, e.2 = beAt (s.bytes mailboxKey 0 n) 1 1 →
        exec (.mboxDoorbell v) s = exec e.1 s ∧
        (SopPasses (boxed s m) 0x12 m → e.2 = 0x12 → m.payload = [] →
          exec (.mboxDoorbell v) s = .next (sopReplied (boxed s m) 0x12 m 0 [])))) ∧
    (∀ v : BitVec 32, s.sop.mboxBusy = true → exec (.mboxDoorbell v) s = .next (s.recordAbort 0x1B 0 0)) ∧
    (∀ (off : BitVec 13) (b : List Byte), off.toNat < 0x800 →
      (s.sop.mboxBusy = true → exec (.write (.bar4 off b)) s = .fault (.unbounded "UB-DIC-5")) ∧
      (s.sop.mboxBusy = false → exec (.write (.bar4 off b)) s =
        .next { s.putBytes mailboxKey off.toNat (b.take (0x800 - off.toNat)) with answer := .none }))

/-! ### The ingress half (06, 11) -/

/-- Ingress slots (R13, R137, R152): a slot goes to the first class of the window's order that offers a pass, and the frame offered
runs it; a walk that fails with FAILURE_ACTION 0 ends its frame with the failure's code and sets PIPE_FLAGS [0], and no other frame
changes. A pipe that may not grant, or that offers nothing, is unchanged. Where it rests on the model's own choices: log entries 52,
53, 60. -/
def Obligations.SlotsAreGranted : Prop :=
  ∀ (s : State) (pipe : Pipe) (env : GrantEnv),
    let n := pipe.val
    (s.grants n = false ∨ 2 ≤ (s.pipe n).slotsIn → exec (.ingressSlotGrant pipe env) s = .next s) ∧
    (∀ a b c d, slotPreference (s.pipe n).window = [a, b, c, d] →
      s.slotFrame n = ((s.slotOffer n a).orElse fun _ => (s.slotOffer n b).orElse fun _ => (s.slotOffer n c).orElse fun _ =>
        s.slotOffer n d)) ∧
    slotPreference 4 = [.recirculation, .front, .injection, .atelier] ∧
    slotPreference 15 = [.injection, .atelier, .front, .recirculation] ∧
    slotPreference 0 = [.front, .recirculation, .injection, .atelier] ∧
    (s.grants n = true → (s.pipe n).slotsIn < 2 →
      (s.slotFrame n = none → exec (.ingressSlotGrant pipe env) s = .next s) ∧
      (∀ f g, s.slotFrame n = some f → (s.beginPass f n).frame? f.id = some g →
        exec (.ingressSlotGrant pipe env) s = .next ((s.beginPass f n).runPass g n env) ∧
        (∀ c, s.dictWf = true → g.replayed = false → g.kept = none → g.resume = none →
          g.failure ((s.beginPass f n).parseFrame g) = some c → g.latched.failureAction = 0 →
          ∃ v : State, exec (.ingressSlotGrant pipe env) s = .next (v.endPass g.id n c.code) ∧ v.copies = s.copies ∧ v.queues = s.queues ∧
            bit (v.obj? (Obj.pipeFlags n)) 0 = true ∧ ∀ id, id ≠ g.id → v.frame? id = (s.beginPass f n).frame? id)))

/-- PARSE_GRAPH_SELECT puts a copy in use, unless its transitions overrun (UB-PAR-1) or its templates break a rule (UB-PAR-2);
STANDARD_GRAPH_LOAD writes the other copy where no frame uses it. A region end beyond a frame's windows is judged at its tail: a
frame that falls short is counted and lost with 0x20, unless FAILURE_ACTION 2 lets it go on. A frame being written whose cell is not
granted in time is lost with 0x85. Where it rests on the model's own choices: log entries 9, 49, 66. -/
def Obligations.GraphAndTailCommands : Prop :=
  ∀ s : State,
    (fastOpen s → ∀ v : BitVec 8,
      (v.toNat ≤ 1 → s.graphOverruns (v == 1) = false → s.graphMisfits (v == 1) = false →
        exec (.parseGraphSelect v) s = .next { s.put Obj.parseGraphSelect v.toNat with answer := .code 0 }) ∧
      (v.toNat ≤ 1 → s.graphOverruns (v == 1) = true → exec (.parseGraphSelect v) s = .fault (.unbounded "UB-PAR-1")) ∧
      (v.toNat ≤ 1 → s.graphOverruns (v == 1) = false → s.graphMisfits (v == 1) = true →
        exec (.parseGraphSelect v) s = .fault (.unbounded "UB-PAR-2")) ∧
      (1 < v.toNat → exec (.parseGraphSelect v) s = .next { s with answer := .code 0x16 })) ∧
    (fastOpen s →
      let other := s.obj? Obj.parseGraphSelect == 0
      (s.graphBusy other = false → exec .standardGraphLoad s = .next { s.loadStandardGraph with answer := .code 0 } ∧
        s.loadStandardGraph.obj = s.obj ∧ s.loadStandardGraph.frames = s.frames) ∧
      (s.graphBusy other = true → exec .standardGraphLoad s = .next { s with answer := .code 0x16 })) ∧
    (∀ id, s.frame? id = none → exec (.lateLengthCheck id) s = .next s ∧ exec (.grantTimeout id) s = .next s) ∧
    (∀ id f, s.frame? id = some f →
      (f.tail = none → exec (.lateLengthCheck id) s = .next s) ∧
      (∀ b, f.tail = some b →
        let cleared := fun (u : State) => u.setFrame f.id fun g => { g with lateRegion := none, tail := none }
        let pipe := s.framePipe f
        let counted := (s.bump64 (Obj.lateConflicts pipe)).flag (Obj.pipeFlags pipe) 1
        (f.fallsShort b.length = false → exec (.lateLengthCheck id) s = .next ((cleared s).takeTail f.id b)) ∧
        (f.fallsShort b.length = true → f.latched.failureAction = 2 →
          exec (.lateLengthCheck id) s = .next ((cleared counted).takeTail f.id b)) ∧
        (f.fallsShort b.length = true → f.latched.failureAction ≠ 2 → f.loc ≠ .ending →
          exec (.lateLengthCheck id) s = .next ((cleared counted).loseFrame f.id 0x20 0x20)) ∧
        (f.fallsShort b.length = true → f.latched.failureAction ≠ 2 → f.loc = .ending → 0x40 ≤ f.late.getD 0 →
          exec (.lateLengthCheck id) s = .next ((cleared counted).endFrame f.id 0x20)) ∧
        (f.fallsShort b.length = true → f.latched.failureAction ≠ 2 → f.loc = .ending → f.late.getD 0 < 0x40 →
          exec (.lateLengthCheck id) s = .next ((cleared counted).endAtTail f b.length))) ∧
      (f.complete = true ∨ f.cells = [] → exec (.grantTimeout id) s = .next s) ∧
      (f.complete = false → f.cells ≠ [] → exec (.grantTimeout id) s = .next (s.loseFrame id 0x85 0x85)))

/-! ### Tables and versions (07, 08, 09) -/

/-- Rings: a record goes in at HEAD, which moves on by one; into a full ring it is dropped, counted in RING_DROPPED, and STATUS [2]
is set (R62). The table's commands take the record at TAIL of ring 8, each its own opcode: another known opcode waits, an unknown
one is completed BAD_OPCODE, and nothing is taken while the ring is empty or stopped, ring 3 is full or a command is being written
(R185). Where it rests on the model's own choices: log entries 69, 111. -/
def Obligations.RingsAreServed : Prop :=
  ∀ s : State,
    (∀ r b, s.ringFull r = false → s.ringPush r b =
      ((s.putBytes (Obj.ringRecords r) (s.obj? (Obj.ringRecordBytes r) * bits (s.obj? (Obj.ringHead r)) 30 0)
        (padTo (s.obj? (Obj.ringRecordBytes r)) b)).put (Obj.ringHead r) (ringNext (s.ringCapacity r) (s.obj? (Obj.ringHead r))))) ∧
    (∀ r b, r < 256 → s.dictWf = true → s.ringFull r = true →
      (s.ringPush r b).obj? (Obj.ringDropped r) = min (s.obj? (Obj.ringDropped r) + 1) 0xFFFFFFFF ∧
      bit ((s.ringPush r b).obj? (Obj.ringStatus r)) 2 = true ∧ (s.ringPush r b).obj? (Obj.ringHead r) = s.obj? (Obj.ringHead r) ∧
      (s.ringPush r b).dom = s.dom) ∧
    (∀ e ∈ ([(.insert, 1), (.modify, 2), (.delete, 3), (.lookup, 5), (.hitTest, 6), (.ruleWrite, 0x10), (.ruleDelete, 0x11),
        (.ruleRead, 0x12), (.versionOpen, 0x20), (.commit, 0x21), (.versionAbort, 0x22)] : List (Instr × Nat)),
      (s.ready = false ∨ s.ringEmpty 8 = true ∨ s.ringFull 3 = true ∨ s.ring8Stopped = true ∨
        s.em.writing.isSome = true → exec e.1 s = .next s) ∧
      (s.ready = true → s.ringEmpty 8 = false → s.ringFull 3 = false → s.ring8Stopped = false → s.em.writing = none →
        let r := beNat (s.ringFront 8)
        let op := bits r 255 248
        (tableOpcode op = false → exec e.1 s = .next ((s.ringTake 8).tableDone (bits r 239 224) op 7 0 0 0)) ∧
        (tableOpcode op = true → op ≠ e.2 → exec e.1 s = .next s) ∧
        (op = e.2 → ∃ t, exec e.1 s = .next t) ∧
        (s.dictWf = true → (s.ringTake 8).obj? (Obj.ringTail 8) = ringNext (s.ringCapacity 8) (s.obj? (Obj.ringTail 8)) ∧
          ∀ k, k ≠ Obj.ringTail 8 → (s.ringTake 8).obj? k = s.obj? k)))

/-- The exact-match commands (table Command opcodes), on the record at TAIL of ring 8: a record that R186 refuses is completed with
its status and changes no unit; INSERT, MODIFY and DELETE begin to write the copies, one a clock in ascending order, and complete
with the last: INSERT adds a unit, MODIFY rewrites immediate units in place, DELETE frees its units or takes the slot's bit; a copy
without a place at its write takes the command back; LOOKUP returns the copies and the result, HIT_TEST returns and clears the hit
bits. Where it rests on the model's own choices: log entries 61, 69, 111. -/
def Obligations.ExactMatchCommands : Prop :=
  ∀ (s : State) (r : Nat), s.tableRecord = some r →
    let op := bits r 255 248
    let c := tableCommand r
    let u := s.ringTake 8
    let done := fun (t : State) (status hits moves result : Nat) => t.tableDone c.tag c.op status hits moves result
    (∀ e ∈ ([(.insert, 1), (.modify, 2), (.delete, 3)] : List (Instr × Nat)), op = e.2 →
      (∀ x, u.checkWrite c = .error x → exec e.1 s = .next (done u x 0 0 0) ∧ (done u x 0 0 0).em = s.em) ∧
      (∀ b, u.checkWrite c = .ok b → (op = 1 ↔ u.keyVisible c b = true) → exec e.1 s = .next (done u (if op = 1 then 1 else 2) 0 0 0))) ∧
    (op = 1 → ∀ b, u.checkWrite c = .ok b → u.keyVisible c b = false →
      (u.logFor c b = none → exec .insert s = .next (done u 9 0 0 0)) ∧
      (∀ l t ps m, u.logFor c b = some l → l.emPlaces c.keyType c.key [0, 1, 2, 3] = (t, some ps, m) →
        exec .insert s = .next (t.startWriting c b ps m (u.logsNew c b))) ∧
      (∀ l t m, u.logFor c b = some l → l.emPlaces c.keyType c.key [0, 1, 2, 3] = (t, none, m) →
        exec .insert s = .next (done { t with versions := u.versions } 3 0 m 0))) ∧
    (op = 2 → ∀ b, u.checkWrite c = .ok b → u.keyVisible c b = true →
      let copies := [0, 1, 2, 3].filter fun q => (u.copyUnits q c.keyType c.key).any (c.succeeds b)
      (copies = [] → exec .modify s = .next (u.startWriting c b [] 0 false)) ∧
      (c.versioned = false → copies = []) ∧
      (copies ≠ [] → u.logFor c b = none → exec .modify s = .next (done u 9 0 0 0)) ∧
      (∀ l t ps m, copies ≠ [] → u.logFor c b = some l → l.emPlaces c.keyType c.key copies = (t, some ps, m) →
        exec .modify s = .next (t.startWriting c b ps m (u.logsNew c b))) ∧
      (∀ l t m, copies ≠ [] → u.logFor c b = some l → l.emPlaces c.keyType c.key copies = (t, none, m) →
        exec .modify s = .next (done { t with versions := u.versions } 3 0 m 0))) ∧
    (op = 3 → ∀ b, u.checkWrite c = .ok b → u.keyVisible c b = true →
      (u.logFor c b = none → exec .delete s = .next (done u 9 0 0 0)) ∧
      (∀ l, u.logFor c b = some l → exec .delete s = .next (l.startWriting c b [] 0 (u.logsNew c b))) ∧
      (c.versioned = false → u.logFor c b = some u ∧ u.logsNew c b = false)) ∧
    (∀ (t : State) b ps m logged,
      let w : EmWriting := { command := c, slot := b, copies := [0, 1, 2, 3], places := ps, moves := m, logged := logged }
      t.startWriting c b ps m logged = ({ t with em := { t.em with writing := some w } } : State).writeNext) ∧
    (∀ (t : State) (w : EmWriting) (q : Nat) (qs : List Nat) (v : State) (m : Nat), t.em.writing = some w → w.copies = q :: qs →
      (t.writeCopy w q = (v, true, m) → qs ≠ [] → t.writeNext =
        { v with em := { v.em with writing := some { w with copies := qs, moves := w.moves + m } } }) ∧
      (t.writeCopy w q = (v, true, m) → qs = [] → t.writeNext =
        ({ v with em := { v.em with writing := none } } : State).tableDone w.command.tag w.command.op 0 0 (w.moves + m) 0) ∧
      (t.writeCopy w q = (v, false, m) → t.writeNext = v.undoWriting { w with moves := w.moves + m })) ∧
    (∀ (t : State) (w : EmWriting) (q : Nat), w.command.versioned = false →
      (w.command.op = 2 →
        let mine := fun x : EmUnit => x.copy == q && x.keyType == w.command.keyType && x.key == w.command.key && bit x.visible w.slot
        let units := t.em.units.map fun x => if mine x then { x with result := w.command.result } else x
        t.editCopy w q = { t with em := { t.em with units := units } }) ∧
      (w.command.op = 3 → t.editCopy w q = ((t.copyUnits q w.command.keyType w.command.key).filter fun x =>
        bit x.visible w.slot).foldl (fun t x => t.freeUnit x) t)) ∧
    (op = 5 → u.keyGood c.keyType c.key = true → ∀ b, u.targetSlot c = .ok b →
      let found := (List.range 4).filterMap fun q => u.emFind q b c.keyType c.key
      (found = [] → exec .lookup s = .next (done u 2 0 0 0)) ∧
      (∀ x rest, found = x :: rest → exec .lookup s = .next (done u 0 ((found.map fun y => 2 ^ y.copy).sum) 0 x.result)) ∧
      ∀ status hits moves result, (done u status hits moves result).em = s.em) ∧
    (op = 6 → u.keyGood c.keyType c.key = true →
      let us := u.keyUnits c.keyType c.key
      let here := us.map fun x => x.copy * 2 ^ 22 + x.n
      (us = [] → exec .hitTest s = .next (done u 2 0 0 0)) ∧
      (us ≠ [] → exec .hitTest s = .next (done { u with em := { u.em with hits := u.em.hits.filter fun h => !here.contains h } } 0
        (((List.range 4).map fun q => if us.any (fun x => x.copy == q && u.em.hits.contains (q * 2 ^ 22 + x.n)) then 2 ^ q else 0).sum)
        0 0)))

/-- The Relief and version commands, on the record at TAIL of ring 8: RULE_WRITE writes its rule in every quadrant or in none, an
immediate RULE_DELETE drops it, RULE_READ stages it; VERSION_OPEN opens the lowest FREE slot under the next number, COMMIT primes a
FREE slot, waits for one, or is refused, ABORT begins to apply its log. Where it rests on the model's own choices: log entries 64,
69. -/
def Obligations.RuleAndVersionCommands : Prop :=
  ∀ (s : State) (r : Nat), s.tableRecord = some r →
    let op := bits r 255 248
    let c := ruleCommand r
    let u := s.ringTake 8
    let tag := bits r 239 224
    (∀ e ∈ ([(.ruleWrite, 0x10), (.ruleDelete, 0x11), (.ruleRead, 0x12)] : List (Instr × Nat)), op = e.2 → u.ruleGroup c = none →
      exec e.1 s = .next (u.ruleDone c 4 0)) ∧
    (∀ n v, op = 0x10 → u.ruleGroup c = some n → u.imagesGood c n = true → u.ruleWriteVisible c = .ok v → c.versioned = false →
      let entries := (List.range n).map fun j =>
        let x := u.stagedImage c j
        { bank := c.bank + j, position := c.index, visible := v, key := bits x 511 352, care := bits x 351 192,
          result := bits x 191 152, homeBank := c.bank, homeIndex := c.index, member := j : Rule }
      (∀ t, u.writeRule entries = some t → exec .ruleWrite s = .next (t.ruleDone c 0 0)) ∧
      (u.writeRule entries = none → exec .ruleWrite s = .next (u.ruleDone c 3 0))) ∧
    (∀ n x, op = 0x11 → u.ruleGroup c = some n → u.ruleAt c.bank c.index = some x → c.versioned = false →
      (x.visible = 7 → bit x.visible u.currentSlot = true → exec .ruleDelete s = .next ((u.dropRule c.bank c.index).ruleDone c 0 0)) ∧
      (x.visible ≠ 7 → exec .ruleDelete s = .next (u.ruleDone c 5 0))) ∧
    (∀ n b x, op = 0x12 → u.ruleGroup c = some n → u.ruleSlot c = some b → u.ruleAt c.bank c.index = some x → bit x.visible b = true →
      exec .ruleRead s = .next (((List.range n).foldl (fun (t : State) j =>
        t.putRecord Obj.ruleStaging 64 (c.row + j) (t.ruleView (c.bank + j) c.index)) u).ruleDone c 0 x.result)) ∧
    (∀ e ∈ ([(.versionOpen, 0x20), (.commit, 0x21), (.versionAbort, 0x22)] : List (Instr × Nat)), op = e.2 →
      versionRecordGood r = false → exec e.1 s = .next (u.versionDone tag op 4)) ∧
    (op = 0x20 → versionRecordGood r = true →
      (u.buildingSlot.isSome = true → exec .versionOpen s = .next (u.versionDone tag 0x20 0x0B)) ∧
      (u.buildingSlot = none → u.slotIn .free = none → exec .versionOpen s = .next (u.versionDone tag 0x20 8)) ∧
      (∀ f, u.buildingSlot = none → u.slotIn .free = some f → exec .versionOpen s = .next
        (((u.slotTo f .building).setSlot f fun x =>
          { x with number := nextVersion (u.slot u.currentSlot).number, log := [] }).versionDone tag 0x20 0))) ∧
    (op = 0x21 → versionRecordGood r = true →
      (u.buildingSlot = none → exec .commit s = .next (u.versionDone tag 0x21 6)) ∧
      (∀ b f, u.buildingSlot = some b → u.slotIn .free = some f → exec .commit s = .next
        (({ u.slotTo f .priming with versions := { (u.slotTo f .priming).versions with commit := .priming tag } } : State).request 1)) ∧
      (∀ b, u.buildingSlot = some b → u.slotIn .free = none →
        (bit r 223 = true → exec .commit s = .next (u.versionDone tag 0x21 8)) ∧
        (bit r 223 = false → exec .commit s = .next { u with versions := { u.versions with commit := .pending tag } }))) ∧
    (op = 0x22 → versionRecordGood r = true →
      (u.buildingSlot = none → exec .versionAbort s = .next (u.versionDone tag 0x22 6)) ∧
      (u.buildingSlot.isSome = true → exec .versionAbort s = .next
        (({ u with versions := { u.versions with aborting := some tag } } : State).request 1)))

/-- The life of the versions (table Slot states): ABORT_COMPLETE undoes the log and leaves the slot BUILDING and empty;
PRIMING_START primes for a pending commit; COMMIT_SWITCH makes BUILDING CURRENT, CURRENT DRAINING and PRIMING BUILDING; SLOT_RETIRE
takes a DRAINING slot with nothing in flight; CLEANUP_COMPLETE frees it; VERSION_CANCEL takes a pending commit back; SLOT_AUDIT and
STALE_SWEEP bound residency. Where it rests on the model's own choices: log entries 9, 67, 68. -/
def Obligations.VersionsPassOn : Prop :=
  ∀ s : State,
    (∀ tag b, s.versions.aborting = some tag → s.buildingSlot = some b →
      let u := (s.applyLog (s.slot b).log b s.currentSlot).setSlot b fun x => { x with log := [] }
      exec .abortComplete s = .next (({ u with versions := { u.versions with aborting := none } } : State).versionDone tag 0x22 0)) ∧
    (∀ tag f, s.versions.commit = .pending tag → s.slotIn .free = some f → exec .primingStart s = .next
      (({ s.slotTo f .priming with versions := { (s.slotTo f .priming).versions with commit := .priming tag } } : State).request 1)) ∧
    (∀ tag b p c, s.versions.slots.length = 3 → s.versions.commit = .priming tag → s.buildingSlot = some b → s.slotIn .priming = some p →
      c = s.currentSlot → b ≠ p → c ≠ b → c ≠ p → c < 3 → b < 3 → p < 3 →
      ∃ t, exec .commitSwitch s = .next t ∧ (t.slot b).state = .current ∧ (t.slot c).state = .draining ∧ (t.slot p).state = .building ∧
        (t.slot p).number = nextVersion (s.slot b).number ∧ (t.slot b).number = (s.slot b).number ∧ (t.slot p).log = [] ∧
        (t.slot b).log = (s.slot b).log ∧ t.versions.commit = .none ∧
        (s.dictWf = true → bit (t.obj? Obj.tableSummary) 9 = true)) ∧
    (∀ i : Slot, (s.slot i.val).state = .draining →
      ((s.slot i.val).inFlight = 0 → exec (.slotRetire i) s = .next ((s.slotTo i.val .retiring).request 1)) ∧
      ((s.slot i.val).inFlight ≠ 0 → exec (.slotRetire i) s = .next s)) ∧
    (∀ i : Slot, (s.slot i.val).state = .retiring →
      let c := s.currentSlot
      let u := (s.applyLog (s.slot c).log i.val c).setSlot c fun x => { x with log := [] }
      exec (.cleanupComplete i) s =
        .next (((u.slotTo i.val .free).setSlot i.val fun x => { x with number := 0, log := [] }).flag Obj.tableSummary 10)) ∧
    (fastOpen s → s.fenced 0x5B9 = false →
      (∀ tag, s.versions.commit = .pending tag → exec .versionCancel s = .next
        { (({ s with versions := { s.versions with commit := .none } } : State).put Obj.versionCancelResult 1).versionDone tag 0x21 0x0A
          with answer := .code 0 }) ∧
      (∀ tag, s.versions.commit = .priming tag → exec .versionCancel s =
        .next { s.put Obj.versionCancelResult 2 with answer := .code 0 }) ∧
      (s.versions.commit = .none → exec .versionCancel s = .next { s.put Obj.versionCancelResult 3 with answer := .code 0 })) ∧
    (∀ i : Slot, let x := s.slot i.val
      (x.state ≠ .draining ∨ (s.clock - x.entered) * 5 / 8 ≤ (s.obj? Obj.staleAgeMs + 2) * 1000000 ∨ x.inFlight = 0 →
        exec (.slotAudit i) s = .next s) ∧
      (x.state = .draining → (s.obj? Obj.staleAgeMs + 2) * 1000000 < (s.clock - x.entered) * 5 / 8 → x.inFlight ≠ 0 →
        let u := s.auditSlot i.val
        ((u.slot i.val).inFlight = 0 → exec (.slotAudit i) s = .next u) ∧
        ((u.slot i.val).inFlight ≠ 0 →
          let v := (({ u with frames := u.frames.map fun f => if f.stamp = some i.val then { f with stamp := none } else f } : State).setSlot
            i.val fun y => { y with inFlight := 0 }).bump32 Obj.auditsCorrected
          let unit := 0x5A0 + (v.coverOf 1).getD 1
          exec (.slotAudit i) s = .next
            (v.judge { unit := unit, checker := 3, cls := 0, access := 3, master := unit, address := i.val })))) ∧
    (∀ queue, s.ready = true → exec (.staleSweep queue) s =
      .next (s.endCopies ((s.queueCopies queue).takeWhile s.copyStale) 0x61))

/-- The upkeep of the tables: a corrupt place is restored or scrubbed from the golden image where that can be read; a rebuild of a
bucket writes its image anew; a mismatch in a shadow, its rebuild, and a bank's switch to its guests; a learn event that repeats a
live entry of the cache is suppressed, one that a full ring drops leaves the cache, and a new one is recorded in ring 0 (R183, R189,
R209, R210). Where it rests on the model's own choices: log entries 9, 62, 63, 64. -/
def Obligations.TablesAreKeptUp : Prop :=
  ∀ s : State,
    (∀ (q : Quadrant) (place : EmPlace), s.ready = true → ∀ c ∈ ([.bucketRestore q place, .scrub q place] : List Instr),
      let n := emPlaceKey place
      (s.emCorrupt q.val n = true → s.imageLost q.val n = false → exec c s =
        .next (({ s with em := { s.em with corrupt := s.em.corrupt.filter fun x => x != q.val * 2 ^ 22 + n } } : State).bump32
          (Obj.emRestored q.val))) ∧
      (s.emCorrupt q.val n = false ∨ s.imageLost q.val n = true → exec c s = .next s)) ∧
    (∀ (q : Quadrant) (bank : Fin 64) (bucket : Fin 8192),
      let base := bank.val * 32768 + bucket.val * 4
      (s.imageLost q.val base = false → exec (.bucketRebuild q bank bucket) s = .next s) ∧
      (s.imageLost q.val base = true → ∃ t, exec (.bucketRebuild q bank bucket) s = .next t ∧
        t.em.imageLost.contains (q.val * 2 ^ 22 + base) = false ∧ t.emCorrupt q.val base = false ∧
          t.relief = s.relief ∧ t.versions = s.versions)) ∧
    (∀ (q : Quadrant) (b : Fin 32), ∃ t, exec (.shadowRebuild q b) s = .next t ∧
      t.relief.suspended = s.relief.suspended.filter (fun x => x != 32 * q.val + b.val) ∧ t.relief.table = s.relief.table ∧
      t.relief.arrays = s.relief.arrays ∧ t.em = s.em ∧
      ∀ e, (e ∈ t.relief.shadows ∧ e.1 = q.val ∧ e.2.homeBank + e.2.member = b.val) →
        e ∈ s.relief.table.filterMap fun r => if r.bank = b.val then some (q.val, r) else none) ∧
    (∀ (q : Quadrant) (b : Fin 32),
      let lead := bankLead (s.bankInForce q.val b.val) b.val
      let plan := s.guestPlan q.val lead (s.shadowEntries q.val lead) true
      (s.bankLost q.val b.val = false ∨ plan = none → exec (.rehomingSwitch q b) s = .next s) ∧
      (s.bankLost q.val b.val = true → ∀ form places, plan = some (form, places) → ∃ t, exec (.rehomingSwitch q b) s = .next t ∧
        (s.dictWf = true → bit (t.obj? Obj.reliefSummary) 3 = true) ∧ t.relief.table = s.relief.table ∧
        t.relief.shadows = s.relief.shadows ∧ t.em = s.em)) ∧
    (∀ (q : Quadrant) (b : Fin 32) (position : Fin 1024),
      (s.ready = false ∨ s.relief.suspended.contains (32 * q.val + b.val) = true →
        exec (.shadowMismatch q b position) s = .next s) ∧
      (s.ready = true → s.relief.suspended.contains (32 * q.val + b.val) = false →
        let u := ((s.bump64 (Obj.shadowMismatches q.val)).count (0x148 + 8 * q.val + 7)).flag Obj.reliefSummary 0
        exec (.shadowMismatch q b position) s = .next
          ((u.judge { unit := 0x380 + 32 * q.val + b.val, checker := 2, cls := 0, access := 3,
                      master := 0x380 + 32 * q.val + b.val, address := position.val }).request 2))) ∧
    (nextLearn s.em.learns = none → exec .learnEvent s = .next s) ∧
    (∀ l, nextLearn s.em.learns = some l →
      let u : State := { s with em := { s.em with learns := s.em.learns.erase l } }
      let set := u.hash1 0 5 (field 64 l.bd + l.mac) % 1024
      let live := u.em.dedupe.find? fun e => e.set == set && e.bd == l.bd && e.mac == l.mac && u.dedupeLive e
      (∀ e, live = some e → e.port = l.port → exec .learnEvent s = .next (u.bump64 Obj.learnSuppressed)) ∧
      (∀ e, live = some e → e.port ≠ l.port → u.ringFull 0 = true → exec .learnEvent s =
        .next (u.ringPush 0 (l.record 2 e.port))) ∧
      (live = none → u.ringFull 0 = true → exec .learnEvent s =
        .next (u.ringPush 0 (if l.miss then l.record 1 0 else l.record 3 l.entryPort))) ∧
      (live = none → u.ringFull 0 = false → exec .learnEvent s = .next
        (((u.ringPush 0 (if l.miss then l.record 1 0 else l.record 3 l.entryPort)).dedupeWrite set l.bd l.mac l.port).bump64
          Obj.learnRecords)))

/-! ### Replication, capture, spill (10, 11) -/

/-- Cast (R257-R263): the head of the highest class leaves its replication queue for a walk of its group's list, ends with 0x60
where it is too old, and with 0x66 where its group is not valid; a clock reads at most 8 entries of the walks under way, each as it
then stands; an entry that is not valid is counted, one that names the frame's own port is pruned, a fabric frame takes no REMOTE
entry; a walk that has read its list and made no copy ends its frame with 0x66. SAMPLE_SEED loads every half-pipe's register. Where
it rests on the model's own choices: log entry 9. -/
def Obligations.FramesAreReplicated : Prop :=
  ∀ s : State,
    (s.ready = false ∨ s.castHead = none → exec .castWalk s = .next s) ∧
    (∀ c, s.ready = true → s.castHead = some c →
      let g := c.group.getD 0
      let e := s.groupEntry g
      (s.copyStale c = true → exec .castWalk s = .next (s.endCopy c.id 0x60)) ∧
      (s.copyStale c = false → groupValid e = false → exec .castWalk s = .next ((s.endCopy c.id 0x66).count 0x338)) ∧
      (s.copyStale c = false → groupValid e = true →
        let u := ({ s with copies := s.copies.filter fun d => d.id != c.id } : State).moveFrame c.frame (.walking (g * 2 ^ 64 + e) 0)
        exec .castWalk s = .next ((u.setFrame c.frame fun f => { f with refs := 1 }).count 0x338))) ∧
    (∀ id entry group read f, s.frame? id = some f → f.loc = .walking (group * 2 ^ 64 + entry) read → entry < 2 ^ 64 → f.id = id →
      f.walk = some { frame := id, group := group, entry := entry, read := read }) ∧
    (s.walks = [] → s.castClock = s) ∧
    (∀ w, s.walks = [w] → s.castClock = s.readEntries w (min 8 w.left)) ∧
    (∀ (w : Walk) n, s.readEntries w n =
      ((List.range n).foldl (fun t i => t.castEntry w.frame w.group (bit w.entry 62) (bits w.entry 61 42 + w.read + i)) s).setFrame
        w.frame fun f => { f with loc := .walking (w.group * 2 ^ 64 + w.entry) (w.read + n) }) ∧
    (∀ id f g prune i, s.frame? id = some f →
      let e := s.record Obj.replicationList 8 i
      (bit e 63 = false → s.castEntry id g prune i = s.bump64 Obj.castInvalidEntries) ∧
      (bit e 63 = true → bit e 62 = true → f.isRemote = true → s.castEntry id g prune i = s) ∧
      (bit e 63 = true → bit e 62 = true → f.isRemote = false → s.castEntry id g prune i = s.castRemote f g (bits e 61 48)) ∧
      (bit e 63 = true → bit e 62 = false → prune = true → f.isFront = true → bits e 47 41 = f.port →
        s.castEntry id g prune i = s.bump64 Obj.castPruned) ∧
      (bit e 63 = true → bit e 62 = false → prune = false ∨ f.isFront = false ∨ bits e 47 41 ≠ f.port →
        s.castEntry id g prune i = s.castLocal f g (bits e 47 41) (bits e 40 23))) ∧
    let ended := s.frames.find? fun f => f.walk.any fun w => w.left == 0
    (ended = none → exec .castWalkEnd s = .next s) ∧
    (∀ f, ended = some f →
      (f.copied = true → exec .castWalkEnd s = .next ((s.setFrame f.id fun x => { x with loc := .copies }).releaseRef f.id)) ∧
      (f.copied = false → exec .castWalkEnd s = .next (s.endFrame f.id 0x66))) ∧
    (fastOpen s → ∀ v : BitVec 32, exec (.sampleSeed v) s =
      .next { (s.put Obj.sampleSeed v.toNat).seedSamples v.toNat with answer := .code 0 }) ∧
    (∀ v : BitVec 32, (sampleStep v).toNat =
      (2 * v.toNat + (bits v.toNat 31 31 + bits v.toNat 21 21 + bits v.toNat 1 1 + bits v.toNat 0 0) % 2) % 2 ^ 32)

/-- Spill and DDR5 (R286-R293): SPILL_WRITE copies the staged frame that arrived first, once it is held whole, into its VOQ's bins
and frees its cells; BIN_FLUSH writes out the open bin; SPILL_RETURN takes the head bin of the first VOQ that may take one back, as
far as cells are granted. A burst of which every beat carries the check byte of its data is good; one that matches only when read
again is counted, one that never does is a fault and loses what it held; an alert is a fault. Where it rests on the model's own
choices: log entries 9, 75, 86, 115. -/
def Obligations.SpillAndDdr5 : Prop :=
  ∀ s : State,
    (let staged := s.copies.find? Copy.isStaged
     (staged = none → exec .spillWrite s = .next s) ∧
     (∀ c v f, staged = some c → c.loc = .staged v → s.frame? c.frame = some f →
        (f.complete = false ∨ s.packBin v c.id 8 (64 + f.stored) = none → exec .spillWrite s = .next s) ∧
        (∀ t, f.complete = true → s.packBin v c.id 8 (64 + f.stored) = some t →
          let u := t.setCopy c.id fun x => { x with loc := .bin v (t.firstBin c.id) }
          exec .spillWrite s = .next ((if c.cast then u else u.freeCells c.frame).add64 Obj.spillBytesWritten f.stored)))) ∧
    (∀ voq : Fin 131072,
      ((s.voqBins voq.val).find? (fun b => b.isOpen) = none → exec (.binFlush voq) s = .next s) ∧
      (∀ b, (s.voqBins voq.val).find? (fun x => x.isOpen) = some b → exec (.binFlush voq) s = .next (s.writeOut b.bin))) ∧
    (s.arm.spilled.findSome? s.returnable = none → exec .spillReturn s = .next s) ∧
    (∀ b, s.arm.spilled.findSome? s.returnable = some b →
      exec .spillReturn s = .next (s.returnBin b) ∧
      (∀ t, s.returnCopies b (s.endingIn b) = (t, []) →
        let u : State := { t with arm := { t.arm with bins := t.arm.bins.filter fun x => x.bin != b.bin } }
        s.returnBin b = u.ddr5Read (binChannel b.bin) (bursts (b.filled + 32))) ∧
      (∀ t x xs, s.returnCopies b (s.endingIn b) = (t, x :: xs) →
        (s.returnBin b).copies = t.copies ∧ ((s.returnBin b).arm.bins.map Bin.bin) = t.arm.bins.map Bin.bin)) ∧
    (∀ b x xs, s.returnCopies b [] = (s, []) ∧
      (∀ t, s.returnCopy b x = (t, true) → s.returnCopies b (x :: xs) = t.returnCopies b xs) ∧
      (∀ t, s.returnCopy b x = (t, false) → s.returnCopies b (x :: xs) = (t, x :: xs))) ∧
    (∀ a beats, burstMatches a beats = true ↔
      ∀ w ∈ beats, bits w.toNat 7 0 = crc8 (toBe 4 (bits w.toNat 39 8) ++ toBe 1 (bits a 13 6))) ∧
    (∀ (c : Channel) place (x : Ddr5Burst), s.ready = true → s.channelInUse c.val = true →
      (burstMatches x.address.toNat x.first = true → exec (.ddr5Reread c place x) s = .next s) ∧
      (burstMatches x.address.toNat x.first = false → burstMatches x.address.toNat x.second = true →
        exec (.ddr5Reread c place x) s = .next ((s.bump64 Obj.ddr5Rereads).ddr5Fault c.val 0 5 x.address.toNat)) ∧
      (∀ bin, burstMatches x.address.toNat x.first = false → burstMatches x.address.toNat x.second = false →
        let u := (s.retireBin bin).ddr5Fault c.val 1 5 x.address.toNat
        exec (.ddr5Reread c (.spillBin bin) x) s = .next
          (if u.channelRetired c.val > u.obj? Obj.channelRetireLimit && !u.fenced (0x420 + c.val)
           then u.fenceUnit (0x420 + c.val) 5 false else u))) ∧
    (∀ (c : Channel) place x, s.ready = false ∨ s.channelInUse c.val = false →
      exec (.ddr5Reread c place x) s = .next s) ∧
    (∀ c : Channel, s.boot.powered = true → exec (.ddr5Alert c) s = .next ((s.free 40).2.ddr5Fault c.val 1 6 (s.free 40).1))

/-! ### Queues, credit and shapers (12) -/

/-- VOQ_PASS (R300, R234): of the VOQs that may pass, the one that has been able to for longest passes its head frame, to a port's
egress queue or toward its device; one too old ends with 0x60. A balance is capped at the last grant while its VOQ is empty.
CREDIT_GRANT grants one quantum for the next class and source in turn. Where it rests on the model's own choices: log entries 9, 77,
116. -/
def Obligations.CreditMovesFrames : Prop :=
  ∀ s : State,
    (∀ voq : Fin 131072, let v := voq.val
      (s.ready = false ∨ s.ableVoqs.head? ≠ some v → exec (.voqPass voq) s = .next s) ∧
      (s.ready = true → s.ableVoqs.head? = some v →
        exec (.voqPass voq) s = .next (((s.noteAble.passVoq v).capCredit v).noteAble)) ∧
      (s.mayPass v = true → 0 < s.credit v ∧ (s.voqHead v).isSome = true) ∧
      (∀ c f, s.voqHead v = some (c, f) →
        (s.voqCopies v).head? = some c ∧ s.frame? c.frame = some f ∧
        (s.stale f = true → s.passVoq v = s.endCopy c.id 0x60) ∧
        (s.stale f = false →
          (∀ p, s.systemPort (v / 8) = .local p →
            s.passVoq v = (s.payCredit v f.stored).enterEgress c.id c.nextHop p f.cls) ∧
          (s.systemPort (v / 8) = .unassigned → s.mayPass v = false) ∧
          (∀ d n, s.systemPort (v / 8) = .remote d n → s.passVoq v = s.passRemote v d f c)))) ∧
    (∀ v ∈ s.ableVoqs, s.mayPass v = true) ∧ s.noteAble.queues.able = s.ableVoqs ∧
    (∀ t : State, t.queues.able = s.ableVoqs → ∀ v vs, s.ableVoqs = v :: vs → t.mayPass v = true → t.ableVoqs.head? = some v) ∧
    (Sparse.wf (fun _ => (4096 : Int)) s.queues.credit = true → Sparse.wf (fun _ => 4096) s.queues.granted = true → ∀ v n,
      (s.payCredit v n).credit v = s.credit v - n ∧ (∀ w, w ≠ v → (s.payCredit v n).credit w = s.credit w) ∧
      (s.takeGrant v n).credit v = (if s.voqEmpty v then min (s.credit v + n) n else s.credit v + n) ∧
      (s.capCredit v).credit v = (if s.voqEmpty v then min (s.credit v) (s.granted v) else s.credit v) ∧
      (s.takeGrant v n).granted v = n ∧
      (s.payCredit v n).copies = s.copies ∧ Sparse.wf (fun _ => (4096 : Int)) (s.payCredit v n).queues.credit = true ∧
      Sparse.wf (fun _ => (4096 : Int)) (s.takeGrant v n).queues.credit = true) ∧
    (∀ port : Port, let p := port.val
      (s.mayGrant p = false ∨ s.grantClass p = none → exec (.creditGrant port) s = .next s) ∧
      (∀ c d, s.mayGrant p = true → s.grantClass p = some c →
        (match Sparse.find? s.queues.lastSource (8 * p + c) with
          | some last => afterPlace (s.requesters p c) last
          | none => (s.requesters p c).head?) = some d →
        let u : State := { s with queues := { s.queues with
          lastClass := Sparse.insert s.queues.lastClass p c, lastSource := Sparse.insert s.queues.lastSource (8 * p + c) d,
          grantFrom := Sparse.set (fun _ => 0) s.queues.grantFrom p (s.clock + s.grantClocks p) } }
        let quantum := s.obj? Obj.creditQuantumBytes
        (∀ v rest, d = s.deviceId → s.localRequests p c = v :: rest → exec (.creditGrant port) s = .next (u.takeGrant v quantum)) ∧
        (d ≠ s.deviceId → exec (.creditGrant port) s =
          .next ((u.queueWord (grantWord d u.deviceId (u.systemPortOf p) c quantum)).count 0x334))) ∧
      (∀ until_, Sparse.find? s.queues.grantFrom p = some until_ → s.clock < until_ → s.mayGrant p = false))

/-- EGRESS_DECISION (R303-R308) and SHAPER_REFILL (R309): a pipe that may not decide, or with no eligible queue, is unchanged; the
next ready port's tree is walked, and its head frame is charged to the walk and released as Chisel makes it, or ends with Chisel's
code; a refill adds the committed rate's tokens, carries the rest, and caps each bucket at its burst. Where it rests on the model's
own choices: log entries 48, 59, 60. -/
def Obligations.PortsAreServed : Prop :=
  ∀ (s : State) (pipe : Pipe),
    let n := pipe.val
    (s.decides n = false ∨ 2 ≤ (s.pipe n).slotsOut ∨ s.eligiblePorts n = [] → exec (.egressDecision pipe) s = .next s) ∧
    (s.decides n = true → (s.pipe n).slotsOut < 2 → s.eligiblePorts n ≠ [] →
      let chosen := afterPlace ((s.eligiblePorts n).filter s.portReady) (s.pipe n).lastPort
      (chosen = none → exec (.egressDecision pipe) s = .next (s.useEgressSlot n 7)) ∧
      (∀ p a b q (t : State) c f, chosen = some p →
        (s.setPipe n fun x => { x with lastPort := p }).walkTree (p / 8) (p % 8) = (t, [a, b, q]) →
        (t.copiesAt (.egress (4096 * (p / 8) + (q.child - 648)))).head? = some c → t.frame? c.frame = some f →
        (t.stale f = true → exec (.egressDecision pipe) s = .next ((t.endCopy c.id 0x60).useEgressSlot n 5)) ∧
        (t.stale f = false → f.complete = true →
          let u := (t.chargeWalk (p / 8) (p % 8) [a, b, q] (t.shapedBytes p f.stored)).useEgressSlot n 0
          t.shapedBytes p f.stored = (f.stored : Int) + toInt 8 (t.obj? (Obj.shapeAdjust p)) ∧
          (∀ bytes, u.chisel f c.nextHop = .bytes bytes → exec (.egressDecision pipe) s = .next (u.release n p c f bytes)) ∧
          (∀ code, u.chisel f c.nextHop = .ends code → exec (.egressDecision pipe) s = .next (u.endAtPort p c.id code)) ∧
          (u.chisel f c.nextHop = .misuse → exec (.egressDecision pipe) s = .fault (.unbounded "UB-RW-1"))))) ∧
    (∀ p ∈ s.eligiblePorts n, ∃ j, s.queueEligible (p / 8) j = true) ∧
    (∀ g k, (s.eligible g).ports.contains k = false → s.walkTree g k = (s, [])) ∧
    (∀ (g : Group) (i : Fin 4744), exec (.shaperRefill g i) s = .next
      (s.putNode g.val i.val ((s.node g.val i.val).refill (s.ratesRecord g.val i.val) (refillInterval i.val)))) ∧
    (∀ (x : Node) (r ns : Nat), let y := x.refill r ns
      y.cir = bits r 159 128 ∧ y.pir = bits r 95 64 ∧ y.cbs = bits r 127 104 ∧ y.pbs = bits r 63 40 ∧
      y.c ≤ (y.cbs * 65536 : Nat) ∧ y.p ≤ (y.pbs * 65536 : Nat) ∧
      (x.c + (y.cir * ns * 65536 + x.carryC) / 8000000 ≤ (y.cbs * 65536 : Nat) →
        y.c = x.c + (y.cir * ns * 65536 + x.carryC) / 8000000) ∧
      y.carryC = (y.cir * ns * 65536 + x.carryC) % 8000000)

/-! ### The fabric (13) -/

/-- Lanes (R321, R322, R327, R328, R333): training leads to HELLO, a good HELLO to UP with the peer's credit, a bad one to a shown
mismatch, a changed peer or the loss of a lock to training anew, with the queued cells placed again; LINK_CREDIT adds credit, and
more than the cells sent have taken is UB-FAB-3; a REACH word replaces its block and an expiry clears it. A lane in HELLO sends 31
HELLO words to a control cell; one in UP sends its oldest data cell while it holds credit, which takes 1. Where it rests on the
model's own choices: log entries 9, 80. -/
def Obligations.FabricLanesPassOn : Prop :=
  ∀ (s : State) (lane : FabricLane), s.fabric.lanes.length = 160 →
    let l := lane.val
    let x := s.lane l
    (s.sliceOn (0x180 + l) = false → x.state = .training → ∃ t, exec (.fabricLaneTrained lane) s = .next t ∧
      t.lane l = { x with state := .hello } ∧ (∀ k, k ≠ l → t.lane k = s.lane k) ∧ t.obj = s.obj) ∧
    (s.sliceOn (0x180 + l) = true ∨ x.state ≠ .training → ∃ t, exec (.fabricLaneTrained lane) s = .next t ∧
      ∀ k, t.lane k = s.lane k) ∧
    (∀ word : BitVec 64, let w := word.toNat
      (bits w 63 60 ≠ 5 → exec (.hello lane word) s = .next s) ∧
      (bits w 63 60 = 5 → x.state = .hello → s.helloGood w = true → ∃ t, exec (.hello lane word) s = .next t ∧
        t.lane l = { x with peerDevice := bits w 59 48, peerLane := bits w 47 40, peerRole := bit w 39, state := .up,
                            credit := bits w 38 23, initial := bits w 38 23, reach := 0, mismatch := false }) ∧
      (bits w 63 60 = 5 → x.state = .hello → s.helloGood w = false → ∃ t, exec (.hello lane word) s = .next t ∧
        t.lane l = { x with peerDevice := bits w 59 48, peerLane := bits w 47 40, peerRole := bit w 39, mismatch := true }) ∧
      (bits w 63 60 = 5 → x.state = .up →
        (x.peerDevice = bits w 59 48 ∧ x.peerLane = bits w 47 40 ∧ x.peerRole = bit w 39 → exec (.hello lane word) s = .next s) ∧
        (¬ (x.peerDevice = bits w 59 48 ∧ x.peerLane = bits w 47 40 ∧ x.peerRole = bit w 39) →
          exec (.hello lane word) s = .next (s.laneDown l .training))) ∧
      (bits w 63 60 = 3 → x.state = .up → x.credit + bits w 59 44 ≤ x.initial → ∃ t, exec (.linkCredit lane word) s = .next t ∧
        t.lane l = { x with credit := x.credit + bits w 59 44 }) ∧
      (bits w 63 60 = 3 → x.state = .up → x.initial < x.credit + bits w 59 44 →
        exec (.linkCredit lane word) s = .fault (.unbounded "UB-FAB-3")) ∧
      (bits w 63 60 ≠ 3 ∨ x.state ≠ .up → exec (.linkCredit lane word) s = .next s) ∧
      (bits w 63 60 = 4 → s.elements = true → x.state = .up → bits w 59 52 < 86 →
        exec (.reach lane word) s = .next (s.setReach l (bits w 59 52) (bits w 47 0))) ∧
      (bits w 63 60 ≠ 4 ∨ s.elements = false ∨ x.state ≠ .up ∨ 86 ≤ bits w 59 52 → exec (.reach lane word) s = .next s)) ∧
    (∀ block v, block < 86 → ((s.setReach l block v).lane l).reach = putBits x.reach (48 * block + 47) (48 * block) v) ∧
    (∀ block : Fin 86, exec (.reachBlockExpiry lane block) s = .next (s.setReach l block.val 0)) ∧
    (x.state = .up ∨ x.state = .hello → exec (.fabricLaneLoss lane) s = .next (s.laneDown l .training)) ∧
    (x.state ≠ .up → x.state ≠ .hello → exec (.fabricLaneLoss lane) s = .next s) ∧
    (x.state = .up → s.dictWf = true → ∀ st, let t := s.laneDown l st
      (t.lane l).state = st ∧ (t.lane l).queue = [] ∧ t.fabric.waiting = x.queue ++ s.fabric.waiting ∧
      bit (t.obj? Obj.fabricSummary) 1 = true ∧ ∀ k, k ≠ l → t.lane k = s.lane k) ∧
    (x.state = .hello → ((s.laneSends l).lane l).sent = controlCell (List.replicate 31 (s.helloWord l)) ∧
      ((s.laneSends l).lane l).state = .hello) ∧
    (x.state = .up → let y := (s.laneSends l).lane l
      (∀ c rest, x.queue = c :: rest → x.credit ≠ 0 → y.queue = rest ∧ y.credit = x.credit - 1) ∧
      (x.queue = [] ∨ x.credit = 0 → y.queue = x.queue ∧ y.credit = x.credit))

/-- Control words and cells (R325, R330, R332, R335, R336, R339): REQUEST sets or clears its flag, GRANT adds to its VOQ's balance,
a word for another device is counted; an expired flag is cleared, a VOQ without credit asks again. A lane in UP takes cells, one in
HELLO looks for 4 control cells of identical HELLO words; a cell in sequence is passed on, one ahead waits, one behind is counted. A
cell that is open too long is formed, a waiting one is placed on the next lane, or discarded, and a gap that lasts is declared lost.
Where it rests on the model's own choices: log entries 9, 80. -/
def Obligations.FabricWordsAndCells : Prop :=
  ∀ s : State,
    (∀ word : BitVec 64, let w := word.toNat
      (bits w 63 60 = 1 → s.fabricHeld = false → bits w 59 48 = s.deviceId → ∀ p, s.systemPort (bits w 35 22) = .local p →
        let r := 2 ^ 15 * p + 2 ^ 12 * bits w 21 19 + bits w 47 36
        let others := s.queues.requests.filter fun x => x != r
        exec (.request word) s =
          .next { s with queues := { s.queues with requests := if bit w 18 then others ++ [r] else others } }) ∧
      (bits w 63 60 = 2 → s.fabricHeld = false → bits w 59 48 = s.deviceId →
        exec (.grant word) s = .next (s.takeGrant (8 * bits w 35 22 + bits w 21 19) ((bits w 18 11 + 1) * 256))) ∧
      (∀ e ∈ ([(.request word, 1), (.grant word, 2)] : List (Instr × Nat)),
        (bits w 63 60 ≠ e.2 ∨ s.fabricHeld = true → exec e.1 s = .next s) ∧
        (bits w 63 60 = e.2 → s.fabricHeld = false → bits w 59 48 ≠ s.deviceId →
          exec e.1 s = .next (s.bump64 Obj.cellsMisrouted)))) ∧
    (∀ (port : Port) (cls : TrafficClass) (device : Device),
      exec (.requestFlagExpiry port cls device) s = .next { s with queues := { s.queues with
      requests := s.queues.requests.filter fun x => x != 2 ^ 15 * port.val + 2 ^ 12 * cls.val + device.val } }) ∧
    (∀ voq : Fin 131072, exec (.requestRefresh voq) s = .next (if s.credit voq.val ≤ 0 then s.sendRequest voq.val 1 else s)) ∧
    (∀ (lane : FabricLane) (cell : List Byte), ∀ c ∈ ([.dataCell lane cell, .controlCell lane cell] : List Instr),
      ((s.lane lane.val).state ≠ .up → (s.lane lane.val).state ≠ .hello → exec c s = .next s) ∧
      ((s.lane lane.val).state = .hello → cell.length = 256 →
        let words := controlWords cell
        let w := words.headD 0
        let seen := beAt cell 0 8 == 0 && bits w 63 60 == 5 && words.all fun v => v == w
        let n := min 4 ((s.lane lane.val).hellos + 1)
        (seen = false → exec c s = .next (s.setLane lane.val fun x => { x with hellos := 0 })) ∧
        (seen = true → n < 4 → exec c s = .next (s.setLane lane.val fun x => { x with hellos := n })) ∧
        (seen = true → n = 4 → exec c s = .next ((s.setLane lane.val fun x => { x with hellos := 4 }).takeHello lane.val w))) ∧
      (s.overCredits lane.val (actingWords cell) = true → exec c s = .fault (.unbounded "UB-FAB-3")) ∧
      (s.overCredits lane.val (actingWords cell) = false → cell.length ≠ 256 → exec c s = .next s) ∧
      (s.overCredits lane.val (actingWords cell) = false → (s.lane lane.val).state = .up → cell.length = 256 →
        let h := beNat (cell.take 16)
        (bit (beNat (cell.take 1)) 7 = true →
          let u := (((s.bump64 Obj.cellsReceived).count 0x331).setLane lane.val fun x => { x with owed := x.owed + 1 }).takeWord
            lane.val (bits h 63 0)
          exec c s = .next (if bits h 126 115 = u.deviceId then u.sequenceCell h cell else u.bump64 Obj.cellsMisrouted)) ∧
        (bit (beNat (cell.take 1)) 7 = false → bits h 126 64 ≠ 0 → exec c s = .next (s.bump64 Obj.cellsMisrouted)) ∧
        (bit (beNat (cell.take 1)) 7 = false → bits h 126 64 = 0 → exec c s = .next
          ((beAt cell 8 8 :: (List.range 30).map fun i => beAt cell (16 + 8 * i) 8).foldl
            (fun (t : State) w => if (t.lane lane.val).state = .up then t.takeWord lane.val w else t) s)))) ∧
    (∀ h cell, s.fabricHeld = false →
      let src := bits h 114 103
      let ahead := (bits h 102 87 + 65536 - s.expectedSeq src) % 65536
      (ahead = 0 → s.sequenceCell h cell = (s.passCell src cell).drainReorder src 16384) ∧
      (0 < ahead → ahead < 32768 → s.fabric.reorder.length < 16384 → s.sequenceCell h cell =
        ({ s with fabric := { s.fabric with reorder := s.fabric.reorder ++ [(src, bits h 102 87, cell)] } } : State).drainReorder src
          16384) ∧
      (32768 ≤ ahead → s.sequenceCell h cell = s.bump64 Obj.cellsLate)) ∧
    (∀ (device : Device) (stream : Fin 17), let key := 32 * device.val + stream.val
      (s.openCellOf key = none → exec (.cellFillTimeout device stream) s = .next s) ∧
      (∀ c, s.openCellOf key = some c → exec (.cellFillTimeout device stream) s =
        .next (if c.payload.isEmpty then s else s.formCell key c.openFrame))) ∧
    (∀ (device : Device), let d := device.val
      let waiting := s.fabric.waiting.find? fun c => c.device == d
      (waiting = none ∨ s.nextLane d = none ∨ s.fabricHeld = true → exec (.cellPlacement device) s = .next s) ∧
      (∀ c l, waiting = some c → s.nextLane d = some l → s.fabricHeld = false →
        let u : State := { s with fabric := { s.fabric with waiting := s.fabric.waiting.erase c,
                                                            lanePointer := Sparse.set (fun _ => 0) s.fabric.lanePointer d l } }
        exec (.cellPlacement device) s = .next
          ((u.setLane l fun x => { x with queue := x.queue ++ [{ c with ends := [] }] }).endPlaced c.ends)) ∧
      (s.cellsWait d = true → s.reachable d = false → exec (.unreachableHoldExpiry device) s = .next (s.discardWaiting d)) ∧
      (s.cellsWait d = false ∨ s.reachable d = true → exec (.unreachableHoldExpiry device) s = .next s) ∧
      exec (.staleCellDiscard device) s = .next
        (if (((s.fabric.waiting.filter fun c => c.device == d).flatMap fun c => c.copies).any fun i =>
          ((s.copy? i).map s.copyStale).getD false) then s.discardWaiting d else s) ∧
      exec (.reorderTimeout device) s = .next (s.declareLost d) ∧
      ((∀ e ∈ s.fabric.reorder, e.1 ≠ d) → s.declareLost d = s))

/-! ### Keys and jobs (14) -/

/-- Keys (R359, R361): KEY_LOAD starts a load, or is BUSY while one runs; its end gives the slot its key, or a status and
CIPHER_SUMMARY [4]; KEY_ERASE zeroes a slot, ends the jobs that use it and closes the authenticated sessions under it;
KEY_CLEAR_LOAD written 0 locks unwrapped loads out. Where it rests on the model's own choices: log entry 82. -/
def Obligations.KeysAreLoadedAndErased : Prop :=
  ∀ s : State,
    (fastOpen s → s.fenced 0x5B0 = false →
      (∀ record : List Byte, record.length = 64 →
        (s.cipher.load = none → exec (.keyLoad record) s = .next { (s.startLoad record).request 4 with answer := .code 0 }) ∧
        (s.cipher.load.isSome = true → exec (.keyLoad record) s = .next { s with answer := .code 0x1B })) ∧
      (∀ v : BitVec 16, bit v.toNat 12 = false → exec (.keyErase v) s = .next
        { ((s.eraseKey (bits v.toNat 11 0)).request 4).raiseTrap 4 1 3 with answer := .code 0 }) ∧
      (∀ v : BitVec 16, bit v.toNat 12 = true →
        (bits v.toNat 11 0 < 64 → exec (.keyErase v) s = .next
          { ((s.eraseKey (4096 + bits v.toNat 11 0)).request 4).raiseTrap 4 1 3 with answer := .code 0 }) ∧
        (64 ≤ bits v.toNat 11 0 → exec (.keyErase v) s = .next { s with answer := .code 0x16 })) ∧
      exec (.keyClearLoad 0) s = .next
        { ({ s with cipher := { s.cipher with clearLocked := true } } : State).put Obj.keyClearLoad 0 with answer := .code 0 } ∧
      exec (.keyClearLoad 1) s = .next { s with answer := .code (if s.cipher.clearLocked then 0x16 else 0) }) ∧
    (∀ slot, Sparse.wf (fun _ => none) (s.cipher.keys.map fun e => (e.1, some e.2)) = true →
      (s.eraseKey slot).keyAt slot = none ∧ (∀ k, k ≠ slot → (s.eraseKey slot).keyAt k = s.keyAt k) ∧
      (∀ j ∈ (s.eraseKey slot).cipher.jobs, jobSlot (beNat j.record) = slot → j.doom.isSome = true) ∧
      (slot = 4096 + s.obj? Obj.sopKeySlot → ∀ x ∈ (s.eraseKey slot).sop.sessions, x.isOpen = true → x.auth = false)) ∧
    (s.cipher.load = none → exec .keyLoadEnd s = .next s) ∧
    (∀ b, s.cipher.load = some b →
      let u : State := { s with cipher := { s.cipher with load := none } }
      (∀ slot k, s.judgeLoad b = .ok (slot, k) →
        exec .keyLoadEnd s = .next (((u.putKey slot (some k)).put Obj.keyLoadStatus 2).bump32 Obj.keyLoads)) ∧
      (∀ status, s.judgeLoad b = .error status →
        exec .keyLoadEnd s = .next ((u.put Obj.keyLoadStatus status).flag Obj.cipherSummary 4)))

/-- Cipher jobs (R362-R366): a descriptor at TAIL of ring 9 is taken by its opcode's command, completed at once where it has a
defect or was aborted, and placed on a pipe otherwise, an EXPORT on the key store's engine (regions that overlap are UB-CIP-1); a job
that runs to its end writes what the table Job opcodes says and completes; a suspended one resumes on its pipe, or on another once its
own has freed no context for 1 µs; JOB_ABORT ends a job in progress or on the
ring. Where it rests on the model's own choices: log entries 9, 82. -/
def Obligations.CipherJobs : Prop :=
  ∀ s : State,
    (∀ e ∈ ([(.gcmEncrypt, 1), (.gcmDecrypt, 2), (.cmac, 3), (.wrap, 4), (.unwrap, 5), (.exportKey, 6)] : List (Instr × Nat)),
      (s.ready = false ∨ s.ringEmpty 9 = true ∨ 64 ≤ s.cipher.jobs.length → exec e.1 s = .next s) ∧
      (s.ready = true → s.ringEmpty 9 = false → s.cipher.jobs.length < 64 →
        let b := s.ringFront 9
        let r := beNat b
        let tag := jobTag r
        (jobOp r ≠ e.2 → 1 ≤ jobOp r → jobOp r ≤ 6 → exec e.1 s = .next s) ∧
        (jobOp r = e.2 ∨ jobOp r = 0 ∨ 6 < jobOp r →
          (s.cipher.aborted.contains tag = true →
            let t : State := { s with cipher := { s.cipher with aborted := s.cipher.aborted.erase tag } }
            exec e.1 s = .next
              (((if (t.jobDefect r).isNone then t.wipeOutput r else t).ringTake 9).jobDone (jobCompletion r 5 0 0) 5)) ∧
          (s.cipher.aborted.contains tag = false → ∀ status, s.jobDefect r = some status →
            exec e.1 s = .next ((s.ringTake 9).jobDone (jobCompletion r status 0 0) status)) ∧
          (s.cipher.aborted.contains tag = false → s.jobDefect r = none → ∀ k, s.keyAt (jobSlot r) = some k →
            (s.jobOverlaps r = true → exec e.1 s = .fault (.unbounded "UB-CIP-1")) ∧
            let place := if e.2 = 6 then some keyStoreEngine else s.jobPipe
            (s.jobOverlaps r = false → place = none → exec e.1 s = .next s) ∧
            (∀ p, s.jobOverlaps r = false → place = some p → exec e.1 s = .next ((s.ringTake 9).placeJob b k p)))))) ∧
    (∀ id, (s.cipher.jobs.find? fun j => j.id == id) = none → exec (.jobEnd id) s = .next s ∧ exec (.jobResume id) s = .next s) ∧
    (∀ id j, (s.cipher.jobs.find? fun j => j.id == id) = some j → j.doom = none →
      (j.suspended = true → exec (.jobEnd id) s = .next s) ∧
      (j.suspended = false →
        let r := beNat j.record
        let u : State := { s with cipher := { s.cipher with jobs := s.cipher.jobs.filter fun x => x.id != id } }
        exec (.jobEnd id) s = .next ((((s.jobResult j).1.foldl (fun (t : State) w => t.putJobBytes w.1 w.2) u).countJob j
          (s.jobBlocks r)).jobDone (jobCompletion r (s.jobResult j).2 (s.jobBlocks r) j.suspensions) (s.jobResult j).2))) ∧
    (∀ j, let r := beNat j.record
      (jobOp r = 3 → s.jobResult j = ([(bits r 251 232, Aes.cmac j.key.bytes (s.jobBytes (jobIn r)))], 0)) ∧
      (jobOp r = 4 → s.jobResult j = ([(bits r 271 252, Aes.wrap j.key.bytes (s.jobBytes (jobIn r)))], 0)) ∧
      (jobOp r = 2 → Aes.gcmTag j.key.bytes (slice j.record 8 12) (s.jobBytes (jobAad r)) (s.jobBytes (jobIn r)) ≠
        s.jobBytes (bits r 251 232, 16) →
        s.jobResult j = ([(bits r 271 252, List.replicate (s.jobBytes (jobIn r)).length 0)], 1))) ∧
    (∀ id j, (s.cipher.jobs.find? fun j => j.id == id && j.suspended) = some j →
      let run := fun p => (s.beginWake p).setJob j.id fun x =>
        { x with suspended := false, pipe := p, contexts := max 1 (min (jobWants (beNat j.record)) (s.freeContexts p)) }
      (s.runsJobs j.pipe = true → s.jobsMayRun j.pipe = false → exec (.jobResume id) s = .next s) ∧
      (s.runsJobs j.pipe = true → s.jobsMayRun j.pipe = true → s.freeContexts j.pipe ≠ 0 →
        exec (.jobResume id) s = .next (run j.pipe)) ∧
      (s.runsJobs j.pipe = true → s.freeContexts j.pipe = 0 → s.clock < j.since + 1600 → exec (.jobResume id) s = .next s) ∧
      (s.runsJobs j.pipe = true → s.jobsMayRun j.pipe = true → s.freeContexts j.pipe = 0 → j.since + 1600 ≤ s.clock →
        ∀ p, s.jobPipe = some p → exec (.jobResume id) s = .next ((run p).request 4)) ∧
      (s.runsJobs j.pipe = false → ∀ p, s.jobPipe = some p → exec (.jobResume id) s = .next ((run p).request 4))) ∧
    (fastOpen s → ∀ tag : BitVec 16, exec (.jobAbort tag) s = .next { s.abortJob tag.toNat with answer := .code 0 })

/-! ### Faults, fences and releases (15) -/

/-- A fault (R371-R377, R389, R390): it is handled and judged, one said to be injected only where its checker is armed, and as the
inverted check bits show it; a CORRECTED one that meets PENDING_C is CONTAINED, a CONTAINED one that meets PENDING_U FATAL, and a
consequential one does not escalate; it is counted in its unit and its final class, and the first is captured while the capture is
empty. A fault that brings no reaction touches no frame and no reset. Where it rests on the model's own choices: log entries 9, 85,
87. -/
def Obligations.FaultsAreJudged : Prop :=
  ∀ s : State,
    (∀ e : FaultEvent, s.boot.powered = true → Units.hasChecker e.unit.toNat e.checker.toNat = true → s.faultSeen e = true →
      (e.injected = false → exec (.fault e) s = .next ((s.handleData e).judge (faultReport e false))) ∧
      (∀ mask quiet, e.injected = true → s.faults.inject = some (e.unit.toNat, e.checker.toNat, mask, quiet) →
        s.obj? Obj.injectPending ≠ 0 → ∀ k, Units.check e.unit.toNat e.checker.toNat = some k →
        (injectedSyndrome k mask e.syndrome = none → exec (.fault e) s = .next s.takeInjection) ∧
        (∀ x, injectedSyndrome k mask e.syndrome = some x →
          let shown : FaultEvent := { e with syndrome := x }
          exec (.fault e) s = .next ((s.takeInjection.handleData shown).judge (faultReport shown quiet)))) ∧
      (e.injected = true → s.faults.inject = none ∨ s.obj? Obj.injectPending = 0 → exec (.fault e) s = .next s)) ∧
    (∀ e : FaultEvent, s.boot.powered = false ∨ Units.hasChecker e.unit.toNat e.checker.toNat = false ∨
      s.faultSeen e = false → exec (.fault e) s = .next s) ∧
    (∀ e : FaultEvent, (∀ c, e.syndrome = .badPointer c → s.faultSeen e = s.badPointer e.address.toNat) ∧
      ((∀ c, e.syndrome ≠ .badPointer c) → s.faultSeen e = true)) ∧
    (∀ mask seen, (mask < 256 → popCount 8 mask = 1 → injectedSyndrome .secded mask seen = some .singleBit) ∧
      (mask < 256 → popCount 8 mask = 2 → injectedSyndrome .secded mask seen = some .doubleBit) ∧
      (bit mask 0 = false → injectedSyndrome .parity mask seen = none) ∧
      (mask = 0 → injectedSyndrome .crc mask seen = none ∧ injectedSyndrome .secded mask seen = none)) ∧
    (∀ r, let cons := s.consequential r.unit r.master
      let x := s.unitSt r.unit
      (cons = true → s.finalClass r = r.cls) ∧
      (cons = false → r.cls = 0 → s.finalClass r = if x.pendingC then 1 else 0) ∧
      (cons = false → r.cls = 1 → s.finalClass r = if x.pendingU then 2 else 1) ∧
      (r.cls = 2 → s.finalClass r = 2)) ∧
    (∀ r, s.dictWf = true → s.faults.release = none → r.cls ≤ 2 →
      let t := s.judge r
      let cls := s.finalClass r
      let cons := s.consequential r.unit r.master
      (cls ≠ 2 ∨ cons = true ∨ r.quiet = true →
        t.unitSt r.unit = (s.unitSt r.unit).note cls cons ∧
        t.obj? (Obj.faultsCorrected + cls) = (s.obj? (Obj.faultsCorrected + cls) + 1) % 2 ^ 64 ∧
        bit (t.obj? Obj.faultSummary) cls = true ∧
        (cons = false → s.obj? Obj.firstErrorUnit = 0xFFFF → t.obj? Obj.firstErrorUnit = r.unit ∧ t.obj? Obj.firstErrorClass = cls) ∧
        (s.obj? Obj.firstErrorUnit ≠ 0xFFFF → t.obj? Obj.firstErrorUnit = s.obj? Obj.firstErrorUnit) ∧
        t.frames = s.frames ∧ t.copies = s.copies ∧ t.boot = s.boot)) ∧
    (∀ unit : BitVec 12,
      (s.obj? Obj.correctedAutoAckMs = 0 → exec (.correctedAutoAck unit) s = .next s) ∧
      (s.obj? Obj.correctedAutoAckMs ≠ 0 → exec (.correctedAutoAck unit) s =
        .next (s.setUnit unit.toNat fun x => { x with pendingC := false }))) ∧
    (plinthOpen s →
      (∀ v : BitVec 16, v ≠ 0xFFFF →
        ((Units.kind v.toNat).isSome = true → exec (.faultAck v) s =
          .next { s.setUnit v.toNat fun x => { x with pendingC := false, pendingU := false } with answer := .code 0 }) ∧
        ((Units.kind v.toNat) = none → exec (.faultAck v) s = .next { s with answer := .code 0x16 })) ∧
      (let acked := s.faults.units.map fun e => (e.1, { e.2 with pendingC := false, pendingU := false })
       exec (.faultAck 0xFFFF) s = .next { s with
         faults := { s.faults with units := acked.filter fun e => e.2 != UnitSt.clean }, answer := .code 0 }) ∧
      exec .firstErrorClear s = .next { s.clearFirst with answer := .code 0 } ∧
      (∀ v : BitVec 32, let u := bits v.toNat 31 20
        let c := bits v.toNat 19 16
        let n := bits v.toNat 6 0
        (Units.hasChecker u c = true → Units.noInjection u c = false → s.obj? Obj.injectPending = 0 → n ≠ 0 → exec (.inject v) s =
          .next { ({ s with faults := { s.faults with inject := some (u, c, bits v.toNat 15 8, bit v.toNat 7) } } : State).put
            Obj.injectPending n with answer := .code 0 }) ∧
        (Units.hasChecker u c = false ∨ Units.noInjection u c = true ∨ s.obj? Obj.injectPending ≠ 0 ∨ n = 0 →
          exec (.inject v) s = .next { s with answer := .code 0x16 }))) ∧
    (∀ (q : Quadrant) (ps : BitVec 32), s.faults.below.length = 4 → s.dictWf = true →
      ∃ t, exec (.timingMargin q ps) s = .next t ∧ t.obj? (Obj.timingMarginPs q.val) = ps.toNat ∧
        t.faults.below.getD q.val false = (if ps.toInt < s.obj? Obj.marginAlarmPs then true
          else if (s.obj? Obj.marginAlarmPs : Int) < ps.toInt then false else s.faults.below.getD q.val false) ∧
        t.frames = s.frames ∧ t.boot = s.boot)

/-- Fences (R379-R388): HOST_FENCE fences a unit that R381 names, and a fence marks it, logs it and has its effect once; FENCE_SWEEP
accounts what was inside; a takeover moves a group to its pipe, and lets its changed SLEEP act; GROUP_RETURN and its end bring it
home once drained; RELEASE tests a fenced unit, with or without its slice, and a good end returns it to service. Where it rests on
the model's own choices: log entries 9, 84. -/
def Obligations.FencesAndReleases : Prop :=
  ∀ s : State,
    (plinthOpen s → ∀ unit : BitVec 12, let u := unit.toNat
      (∀ t, s.hostFence u = some t → exec (.hostFence unit) s = .next { t with answer := .code 0 }) ∧
      (s.hostFence u = none → exec (.hostFence unit) s = .next { s with answer := .code 0x16 }) ∧
      (∀ e ∈ ([(.release unit, true), (.releaseWithoutSlice unit, false)] : List (Instr × Bool)),
        (u = 0x5B0 ∨ u = 0x5B1 ∨ Units.kind u = none ∨ s.faults.release.isSome = true →
          exec e.1 s = .next { s with answer := .code 0x16 }) ∧
        (u ≠ 0x5B0 → u ≠ 0x5B1 → (Units.kind u).isSome = true → s.faults.release = none →
          let asked := fun (t : State) => if 0x420 ≤ u ∧ u < 0x430 then t.request 7 else t
          (s.fenced u = false → exec e.1 s = .next { asked (s.put Obj.fenceResult 3) with answer := .code 0 }) ∧
          (s.fenced u = true →
            let r := some (u, e.2 && !(s.unitSlices u).isEmpty)
            exec e.1 s = .next { asked (({ s.sweep u with faults := { (s.sweep u).faults with release := r } } : State).put
              Obj.fenceResult 1) with answer := .code 0 })))) ∧
    (∀ u cause byHost, s.fenced u = true → s.fenceOne u cause byHost = s) ∧
    (∀ u cause byHost, s.fenced u = false → s.fenceOne u cause byHost =
      ((((s.log { kind := if byHost then 3 else 2, unit := u, reaction := 1 }).isolate u cause).fenceEffect u cause).faultTrap
        (trapCause u))) ∧
    (∀ unit : BitVec 12, let u := unit.toNat
      (s.fenced u = false → exec (.fenceSweep unit) s = .next s) ∧
      (∀ b, s.fenced u = true → Units.kind u = some (.bitmapBank b) → exec (.fenceSweep unit) s = .next
        ((s.frames.filter fun f => f.inBank b).foldl (fun (t : State) f => t.loseFrame f.id 0xD0 0xD0) s)) ∧
      (∀ p, s.fenced u = true → Units.kind u = some (.pipe p) → exec (.fenceSweep unit) s = .next
        ((s.pipeFrames p).foldl (fun (t : State) f => t.endFrame f.id (if t.groupPipe (f.port / 8) = 0xFF then 0xD0 else 0xD1)) s))) ∧
    (s.faults.takeovers = [] → exec .takeover s = .next s) ∧
    (∀ x xs, s.faults.takeovers = x :: xs →
      let c := s.copySampling (s.groupPipe x.group) x.pipe
      let u := ({ c with faults := { c.faults with takeovers := xs } } : State).put (Obj.groupPipe x.group) x.pipe
      let v := (u.setPipe x.pipe fun y => { y with waking := none }).put (Obj.sleepDepth x.pipe) 0
      let r := if x.pipe = 16 ∧ v.fn (Fn.pipeNo x.pipe) ≠ 2 then v.reachRun (Fn.pipeNo x.pipe) else v
      let w := (if r.heldFn (Fn.pipeNo x.pipe) then r else r.thawSleep [x.group]).endSlices fun n => n == x.pipe
      let ended := (w.bump32 Obj.takeovers).put Obj.lastTakeoverNs (min ((w.clock - x.started) * 5 / 8) (2 ^ 32 - 1))
      let detail := field 8 x.pipe + x.group
      let reaction := if x.neighbour then 3 else 2
      exec .takeover s = .next (((ended.log { kind := 5, unit := x.pipe, reaction := reaction, detail := detail }).startPorts
        (groupPorts x.group)).startTakeover)) ∧
    (plinthOpen s → ∀ g : Group, let p := s.groupPipe g.val
      (p ≠ g.val → p ≤ 16 → s.fn (Fn.pipeNo g.val) = 1 → (∀ t ∈ s.faults.takeovers, t.group ≠ g.val) →
        (s.faults.returns.contains g.val = false → exec (.groupReturn g) s =
          .next { s with faults := { s.faults with returns := s.faults.returns ++ [g.val] }, answer := .code 0 }) ∧
        (s.faults.returns.contains g.val = true → exec (.groupReturn g) s = .next { s with answer := .code 0 })) ∧
      (p = g.val ∨ 16 < p ∨ s.fn (Fn.pipeNo g.val) ≠ 1 ∨ (∃ t ∈ s.faults.takeovers, t.group = g.val) →
        exec (.groupReturn g) s = .next { s with answer := .code 0x16 })) ∧
    (∀ g : Group,
      (s.faults.returns.contains g.val = false ∨ s.groupDrained g.val = false → exec (.groupReturnEnd g) s = .next s) ∧
      (s.faults.returns.contains g.val = true → s.groupDrained g.val = true →
        let u : State := { s with faults := { s.faults with returns := s.faults.returns.filter fun x => x != g.val } }
        exec (.groupReturnEnd g) s = .next ((((u.put (Obj.groupPipe g.val) g.val).reachRun (Fn.pipeNo g.val)).log
          { kind := 6, unit := g.val, detail := g.val }).startPorts (groupPorts g.val)))) ∧
    (∀ passed, s.faults.release = none → exec (.releaseEnd passed) s = .next s) ∧
    (∀ u slice, s.faults.release = some (u, slice) →
      exec (.releaseEnd true) s = .next (((if slice then s.countPassed u else s).unfence u).endRelease u 2) ∧
      exec (.releaseEnd false) s = .next (if slice then s.failRelease u else (s.unfence u).endRelease u 2))

/-! ### The Kiln and the counters (16, 17) -/

/-- The Kiln (R396-R409): a tick runs the slice requested, else the next entry of the sweep, and none where ticks are held; an entry
that R400 skips is counted; a slice ends by its signature or its MISR against the golden value, or by a timeout; SLICE_REQUEST takes
a unit of a kind. Flow counters (R417-R423): a bank accepts four increments a clock and queues the rest, a flush writes a pair's
delta back, a read gives stored value and delta, a write replaces both, each with its DDR5 bursts. The Caliper freezes, restarts and
clears (R425). Where it rests on the model's own choices: log entries 9, 89, 92. -/
def Obligations.SlicesAndCounters : Prop :=
  ∀ s : State,
    (s.tickHeld = true → exec .kilnTick s = .next s) ∧
    (s.tickHeld = false → let u := s.request 6
      (∀ v, u.kiln.queued = some v →
        let w := ({ u with kiln := { u.kiln with queued := none } } : State).requestedSlice v
        exec .kilnTick s = .next (w.2.runEntry w.1.kind (some w.1) true)) ∧
      (u.kiln.queued = none → let e := sweepEntry (u.obj? Obj.sweepPosition)
        exec .kilnTick s = .next (u.advanceSweep.runEntry e.1 (u.entryOf e.1 e.2) false))) ∧
    (∀ x requested,
      (s.skips x = false → s.runEntry x.kind (some x) requested = s.startSlice x requested) ∧
      (s.skips x = true → s.runEntry x.kind (some x) requested =
        (if requested then (s.bump64 (Obj.slicesSkipped x.kind)).put Obj.sliceRequestResult 5
         else s.bump64 (Obj.slicesSkipped x.kind)))) ∧
    (∀ (which : Fin 2) result, s.kiln.running[which.val]? = none →
      exec (.sliceEnd which result) s = .next s ∧ exec (.sliceTimeout which) s = .next s) ∧
    (∀ (which : Fin 2) (r : SliceRun), s.kiln.running[which.val]? = some r →
      let golden := (s.golden r.what).getD 0
      (r.slice / 4096 = 8 → exec (.sliceEnd which (.signature true)) s = .next (s.passSlice r) ∧
        exec (.sliceEnd which (.signature false)) s = .next (s.failSlice r 2 0 0) ∧
        exec (.sliceTimeout which) s = .next (s.failSlice r 3 0 0)) ∧
      (r.slice / 4096 ≠ 8 → (∀ words,
          (misr words = golden → exec (.sliceEnd which (.responses words)) s = .next (s.passSlice r)) ∧
          (misr words ≠ golden → exec (.sliceEnd which (.responses words)) s = .next (s.failSlice r 2 (misr words) golden))) ∧
        exec (.sliceTimeout which) s = .next (s.failSlice r 3 0 golden))) ∧
    (plinthOpen s → ∀ v : BitVec 16, let k := kindUnits (v.toNat / 4096)
      let u := v.toNat % 4096
      (k.1 ≤ u → u < k.1 + k.2 → s.kiln.queued = none → (∀ r ∈ s.kiln.running, r.requested = false) → exec (.sliceRequest v) s =
        .next { ({ s with kiln := { s.kiln with queued := some v.toNat } } : State).put Obj.sliceRequestResult 1 with
          answer := .code 0 }) ∧
      (u < k.1 ∨ k.1 + k.2 ≤ u ∨ s.kiln.queued.isSome = true ∨ (∃ r ∈ s.kiln.running, r.requested = true) →
        exec (.sliceRequest v) s = .next { s with answer := .code 0x16 })) ∧
    (∀ pair : Fin 2097152, let n := pair.val
      let l := s.flowLine n
      let v := s.storedPair n
      (s.ready = false ∨ Sparse.find? s.flow n = none ∨ s.flowLost n = true → exec (.flowFlush pair) s = .next s) ∧
      (s.ready = true → (Sparse.find? s.flow n).isSome = true → s.flowLost n = false → exec (.flowFlush pair) s = .next
        ((((s.storePair n (v.1 + l.packets) (v.2 + l.octets)).putFlow n .none).ddr5Read (s.flowChannel n) 1).ddr5Write
          (s.flowChannel n) 1)) ∧
      (fastOpen s → s.flowLost n = false →
        let t := s.ddr5Read (s.flowChannel n) 1
        (s.obj? Obj.flowReadClear ≠ 1 → exec (.flowCounterRead pair 1) s = .next { t with
          answer := .completion (toBe 8 (v.1 + l.packets) ++ toBe 8 (v.2 + l.octets)) }) ∧
        (s.obj? Obj.flowReadClear = 1 → exec (.flowCounterRead pair 1) s = .next { (t.storePair n 0 0).putFlow n .none with
          answer := .completion (toBe 8 (v.1 + l.packets) ++ toBe 8 (v.2 + l.octets)) }) ∧
        (∀ packets octets : BitVec 64, exec (.flowCounterWrite pair packets octets) s = .next
          { ((s.storePair n packets.toNat octets.toNat).putFlow n .none).ddr5Write (s.flowChannel n) 1 with answer := .code 0 }))) ∧
    (∀ pair packets octets,
      (s.flowServed.contains (pair % 2097152) = true ∨
        (s.flowMayAccept (pair % 2097152) = true ∧ s.flowQueue (pair % 2097152) = []) →
        s.flowInc pair packets octets = s.flowServe (pair % 2097152) packets octets) ∧
      (s.flowServed.contains (pair % 2097152) = false →
        s.flowMayAccept (pair % 2097152) = false ∨ s.flowQueue (pair % 2097152) ≠ [] →
        s.flowInc pair packets octets = s.flowWait (pair % 2097152) packets octets) ∧
      (s.flowLost pair = true → s.flowAccept pair packets octets = (s.bump64 Obj.flowIncrementsLost).flag Obj.counterSummary 1)) ∧
    (∀ c n, s.boot = (s.ddr5Read c n).boot ∧ ((s.ddr5Read c n).arm.reading.contains c = true) ∧
      (s.ddr5Write c n).arm.reading.contains c = false ∧
      s.ddr5Write c n = (({ s with arm := { s.arm with reading := s.arm.reading.filter fun x => x != c } } : State).countN
        (0x1A0 + c) n).countN (0x1B0 + c) (b2n (s.arm.reading.contains c))) ∧
    (fastOpen s →
      (s.obj? Obj.caliperFreeze ≠ 1 → exec .caliperFreeze s = .next
        { (s.put Obj.caliperFreeze 1).put Obj.caliperFrozenAt s.time with answer := .code 0 }) ∧
      (s.obj? Obj.caliperFreeze = 1 → exec .caliperFreeze s = .next { s with answer := .code 0 }) ∧
      exec .caliperRestart s = .next { s.put Obj.caliperFreeze 0 with answer := .code 0 } ∧
      exec .caliperClearAll s = .next { s.caliperClear with answer := .code 0 } ∧
      (s.dictWf = true → (∀ e, e < 1024 → s.caliperClear.record Obj.caliperEvents 8 e = 0) ∧ s.caliperClear.obj = s.obj))

/-! ### The Atelier (18) -/

/-- The Atelier (R429-R444): a word's command runs the word only where its sequencer stands at one of its sequence code; CONTINUE,
JUMP, a branch, CALL, RETURN and WAIT go where R435 says, and an address at or above WORD_COUNT is a fault; the ALU gives R436's
results; a dispatch takes the next request, END ends the routine, a trap saves and its return restores the state; a reload verifies,
releases and loads its sequencers one by one. Where it rests on the model's own choices: log entries 9, 93, 94, 95, 96. -/
def Obligations.SequencersWork : Prop :=
  ∀ (s : State) (x : Sequencer),
    let n := x.val
    let w := s.seqWord n
    let u := s.runOps n w
    let next := s.pcNext n
    (∀ e ∈ ([(.continueWord x, 0), (.jumpWord x, 1), (.branchSet x, 2), (.branchClear x, 3), (.callWord x, 4), (.returnWord x, 5),
        (.waitWord x, 6), (.checkpoint x, 7), (.endRoutine x, 8), (.trapReturn x, 9)] : List (Instr × Nat)),
      s.atWord n e.2 = false → exec e.1 s = .next s) ∧
    (s.atWord n 0 = true → exec (.continueWord x) s = .next (u.goto n next)) ∧
    (s.atWord n 1 = true → exec (.jumpWord x) s = .next (u.goto n (bits w 132 119))) ∧
    (∀ c t, u.condition n (bits w 137 133) = (c, t) →
      (s.atWord n 2 = true → exec (.branchSet x) s = .next (t.goto n (if c = true then bits w 132 119 else next))) ∧
      (s.atWord n 3 = true → exec (.branchClear x) s = .next (t.goto n (if c = false then bits w 132 119 else next))) ∧
      (s.atWord n 6 = true → (s.seq n).waiting = false → exec (.waitWord x) s =
        .next (if c then t.goto n next else t.setSeq n fun q => { q with waiting := true }))) ∧
    (s.atWord n 4 = true → exec (.callWord x) s = .next ((u.setSeq n fun q => q.setReg 15 (next % 16384)).goto n (bits w 132 119))) ∧
    (s.atWord n 5 = true → exec (.returnWord x) s = .next (u.goto n (bits ((u.seq n).reg 15) 13 0))) ∧
    (s.atelier.seqs.length = 8 → ∀ a, a < 16384 →
      (a < (s.seq n).store.length → ((s.goto n a).seq n).pc.toNat = a ∧ (s.goto n a).obj = s.obj) ∧
      ((s.seq n).store.length ≤ a → s.goto n a = (s.setSeq n fun q => { q with pc := BitVec.ofNat 14 a, waiting := false }).judge
        { unit := 0x5A0 + n, checker := 2, cls := 2, access := 12, master := 0x5A0 + n, address := 0 })) ∧
    (∀ a b, a < 2 ^ 64 → b < 2 ^ 64 →
      (alu 2 a b).result = some ((a + b) % 2 ^ 64) ∧ (alu 2 a b).carry = some (decide (2 ^ 64 ≤ a + b)) ∧
      (alu 3 a b).result = some ((a + 2 ^ 64 - b) % 2 ^ 64) ∧ (alu 4 a b).result = some (Nat.land a b) ∧
      (alu 5 a b).result = some (Nat.lor a b) ∧ (alu 8 a b).result = some (a / 2 ^ (b % 64)) ∧
      (alu 16 a b).result = some (a * b % 2 ^ 64) ∧ (alu 10 a b).write = false) ∧
    (∀ k, s.ready = true → s.inService n = true → (s.seq n).running = none → (s.seq n).level = 0 → (s.seq n).nextTrap = none →
      (s.dispatchQueue n = none → exec (.routineDispatch x) s = .next s) ∧
      (s.dispatchQueue n = some k → exec (.routineDispatch x) s = .next
        ((s.setSeq k fun y => { y with queue := y.queue.drop 1 }).setSeq n fun y => y.enter k ((s.seq k).queue.headD none)))) ∧
    (s.atWord n 7 = true → let t := u.goto n next
      (∀ k, (t.seq n).running = some k → (t.seq n).level = 0 → t.servedQueues n = [n] → k = n →
        exec (.checkpoint x) s = .next (t.setSeq n fun q => { q with checkpoint := some (q.saved q.pc) })) ∧
      ((t.seq n).running = none ∨ (t.seq n).level ≠ 0 → exec (.checkpoint x) s = .next t)) ∧
    (s.atWord n 8 = true → let t := u.bump64 (Obj.seqRoutines n)
      exec (.endRoutine x) s = .next (t.setSeq n fun q => { q with
        running := none, checkpoint := none, level := 0, frames := [none, none], waiting := false, noTrap := false,
        turn := t.turnAfter n ((u.seq n).running.getD n) })) ∧
    (∀ trap, s.ready = true → s.seqWorks n = true → (s.seq n).nextTrap = some trap → exec (.microTrap x) s =
      .next ((s.count (0x1C8 + n)).setSeq n fun q => { q with
        frames := modifyAt q.frames (trap.level - 1) fun _ => some (q.saved q.pc), traps := q.traps.erase trap, level := trap.level,
        pc := BitVec.ofNat 14 (64 + 8 * (trap.level - 1) + trap.cause), waiting := false })) ∧
    ((s.seq n).nextTrap = none → exec (.microTrap x) s = .next s) ∧
    (∀ f, s.atWord n 9 = true → (u.seq n).level ≠ 0 → (u.seq n).frames.getD ((u.seq n).level - 1) none = some f →
      exec (.trapReturn x) s = .next (u.setSeq n fun q => { q.resumed f with
        frames := modifyAt q.frames ((u.seq n).level - 1) fun _ => none })) ∧
    (fastOpen s →
      (s.mayReload = false → exec .reloadStartImage s = .next { s with answer := .code 0x16 } ∧
        exec .reloadStartHold s = .next { s with answer := .code 0x16 }) ∧
      (s.mayReload = true →
        exec .reloadStartImage s = .next { (s.startReload s.reloadImage false).request 7 with answer := .code 0 } ∧
        exec .reloadStartHold s = .next { (s.startReload s.atelier.hold true).request 7 with answer := .code 0 })) ∧
    (∀ good, let image := s.atelier.staging
      (s.verifying = false ∨ s.atelier.flashRead = true → exec (.reloadVerified good) s = .next s) ∧
      (s.verifying = true → s.atelier.flashRead = false → s.kiln.retry = false →
        let v := s.reloadVerdict image good
        (v ≠ 2 → exec (.reloadVerified good) s = .next (s.endReload v)) ∧
        (v = 2 → exec (.reloadVerified good) s =
          .next (({ s with atelier := { s.atelier with staging := image } } : State).put Obj.reloadStatus 2).reloadNext))) ∧
    (∀ image good, s.verifying = true → s.atelier.flashRead = true → exec (.flashRereadEnd image good) s =
      .next (({ s with atelier := { s.atelier with flashRead := false } } : State).judgeReload (image.take 393216) good)) ∧
    (∀ k, ((List.range 8).find? fun i => (s.seq i).service == .releasing) = some k → (s.seq k).atCheckpoint = true →
      exec .sequencerRelease s = .next ((s.passWork k).setSeq k fun q =>
        { q with service := if s.kindOn 9 (0x5A0 + k) then .underTest else .loading })) ∧
    (∀ k, ((List.range 8).find? fun i => (s.seq i).service == .loading) = some k →
      let image := s.atelier.staging
      let t := s.setSeq k fun q => { q with store := imageStore image, service := .inService, loadRetried := false }
      exec (.sequencerLoaded true) s = .next
        ((({ t with atelier := { t.atelier with loaded := t.atelier.loaded ++ [k] } } : State).put (Obj.seqImageLevel k)
          (imageLevel image)).reloadNext))

/-! ### Timing, the board and the test access port (19) -/

/-- Pins and the board (R455, R466-R472): an edge on PPS_IN is stamped and counted unless it follows too soon; PPS_OUT rises once
for each second's instant, also where the timebase steps forward past one, and falls at its width; a time-of-day message follows
(none while the pins are held low), and one received is taken or counted bad; SMBus reads give their object least significant byte
first or a NACK; PERST_N, TRST_N and the reference clocks are as the pins; an EXTEST while a function is not OFF is UB-PIN-2. Where
it rests on the model's own choices: log entries 97, 98, 99. -/
def Obligations.PinsAndBoard : Prop :=
  ∀ s : State, s.boot.powered = true →
    ((∀ c, s.timing.lastIn = some c → 100000 * 8 ≤ (s.clock - c) * 5) → exec .ppsInEdge s = .next
      ((({ s with timing := { s.timing with lastIn := some s.clock } } : State).put Obj.ppsInTime
        (ofInt 64 (s.timebaseNow - toInt 32 (s.obj? Obj.ppsInDelayNs)))).wrap32 Obj.ppsInCount)) ∧
    (∀ c, s.timing.lastIn = some c → (s.clock - c) * 5 < 100000 * 8 → exec .ppsInEdge s = .next s) ∧
    (let k := (s.timebaseNow - toInt 32 (s.obj? Obj.ppsOutOffsetNs)) / 1000000000
     let based : State := { s with timing := { s.timing with base := k } }
     (s.obj? Obj.ppsOutEnable = 1 → s.timing.base < k → (∀ l, s.timing.lastPulse = some l → l < k) → exec .ppsOutEdge s = .next
        { based with timing := { s.timing with
          base := k, ppsOut := true, lastPulse := some k, lastEdge := s.timebaseNow, todDue := s.pinColumn == .running } }) ∧
     (s.obj? Obj.ppsOutEnable ≠ 1 ∨ k ≤ s.timing.base ∨ (∃ l, s.timing.lastPulse = some l ∧ k ≤ l) →
        exec .ppsOutEdge s = .next based)) ∧
    (∀ ns : Int, let t : State := { s with timebase := s.timebase + ns }
      (0 < ns → exec (.timebaseStep ns) s = exec .ppsOutEdge t) ∧
      (ns ≤ 0 → exec (.timebaseStep ns) s = .next t.ppsBase ∧ t.ppsBase.timing.ppsOut = s.timing.ppsOut)) ∧
    (exec .ppsOutWidthExpiry s = .next { s with timing := { s.timing with ppsOut := false } }) ∧
    (s.timing.todDue = false → exec .todTxStart s = .next s) ∧
    (s.timing.todDue = true →
      (s.obj? Obj.todTxEnable = 1 → s.pinColumn = .running → exec .todTxStart s = .next { s with timing := { s.timing with
        todDue := false, sent := todMessage (s.obj? Obj.todTxFlags) (ofInt 64 s.timing.lastEdge) } }) ∧
      (s.obj? Obj.todTxEnable ≠ 1 ∨ s.pinColumn ≠ .running →
        exec .todTxStart s = .next { s with timing := { s.timing with todDue := false } })) ∧
    (∀ m : List Byte,
      (m.length = 16 → beAt m 0 2 = 0x5A56 → beAt m 15 1 = crc8 (m.take 15) → exec (.todMessageReceived m) s =
        .next ((s.put Obj.todRxLast (beNat m)).wrap32 Obj.todRxCount)) ∧
      (m.length ≠ 16 ∨ beAt m 0 2 ≠ 0x5A56 ∨ beAt m 15 1 ≠ crc8 (m.take 15) → exec (.todMessageReceived m) s =
        .next (s.bump32 Obj.todRxErrors))) ∧
    (∀ e ∈ ([(.smbusReadBootState, 1, 1, s.obj? Obj.bootState), (.smbusReadDieTemp, 16, 4, s.obj? Obj.dieTemp),
        (.smbusReadTempAlarm, 17, 4, s.obj? Obj.tempAlarm), (.smbusReadRailStatus, 18, 4, s.railStatus)] :
          List (Instr × Nat × Nat × Nat)),
      (s.boot.fuses ≠ 0 → s.boot.fuses ≠ 4 → exec e.1 s = .next { s with
        answer := .smbus (toLe e.2.2.1 e.2.2.2) (s.smbusReadPec e.2.1 (toLe e.2.2.1 e.2.2.2)) }) ∧
      (s.boot.fuses = 0 ∨ s.boot.fuses = 4 → exec e.1 s = .next { s with answer := .nack })) ∧
    (exec .smbusReadLifeState s = .next { s with
      answer := .smbus (toLe 1 s.boot.fuses) (s.smbusReadPec 2 (toLe 1 s.boot.fuses)) }) ∧
    (∀ (rail : Fin 7) (mv : BitVec 16), exec (.smbusReadRailVoltage rail mv) s = .next { s with
      answer := .smbus (toLe 2 mv.toNat) (s.smbusReadPec (0x20 + rail.val) (toLe 2 mv.toNat)) }) ∧
    (∀ (v : List Byte) (pec : Option Byte),
      (∀ c, pec = some c → c.toNat ≠ s.smbusWritePec 17 v → exec (.smbusWriteTempAlarm v pec) s = .next s) ∧
      ((∀ c, pec = some c → c.toNat = s.smbusWritePec 17 v) →
        (v.length = 4 → s.boot.fuses ≠ 0 → s.boot.fuses ≠ 4 → exec (.smbusWriteTempAlarm v pec) s =
          .next { s.put Obj.tempAlarm (leNat v) with answer := .none }) ∧
        (v.length ≠ 4 ∨ s.boot.fuses = 0 ∨ s.boot.fuses = 4 →
          exec (.smbusWriteTempAlarm v pec) s = .next { s with answer := .nack }))) ∧
    (exec .perstNLow s = .next { s with pins := { s.pins with perstN := false } }) ∧
    (exec .perstNRise s = .next { s with pins := { s.pins with perstN := true } }) ∧
    (exec .trstNLow s = .next { s with pins := { s.pins with trstN := false, tap := .testLogicReset } }) ∧
    (∀ e ∈ ([(.extestPulse, .extestPulse), (.extestTrain, .extestTrain)] : List (Instr × Tap)),
      (s.boot.fuses = 4 → exec e.1 s = .next s) ∧
      (s.boot.fuses ≠ 4 → (∃ n ∈ Fn.numbers, s.fn n ≠ 0) → exec e.1 s = .fault (.unbounded "UB-PIN-2")) ∧
      (s.boot.fuses ≠ 4 → (∀ n ∈ Fn.numbers, s.fn n = 0) → exec e.1 s =
        .next { s with pins := { s.pins with trstN := true, tap := e.2 } })) ∧
    (∀ c : Fin 8, s.dictWf = true →
      (∃ t, exec (.sdRefclkLoss c) s = .next t ∧ bit (t.obj? Obj.clockStatus) (8 + c.val) = false ∧
        bit t.pins.sdLost.toNat c.val = true) ∧
      (∃ t, exec (.sdRefclkReturn c) s = .next t ∧ bit (t.obj? Obj.clockStatus) (8 + c.val) = true ∧
        bit t.pins.sdLost.toNat c.val = false)) ∧
    (∀ v : BitVec 32, exec (.dieTempUpdate v) s = .next (s.put Obj.dieTemp v.toNat))
end

