-- ==== Sys2Proof/Laws/Access.lean ====
section
/-! SUPPORT. What a host write of one object comes to, once it passes the checks of the table SOP check order. -/

namespace Sys2Proof.Laws

open Sys2Proof.Machine Sys2Proof.Safety

theorem toLe_length (n v : Nat) : (toLe n v).length = n := by
  induction n generalizing v with
  | zero => rfl
  | succ n ih => simp [toLe, ih]

theorem toBe_length (n v : Nat) : (toBe n v).length = n := by simp [toBe, toLe_length]

theorem leNat_toLe {n v : Nat} (h : v < 256 ^ n) : leNat (toLe n v) = v := by
  induction n generalizing v with
  | zero => simp [toLe, leNat] at *; omega
  | succ n ih =>
    have : leNat (toLe (n + 1) v) = 256 * leNat (toLe n (v / 256)) + v % 256 := by simp [toLe, leNat]
    rw [this, ih (by rw [Nat.pow_succ] at h; omega)]
    omega

theorem beNat_reverse (b : List Byte) : beNat b.reverse = leNat b := by simp [beNat, leNat]

theorem beNat_toBe {n v : Nat} (h : v < 256 ^ n) : beNat (toBe n v) = v := by rw [toBe, beNat_reverse, leNat_toLe h]

/-- A host write that every check of the access lets through, and that its rule takes, is that rule's effect and answers 0. -/
theorem hostWrite_next {s t : State} {f : Family} {key v : Nat} (hp : s.boot.powered = true)
    (ho : object? (key / 256) (key % 256) = .ok f) (hf : Dict.find (key / 256) (key % 256) = some f)
    (hl : s.lifeAllows (key / 256) = true) (hk : ∀ b, s.kindRefuses f key (.write b) = none) (hty : f.ty ≠ .domain)
    (hv : v < 256 ^ f.size) (hc : f.check.takes v = true)
    (hpl : ∀ b, s.placeRefuses f (key / 256) (key % 256) (.write b) = none)
    (hs : ∀ b, (s.slowAccess (.write b) (key / 256) (key % 256) && s.slowFull) = false)
    (hw : (s.wakeFor (key / 256)).writeObject f key v none = .ok (.next t)) :
    s.hostWrite key v = .next { t with answer := .code 0 } := by
  have hkey : Dict.key (key / 256) (key % 256) = key := by simp only [Dict.key]; omega
  have hsh : s.shapeRefuses f (key / 256) (key % 256) (.write (toBe f.size v)) = none := by
    simp [State.shapeRefuses, hty, toBe_length]
  have hva : valueRefuses f (.write (toBe f.size v)) = none := by simp [valueRefuses, beNat_toBe hv, hc]
  have ha : s.admits (.write (toBe f.size v)) (key / 256) (key % 256) = .ok f := by
    simp [State.admits, ho, hl, hkey, hk, hsh, hva, hpl]
  simp only [State.hostWrite, State.hostWriteBytes, hf, hp, Option.map_some, Option.getD_some, State.serveNow, ha, hs, Bool.not_true,
    if_false, Bool.false_eq_true, State.serve, writesCopyView, Bool.false_and, hkey, beNat_toBe hv, hw, State.outcomeOf, answering]

/-- The object of an index and a sub-index other than 0x00. -/
theorem object?_of_find {i j : Nat} {f : Family} (h : Dict.find i j = some f) (h1 : Dict.highest i ≠ 0) (hj : j ≠ 0) :
    object? i j = .ok f := by
  simp [object?, h, h1, hj]

/-- An object that the Plinth holds in every state takes a host write once its rule takes the value. -/
theorem hostWrite_plinth {s t : State} {f : Family} {key i j v : Nat} (hs : plinthOpen s) (hkey : key = Dict.key i j)
    (hj : 0 < j ∧ j < 256) (hf : Dict.find i j = some f) (h1 : Dict.highest i ≠ 0) (ha : f.access = .rw ∨ f.access = .wo)
    (hty : f.ty ≠ .domain) (hp : plinthHolds i j = true) (hr : isRequest i = false) (hi : pipeOfIndex i = none)
    (hv : v < 256 ^ f.size) (hc : f.check.takes v = true) (hw : s.writeObject f key v none = .ok (.next t)) :
    s.hostWrite key v = .next { t with answer := .code 0 } := by
  have e1 : key / 256 = i := by rw [hkey, Dict.key]; omega
  have e2 : key % 256 = j := by rw [hkey, Dict.key]; omega
  have hin : s.inPlinth f i j = true := by simp [State.inPlinth, hp]
  refine hostWrite_next hs.1 (f := f) ?_ ?_ ?_ ?_ hty hv hc ?_ ?_ ?_ <;> (try simp only [e1, e2])
  · exact object?_of_find hf h1 (by omega)
  · exact hf
  · simp [State.lifeAllows, hs.2]
  · intro b; rcases ha with ha | ha <;> simp [State.kindRefuses, ha, Op.writes]
  · intro b; simp [State.placeRefuses, hin, hr]
  · intro b; simp [State.slowAccess, Op.regional, object?_of_find hf h1 (by omega), hin, hr]
  · simpa [State.wakeFor, hi] using hw

/-- An object of a fast domain takes a host write while the domain runs, its unit is not fenced, and its block is on. -/
theorem hostWrite_fast {s t : State} {f : Family} {key i j v : Nat} (hs : fastOpen s) (hkey : key = Dict.key i j)
    (hj : 0 < j ∧ j < 256) (hf : Dict.find i j = some f) (h1 : Dict.highest i ≠ 0) (ha : f.access = .rw ∨ f.access = .wo)
    (hty : f.ty ≠ .domain) (hr : isRequest i = false) (hu : ∀ b, s.holderFenced i j (.write b) = false)
    (hb : s.blockOff i = false) (hv : v < 256 ^ f.size) (hc : f.check.takes v = true)
    (hw : (s.wakeFor i).writeObject f key v none = .ok (.next t)) :
    s.hostWrite key v = .next { t with answer := .code 0 } := by
  have e1 : key / 256 = i := by rw [hkey, Dict.key]; omega
  have e2 : key % 256 = j := by rw [hkey, Dict.key]; omega
  obtain ⟨⟨h2, h3⟩, h4, h5, h6⟩ := hs
  refine hostWrite_next h2 (f := f) ?_ ?_ ?_ ?_ hty hv hc ?_ ?_ ?_ <;> (try simp only [e1, e2])
  · exact object?_of_find hf h1 (by omega)
  · exact hf
  · simp [State.lifeAllows, h3]
  · intro b; rcases ha with ha | ha <;> simp [State.kindRefuses, ha, Op.writes]
  · intro b
    simp [State.placeRefuses, hr, h4, h5, hb, hu b]
  · intro b
    have : s.slowFull = false := by
      have := List.length_filter_le (fun x => x.atelier) s.sop.slow
      simp only [State.slowFull, decide_eq_false_iff_not]
      omega
    simp [this]
  · exact hw

end Sys2Proof.Laws
end

