-- ==== Sys2Proof/Laws/Sparse.lean ====
section
/-! SUPPORT. Sparse maps: reading after writing, and the canonical form, which every operation keeps. -/

namespace Sys2Proof.Laws

open Sys2Proof.Machine

variable {α : Type}

/-- A canonical map lists no key below its lower bound. -/
theorem sparse_find?_low [DecidableEq α] {d : Nat → α} {m : List (Nat × α)} {low i : Nat}
    (h : Sparse.wfFrom d low m = true) (hi : i < low) : Sparse.find? m i = none := by
  induction m generalizing low with
  | nil => rfl
  | cons e m ih =>
    obtain ⟨k, v⟩ := e
    simp only [Sparse.wfFrom, Bool.and_eq_true, decide_eq_true_eq] at h
    have : i ≠ k := by omega
    simp only [Sparse.find?, this, if_false]
    exact ih h.2 (by omega)

/-- A lower bound may be lowered. -/
theorem sparse_wfFrom_mono [DecidableEq α] {d : Nat → α} {m : List (Nat × α)} {low low' : Nat}
    (h : Sparse.wfFrom d low m = true) (hl : low' ≤ low) : Sparse.wfFrom d low' m = true := by
  cases m with
  | nil => rfl
  | cons e m =>
    obtain ⟨k, v⟩ := e
    simp only [Sparse.wfFrom, Bool.and_eq_true, decide_eq_true_eq] at h ⊢
    exact ⟨⟨by omega, h.1.2⟩, h.2⟩

theorem sparse_insert_wfFrom [DecidableEq α] {d : Nat → α} {m : List (Nat × α)} {low i : Nat} {x : α}
    (h : Sparse.wfFrom d low m = true) (hl : low ≤ i) (hx : x ≠ d i) :
    Sparse.wfFrom d low (Sparse.insert m i x) = true := by
  induction m generalizing low with
  | nil => simp [Sparse.insert, Sparse.wfFrom, hl, hx]
  | cons e m ih =>
    obtain ⟨k, v⟩ := e
    simp only [Sparse.wfFrom, Bool.and_eq_true, decide_eq_true_eq] at h
    unfold Sparse.insert
    split
    · rename_i hk
      simp only [Sparse.wfFrom, Bool.and_eq_true, decide_eq_true_eq]
      exact ⟨h.1, ih h.2 (by omega)⟩
    · split
      · rename_i hk
        subst hk
        simp only [Sparse.wfFrom, Bool.and_eq_true, decide_eq_true_eq]
        exact ⟨⟨hl, hx⟩, h.2⟩
      · simp only [Sparse.wfFrom, Bool.and_eq_true, decide_eq_true_eq]
        exact ⟨⟨hl, hx⟩, ⟨by omega, h.1.2⟩, h.2⟩

theorem sparse_erase_wfFrom [DecidableEq α] {d : Nat → α} {m : List (Nat × α)} {low i : Nat}
    (h : Sparse.wfFrom d low m = true) : Sparse.wfFrom d low (Sparse.erase m i) = true := by
  induction m generalizing low with
  | nil => rfl
  | cons e m ih =>
    obtain ⟨k, v⟩ := e
    have h' := h
    simp only [Sparse.wfFrom, Bool.and_eq_true, decide_eq_true_eq] at h
    unfold Sparse.erase
    split
    · simp only [Sparse.wfFrom, Bool.and_eq_true, decide_eq_true_eq]
      exact ⟨h.1, ih h.2⟩
    · split
      · exact sparse_wfFrom_mono h.2 (by omega)
      · exact h'

/-- Setting a value keeps the canonical form. -/
theorem sparse_set_wf [DecidableEq α] {d : Nat → α} {m : List (Nat × α)} {i : Nat} {x : α}
    (h : Sparse.wf d m = true) : Sparse.wf d (Sparse.set d m i x) = true := by
  unfold Sparse.set
  split
  · exact sparse_erase_wfFrom h
  · rename_i hx
    exact sparse_insert_wfFrom h (Nat.zero_le i) hx

/-- Setting values at consecutive keys keeps the canonical form. -/
theorem sparse_setN_wf [DecidableEq α] {d : Nat → α} {m : List (Nat × α)} {i : Nat} {xs : List α}
    (h : Sparse.wf d m = true) : Sparse.wf d (Sparse.setN d m i xs) = true := by
  induction xs generalizing m i with
  | nil => exact h
  | cons x xs ih => exact ih (sparse_set_wf h)

/-- Leaving entries out keeps the canonical form. -/
theorem sparse_filter_wfFrom [DecidableEq α] {d : Nat → α} {m : List (Nat × α)} {low : Nat} {p : Nat × α → Bool}
    (h : Sparse.wfFrom d low m = true) : Sparse.wfFrom d low (m.filter p) = true := by
  induction m generalizing low with
  | nil => rfl
  | cons e m ih =>
    obtain ⟨k, v⟩ := e
    simp only [Sparse.wfFrom, Bool.and_eq_true, decide_eq_true_eq] at h
    rw [List.filter_cons]
    split
    · simp only [Sparse.wfFrom, Bool.and_eq_true, decide_eq_true_eq]
      exact ⟨h.1, ih h.2⟩
    · exact sparse_wfFrom_mono (ih h.2) (by omega)

theorem sparse_filter_wf [DecidableEq α] {d : Nat → α} {m : List (Nat × α)} {p : Nat × α → Bool}
    (h : Sparse.wf d m = true) : Sparse.wf d (m.filter p) = true := sparse_filter_wfFrom h

theorem sparse_find?_insert {m : List (Nat × α)} {i j : Nat} {x : α} :
    Sparse.find? (Sparse.insert m i x) j = if j = i then some x else Sparse.find? m j := by
  induction m with
  | nil => simp [Sparse.insert, Sparse.find?]
  | cons e m ih =>
    obtain ⟨k, v⟩ := e
    unfold Sparse.insert
    split
    · simp only [Sparse.find?, ih]
      split <;> split <;> first | rfl | omega
    · split
      · rename_i hk
        subst hk
        simp only [Sparse.find?]
        split <;> rfl
      · simp only [Sparse.find?]

theorem sparse_find?_erase [DecidableEq α] {d : Nat → α} {m : List (Nat × α)} {low i j : Nat}
    (h : Sparse.wfFrom d low m = true) :
    Sparse.find? (Sparse.erase m i) j = if j = i then none else Sparse.find? m j := by
  induction m generalizing low with
  | nil => simp [Sparse.erase, Sparse.find?]
  | cons e m ih =>
    obtain ⟨k, v⟩ := e
    simp only [Sparse.wfFrom, Bool.and_eq_true, decide_eq_true_eq] at h
    unfold Sparse.erase
    split
    · simp only [Sparse.find?, ih h.2]
      split <;> split <;> first | rfl | omega
    · split
      · rename_i hk
        subst hk
        split
        · rename_i hj
          subst hj
          exact sparse_find?_low h.2 (by omega)
        · rename_i hj
          simp only [Sparse.find?, hj, if_false]
      · rename_i h1 h2
        split
        · rename_i hj
          subst hj
          have : j ≠ k := by omega
          simp only [Sparse.find?, this, if_false]
          exact sparse_find?_low h.2 (by omega)
        · rfl

/-- What a canonical map reads after a set. -/
theorem sparse_get_set [DecidableEq α] {d : Nat → α} {m : List (Nat × α)} {i j : Nat} {x : α}
    (h : Sparse.wf d m = true) :
    Sparse.get d (Sparse.set d m i x) j = if j = i then x else Sparse.get d m j := by
  unfold Sparse.get Sparse.set
  split
  · rename_i hx
    rw [sparse_find?_erase h]
    split
    · rename_i hj
      subst hj
      simp [hx]
    · rfl
  · rw [sparse_find?_insert]
    split <;> rfl

/-- A set leaves what every other key reads as. -/
theorem sparse_get_set_ne [DecidableEq α] {d : Nat → α} {m : List (Nat × α)} {i j : Nat} {x : α}
    (h : Sparse.wf d m = true) (hj : j ≠ i) : Sparse.get d (Sparse.set d m i x) j = Sparse.get d m j := by
  rw [sparse_get_set h, if_neg hj]

/-- Values set at consecutive keys leave what the other keys read as, and read back one by one. -/
theorem sparse_get_setN [DecidableEq α] {d : Nat → α} {m : List (Nat × α)} (h : Sparse.wf d m = true) (x : α) (a : Nat)
    (b : List α) :
    (∀ j, j < a ∨ a + b.length ≤ j → Sparse.get d (Sparse.setN d m a b) j = Sparse.get d m j) ∧
    ∀ i, i < b.length → Sparse.get d (Sparse.setN d m a b) (a + i) = b.getD i x := by
  induction b generalizing m a with
  | nil => exact ⟨fun _ _ => rfl, fun i hi => absurd hi (by simp)⟩
  | cons y b ih =>
    obtain ⟨h1, h2⟩ := ih (sparse_set_wf (i := a) (x := y) h) (a + 1)
    refine ⟨fun j hj => ?_, fun i hi => ?_⟩
    · simp only [List.length_cons] at hj
      rw [Sparse.setN, h1 j (by omega), sparse_get_set h, if_neg (by omega)]
    · rw [Sparse.setN]
      cases i with
      | zero => rw [h1 _ (by omega), sparse_get_set h]; simp
      | succ i => rw [show a + (i + 1) = a + 1 + i by omega, h2 i (by simpa using hi)]; simp

/-- Values set at consecutive keys read back whole. -/
theorem sparse_getN_setN [DecidableEq α] {d : Nat → α} {m : List (Nat × α)} (h : Sparse.wf d m = true) (a : Nat)
    (b : List α) : Sparse.getN d (Sparse.setN d m a b) a b.length = b := by
  induction b generalizing m a with
  | nil => rfl
  | cons y b ih =>
    have h0 := (sparse_get_setN h y a (y :: b)).2 0 (by simp)
    simp only [List.length_cons, Sparse.getN, Sparse.setN] at h0 ⊢
    rw [ih (sparse_set_wf h)]
    simpa using h0

end Sys2Proof.Laws
end

