-- ==== Sys2Proof/Laws/State.lean ====
section
/-! SUPPORT. What each update of the state leaves alone, field by field, and what an object reads after one is set. -/

namespace Sys2Proof.Laws

open Sys2Proof.Machine

variable {s : State}

/-! `State.put` changes `obj` alone. -/

@[simp] theorem put_pending {x1 : Nat} {x2 : Nat} : (s.put x1 x2).pending = s.pending := rfl
@[simp] theorem put_clock {x1 : Nat} {x2 : Nat} : (s.put x1 x2).clock = s.clock := rfl
@[simp] theorem put_timebase {x1 : Nat} {x2 : Nat} : (s.put x1 x2).timebase = s.timebase := rfl
@[simp] theorem put_freeIx {x1 : Nat} {x2 : Nat} : (s.put x1 x2).freeIx = s.freeIx := rfl
@[simp] theorem put_dom {x1 : Nat} {x2 : Nat} : (s.put x1 x2).dom = s.dom := rfl
@[simp] theorem put_answer {x1 : Nat} {x2 : Nat} : (s.put x1 x2).answer = s.answer := rfl
@[simp] theorem put_boot {x1 : Nat} {x2 : Nat} : (s.put x1 x2).boot = s.boot := rfl
@[simp] theorem put_pins {x1 : Nat} {x2 : Nat} : (s.put x1 x2).pins = s.pins := rfl
@[simp] theorem put_sop {x1 : Nat} {x2 : Nat} : (s.put x1 x2).sop = s.sop := rfl
@[simp] theorem put_goals {x1 : Nat} {x2 : Nat} : (s.put x1 x2).goals = s.goals := rfl
@[simp] theorem put_frozen {x1 : Nat} {x2 : Nat} : (s.put x1 x2).frozen = s.frozen := rfl
@[simp] theorem put_frozenDom {x1 : Nat} {x2 : Nat} : (s.put x1 x2).frozenDom = s.frozenDom := rfl
@[simp] theorem put_ports {x1 : Nat} {x2 : Nat} : (s.put x1 x2).ports = s.ports := rfl
@[simp] theorem put_pipes {x1 : Nat} {x2 : Nat} : (s.put x1 x2).pipes = s.pipes := rfl
@[simp] theorem put_frames {x1 : Nat} {x2 : Nat} : (s.put x1 x2).frames = s.frames := rfl
@[simp] theorem put_copies {x1 : Nat} {x2 : Nat} : (s.put x1 x2).copies = s.copies := rfl
@[simp] theorem put_nextId {x1 : Nat} {x2 : Nat} : (s.put x1 x2).nextId = s.nextId := rfl
@[simp] theorem put_captured {x1 : Nat} {x2 : Nat} : (s.put x1 x2).captured = s.captured := rfl
@[simp] theorem put_em {x1 : Nat} {x2 : Nat} : (s.put x1 x2).em = s.em := rfl
@[simp] theorem put_relief {x1 : Nat} {x2 : Nat} : (s.put x1 x2).relief = s.relief := rfl
@[simp] theorem put_versions {x1 : Nat} {x2 : Nat} : (s.put x1 x2).versions = s.versions := rfl
@[simp] theorem put_arm {x1 : Nat} {x2 : Nat} : (s.put x1 x2).arm = s.arm := rfl
@[simp] theorem put_queues {x1 : Nat} {x2 : Nat} : (s.put x1 x2).queues = s.queues := rfl
@[simp] theorem put_fabric {x1 : Nat} {x2 : Nat} : (s.put x1 x2).fabric = s.fabric := rfl
@[simp] theorem put_cipher {x1 : Nat} {x2 : Nat} : (s.put x1 x2).cipher = s.cipher := rfl
@[simp] theorem put_faults {x1 : Nat} {x2 : Nat} : (s.put x1 x2).faults = s.faults := rfl
@[simp] theorem put_kiln {x1 : Nat} {x2 : Nat} : (s.put x1 x2).kiln = s.kiln := rfl
@[simp] theorem put_flow {x1 : Nat} {x2 : Nat} : (s.put x1 x2).flow = s.flow := rfl
@[simp] theorem put_flowServed {x1 : Nat} {x2 : Nat} : (s.put x1 x2).flowServed = s.flowServed := rfl
@[simp] theorem put_flowWaiting {x1 : Nat} {x2 : Nat} : (s.put x1 x2).flowWaiting = s.flowWaiting := rfl
@[simp] theorem put_atelier {x1 : Nat} {x2 : Nat} : (s.put x1 x2).atelier = s.atelier := rfl
@[simp] theorem put_timing {x1 : Nat} {x2 : Nat} : (s.put x1 x2).timing = s.timing := rfl

/-! `State.putBytes` changes `dom` alone. -/

@[simp] theorem putBytes_pending {x1 : Nat} {x2 : Nat} {x3 : List Byte} : (s.putBytes x1 x2 x3).pending = s.pending := rfl
@[simp] theorem putBytes_clock {x1 : Nat} {x2 : Nat} {x3 : List Byte} : (s.putBytes x1 x2 x3).clock = s.clock := rfl
@[simp] theorem putBytes_timebase {x1 : Nat} {x2 : Nat} {x3 : List Byte} : (s.putBytes x1 x2 x3).timebase = s.timebase := rfl
@[simp] theorem putBytes_freeIx {x1 : Nat} {x2 : Nat} {x3 : List Byte} : (s.putBytes x1 x2 x3).freeIx = s.freeIx := rfl
@[simp] theorem putBytes_obj {x1 : Nat} {x2 : Nat} {x3 : List Byte} : (s.putBytes x1 x2 x3).obj = s.obj := rfl
@[simp] theorem putBytes_answer {x1 : Nat} {x2 : Nat} {x3 : List Byte} : (s.putBytes x1 x2 x3).answer = s.answer := rfl
@[simp] theorem putBytes_boot {x1 : Nat} {x2 : Nat} {x3 : List Byte} : (s.putBytes x1 x2 x3).boot = s.boot := rfl
@[simp] theorem putBytes_pins {x1 : Nat} {x2 : Nat} {x3 : List Byte} : (s.putBytes x1 x2 x3).pins = s.pins := rfl
@[simp] theorem putBytes_sop {x1 : Nat} {x2 : Nat} {x3 : List Byte} : (s.putBytes x1 x2 x3).sop = s.sop := rfl
@[simp] theorem putBytes_goals {x1 : Nat} {x2 : Nat} {x3 : List Byte} : (s.putBytes x1 x2 x3).goals = s.goals := rfl
@[simp] theorem putBytes_frozen {x1 : Nat} {x2 : Nat} {x3 : List Byte} : (s.putBytes x1 x2 x3).frozen = s.frozen := rfl
@[simp] theorem putBytes_frozenDom {x1 : Nat} {x2 : Nat} {x3 : List Byte} : (s.putBytes x1 x2 x3).frozenDom = s.frozenDom := rfl
@[simp] theorem putBytes_ports {x1 : Nat} {x2 : Nat} {x3 : List Byte} : (s.putBytes x1 x2 x3).ports = s.ports := rfl
@[simp] theorem putBytes_pipes {x1 : Nat} {x2 : Nat} {x3 : List Byte} : (s.putBytes x1 x2 x3).pipes = s.pipes := rfl
@[simp] theorem putBytes_frames {x1 : Nat} {x2 : Nat} {x3 : List Byte} : (s.putBytes x1 x2 x3).frames = s.frames := rfl
@[simp] theorem putBytes_copies {x1 : Nat} {x2 : Nat} {x3 : List Byte} : (s.putBytes x1 x2 x3).copies = s.copies := rfl
@[simp] theorem putBytes_nextId {x1 : Nat} {x2 : Nat} {x3 : List Byte} : (s.putBytes x1 x2 x3).nextId = s.nextId := rfl
@[simp] theorem putBytes_captured {x1 : Nat} {x2 : Nat} {x3 : List Byte} : (s.putBytes x1 x2 x3).captured = s.captured := rfl
@[simp] theorem putBytes_em {x1 : Nat} {x2 : Nat} {x3 : List Byte} : (s.putBytes x1 x2 x3).em = s.em := rfl
@[simp] theorem putBytes_relief {x1 : Nat} {x2 : Nat} {x3 : List Byte} : (s.putBytes x1 x2 x3).relief = s.relief := rfl
@[simp] theorem putBytes_versions {x1 : Nat} {x2 : Nat} {x3 : List Byte} : (s.putBytes x1 x2 x3).versions = s.versions := rfl
@[simp] theorem putBytes_arm {x1 : Nat} {x2 : Nat} {x3 : List Byte} : (s.putBytes x1 x2 x3).arm = s.arm := rfl
@[simp] theorem putBytes_queues {x1 : Nat} {x2 : Nat} {x3 : List Byte} : (s.putBytes x1 x2 x3).queues = s.queues := rfl
@[simp] theorem putBytes_fabric {x1 : Nat} {x2 : Nat} {x3 : List Byte} : (s.putBytes x1 x2 x3).fabric = s.fabric := rfl
@[simp] theorem putBytes_cipher {x1 : Nat} {x2 : Nat} {x3 : List Byte} : (s.putBytes x1 x2 x3).cipher = s.cipher := rfl
@[simp] theorem putBytes_faults {x1 : Nat} {x2 : Nat} {x3 : List Byte} : (s.putBytes x1 x2 x3).faults = s.faults := rfl
@[simp] theorem putBytes_kiln {x1 : Nat} {x2 : Nat} {x3 : List Byte} : (s.putBytes x1 x2 x3).kiln = s.kiln := rfl
@[simp] theorem putBytes_flow {x1 : Nat} {x2 : Nat} {x3 : List Byte} : (s.putBytes x1 x2 x3).flow = s.flow := rfl
@[simp] theorem putBytes_flowServed {x1 : Nat} {x2 : Nat} {x3 : List Byte} : (s.putBytes x1 x2 x3).flowServed = s.flowServed := rfl
@[simp] theorem putBytes_flowWaiting {x1 : Nat} {x2 : Nat} {x3 : List Byte} : (s.putBytes x1 x2 x3).flowWaiting = s.flowWaiting := rfl
@[simp] theorem putBytes_atelier {x1 : Nat} {x2 : Nat} {x3 : List Byte} : (s.putBytes x1 x2 x3).atelier = s.atelier := rfl
@[simp] theorem putBytes_timing {x1 : Nat} {x2 : Nat} {x3 : List Byte} : (s.putBytes x1 x2 x3).timing = s.timing := rfl

/-! `State.putRecord` changes `dom` alone. -/

@[simp] theorem putRecord_pending {x1 : Nat} {x2 : Nat} {x3 : Nat} {x4 : Nat} : (s.putRecord x1 x2 x3 x4).pending = s.pending := rfl
@[simp] theorem putRecord_clock {x1 : Nat} {x2 : Nat} {x3 : Nat} {x4 : Nat} : (s.putRecord x1 x2 x3 x4).clock = s.clock := rfl
@[simp] theorem putRecord_timebase {x1 : Nat} {x2 : Nat} {x3 : Nat} {x4 : Nat} : (s.putRecord x1 x2 x3 x4).timebase = s.timebase := rfl
@[simp] theorem putRecord_freeIx {x1 : Nat} {x2 : Nat} {x3 : Nat} {x4 : Nat} : (s.putRecord x1 x2 x3 x4).freeIx = s.freeIx := rfl
@[simp] theorem putRecord_obj {x1 : Nat} {x2 : Nat} {x3 : Nat} {x4 : Nat} : (s.putRecord x1 x2 x3 x4).obj = s.obj := rfl
@[simp] theorem putRecord_answer {x1 : Nat} {x2 : Nat} {x3 : Nat} {x4 : Nat} : (s.putRecord x1 x2 x3 x4).answer = s.answer := rfl
@[simp] theorem putRecord_boot {x1 : Nat} {x2 : Nat} {x3 : Nat} {x4 : Nat} : (s.putRecord x1 x2 x3 x4).boot = s.boot := rfl
@[simp] theorem putRecord_pins {x1 : Nat} {x2 : Nat} {x3 : Nat} {x4 : Nat} : (s.putRecord x1 x2 x3 x4).pins = s.pins := rfl
@[simp] theorem putRecord_sop {x1 : Nat} {x2 : Nat} {x3 : Nat} {x4 : Nat} : (s.putRecord x1 x2 x3 x4).sop = s.sop := rfl
@[simp] theorem putRecord_goals {x1 : Nat} {x2 : Nat} {x3 : Nat} {x4 : Nat} : (s.putRecord x1 x2 x3 x4).goals = s.goals := rfl
@[simp] theorem putRecord_frozen {x1 : Nat} {x2 : Nat} {x3 : Nat} {x4 : Nat} : (s.putRecord x1 x2 x3 x4).frozen = s.frozen := rfl
@[simp] theorem putRecord_frozenDom {x1 : Nat} {x2 : Nat} {x3 : Nat} {x4 : Nat} : (s.putRecord x1 x2 x3 x4).frozenDom = s.frozenDom := rfl
@[simp] theorem putRecord_ports {x1 : Nat} {x2 : Nat} {x3 : Nat} {x4 : Nat} : (s.putRecord x1 x2 x3 x4).ports = s.ports := rfl
@[simp] theorem putRecord_pipes {x1 : Nat} {x2 : Nat} {x3 : Nat} {x4 : Nat} : (s.putRecord x1 x2 x3 x4).pipes = s.pipes := rfl
@[simp] theorem putRecord_frames {x1 : Nat} {x2 : Nat} {x3 : Nat} {x4 : Nat} : (s.putRecord x1 x2 x3 x4).frames = s.frames := rfl
@[simp] theorem putRecord_copies {x1 : Nat} {x2 : Nat} {x3 : Nat} {x4 : Nat} : (s.putRecord x1 x2 x3 x4).copies = s.copies := rfl
@[simp] theorem putRecord_nextId {x1 : Nat} {x2 : Nat} {x3 : Nat} {x4 : Nat} : (s.putRecord x1 x2 x3 x4).nextId = s.nextId := rfl
@[simp] theorem putRecord_captured {x1 : Nat} {x2 : Nat} {x3 : Nat} {x4 : Nat} : (s.putRecord x1 x2 x3 x4).captured = s.captured := rfl
@[simp] theorem putRecord_em {x1 : Nat} {x2 : Nat} {x3 : Nat} {x4 : Nat} : (s.putRecord x1 x2 x3 x4).em = s.em := rfl
@[simp] theorem putRecord_relief {x1 : Nat} {x2 : Nat} {x3 : Nat} {x4 : Nat} : (s.putRecord x1 x2 x3 x4).relief = s.relief := rfl
@[simp] theorem putRecord_versions {x1 : Nat} {x2 : Nat} {x3 : Nat} {x4 : Nat} : (s.putRecord x1 x2 x3 x4).versions = s.versions := rfl
@[simp] theorem putRecord_arm {x1 : Nat} {x2 : Nat} {x3 : Nat} {x4 : Nat} : (s.putRecord x1 x2 x3 x4).arm = s.arm := rfl
@[simp] theorem putRecord_queues {x1 : Nat} {x2 : Nat} {x3 : Nat} {x4 : Nat} : (s.putRecord x1 x2 x3 x4).queues = s.queues := rfl
@[simp] theorem putRecord_fabric {x1 : Nat} {x2 : Nat} {x3 : Nat} {x4 : Nat} : (s.putRecord x1 x2 x3 x4).fabric = s.fabric := rfl
@[simp] theorem putRecord_cipher {x1 : Nat} {x2 : Nat} {x3 : Nat} {x4 : Nat} : (s.putRecord x1 x2 x3 x4).cipher = s.cipher := rfl
@[simp] theorem putRecord_faults {x1 : Nat} {x2 : Nat} {x3 : Nat} {x4 : Nat} : (s.putRecord x1 x2 x3 x4).faults = s.faults := rfl
@[simp] theorem putRecord_kiln {x1 : Nat} {x2 : Nat} {x3 : Nat} {x4 : Nat} : (s.putRecord x1 x2 x3 x4).kiln = s.kiln := rfl
@[simp] theorem putRecord_flow {x1 : Nat} {x2 : Nat} {x3 : Nat} {x4 : Nat} : (s.putRecord x1 x2 x3 x4).flow = s.flow := rfl
@[simp] theorem putRecord_flowServed {x1 : Nat} {x2 : Nat} {x3 : Nat} {x4 : Nat} : (s.putRecord x1 x2 x3 x4).flowServed = s.flowServed := rfl
@[simp] theorem putRecord_flowWaiting {x1 : Nat} {x2 : Nat} {x3 : Nat} {x4 : Nat} : (s.putRecord x1 x2 x3 x4).flowWaiting = s.flowWaiting := rfl
@[simp] theorem putRecord_atelier {x1 : Nat} {x2 : Nat} {x3 : Nat} {x4 : Nat} : (s.putRecord x1 x2 x3 x4).atelier = s.atelier := rfl
@[simp] theorem putRecord_timing {x1 : Nat} {x2 : Nat} {x3 : Nat} {x4 : Nat} : (s.putRecord x1 x2 x3 x4).timing = s.timing := rfl

/-! `State.flag` changes `obj` alone. -/

@[simp] theorem flag_pending {x1 : Nat} {x2 : Nat} : (s.flag x1 x2).pending = s.pending := rfl
@[simp] theorem flag_clock {x1 : Nat} {x2 : Nat} : (s.flag x1 x2).clock = s.clock := rfl
@[simp] theorem flag_timebase {x1 : Nat} {x2 : Nat} : (s.flag x1 x2).timebase = s.timebase := rfl
@[simp] theorem flag_freeIx {x1 : Nat} {x2 : Nat} : (s.flag x1 x2).freeIx = s.freeIx := rfl
@[simp] theorem flag_dom {x1 : Nat} {x2 : Nat} : (s.flag x1 x2).dom = s.dom := rfl
@[simp] theorem flag_answer {x1 : Nat} {x2 : Nat} : (s.flag x1 x2).answer = s.answer := rfl
@[simp] theorem flag_boot {x1 : Nat} {x2 : Nat} : (s.flag x1 x2).boot = s.boot := rfl
@[simp] theorem flag_pins {x1 : Nat} {x2 : Nat} : (s.flag x1 x2).pins = s.pins := rfl
@[simp] theorem flag_sop {x1 : Nat} {x2 : Nat} : (s.flag x1 x2).sop = s.sop := rfl
@[simp] theorem flag_goals {x1 : Nat} {x2 : Nat} : (s.flag x1 x2).goals = s.goals := rfl
@[simp] theorem flag_frozen {x1 : Nat} {x2 : Nat} : (s.flag x1 x2).frozen = s.frozen := rfl
@[simp] theorem flag_frozenDom {x1 : Nat} {x2 : Nat} : (s.flag x1 x2).frozenDom = s.frozenDom := rfl
@[simp] theorem flag_ports {x1 : Nat} {x2 : Nat} : (s.flag x1 x2).ports = s.ports := rfl
@[simp] theorem flag_pipes {x1 : Nat} {x2 : Nat} : (s.flag x1 x2).pipes = s.pipes := rfl
@[simp] theorem flag_frames {x1 : Nat} {x2 : Nat} : (s.flag x1 x2).frames = s.frames := rfl
@[simp] theorem flag_copies {x1 : Nat} {x2 : Nat} : (s.flag x1 x2).copies = s.copies := rfl
@[simp] theorem flag_nextId {x1 : Nat} {x2 : Nat} : (s.flag x1 x2).nextId = s.nextId := rfl
@[simp] theorem flag_captured {x1 : Nat} {x2 : Nat} : (s.flag x1 x2).captured = s.captured := rfl
@[simp] theorem flag_em {x1 : Nat} {x2 : Nat} : (s.flag x1 x2).em = s.em := rfl
@[simp] theorem flag_relief {x1 : Nat} {x2 : Nat} : (s.flag x1 x2).relief = s.relief := rfl
@[simp] theorem flag_versions {x1 : Nat} {x2 : Nat} : (s.flag x1 x2).versions = s.versions := rfl
@[simp] theorem flag_arm {x1 : Nat} {x2 : Nat} : (s.flag x1 x2).arm = s.arm := rfl
@[simp] theorem flag_queues {x1 : Nat} {x2 : Nat} : (s.flag x1 x2).queues = s.queues := rfl
@[simp] theorem flag_fabric {x1 : Nat} {x2 : Nat} : (s.flag x1 x2).fabric = s.fabric := rfl
@[simp] theorem flag_cipher {x1 : Nat} {x2 : Nat} : (s.flag x1 x2).cipher = s.cipher := rfl
@[simp] theorem flag_faults {x1 : Nat} {x2 : Nat} : (s.flag x1 x2).faults = s.faults := rfl
@[simp] theorem flag_kiln {x1 : Nat} {x2 : Nat} : (s.flag x1 x2).kiln = s.kiln := rfl
@[simp] theorem flag_flow {x1 : Nat} {x2 : Nat} : (s.flag x1 x2).flow = s.flow := rfl
@[simp] theorem flag_flowServed {x1 : Nat} {x2 : Nat} : (s.flag x1 x2).flowServed = s.flowServed := rfl
@[simp] theorem flag_flowWaiting {x1 : Nat} {x2 : Nat} : (s.flag x1 x2).flowWaiting = s.flowWaiting := rfl
@[simp] theorem flag_atelier {x1 : Nat} {x2 : Nat} : (s.flag x1 x2).atelier = s.atelier := rfl
@[simp] theorem flag_timing {x1 : Nat} {x2 : Nat} : (s.flag x1 x2).timing = s.timing := rfl

/-! `State.clearFlags` changes `obj` alone. -/

@[simp] theorem clearFlags_pending {x1 : Nat} {x2 : Nat} : (s.clearFlags x1 x2).pending = s.pending := rfl
@[simp] theorem clearFlags_clock {x1 : Nat} {x2 : Nat} : (s.clearFlags x1 x2).clock = s.clock := rfl
@[simp] theorem clearFlags_timebase {x1 : Nat} {x2 : Nat} : (s.clearFlags x1 x2).timebase = s.timebase := rfl
@[simp] theorem clearFlags_freeIx {x1 : Nat} {x2 : Nat} : (s.clearFlags x1 x2).freeIx = s.freeIx := rfl
@[simp] theorem clearFlags_dom {x1 : Nat} {x2 : Nat} : (s.clearFlags x1 x2).dom = s.dom := rfl
@[simp] theorem clearFlags_answer {x1 : Nat} {x2 : Nat} : (s.clearFlags x1 x2).answer = s.answer := rfl
@[simp] theorem clearFlags_boot {x1 : Nat} {x2 : Nat} : (s.clearFlags x1 x2).boot = s.boot := rfl
@[simp] theorem clearFlags_pins {x1 : Nat} {x2 : Nat} : (s.clearFlags x1 x2).pins = s.pins := rfl
@[simp] theorem clearFlags_sop {x1 : Nat} {x2 : Nat} : (s.clearFlags x1 x2).sop = s.sop := rfl
@[simp] theorem clearFlags_goals {x1 : Nat} {x2 : Nat} : (s.clearFlags x1 x2).goals = s.goals := rfl
@[simp] theorem clearFlags_frozen {x1 : Nat} {x2 : Nat} : (s.clearFlags x1 x2).frozen = s.frozen := rfl
@[simp] theorem clearFlags_frozenDom {x1 : Nat} {x2 : Nat} : (s.clearFlags x1 x2).frozenDom = s.frozenDom := rfl
@[simp] theorem clearFlags_ports {x1 : Nat} {x2 : Nat} : (s.clearFlags x1 x2).ports = s.ports := rfl
@[simp] theorem clearFlags_pipes {x1 : Nat} {x2 : Nat} : (s.clearFlags x1 x2).pipes = s.pipes := rfl
@[simp] theorem clearFlags_frames {x1 : Nat} {x2 : Nat} : (s.clearFlags x1 x2).frames = s.frames := rfl
@[simp] theorem clearFlags_copies {x1 : Nat} {x2 : Nat} : (s.clearFlags x1 x2).copies = s.copies := rfl
@[simp] theorem clearFlags_nextId {x1 : Nat} {x2 : Nat} : (s.clearFlags x1 x2).nextId = s.nextId := rfl
@[simp] theorem clearFlags_captured {x1 : Nat} {x2 : Nat} : (s.clearFlags x1 x2).captured = s.captured := rfl
@[simp] theorem clearFlags_em {x1 : Nat} {x2 : Nat} : (s.clearFlags x1 x2).em = s.em := rfl
@[simp] theorem clearFlags_relief {x1 : Nat} {x2 : Nat} : (s.clearFlags x1 x2).relief = s.relief := rfl
@[simp] theorem clearFlags_versions {x1 : Nat} {x2 : Nat} : (s.clearFlags x1 x2).versions = s.versions := rfl
@[simp] theorem clearFlags_arm {x1 : Nat} {x2 : Nat} : (s.clearFlags x1 x2).arm = s.arm := rfl
@[simp] theorem clearFlags_queues {x1 : Nat} {x2 : Nat} : (s.clearFlags x1 x2).queues = s.queues := rfl
@[simp] theorem clearFlags_fabric {x1 : Nat} {x2 : Nat} : (s.clearFlags x1 x2).fabric = s.fabric := rfl
@[simp] theorem clearFlags_cipher {x1 : Nat} {x2 : Nat} : (s.clearFlags x1 x2).cipher = s.cipher := rfl
@[simp] theorem clearFlags_faults {x1 : Nat} {x2 : Nat} : (s.clearFlags x1 x2).faults = s.faults := rfl
@[simp] theorem clearFlags_kiln {x1 : Nat} {x2 : Nat} : (s.clearFlags x1 x2).kiln = s.kiln := rfl
@[simp] theorem clearFlags_flow {x1 : Nat} {x2 : Nat} : (s.clearFlags x1 x2).flow = s.flow := rfl
@[simp] theorem clearFlags_flowServed {x1 : Nat} {x2 : Nat} : (s.clearFlags x1 x2).flowServed = s.flowServed := rfl
@[simp] theorem clearFlags_flowWaiting {x1 : Nat} {x2 : Nat} : (s.clearFlags x1 x2).flowWaiting = s.flowWaiting := rfl
@[simp] theorem clearFlags_atelier {x1 : Nat} {x2 : Nat} : (s.clearFlags x1 x2).atelier = s.atelier := rfl
@[simp] theorem clearFlags_timing {x1 : Nat} {x2 : Nat} : (s.clearFlags x1 x2).timing = s.timing := rfl

/-! `State.bump32` changes `obj` alone. -/

@[simp] theorem bump32_pending {x1 : Nat} : (s.bump32 x1).pending = s.pending := rfl
@[simp] theorem bump32_clock {x1 : Nat} : (s.bump32 x1).clock = s.clock := rfl
@[simp] theorem bump32_timebase {x1 : Nat} : (s.bump32 x1).timebase = s.timebase := rfl
@[simp] theorem bump32_freeIx {x1 : Nat} : (s.bump32 x1).freeIx = s.freeIx := rfl
@[simp] theorem bump32_dom {x1 : Nat} : (s.bump32 x1).dom = s.dom := rfl
@[simp] theorem bump32_answer {x1 : Nat} : (s.bump32 x1).answer = s.answer := rfl
@[simp] theorem bump32_boot {x1 : Nat} : (s.bump32 x1).boot = s.boot := rfl
@[simp] theorem bump32_pins {x1 : Nat} : (s.bump32 x1).pins = s.pins := rfl
@[simp] theorem bump32_sop {x1 : Nat} : (s.bump32 x1).sop = s.sop := rfl
@[simp] theorem bump32_goals {x1 : Nat} : (s.bump32 x1).goals = s.goals := rfl
@[simp] theorem bump32_frozen {x1 : Nat} : (s.bump32 x1).frozen = s.frozen := rfl
@[simp] theorem bump32_frozenDom {x1 : Nat} : (s.bump32 x1).frozenDom = s.frozenDom := rfl
@[simp] theorem bump32_ports {x1 : Nat} : (s.bump32 x1).ports = s.ports := rfl
@[simp] theorem bump32_pipes {x1 : Nat} : (s.bump32 x1).pipes = s.pipes := rfl
@[simp] theorem bump32_frames {x1 : Nat} : (s.bump32 x1).frames = s.frames := rfl
@[simp] theorem bump32_copies {x1 : Nat} : (s.bump32 x1).copies = s.copies := rfl
@[simp] theorem bump32_nextId {x1 : Nat} : (s.bump32 x1).nextId = s.nextId := rfl
@[simp] theorem bump32_captured {x1 : Nat} : (s.bump32 x1).captured = s.captured := rfl
@[simp] theorem bump32_em {x1 : Nat} : (s.bump32 x1).em = s.em := rfl
@[simp] theorem bump32_relief {x1 : Nat} : (s.bump32 x1).relief = s.relief := rfl
@[simp] theorem bump32_versions {x1 : Nat} : (s.bump32 x1).versions = s.versions := rfl
@[simp] theorem bump32_arm {x1 : Nat} : (s.bump32 x1).arm = s.arm := rfl
@[simp] theorem bump32_queues {x1 : Nat} : (s.bump32 x1).queues = s.queues := rfl
@[simp] theorem bump32_fabric {x1 : Nat} : (s.bump32 x1).fabric = s.fabric := rfl
@[simp] theorem bump32_cipher {x1 : Nat} : (s.bump32 x1).cipher = s.cipher := rfl
@[simp] theorem bump32_faults {x1 : Nat} : (s.bump32 x1).faults = s.faults := rfl
@[simp] theorem bump32_kiln {x1 : Nat} : (s.bump32 x1).kiln = s.kiln := rfl
@[simp] theorem bump32_flow {x1 : Nat} : (s.bump32 x1).flow = s.flow := rfl
@[simp] theorem bump32_flowServed {x1 : Nat} : (s.bump32 x1).flowServed = s.flowServed := rfl
@[simp] theorem bump32_flowWaiting {x1 : Nat} : (s.bump32 x1).flowWaiting = s.flowWaiting := rfl
@[simp] theorem bump32_atelier {x1 : Nat} : (s.bump32 x1).atelier = s.atelier := rfl
@[simp] theorem bump32_timing {x1 : Nat} : (s.bump32 x1).timing = s.timing := rfl

/-! `State.wrap32` changes `obj` alone. -/

@[simp] theorem wrap32_pending {x1 : Nat} : (s.wrap32 x1).pending = s.pending := rfl
@[simp] theorem wrap32_clock {x1 : Nat} : (s.wrap32 x1).clock = s.clock := rfl
@[simp] theorem wrap32_timebase {x1 : Nat} : (s.wrap32 x1).timebase = s.timebase := rfl
@[simp] theorem wrap32_freeIx {x1 : Nat} : (s.wrap32 x1).freeIx = s.freeIx := rfl
@[simp] theorem wrap32_dom {x1 : Nat} : (s.wrap32 x1).dom = s.dom := rfl
@[simp] theorem wrap32_answer {x1 : Nat} : (s.wrap32 x1).answer = s.answer := rfl
@[simp] theorem wrap32_boot {x1 : Nat} : (s.wrap32 x1).boot = s.boot := rfl
@[simp] theorem wrap32_pins {x1 : Nat} : (s.wrap32 x1).pins = s.pins := rfl
@[simp] theorem wrap32_sop {x1 : Nat} : (s.wrap32 x1).sop = s.sop := rfl
@[simp] theorem wrap32_goals {x1 : Nat} : (s.wrap32 x1).goals = s.goals := rfl
@[simp] theorem wrap32_frozen {x1 : Nat} : (s.wrap32 x1).frozen = s.frozen := rfl
@[simp] theorem wrap32_frozenDom {x1 : Nat} : (s.wrap32 x1).frozenDom = s.frozenDom := rfl
@[simp] theorem wrap32_ports {x1 : Nat} : (s.wrap32 x1).ports = s.ports := rfl
@[simp] theorem wrap32_pipes {x1 : Nat} : (s.wrap32 x1).pipes = s.pipes := rfl
@[simp] theorem wrap32_frames {x1 : Nat} : (s.wrap32 x1).frames = s.frames := rfl
@[simp] theorem wrap32_copies {x1 : Nat} : (s.wrap32 x1).copies = s.copies := rfl
@[simp] theorem wrap32_nextId {x1 : Nat} : (s.wrap32 x1).nextId = s.nextId := rfl
@[simp] theorem wrap32_captured {x1 : Nat} : (s.wrap32 x1).captured = s.captured := rfl
@[simp] theorem wrap32_em {x1 : Nat} : (s.wrap32 x1).em = s.em := rfl
@[simp] theorem wrap32_relief {x1 : Nat} : (s.wrap32 x1).relief = s.relief := rfl
@[simp] theorem wrap32_versions {x1 : Nat} : (s.wrap32 x1).versions = s.versions := rfl
@[simp] theorem wrap32_arm {x1 : Nat} : (s.wrap32 x1).arm = s.arm := rfl
@[simp] theorem wrap32_queues {x1 : Nat} : (s.wrap32 x1).queues = s.queues := rfl
@[simp] theorem wrap32_fabric {x1 : Nat} : (s.wrap32 x1).fabric = s.fabric := rfl
@[simp] theorem wrap32_cipher {x1 : Nat} : (s.wrap32 x1).cipher = s.cipher := rfl
@[simp] theorem wrap32_faults {x1 : Nat} : (s.wrap32 x1).faults = s.faults := rfl
@[simp] theorem wrap32_kiln {x1 : Nat} : (s.wrap32 x1).kiln = s.kiln := rfl
@[simp] theorem wrap32_flow {x1 : Nat} : (s.wrap32 x1).flow = s.flow := rfl
@[simp] theorem wrap32_flowServed {x1 : Nat} : (s.wrap32 x1).flowServed = s.flowServed := rfl
@[simp] theorem wrap32_flowWaiting {x1 : Nat} : (s.wrap32 x1).flowWaiting = s.flowWaiting := rfl
@[simp] theorem wrap32_atelier {x1 : Nat} : (s.wrap32 x1).atelier = s.atelier := rfl
@[simp] theorem wrap32_timing {x1 : Nat} : (s.wrap32 x1).timing = s.timing := rfl

/-! `State.add64` changes `obj` alone. -/

@[simp] theorem add64_pending {x1 : Nat} {x2 : Nat} : (s.add64 x1 x2).pending = s.pending := rfl
@[simp] theorem add64_clock {x1 : Nat} {x2 : Nat} : (s.add64 x1 x2).clock = s.clock := rfl
@[simp] theorem add64_timebase {x1 : Nat} {x2 : Nat} : (s.add64 x1 x2).timebase = s.timebase := rfl
@[simp] theorem add64_freeIx {x1 : Nat} {x2 : Nat} : (s.add64 x1 x2).freeIx = s.freeIx := rfl
@[simp] theorem add64_dom {x1 : Nat} {x2 : Nat} : (s.add64 x1 x2).dom = s.dom := rfl
@[simp] theorem add64_answer {x1 : Nat} {x2 : Nat} : (s.add64 x1 x2).answer = s.answer := rfl
@[simp] theorem add64_boot {x1 : Nat} {x2 : Nat} : (s.add64 x1 x2).boot = s.boot := rfl
@[simp] theorem add64_pins {x1 : Nat} {x2 : Nat} : (s.add64 x1 x2).pins = s.pins := rfl
@[simp] theorem add64_sop {x1 : Nat} {x2 : Nat} : (s.add64 x1 x2).sop = s.sop := rfl
@[simp] theorem add64_goals {x1 : Nat} {x2 : Nat} : (s.add64 x1 x2).goals = s.goals := rfl
@[simp] theorem add64_frozen {x1 : Nat} {x2 : Nat} : (s.add64 x1 x2).frozen = s.frozen := rfl
@[simp] theorem add64_frozenDom {x1 : Nat} {x2 : Nat} : (s.add64 x1 x2).frozenDom = s.frozenDom := rfl
@[simp] theorem add64_ports {x1 : Nat} {x2 : Nat} : (s.add64 x1 x2).ports = s.ports := rfl
@[simp] theorem add64_pipes {x1 : Nat} {x2 : Nat} : (s.add64 x1 x2).pipes = s.pipes := rfl
@[simp] theorem add64_frames {x1 : Nat} {x2 : Nat} : (s.add64 x1 x2).frames = s.frames := rfl
@[simp] theorem add64_copies {x1 : Nat} {x2 : Nat} : (s.add64 x1 x2).copies = s.copies := rfl
@[simp] theorem add64_nextId {x1 : Nat} {x2 : Nat} : (s.add64 x1 x2).nextId = s.nextId := rfl
@[simp] theorem add64_captured {x1 : Nat} {x2 : Nat} : (s.add64 x1 x2).captured = s.captured := rfl
@[simp] theorem add64_em {x1 : Nat} {x2 : Nat} : (s.add64 x1 x2).em = s.em := rfl
@[simp] theorem add64_relief {x1 : Nat} {x2 : Nat} : (s.add64 x1 x2).relief = s.relief := rfl
@[simp] theorem add64_versions {x1 : Nat} {x2 : Nat} : (s.add64 x1 x2).versions = s.versions := rfl
@[simp] theorem add64_arm {x1 : Nat} {x2 : Nat} : (s.add64 x1 x2).arm = s.arm := rfl
@[simp] theorem add64_queues {x1 : Nat} {x2 : Nat} : (s.add64 x1 x2).queues = s.queues := rfl
@[simp] theorem add64_fabric {x1 : Nat} {x2 : Nat} : (s.add64 x1 x2).fabric = s.fabric := rfl
@[simp] theorem add64_cipher {x1 : Nat} {x2 : Nat} : (s.add64 x1 x2).cipher = s.cipher := rfl
@[simp] theorem add64_faults {x1 : Nat} {x2 : Nat} : (s.add64 x1 x2).faults = s.faults := rfl
@[simp] theorem add64_kiln {x1 : Nat} {x2 : Nat} : (s.add64 x1 x2).kiln = s.kiln := rfl
@[simp] theorem add64_flow {x1 : Nat} {x2 : Nat} : (s.add64 x1 x2).flow = s.flow := rfl
@[simp] theorem add64_flowServed {x1 : Nat} {x2 : Nat} : (s.add64 x1 x2).flowServed = s.flowServed := rfl
@[simp] theorem add64_flowWaiting {x1 : Nat} {x2 : Nat} : (s.add64 x1 x2).flowWaiting = s.flowWaiting := rfl
@[simp] theorem add64_atelier {x1 : Nat} {x2 : Nat} : (s.add64 x1 x2).atelier = s.atelier := rfl
@[simp] theorem add64_timing {x1 : Nat} {x2 : Nat} : (s.add64 x1 x2).timing = s.timing := rfl

/-! `State.bump64` changes `obj` alone. -/

@[simp] theorem bump64_pending {x1 : Nat} : (s.bump64 x1).pending = s.pending := rfl
@[simp] theorem bump64_clock {x1 : Nat} : (s.bump64 x1).clock = s.clock := rfl
@[simp] theorem bump64_timebase {x1 : Nat} : (s.bump64 x1).timebase = s.timebase := rfl
@[simp] theorem bump64_freeIx {x1 : Nat} : (s.bump64 x1).freeIx = s.freeIx := rfl
@[simp] theorem bump64_dom {x1 : Nat} : (s.bump64 x1).dom = s.dom := rfl
@[simp] theorem bump64_answer {x1 : Nat} : (s.bump64 x1).answer = s.answer := rfl
@[simp] theorem bump64_boot {x1 : Nat} : (s.bump64 x1).boot = s.boot := rfl
@[simp] theorem bump64_pins {x1 : Nat} : (s.bump64 x1).pins = s.pins := rfl
@[simp] theorem bump64_sop {x1 : Nat} : (s.bump64 x1).sop = s.sop := rfl
@[simp] theorem bump64_goals {x1 : Nat} : (s.bump64 x1).goals = s.goals := rfl
@[simp] theorem bump64_frozen {x1 : Nat} : (s.bump64 x1).frozen = s.frozen := rfl
@[simp] theorem bump64_frozenDom {x1 : Nat} : (s.bump64 x1).frozenDom = s.frozenDom := rfl
@[simp] theorem bump64_ports {x1 : Nat} : (s.bump64 x1).ports = s.ports := rfl
@[simp] theorem bump64_pipes {x1 : Nat} : (s.bump64 x1).pipes = s.pipes := rfl
@[simp] theorem bump64_frames {x1 : Nat} : (s.bump64 x1).frames = s.frames := rfl
@[simp] theorem bump64_copies {x1 : Nat} : (s.bump64 x1).copies = s.copies := rfl
@[simp] theorem bump64_nextId {x1 : Nat} : (s.bump64 x1).nextId = s.nextId := rfl
@[simp] theorem bump64_captured {x1 : Nat} : (s.bump64 x1).captured = s.captured := rfl
@[simp] theorem bump64_em {x1 : Nat} : (s.bump64 x1).em = s.em := rfl
@[simp] theorem bump64_relief {x1 : Nat} : (s.bump64 x1).relief = s.relief := rfl
@[simp] theorem bump64_versions {x1 : Nat} : (s.bump64 x1).versions = s.versions := rfl
@[simp] theorem bump64_arm {x1 : Nat} : (s.bump64 x1).arm = s.arm := rfl
@[simp] theorem bump64_queues {x1 : Nat} : (s.bump64 x1).queues = s.queues := rfl
@[simp] theorem bump64_fabric {x1 : Nat} : (s.bump64 x1).fabric = s.fabric := rfl
@[simp] theorem bump64_cipher {x1 : Nat} : (s.bump64 x1).cipher = s.cipher := rfl
@[simp] theorem bump64_faults {x1 : Nat} : (s.bump64 x1).faults = s.faults := rfl
@[simp] theorem bump64_kiln {x1 : Nat} : (s.bump64 x1).kiln = s.kiln := rfl
@[simp] theorem bump64_flow {x1 : Nat} : (s.bump64 x1).flow = s.flow := rfl
@[simp] theorem bump64_flowServed {x1 : Nat} : (s.bump64 x1).flowServed = s.flowServed := rfl
@[simp] theorem bump64_flowWaiting {x1 : Nat} : (s.bump64 x1).flowWaiting = s.flowWaiting := rfl
@[simp] theorem bump64_atelier {x1 : Nat} : (s.bump64 x1).atelier = s.atelier := rfl
@[simp] theorem bump64_timing {x1 : Nat} : (s.bump64 x1).timing = s.timing := rfl

/-! `State.setPort` changes `ports` alone. -/

@[simp] theorem setPort_pending {x1 : Nat} {x2 : PortSt → PortSt} : (s.setPort x1 x2).pending = s.pending := rfl
@[simp] theorem setPort_clock {x1 : Nat} {x2 : PortSt → PortSt} : (s.setPort x1 x2).clock = s.clock := rfl
@[simp] theorem setPort_timebase {x1 : Nat} {x2 : PortSt → PortSt} : (s.setPort x1 x2).timebase = s.timebase := rfl
@[simp] theorem setPort_freeIx {x1 : Nat} {x2 : PortSt → PortSt} : (s.setPort x1 x2).freeIx = s.freeIx := rfl
@[simp] theorem setPort_obj {x1 : Nat} {x2 : PortSt → PortSt} : (s.setPort x1 x2).obj = s.obj := rfl
@[simp] theorem setPort_dom {x1 : Nat} {x2 : PortSt → PortSt} : (s.setPort x1 x2).dom = s.dom := rfl
@[simp] theorem setPort_answer {x1 : Nat} {x2 : PortSt → PortSt} : (s.setPort x1 x2).answer = s.answer := rfl
@[simp] theorem setPort_boot {x1 : Nat} {x2 : PortSt → PortSt} : (s.setPort x1 x2).boot = s.boot := rfl
@[simp] theorem setPort_pins {x1 : Nat} {x2 : PortSt → PortSt} : (s.setPort x1 x2).pins = s.pins := rfl
@[simp] theorem setPort_sop {x1 : Nat} {x2 : PortSt → PortSt} : (s.setPort x1 x2).sop = s.sop := rfl
@[simp] theorem setPort_goals {x1 : Nat} {x2 : PortSt → PortSt} : (s.setPort x1 x2).goals = s.goals := rfl
@[simp] theorem setPort_frozen {x1 : Nat} {x2 : PortSt → PortSt} : (s.setPort x1 x2).frozen = s.frozen := rfl
@[simp] theorem setPort_frozenDom {x1 : Nat} {x2 : PortSt → PortSt} : (s.setPort x1 x2).frozenDom = s.frozenDom := rfl
@[simp] theorem setPort_pipes {x1 : Nat} {x2 : PortSt → PortSt} : (s.setPort x1 x2).pipes = s.pipes := rfl
@[simp] theorem setPort_frames {x1 : Nat} {x2 : PortSt → PortSt} : (s.setPort x1 x2).frames = s.frames := rfl
@[simp] theorem setPort_copies {x1 : Nat} {x2 : PortSt → PortSt} : (s.setPort x1 x2).copies = s.copies := rfl
@[simp] theorem setPort_nextId {x1 : Nat} {x2 : PortSt → PortSt} : (s.setPort x1 x2).nextId = s.nextId := rfl
@[simp] theorem setPort_captured {x1 : Nat} {x2 : PortSt → PortSt} : (s.setPort x1 x2).captured = s.captured := rfl
@[simp] theorem setPort_em {x1 : Nat} {x2 : PortSt → PortSt} : (s.setPort x1 x2).em = s.em := rfl
@[simp] theorem setPort_relief {x1 : Nat} {x2 : PortSt → PortSt} : (s.setPort x1 x2).relief = s.relief := rfl
@[simp] theorem setPort_versions {x1 : Nat} {x2 : PortSt → PortSt} : (s.setPort x1 x2).versions = s.versions := rfl
@[simp] theorem setPort_arm {x1 : Nat} {x2 : PortSt → PortSt} : (s.setPort x1 x2).arm = s.arm := rfl
@[simp] theorem setPort_queues {x1 : Nat} {x2 : PortSt → PortSt} : (s.setPort x1 x2).queues = s.queues := rfl
@[simp] theorem setPort_fabric {x1 : Nat} {x2 : PortSt → PortSt} : (s.setPort x1 x2).fabric = s.fabric := rfl
@[simp] theorem setPort_cipher {x1 : Nat} {x2 : PortSt → PortSt} : (s.setPort x1 x2).cipher = s.cipher := rfl
@[simp] theorem setPort_faults {x1 : Nat} {x2 : PortSt → PortSt} : (s.setPort x1 x2).faults = s.faults := rfl
@[simp] theorem setPort_kiln {x1 : Nat} {x2 : PortSt → PortSt} : (s.setPort x1 x2).kiln = s.kiln := rfl
@[simp] theorem setPort_flow {x1 : Nat} {x2 : PortSt → PortSt} : (s.setPort x1 x2).flow = s.flow := rfl
@[simp] theorem setPort_flowServed {x1 : Nat} {x2 : PortSt → PortSt} : (s.setPort x1 x2).flowServed = s.flowServed := rfl
@[simp] theorem setPort_flowWaiting {x1 : Nat} {x2 : PortSt → PortSt} : (s.setPort x1 x2).flowWaiting = s.flowWaiting := rfl
@[simp] theorem setPort_atelier {x1 : Nat} {x2 : PortSt → PortSt} : (s.setPort x1 x2).atelier = s.atelier := rfl
@[simp] theorem setPort_timing {x1 : Nat} {x2 : PortSt → PortSt} : (s.setPort x1 x2).timing = s.timing := rfl

/-! `State.setPipe` changes `pipes` alone. -/

@[simp] theorem setPipe_pending {x1 : Nat} {x2 : PipeSt → PipeSt} : (s.setPipe x1 x2).pending = s.pending := rfl
@[simp] theorem setPipe_clock {x1 : Nat} {x2 : PipeSt → PipeSt} : (s.setPipe x1 x2).clock = s.clock := rfl
@[simp] theorem setPipe_timebase {x1 : Nat} {x2 : PipeSt → PipeSt} : (s.setPipe x1 x2).timebase = s.timebase := rfl
@[simp] theorem setPipe_freeIx {x1 : Nat} {x2 : PipeSt → PipeSt} : (s.setPipe x1 x2).freeIx = s.freeIx := rfl
@[simp] theorem setPipe_obj {x1 : Nat} {x2 : PipeSt → PipeSt} : (s.setPipe x1 x2).obj = s.obj := rfl
@[simp] theorem setPipe_dom {x1 : Nat} {x2 : PipeSt → PipeSt} : (s.setPipe x1 x2).dom = s.dom := rfl
@[simp] theorem setPipe_answer {x1 : Nat} {x2 : PipeSt → PipeSt} : (s.setPipe x1 x2).answer = s.answer := rfl
@[simp] theorem setPipe_boot {x1 : Nat} {x2 : PipeSt → PipeSt} : (s.setPipe x1 x2).boot = s.boot := rfl
@[simp] theorem setPipe_pins {x1 : Nat} {x2 : PipeSt → PipeSt} : (s.setPipe x1 x2).pins = s.pins := rfl
@[simp] theorem setPipe_sop {x1 : Nat} {x2 : PipeSt → PipeSt} : (s.setPipe x1 x2).sop = s.sop := rfl
@[simp] theorem setPipe_goals {x1 : Nat} {x2 : PipeSt → PipeSt} : (s.setPipe x1 x2).goals = s.goals := rfl
@[simp] theorem setPipe_frozen {x1 : Nat} {x2 : PipeSt → PipeSt} : (s.setPipe x1 x2).frozen = s.frozen := rfl
@[simp] theorem setPipe_frozenDom {x1 : Nat} {x2 : PipeSt → PipeSt} : (s.setPipe x1 x2).frozenDom = s.frozenDom := rfl
@[simp] theorem setPipe_ports {x1 : Nat} {x2 : PipeSt → PipeSt} : (s.setPipe x1 x2).ports = s.ports := rfl
@[simp] theorem setPipe_frames {x1 : Nat} {x2 : PipeSt → PipeSt} : (s.setPipe x1 x2).frames = s.frames := rfl
@[simp] theorem setPipe_copies {x1 : Nat} {x2 : PipeSt → PipeSt} : (s.setPipe x1 x2).copies = s.copies := rfl
@[simp] theorem setPipe_nextId {x1 : Nat} {x2 : PipeSt → PipeSt} : (s.setPipe x1 x2).nextId = s.nextId := rfl
@[simp] theorem setPipe_captured {x1 : Nat} {x2 : PipeSt → PipeSt} : (s.setPipe x1 x2).captured = s.captured := rfl
@[simp] theorem setPipe_em {x1 : Nat} {x2 : PipeSt → PipeSt} : (s.setPipe x1 x2).em = s.em := rfl
@[simp] theorem setPipe_relief {x1 : Nat} {x2 : PipeSt → PipeSt} : (s.setPipe x1 x2).relief = s.relief := rfl
@[simp] theorem setPipe_versions {x1 : Nat} {x2 : PipeSt → PipeSt} : (s.setPipe x1 x2).versions = s.versions := rfl
@[simp] theorem setPipe_arm {x1 : Nat} {x2 : PipeSt → PipeSt} : (s.setPipe x1 x2).arm = s.arm := rfl
@[simp] theorem setPipe_queues {x1 : Nat} {x2 : PipeSt → PipeSt} : (s.setPipe x1 x2).queues = s.queues := rfl
@[simp] theorem setPipe_fabric {x1 : Nat} {x2 : PipeSt → PipeSt} : (s.setPipe x1 x2).fabric = s.fabric := rfl
@[simp] theorem setPipe_cipher {x1 : Nat} {x2 : PipeSt → PipeSt} : (s.setPipe x1 x2).cipher = s.cipher := rfl
@[simp] theorem setPipe_faults {x1 : Nat} {x2 : PipeSt → PipeSt} : (s.setPipe x1 x2).faults = s.faults := rfl
@[simp] theorem setPipe_kiln {x1 : Nat} {x2 : PipeSt → PipeSt} : (s.setPipe x1 x2).kiln = s.kiln := rfl
@[simp] theorem setPipe_flow {x1 : Nat} {x2 : PipeSt → PipeSt} : (s.setPipe x1 x2).flow = s.flow := rfl
@[simp] theorem setPipe_flowServed {x1 : Nat} {x2 : PipeSt → PipeSt} : (s.setPipe x1 x2).flowServed = s.flowServed := rfl
@[simp] theorem setPipe_flowWaiting {x1 : Nat} {x2 : PipeSt → PipeSt} : (s.setPipe x1 x2).flowWaiting = s.flowWaiting := rfl
@[simp] theorem setPipe_atelier {x1 : Nat} {x2 : PipeSt → PipeSt} : (s.setPipe x1 x2).atelier = s.atelier := rfl
@[simp] theorem setPipe_timing {x1 : Nat} {x2 : PipeSt → PipeSt} : (s.setPipe x1 x2).timing = s.timing := rfl

/-! `State.setFrame` changes `frames` alone. -/

@[simp] theorem setFrame_pending {x1 : Nat} {x2 : Frame → Frame} : (s.setFrame x1 x2).pending = s.pending := rfl
@[simp] theorem setFrame_clock {x1 : Nat} {x2 : Frame → Frame} : (s.setFrame x1 x2).clock = s.clock := rfl
@[simp] theorem setFrame_timebase {x1 : Nat} {x2 : Frame → Frame} : (s.setFrame x1 x2).timebase = s.timebase := rfl
@[simp] theorem setFrame_freeIx {x1 : Nat} {x2 : Frame → Frame} : (s.setFrame x1 x2).freeIx = s.freeIx := rfl
@[simp] theorem setFrame_obj {x1 : Nat} {x2 : Frame → Frame} : (s.setFrame x1 x2).obj = s.obj := rfl
@[simp] theorem setFrame_dom {x1 : Nat} {x2 : Frame → Frame} : (s.setFrame x1 x2).dom = s.dom := rfl
@[simp] theorem setFrame_answer {x1 : Nat} {x2 : Frame → Frame} : (s.setFrame x1 x2).answer = s.answer := rfl
@[simp] theorem setFrame_boot {x1 : Nat} {x2 : Frame → Frame} : (s.setFrame x1 x2).boot = s.boot := rfl
@[simp] theorem setFrame_pins {x1 : Nat} {x2 : Frame → Frame} : (s.setFrame x1 x2).pins = s.pins := rfl
@[simp] theorem setFrame_sop {x1 : Nat} {x2 : Frame → Frame} : (s.setFrame x1 x2).sop = s.sop := rfl
@[simp] theorem setFrame_goals {x1 : Nat} {x2 : Frame → Frame} : (s.setFrame x1 x2).goals = s.goals := rfl
@[simp] theorem setFrame_frozen {x1 : Nat} {x2 : Frame → Frame} : (s.setFrame x1 x2).frozen = s.frozen := rfl
@[simp] theorem setFrame_frozenDom {x1 : Nat} {x2 : Frame → Frame} : (s.setFrame x1 x2).frozenDom = s.frozenDom := rfl
@[simp] theorem setFrame_ports {x1 : Nat} {x2 : Frame → Frame} : (s.setFrame x1 x2).ports = s.ports := rfl
@[simp] theorem setFrame_pipes {x1 : Nat} {x2 : Frame → Frame} : (s.setFrame x1 x2).pipes = s.pipes := rfl
@[simp] theorem setFrame_copies {x1 : Nat} {x2 : Frame → Frame} : (s.setFrame x1 x2).copies = s.copies := rfl
@[simp] theorem setFrame_nextId {x1 : Nat} {x2 : Frame → Frame} : (s.setFrame x1 x2).nextId = s.nextId := rfl
@[simp] theorem setFrame_captured {x1 : Nat} {x2 : Frame → Frame} : (s.setFrame x1 x2).captured = s.captured := rfl
@[simp] theorem setFrame_em {x1 : Nat} {x2 : Frame → Frame} : (s.setFrame x1 x2).em = s.em := rfl
@[simp] theorem setFrame_relief {x1 : Nat} {x2 : Frame → Frame} : (s.setFrame x1 x2).relief = s.relief := rfl
@[simp] theorem setFrame_versions {x1 : Nat} {x2 : Frame → Frame} : (s.setFrame x1 x2).versions = s.versions := rfl
@[simp] theorem setFrame_arm {x1 : Nat} {x2 : Frame → Frame} : (s.setFrame x1 x2).arm = s.arm := rfl
@[simp] theorem setFrame_queues {x1 : Nat} {x2 : Frame → Frame} : (s.setFrame x1 x2).queues = s.queues := rfl
@[simp] theorem setFrame_fabric {x1 : Nat} {x2 : Frame → Frame} : (s.setFrame x1 x2).fabric = s.fabric := rfl
@[simp] theorem setFrame_cipher {x1 : Nat} {x2 : Frame → Frame} : (s.setFrame x1 x2).cipher = s.cipher := rfl
@[simp] theorem setFrame_faults {x1 : Nat} {x2 : Frame → Frame} : (s.setFrame x1 x2).faults = s.faults := rfl
@[simp] theorem setFrame_kiln {x1 : Nat} {x2 : Frame → Frame} : (s.setFrame x1 x2).kiln = s.kiln := rfl
@[simp] theorem setFrame_flow {x1 : Nat} {x2 : Frame → Frame} : (s.setFrame x1 x2).flow = s.flow := rfl
@[simp] theorem setFrame_flowServed {x1 : Nat} {x2 : Frame → Frame} : (s.setFrame x1 x2).flowServed = s.flowServed := rfl
@[simp] theorem setFrame_flowWaiting {x1 : Nat} {x2 : Frame → Frame} : (s.setFrame x1 x2).flowWaiting = s.flowWaiting := rfl
@[simp] theorem setFrame_atelier {x1 : Nat} {x2 : Frame → Frame} : (s.setFrame x1 x2).atelier = s.atelier := rfl
@[simp] theorem setFrame_timing {x1 : Nat} {x2 : Frame → Frame} : (s.setFrame x1 x2).timing = s.timing := rfl

/-! `State.setCopy` changes `copies` alone. -/

@[simp] theorem setCopy_pending {x1 : Nat} {x2 : Copy → Copy} : (s.setCopy x1 x2).pending = s.pending := rfl
@[simp] theorem setCopy_clock {x1 : Nat} {x2 : Copy → Copy} : (s.setCopy x1 x2).clock = s.clock := rfl
@[simp] theorem setCopy_timebase {x1 : Nat} {x2 : Copy → Copy} : (s.setCopy x1 x2).timebase = s.timebase := rfl
@[simp] theorem setCopy_freeIx {x1 : Nat} {x2 : Copy → Copy} : (s.setCopy x1 x2).freeIx = s.freeIx := rfl
@[simp] theorem setCopy_obj {x1 : Nat} {x2 : Copy → Copy} : (s.setCopy x1 x2).obj = s.obj := rfl
@[simp] theorem setCopy_dom {x1 : Nat} {x2 : Copy → Copy} : (s.setCopy x1 x2).dom = s.dom := rfl
@[simp] theorem setCopy_answer {x1 : Nat} {x2 : Copy → Copy} : (s.setCopy x1 x2).answer = s.answer := rfl
@[simp] theorem setCopy_boot {x1 : Nat} {x2 : Copy → Copy} : (s.setCopy x1 x2).boot = s.boot := rfl
@[simp] theorem setCopy_pins {x1 : Nat} {x2 : Copy → Copy} : (s.setCopy x1 x2).pins = s.pins := rfl
@[simp] theorem setCopy_sop {x1 : Nat} {x2 : Copy → Copy} : (s.setCopy x1 x2).sop = s.sop := rfl
@[simp] theorem setCopy_goals {x1 : Nat} {x2 : Copy → Copy} : (s.setCopy x1 x2).goals = s.goals := rfl
@[simp] theorem setCopy_frozen {x1 : Nat} {x2 : Copy → Copy} : (s.setCopy x1 x2).frozen = s.frozen := rfl
@[simp] theorem setCopy_frozenDom {x1 : Nat} {x2 : Copy → Copy} : (s.setCopy x1 x2).frozenDom = s.frozenDom := rfl
@[simp] theorem setCopy_ports {x1 : Nat} {x2 : Copy → Copy} : (s.setCopy x1 x2).ports = s.ports := rfl
@[simp] theorem setCopy_pipes {x1 : Nat} {x2 : Copy → Copy} : (s.setCopy x1 x2).pipes = s.pipes := rfl
@[simp] theorem setCopy_frames {x1 : Nat} {x2 : Copy → Copy} : (s.setCopy x1 x2).frames = s.frames := rfl
@[simp] theorem setCopy_nextId {x1 : Nat} {x2 : Copy → Copy} : (s.setCopy x1 x2).nextId = s.nextId := rfl
@[simp] theorem setCopy_captured {x1 : Nat} {x2 : Copy → Copy} : (s.setCopy x1 x2).captured = s.captured := rfl
@[simp] theorem setCopy_em {x1 : Nat} {x2 : Copy → Copy} : (s.setCopy x1 x2).em = s.em := rfl
@[simp] theorem setCopy_relief {x1 : Nat} {x2 : Copy → Copy} : (s.setCopy x1 x2).relief = s.relief := rfl
@[simp] theorem setCopy_versions {x1 : Nat} {x2 : Copy → Copy} : (s.setCopy x1 x2).versions = s.versions := rfl
@[simp] theorem setCopy_arm {x1 : Nat} {x2 : Copy → Copy} : (s.setCopy x1 x2).arm = s.arm := rfl
@[simp] theorem setCopy_queues {x1 : Nat} {x2 : Copy → Copy} : (s.setCopy x1 x2).queues = s.queues := rfl
@[simp] theorem setCopy_fabric {x1 : Nat} {x2 : Copy → Copy} : (s.setCopy x1 x2).fabric = s.fabric := rfl
@[simp] theorem setCopy_cipher {x1 : Nat} {x2 : Copy → Copy} : (s.setCopy x1 x2).cipher = s.cipher := rfl
@[simp] theorem setCopy_faults {x1 : Nat} {x2 : Copy → Copy} : (s.setCopy x1 x2).faults = s.faults := rfl
@[simp] theorem setCopy_kiln {x1 : Nat} {x2 : Copy → Copy} : (s.setCopy x1 x2).kiln = s.kiln := rfl
@[simp] theorem setCopy_flow {x1 : Nat} {x2 : Copy → Copy} : (s.setCopy x1 x2).flow = s.flow := rfl
@[simp] theorem setCopy_flowServed {x1 : Nat} {x2 : Copy → Copy} : (s.setCopy x1 x2).flowServed = s.flowServed := rfl
@[simp] theorem setCopy_flowWaiting {x1 : Nat} {x2 : Copy → Copy} : (s.setCopy x1 x2).flowWaiting = s.flowWaiting := rfl
@[simp] theorem setCopy_atelier {x1 : Nat} {x2 : Copy → Copy} : (s.setCopy x1 x2).atelier = s.atelier := rfl
@[simp] theorem setCopy_timing {x1 : Nat} {x2 : Copy → Copy} : (s.setCopy x1 x2).timing = s.timing := rfl

/-! `State.setSlot` changes `versions` alone. -/

@[simp] theorem setSlot_pending {x1 : Nat} {x2 : SlotSt → SlotSt} : (s.setSlot x1 x2).pending = s.pending := rfl
@[simp] theorem setSlot_clock {x1 : Nat} {x2 : SlotSt → SlotSt} : (s.setSlot x1 x2).clock = s.clock := rfl
@[simp] theorem setSlot_timebase {x1 : Nat} {x2 : SlotSt → SlotSt} : (s.setSlot x1 x2).timebase = s.timebase := rfl
@[simp] theorem setSlot_freeIx {x1 : Nat} {x2 : SlotSt → SlotSt} : (s.setSlot x1 x2).freeIx = s.freeIx := rfl
@[simp] theorem setSlot_obj {x1 : Nat} {x2 : SlotSt → SlotSt} : (s.setSlot x1 x2).obj = s.obj := rfl
@[simp] theorem setSlot_dom {x1 : Nat} {x2 : SlotSt → SlotSt} : (s.setSlot x1 x2).dom = s.dom := rfl
@[simp] theorem setSlot_answer {x1 : Nat} {x2 : SlotSt → SlotSt} : (s.setSlot x1 x2).answer = s.answer := rfl
@[simp] theorem setSlot_boot {x1 : Nat} {x2 : SlotSt → SlotSt} : (s.setSlot x1 x2).boot = s.boot := rfl
@[simp] theorem setSlot_pins {x1 : Nat} {x2 : SlotSt → SlotSt} : (s.setSlot x1 x2).pins = s.pins := rfl
@[simp] theorem setSlot_sop {x1 : Nat} {x2 : SlotSt → SlotSt} : (s.setSlot x1 x2).sop = s.sop := rfl
@[simp] theorem setSlot_goals {x1 : Nat} {x2 : SlotSt → SlotSt} : (s.setSlot x1 x2).goals = s.goals := rfl
@[simp] theorem setSlot_frozen {x1 : Nat} {x2 : SlotSt → SlotSt} : (s.setSlot x1 x2).frozen = s.frozen := rfl
@[simp] theorem setSlot_frozenDom {x1 : Nat} {x2 : SlotSt → SlotSt} : (s.setSlot x1 x2).frozenDom = s.frozenDom := rfl
@[simp] theorem setSlot_ports {x1 : Nat} {x2 : SlotSt → SlotSt} : (s.setSlot x1 x2).ports = s.ports := rfl
@[simp] theorem setSlot_pipes {x1 : Nat} {x2 : SlotSt → SlotSt} : (s.setSlot x1 x2).pipes = s.pipes := rfl
@[simp] theorem setSlot_frames {x1 : Nat} {x2 : SlotSt → SlotSt} : (s.setSlot x1 x2).frames = s.frames := rfl
@[simp] theorem setSlot_copies {x1 : Nat} {x2 : SlotSt → SlotSt} : (s.setSlot x1 x2).copies = s.copies := rfl
@[simp] theorem setSlot_nextId {x1 : Nat} {x2 : SlotSt → SlotSt} : (s.setSlot x1 x2).nextId = s.nextId := rfl
@[simp] theorem setSlot_captured {x1 : Nat} {x2 : SlotSt → SlotSt} : (s.setSlot x1 x2).captured = s.captured := rfl
@[simp] theorem setSlot_em {x1 : Nat} {x2 : SlotSt → SlotSt} : (s.setSlot x1 x2).em = s.em := rfl
@[simp] theorem setSlot_relief {x1 : Nat} {x2 : SlotSt → SlotSt} : (s.setSlot x1 x2).relief = s.relief := rfl
@[simp] theorem setSlot_arm {x1 : Nat} {x2 : SlotSt → SlotSt} : (s.setSlot x1 x2).arm = s.arm := rfl
@[simp] theorem setSlot_queues {x1 : Nat} {x2 : SlotSt → SlotSt} : (s.setSlot x1 x2).queues = s.queues := rfl
@[simp] theorem setSlot_fabric {x1 : Nat} {x2 : SlotSt → SlotSt} : (s.setSlot x1 x2).fabric = s.fabric := rfl
@[simp] theorem setSlot_cipher {x1 : Nat} {x2 : SlotSt → SlotSt} : (s.setSlot x1 x2).cipher = s.cipher := rfl
@[simp] theorem setSlot_faults {x1 : Nat} {x2 : SlotSt → SlotSt} : (s.setSlot x1 x2).faults = s.faults := rfl
@[simp] theorem setSlot_kiln {x1 : Nat} {x2 : SlotSt → SlotSt} : (s.setSlot x1 x2).kiln = s.kiln := rfl
@[simp] theorem setSlot_flow {x1 : Nat} {x2 : SlotSt → SlotSt} : (s.setSlot x1 x2).flow = s.flow := rfl
@[simp] theorem setSlot_flowServed {x1 : Nat} {x2 : SlotSt → SlotSt} : (s.setSlot x1 x2).flowServed = s.flowServed := rfl
@[simp] theorem setSlot_flowWaiting {x1 : Nat} {x2 : SlotSt → SlotSt} : (s.setSlot x1 x2).flowWaiting = s.flowWaiting := rfl
@[simp] theorem setSlot_atelier {x1 : Nat} {x2 : SlotSt → SlotSt} : (s.setSlot x1 x2).atelier = s.atelier := rfl
@[simp] theorem setSlot_timing {x1 : Nat} {x2 : SlotSt → SlotSt} : (s.setSlot x1 x2).timing = s.timing := rfl

/-! `State.setSeq` changes `atelier` alone. -/

@[simp] theorem setSeq_pending {x1 : Nat} {x2 : Machine.Seq → Machine.Seq} : (s.setSeq x1 x2).pending = s.pending := rfl
@[simp] theorem setSeq_clock {x1 : Nat} {x2 : Machine.Seq → Machine.Seq} : (s.setSeq x1 x2).clock = s.clock := rfl
@[simp] theorem setSeq_timebase {x1 : Nat} {x2 : Machine.Seq → Machine.Seq} : (s.setSeq x1 x2).timebase = s.timebase := rfl
@[simp] theorem setSeq_freeIx {x1 : Nat} {x2 : Machine.Seq → Machine.Seq} : (s.setSeq x1 x2).freeIx = s.freeIx := rfl
@[simp] theorem setSeq_obj {x1 : Nat} {x2 : Machine.Seq → Machine.Seq} : (s.setSeq x1 x2).obj = s.obj := rfl
@[simp] theorem setSeq_dom {x1 : Nat} {x2 : Machine.Seq → Machine.Seq} : (s.setSeq x1 x2).dom = s.dom := rfl
@[simp] theorem setSeq_answer {x1 : Nat} {x2 : Machine.Seq → Machine.Seq} : (s.setSeq x1 x2).answer = s.answer := rfl
@[simp] theorem setSeq_boot {x1 : Nat} {x2 : Machine.Seq → Machine.Seq} : (s.setSeq x1 x2).boot = s.boot := rfl
@[simp] theorem setSeq_pins {x1 : Nat} {x2 : Machine.Seq → Machine.Seq} : (s.setSeq x1 x2).pins = s.pins := rfl
@[simp] theorem setSeq_sop {x1 : Nat} {x2 : Machine.Seq → Machine.Seq} : (s.setSeq x1 x2).sop = s.sop := rfl
@[simp] theorem setSeq_goals {x1 : Nat} {x2 : Machine.Seq → Machine.Seq} : (s.setSeq x1 x2).goals = s.goals := rfl
@[simp] theorem setSeq_frozen {x1 : Nat} {x2 : Machine.Seq → Machine.Seq} : (s.setSeq x1 x2).frozen = s.frozen := rfl
@[simp] theorem setSeq_frozenDom {x1 : Nat} {x2 : Machine.Seq → Machine.Seq} : (s.setSeq x1 x2).frozenDom = s.frozenDom := rfl
@[simp] theorem setSeq_ports {x1 : Nat} {x2 : Machine.Seq → Machine.Seq} : (s.setSeq x1 x2).ports = s.ports := rfl
@[simp] theorem setSeq_pipes {x1 : Nat} {x2 : Machine.Seq → Machine.Seq} : (s.setSeq x1 x2).pipes = s.pipes := rfl
@[simp] theorem setSeq_frames {x1 : Nat} {x2 : Machine.Seq → Machine.Seq} : (s.setSeq x1 x2).frames = s.frames := rfl
@[simp] theorem setSeq_copies {x1 : Nat} {x2 : Machine.Seq → Machine.Seq} : (s.setSeq x1 x2).copies = s.copies := rfl
@[simp] theorem setSeq_nextId {x1 : Nat} {x2 : Machine.Seq → Machine.Seq} : (s.setSeq x1 x2).nextId = s.nextId := rfl
@[simp] theorem setSeq_captured {x1 : Nat} {x2 : Machine.Seq → Machine.Seq} : (s.setSeq x1 x2).captured = s.captured := rfl
@[simp] theorem setSeq_em {x1 : Nat} {x2 : Machine.Seq → Machine.Seq} : (s.setSeq x1 x2).em = s.em := rfl
@[simp] theorem setSeq_relief {x1 : Nat} {x2 : Machine.Seq → Machine.Seq} : (s.setSeq x1 x2).relief = s.relief := rfl
@[simp] theorem setSeq_versions {x1 : Nat} {x2 : Machine.Seq → Machine.Seq} : (s.setSeq x1 x2).versions = s.versions := rfl
@[simp] theorem setSeq_arm {x1 : Nat} {x2 : Machine.Seq → Machine.Seq} : (s.setSeq x1 x2).arm = s.arm := rfl
@[simp] theorem setSeq_queues {x1 : Nat} {x2 : Machine.Seq → Machine.Seq} : (s.setSeq x1 x2).queues = s.queues := rfl
@[simp] theorem setSeq_fabric {x1 : Nat} {x2 : Machine.Seq → Machine.Seq} : (s.setSeq x1 x2).fabric = s.fabric := rfl
@[simp] theorem setSeq_cipher {x1 : Nat} {x2 : Machine.Seq → Machine.Seq} : (s.setSeq x1 x2).cipher = s.cipher := rfl
@[simp] theorem setSeq_faults {x1 : Nat} {x2 : Machine.Seq → Machine.Seq} : (s.setSeq x1 x2).faults = s.faults := rfl
@[simp] theorem setSeq_kiln {x1 : Nat} {x2 : Machine.Seq → Machine.Seq} : (s.setSeq x1 x2).kiln = s.kiln := rfl
@[simp] theorem setSeq_flow {x1 : Nat} {x2 : Machine.Seq → Machine.Seq} : (s.setSeq x1 x2).flow = s.flow := rfl
@[simp] theorem setSeq_flowServed {x1 : Nat} {x2 : Machine.Seq → Machine.Seq} : (s.setSeq x1 x2).flowServed = s.flowServed := rfl
@[simp] theorem setSeq_flowWaiting {x1 : Nat} {x2 : Machine.Seq → Machine.Seq} : (s.setSeq x1 x2).flowWaiting = s.flowWaiting := rfl
@[simp] theorem setSeq_timing {x1 : Nat} {x2 : Machine.Seq → Machine.Seq} : (s.setSeq x1 x2).timing = s.timing := rfl

/-! `State.setSession` changes `sop` alone. -/

@[simp] theorem setSession_pending {x1 : Nat} {x2 : Session → Session} : (s.setSession x1 x2).pending = s.pending := rfl
@[simp] theorem setSession_clock {x1 : Nat} {x2 : Session → Session} : (s.setSession x1 x2).clock = s.clock := rfl
@[simp] theorem setSession_timebase {x1 : Nat} {x2 : Session → Session} : (s.setSession x1 x2).timebase = s.timebase := rfl
@[simp] theorem setSession_freeIx {x1 : Nat} {x2 : Session → Session} : (s.setSession x1 x2).freeIx = s.freeIx := rfl
@[simp] theorem setSession_obj {x1 : Nat} {x2 : Session → Session} : (s.setSession x1 x2).obj = s.obj := rfl
@[simp] theorem setSession_dom {x1 : Nat} {x2 : Session → Session} : (s.setSession x1 x2).dom = s.dom := rfl
@[simp] theorem setSession_answer {x1 : Nat} {x2 : Session → Session} : (s.setSession x1 x2).answer = s.answer := rfl
@[simp] theorem setSession_boot {x1 : Nat} {x2 : Session → Session} : (s.setSession x1 x2).boot = s.boot := rfl
@[simp] theorem setSession_pins {x1 : Nat} {x2 : Session → Session} : (s.setSession x1 x2).pins = s.pins := rfl
@[simp] theorem setSession_goals {x1 : Nat} {x2 : Session → Session} : (s.setSession x1 x2).goals = s.goals := rfl
@[simp] theorem setSession_frozen {x1 : Nat} {x2 : Session → Session} : (s.setSession x1 x2).frozen = s.frozen := rfl
@[simp] theorem setSession_frozenDom {x1 : Nat} {x2 : Session → Session} : (s.setSession x1 x2).frozenDom = s.frozenDom := rfl
@[simp] theorem setSession_ports {x1 : Nat} {x2 : Session → Session} : (s.setSession x1 x2).ports = s.ports := rfl
@[simp] theorem setSession_pipes {x1 : Nat} {x2 : Session → Session} : (s.setSession x1 x2).pipes = s.pipes := rfl
@[simp] theorem setSession_frames {x1 : Nat} {x2 : Session → Session} : (s.setSession x1 x2).frames = s.frames := rfl
@[simp] theorem setSession_copies {x1 : Nat} {x2 : Session → Session} : (s.setSession x1 x2).copies = s.copies := rfl
@[simp] theorem setSession_nextId {x1 : Nat} {x2 : Session → Session} : (s.setSession x1 x2).nextId = s.nextId := rfl
@[simp] theorem setSession_captured {x1 : Nat} {x2 : Session → Session} : (s.setSession x1 x2).captured = s.captured := rfl
@[simp] theorem setSession_em {x1 : Nat} {x2 : Session → Session} : (s.setSession x1 x2).em = s.em := rfl
@[simp] theorem setSession_relief {x1 : Nat} {x2 : Session → Session} : (s.setSession x1 x2).relief = s.relief := rfl
@[simp] theorem setSession_versions {x1 : Nat} {x2 : Session → Session} : (s.setSession x1 x2).versions = s.versions := rfl
@[simp] theorem setSession_arm {x1 : Nat} {x2 : Session → Session} : (s.setSession x1 x2).arm = s.arm := rfl
@[simp] theorem setSession_queues {x1 : Nat} {x2 : Session → Session} : (s.setSession x1 x2).queues = s.queues := rfl
@[simp] theorem setSession_fabric {x1 : Nat} {x2 : Session → Session} : (s.setSession x1 x2).fabric = s.fabric := rfl
@[simp] theorem setSession_cipher {x1 : Nat} {x2 : Session → Session} : (s.setSession x1 x2).cipher = s.cipher := rfl
@[simp] theorem setSession_faults {x1 : Nat} {x2 : Session → Session} : (s.setSession x1 x2).faults = s.faults := rfl
@[simp] theorem setSession_kiln {x1 : Nat} {x2 : Session → Session} : (s.setSession x1 x2).kiln = s.kiln := rfl
@[simp] theorem setSession_flow {x1 : Nat} {x2 : Session → Session} : (s.setSession x1 x2).flow = s.flow := rfl
@[simp] theorem setSession_flowServed {x1 : Nat} {x2 : Session → Session} : (s.setSession x1 x2).flowServed = s.flowServed := rfl
@[simp] theorem setSession_flowWaiting {x1 : Nat} {x2 : Session → Session} : (s.setSession x1 x2).flowWaiting = s.flowWaiting := rfl
@[simp] theorem setSession_atelier {x1 : Nat} {x2 : Session → Session} : (s.setSession x1 x2).atelier = s.atelier := rfl
@[simp] theorem setSession_timing {x1 : Nat} {x2 : Session → Session} : (s.setSession x1 x2).timing = s.timing := rfl

/-! `State.setUnit` changes `faults` alone. -/

@[simp] theorem setUnit_pending {x1 : Nat} {x2 : UnitSt → UnitSt} : (s.setUnit x1 x2).pending = s.pending := rfl
@[simp] theorem setUnit_clock {x1 : Nat} {x2 : UnitSt → UnitSt} : (s.setUnit x1 x2).clock = s.clock := rfl
@[simp] theorem setUnit_timebase {x1 : Nat} {x2 : UnitSt → UnitSt} : (s.setUnit x1 x2).timebase = s.timebase := rfl
@[simp] theorem setUnit_freeIx {x1 : Nat} {x2 : UnitSt → UnitSt} : (s.setUnit x1 x2).freeIx = s.freeIx := rfl
@[simp] theorem setUnit_obj {x1 : Nat} {x2 : UnitSt → UnitSt} : (s.setUnit x1 x2).obj = s.obj := rfl
@[simp] theorem setUnit_dom {x1 : Nat} {x2 : UnitSt → UnitSt} : (s.setUnit x1 x2).dom = s.dom := rfl
@[simp] theorem setUnit_answer {x1 : Nat} {x2 : UnitSt → UnitSt} : (s.setUnit x1 x2).answer = s.answer := rfl
@[simp] theorem setUnit_boot {x1 : Nat} {x2 : UnitSt → UnitSt} : (s.setUnit x1 x2).boot = s.boot := rfl
@[simp] theorem setUnit_pins {x1 : Nat} {x2 : UnitSt → UnitSt} : (s.setUnit x1 x2).pins = s.pins := rfl
@[simp] theorem setUnit_sop {x1 : Nat} {x2 : UnitSt → UnitSt} : (s.setUnit x1 x2).sop = s.sop := rfl
@[simp] theorem setUnit_goals {x1 : Nat} {x2 : UnitSt → UnitSt} : (s.setUnit x1 x2).goals = s.goals := rfl
@[simp] theorem setUnit_frozen {x1 : Nat} {x2 : UnitSt → UnitSt} : (s.setUnit x1 x2).frozen = s.frozen := rfl
@[simp] theorem setUnit_frozenDom {x1 : Nat} {x2 : UnitSt → UnitSt} : (s.setUnit x1 x2).frozenDom = s.frozenDom := rfl
@[simp] theorem setUnit_ports {x1 : Nat} {x2 : UnitSt → UnitSt} : (s.setUnit x1 x2).ports = s.ports := rfl
@[simp] theorem setUnit_pipes {x1 : Nat} {x2 : UnitSt → UnitSt} : (s.setUnit x1 x2).pipes = s.pipes := rfl
@[simp] theorem setUnit_frames {x1 : Nat} {x2 : UnitSt → UnitSt} : (s.setUnit x1 x2).frames = s.frames := rfl
@[simp] theorem setUnit_copies {x1 : Nat} {x2 : UnitSt → UnitSt} : (s.setUnit x1 x2).copies = s.copies := rfl
@[simp] theorem setUnit_nextId {x1 : Nat} {x2 : UnitSt → UnitSt} : (s.setUnit x1 x2).nextId = s.nextId := rfl
@[simp] theorem setUnit_captured {x1 : Nat} {x2 : UnitSt → UnitSt} : (s.setUnit x1 x2).captured = s.captured := rfl
@[simp] theorem setUnit_em {x1 : Nat} {x2 : UnitSt → UnitSt} : (s.setUnit x1 x2).em = s.em := rfl
@[simp] theorem setUnit_relief {x1 : Nat} {x2 : UnitSt → UnitSt} : (s.setUnit x1 x2).relief = s.relief := rfl
@[simp] theorem setUnit_versions {x1 : Nat} {x2 : UnitSt → UnitSt} : (s.setUnit x1 x2).versions = s.versions := rfl
@[simp] theorem setUnit_arm {x1 : Nat} {x2 : UnitSt → UnitSt} : (s.setUnit x1 x2).arm = s.arm := rfl
@[simp] theorem setUnit_queues {x1 : Nat} {x2 : UnitSt → UnitSt} : (s.setUnit x1 x2).queues = s.queues := rfl
@[simp] theorem setUnit_fabric {x1 : Nat} {x2 : UnitSt → UnitSt} : (s.setUnit x1 x2).fabric = s.fabric := rfl
@[simp] theorem setUnit_cipher {x1 : Nat} {x2 : UnitSt → UnitSt} : (s.setUnit x1 x2).cipher = s.cipher := rfl
@[simp] theorem setUnit_kiln {x1 : Nat} {x2 : UnitSt → UnitSt} : (s.setUnit x1 x2).kiln = s.kiln := rfl
@[simp] theorem setUnit_flow {x1 : Nat} {x2 : UnitSt → UnitSt} : (s.setUnit x1 x2).flow = s.flow := rfl
@[simp] theorem setUnit_flowServed {x1 : Nat} {x2 : UnitSt → UnitSt} : (s.setUnit x1 x2).flowServed = s.flowServed := rfl
@[simp] theorem setUnit_flowWaiting {x1 : Nat} {x2 : UnitSt → UnitSt} : (s.setUnit x1 x2).flowWaiting = s.flowWaiting := rfl
@[simp] theorem setUnit_atelier {x1 : Nat} {x2 : UnitSt → UnitSt} : (s.setUnit x1 x2).atelier = s.atelier := rfl
@[simp] theorem setUnit_timing {x1 : Nat} {x2 : UnitSt → UnitSt} : (s.setUnit x1 x2).timing = s.timing := rfl

/-! `State.setLane` changes `fabric` alone. -/

@[simp] theorem setLane_pending {x1 : Nat} {x2 : FLane → FLane} : (s.setLane x1 x2).pending = s.pending := rfl
@[simp] theorem setLane_clock {x1 : Nat} {x2 : FLane → FLane} : (s.setLane x1 x2).clock = s.clock := rfl
@[simp] theorem setLane_timebase {x1 : Nat} {x2 : FLane → FLane} : (s.setLane x1 x2).timebase = s.timebase := rfl
@[simp] theorem setLane_freeIx {x1 : Nat} {x2 : FLane → FLane} : (s.setLane x1 x2).freeIx = s.freeIx := rfl
@[simp] theorem setLane_obj {x1 : Nat} {x2 : FLane → FLane} : (s.setLane x1 x2).obj = s.obj := rfl
@[simp] theorem setLane_dom {x1 : Nat} {x2 : FLane → FLane} : (s.setLane x1 x2).dom = s.dom := rfl
@[simp] theorem setLane_answer {x1 : Nat} {x2 : FLane → FLane} : (s.setLane x1 x2).answer = s.answer := rfl
@[simp] theorem setLane_boot {x1 : Nat} {x2 : FLane → FLane} : (s.setLane x1 x2).boot = s.boot := rfl
@[simp] theorem setLane_pins {x1 : Nat} {x2 : FLane → FLane} : (s.setLane x1 x2).pins = s.pins := rfl
@[simp] theorem setLane_sop {x1 : Nat} {x2 : FLane → FLane} : (s.setLane x1 x2).sop = s.sop := rfl
@[simp] theorem setLane_goals {x1 : Nat} {x2 : FLane → FLane} : (s.setLane x1 x2).goals = s.goals := rfl
@[simp] theorem setLane_frozen {x1 : Nat} {x2 : FLane → FLane} : (s.setLane x1 x2).frozen = s.frozen := rfl
@[simp] theorem setLane_frozenDom {x1 : Nat} {x2 : FLane → FLane} : (s.setLane x1 x2).frozenDom = s.frozenDom := rfl
@[simp] theorem setLane_ports {x1 : Nat} {x2 : FLane → FLane} : (s.setLane x1 x2).ports = s.ports := rfl
@[simp] theorem setLane_pipes {x1 : Nat} {x2 : FLane → FLane} : (s.setLane x1 x2).pipes = s.pipes := rfl
@[simp] theorem setLane_frames {x1 : Nat} {x2 : FLane → FLane} : (s.setLane x1 x2).frames = s.frames := rfl
@[simp] theorem setLane_copies {x1 : Nat} {x2 : FLane → FLane} : (s.setLane x1 x2).copies = s.copies := rfl
@[simp] theorem setLane_nextId {x1 : Nat} {x2 : FLane → FLane} : (s.setLane x1 x2).nextId = s.nextId := rfl
@[simp] theorem setLane_captured {x1 : Nat} {x2 : FLane → FLane} : (s.setLane x1 x2).captured = s.captured := rfl
@[simp] theorem setLane_em {x1 : Nat} {x2 : FLane → FLane} : (s.setLane x1 x2).em = s.em := rfl
@[simp] theorem setLane_relief {x1 : Nat} {x2 : FLane → FLane} : (s.setLane x1 x2).relief = s.relief := rfl
@[simp] theorem setLane_versions {x1 : Nat} {x2 : FLane → FLane} : (s.setLane x1 x2).versions = s.versions := rfl
@[simp] theorem setLane_arm {x1 : Nat} {x2 : FLane → FLane} : (s.setLane x1 x2).arm = s.arm := rfl
@[simp] theorem setLane_queues {x1 : Nat} {x2 : FLane → FLane} : (s.setLane x1 x2).queues = s.queues := rfl
@[simp] theorem setLane_cipher {x1 : Nat} {x2 : FLane → FLane} : (s.setLane x1 x2).cipher = s.cipher := rfl
@[simp] theorem setLane_faults {x1 : Nat} {x2 : FLane → FLane} : (s.setLane x1 x2).faults = s.faults := rfl
@[simp] theorem setLane_kiln {x1 : Nat} {x2 : FLane → FLane} : (s.setLane x1 x2).kiln = s.kiln := rfl
@[simp] theorem setLane_flow {x1 : Nat} {x2 : FLane → FLane} : (s.setLane x1 x2).flow = s.flow := rfl
@[simp] theorem setLane_flowServed {x1 : Nat} {x2 : FLane → FLane} : (s.setLane x1 x2).flowServed = s.flowServed := rfl
@[simp] theorem setLane_flowWaiting {x1 : Nat} {x2 : FLane → FLane} : (s.setLane x1 x2).flowWaiting = s.flowWaiting := rfl
@[simp] theorem setLane_atelier {x1 : Nat} {x2 : FLane → FLane} : (s.setLane x1 x2).atelier = s.atelier := rfl
@[simp] theorem setLane_timing {x1 : Nat} {x2 : FLane → FLane} : (s.setLane x1 x2).timing = s.timing := rfl

/-! `State.putNode` changes `queues` alone. -/

@[simp] theorem putNode_pending {x1 : Nat} {x2 : Nat} {x3 : Node} : (s.putNode x1 x2 x3).pending = s.pending := rfl
@[simp] theorem putNode_clock {x1 : Nat} {x2 : Nat} {x3 : Node} : (s.putNode x1 x2 x3).clock = s.clock := rfl
@[simp] theorem putNode_timebase {x1 : Nat} {x2 : Nat} {x3 : Node} : (s.putNode x1 x2 x3).timebase = s.timebase := rfl
@[simp] theorem putNode_freeIx {x1 : Nat} {x2 : Nat} {x3 : Node} : (s.putNode x1 x2 x3).freeIx = s.freeIx := rfl
@[simp] theorem putNode_obj {x1 : Nat} {x2 : Nat} {x3 : Node} : (s.putNode x1 x2 x3).obj = s.obj := rfl
@[simp] theorem putNode_dom {x1 : Nat} {x2 : Nat} {x3 : Node} : (s.putNode x1 x2 x3).dom = s.dom := rfl
@[simp] theorem putNode_answer {x1 : Nat} {x2 : Nat} {x3 : Node} : (s.putNode x1 x2 x3).answer = s.answer := rfl
@[simp] theorem putNode_boot {x1 : Nat} {x2 : Nat} {x3 : Node} : (s.putNode x1 x2 x3).boot = s.boot := rfl
@[simp] theorem putNode_pins {x1 : Nat} {x2 : Nat} {x3 : Node} : (s.putNode x1 x2 x3).pins = s.pins := rfl
@[simp] theorem putNode_sop {x1 : Nat} {x2 : Nat} {x3 : Node} : (s.putNode x1 x2 x3).sop = s.sop := rfl
@[simp] theorem putNode_goals {x1 : Nat} {x2 : Nat} {x3 : Node} : (s.putNode x1 x2 x3).goals = s.goals := rfl
@[simp] theorem putNode_frozen {x1 : Nat} {x2 : Nat} {x3 : Node} : (s.putNode x1 x2 x3).frozen = s.frozen := rfl
@[simp] theorem putNode_frozenDom {x1 : Nat} {x2 : Nat} {x3 : Node} : (s.putNode x1 x2 x3).frozenDom = s.frozenDom := rfl
@[simp] theorem putNode_ports {x1 : Nat} {x2 : Nat} {x3 : Node} : (s.putNode x1 x2 x3).ports = s.ports := rfl
@[simp] theorem putNode_pipes {x1 : Nat} {x2 : Nat} {x3 : Node} : (s.putNode x1 x2 x3).pipes = s.pipes := rfl
@[simp] theorem putNode_frames {x1 : Nat} {x2 : Nat} {x3 : Node} : (s.putNode x1 x2 x3).frames = s.frames := rfl
@[simp] theorem putNode_copies {x1 : Nat} {x2 : Nat} {x3 : Node} : (s.putNode x1 x2 x3).copies = s.copies := rfl
@[simp] theorem putNode_nextId {x1 : Nat} {x2 : Nat} {x3 : Node} : (s.putNode x1 x2 x3).nextId = s.nextId := rfl
@[simp] theorem putNode_captured {x1 : Nat} {x2 : Nat} {x3 : Node} : (s.putNode x1 x2 x3).captured = s.captured := rfl
@[simp] theorem putNode_em {x1 : Nat} {x2 : Nat} {x3 : Node} : (s.putNode x1 x2 x3).em = s.em := rfl
@[simp] theorem putNode_relief {x1 : Nat} {x2 : Nat} {x3 : Node} : (s.putNode x1 x2 x3).relief = s.relief := rfl
@[simp] theorem putNode_versions {x1 : Nat} {x2 : Nat} {x3 : Node} : (s.putNode x1 x2 x3).versions = s.versions := rfl
@[simp] theorem putNode_arm {x1 : Nat} {x2 : Nat} {x3 : Node} : (s.putNode x1 x2 x3).arm = s.arm := rfl
@[simp] theorem putNode_fabric {x1 : Nat} {x2 : Nat} {x3 : Node} : (s.putNode x1 x2 x3).fabric = s.fabric := rfl
@[simp] theorem putNode_cipher {x1 : Nat} {x2 : Nat} {x3 : Node} : (s.putNode x1 x2 x3).cipher = s.cipher := rfl
@[simp] theorem putNode_faults {x1 : Nat} {x2 : Nat} {x3 : Node} : (s.putNode x1 x2 x3).faults = s.faults := rfl
@[simp] theorem putNode_kiln {x1 : Nat} {x2 : Nat} {x3 : Node} : (s.putNode x1 x2 x3).kiln = s.kiln := rfl
@[simp] theorem putNode_flow {x1 : Nat} {x2 : Nat} {x3 : Node} : (s.putNode x1 x2 x3).flow = s.flow := rfl
@[simp] theorem putNode_flowServed {x1 : Nat} {x2 : Nat} {x3 : Node} : (s.putNode x1 x2 x3).flowServed = s.flowServed := rfl
@[simp] theorem putNode_flowWaiting {x1 : Nat} {x2 : Nat} {x3 : Node} : (s.putNode x1 x2 x3).flowWaiting = s.flowWaiting := rfl
@[simp] theorem putNode_atelier {x1 : Nat} {x2 : Nat} {x3 : Node} : (s.putNode x1 x2 x3).atelier = s.atelier := rfl
@[simp] theorem putNode_timing {x1 : Nat} {x2 : Nat} {x3 : Node} : (s.putNode x1 x2 x3).timing = s.timing := rfl

/-! What an object reads. -/

/-- An object set reads as what it was set to, and every other as before. -/
theorem obj?_put {k v j : Nat} (h : Sparse.wf Dict.reset s.obj = true) : (s.put k v).obj? j = if j = k then v else s.obj? j :=
  sparse_get_set h

@[simp] theorem obj?_put_self {k v : Nat} (h : Sparse.wf Dict.reset s.obj = true) : (s.put k v).obj? k = v := by
  rw [obj?_put h, if_pos rfl]

theorem obj?_put_ne {k v j : Nat} (h : Sparse.wf Dict.reset s.obj = true) (hj : j ≠ k) : (s.put k v).obj? j = s.obj? j := by
  rw [obj?_put h, if_neg hj]

theorem put_wf {k v : Nat} (h : Sparse.wf Dict.reset s.obj = true) : Sparse.wf Dict.reset (s.put k v).obj = true := sparse_set_wf h

@[simp] theorem putBytes_obj? {x1 : Nat} {x2 : Nat} {x3 : List Byte} {k : Nat} : (s.putBytes x1 x2 x3).obj? k = s.obj? k := rfl
@[simp] theorem putRecord_obj? {x1 : Nat} {x2 : Nat} {x3 : Nat} {x4 : Nat} {k : Nat} : (s.putRecord x1 x2 x3 x4).obj? k = s.obj? k := rfl
@[simp] theorem setPort_obj? {x1 : Nat} {x2 : PortSt → PortSt} {k : Nat} : (s.setPort x1 x2).obj? k = s.obj? k := rfl
@[simp] theorem setPipe_obj? {x1 : Nat} {x2 : PipeSt → PipeSt} {k : Nat} : (s.setPipe x1 x2).obj? k = s.obj? k := rfl
@[simp] theorem setFrame_obj? {x1 : Nat} {x2 : Frame → Frame} {k : Nat} : (s.setFrame x1 x2).obj? k = s.obj? k := rfl
@[simp] theorem setCopy_obj? {x1 : Nat} {x2 : Copy → Copy} {k : Nat} : (s.setCopy x1 x2).obj? k = s.obj? k := rfl
@[simp] theorem setSlot_obj? {x1 : Nat} {x2 : SlotSt → SlotSt} {k : Nat} : (s.setSlot x1 x2).obj? k = s.obj? k := rfl
@[simp] theorem setSeq_obj? {x1 : Nat} {x2 : Machine.Seq → Machine.Seq} {k : Nat} : (s.setSeq x1 x2).obj? k = s.obj? k := rfl
@[simp] theorem setSession_obj? {x1 : Nat} {x2 : Session → Session} {k : Nat} : (s.setSession x1 x2).obj? k = s.obj? k := rfl
@[simp] theorem setUnit_obj? {x1 : Nat} {x2 : UnitSt → UnitSt} {k : Nat} : (s.setUnit x1 x2).obj? k = s.obj? k := rfl
@[simp] theorem setLane_obj? {x1 : Nat} {x2 : FLane → FLane} {k : Nat} : (s.setLane x1 x2).obj? k = s.obj? k := rfl
@[simp] theorem putNode_obj? {x1 : Nat} {x2 : Nat} {x3 : Node} {k : Nat} : (s.putNode x1 x2 x3).obj? k = s.obj? k := rfl

end Sys2Proof.Laws
end

