-- ==== Sys2Proof/Laws/Effects.lean ====
section
/-! SUPPORT. What an object reads after the shared operations that write several: flags, counters, rings, the Patina and the steps of
a reset sequence. -/

namespace Sys2Proof.Laws

open Sys2Proof.Machine

variable {s t : State}

/-- States with the same objects read alike. -/
theorem obj?_congr (h : s.obj = t.obj) (k : Nat) : s.obj? k = t.obj? k := by
  unfold State.obj?
  rw [h]

theorem obj?_flag {k n j : Nat} (h : Sparse.wf Dict.reset s.obj = true) :
    (s.flag k n).obj? j = if j = k then setBit (s.obj? k) n else s.obj? j := obj?_put h

theorem obj?_clearFlags {k v j : Nat} (h : Sparse.wf Dict.reset s.obj = true) :
    (s.clearFlags k v).obj? j = if j = k then clearBits (s.obj? k) v else s.obj? j := obj?_put h

theorem obj?_bump32 {k j : Nat} (h : Sparse.wf Dict.reset s.obj = true) :
    (s.bump32 k).obj? j = if j = k then satAdd 32 (s.obj? k) 1 else s.obj? j := obj?_put h

theorem flag_wf {k n : Nat} (h : Sparse.wf Dict.reset s.obj = true) : Sparse.wf Dict.reset (s.flag k n).obj = true := put_wf h

theorem bump32_wf {k : Nat} (h : Sparse.wf Dict.reset s.obj = true) : Sparse.wf Dict.reset (s.bump32 k).obj = true := put_wf h

theorem bit_setBit (v n : Nat) : bit (setBit v n) n = true := by
  unfold setBit
  split
  · assumption
  · rename_i h
    have : 0 < 2 ^ n := Nat.two_pow_pos n
    simp only [bit, beq_iff_eq] at *
    rw [Nat.add_div_right _ this]
    omega

/-- A record written to a ring touches the ring's HEAD, its drop counter and its status alone. -/
theorem obj?_ringPush {r k : Nat} {b : List Byte} (hw : Sparse.wf Dict.reset s.obj = true) (h1 : k ≠ Obj.ringHead r)
    (h2 : k ≠ Obj.ringDropped r) (h3 : k ≠ Obj.ringStatus r) : (s.ringPush r b).obj? k = s.obj? k := by
  unfold State.ringPush
  split
  · rw [obj?_flag (bump32_wf hw), if_neg h3, obj?_bump32 hw, if_neg h2]
  · dsimp only
    rw [obj?_put_ne (by exact hw) h1]
    exact obj?_congr rfl k

theorem ringPush_wf {r : Nat} {b : List Byte} (hw : Sparse.wf Dict.reset s.obj = true) :
    Sparse.wf Dict.reset (s.ringPush r b).obj = true := by
  unfold State.ringPush
  split
  · exact flag_wf (bump32_wf hw)
  · exact put_wf hw

/-- A record of the Patina touches ring 5 alone. -/
theorem obj?_log {e : Trouble} {k : Nat} (hw : Sparse.wf Dict.reset s.obj = true)
    (h : k ∉ [Obj.ringHead 5, Obj.ringDropped 5, Obj.ringStatus 5]) : (s.log e).obj? k = s.obj? k := by
  simp only [List.mem_cons, not_or] at h
  exact (obj?_congr (t := s.ringPush 5 _) rfl k).trans (obj?_ringPush hw h.1 h.2.1 h.2.2.1)

theorem log_wf {e : Trouble} (hw : Sparse.wf Dict.reset s.obj = true) : Sparse.wf Dict.reset (s.log e).obj = true :=
  ringPush_wf hw

theorem obj?_bootTo {step : BootStep} {c k : Nat} (hw : Sparse.wf Dict.reset s.obj = true) :
    (s.bootTo step c).obj? k = if k = Obj.bootState then c else s.obj? k := by
  rw [State.bootTo, obj?_put (by exact hw)]
  split
  · rfl
  · exact obj?_congr rfl k

theorem bootTo_wf {step : BootStep} {c : Nat} (hw : Sparse.wf Dict.reset s.obj = true) :
    Sparse.wf Dict.reset (s.bootTo step c).obj = true := put_wf (by exact hw)

/-- A map with some keys taken out. -/
theorem find?_filter {p : Nat × Nat → Bool} {P : Nat → Bool} (hp : ∀ e, p e = P e.1) (m : List (Nat × Nat)) (k : Nat) :
    Sparse.find? (m.filter p) k = if P k then Sparse.find? m k else none := by
  induction m with
  | nil => simp [Sparse.find?]
  | cons e m ih =>
    obtain ⟨a, v⟩ := e
    by_cases h : p (a, v)
    · rw [List.filter_cons_of_pos h]
      simp only [Sparse.find?]
      have := hp (a, v)
      split
      · subst_vars; simp [← this, h]
      · exact ih
    · rw [List.filter_cons_of_neg h, ih]
      simp only [Sparse.find?]
      have := hp (a, v)
      by_cases ka : k = a
      · subst ka; simp only [] at this; simp [← this, h]
      · simp [ka]

end Sys2Proof.Laws
end

