-- ==== Sys2Proof/Laws/Holds.lean ====
section
/-! SUPPORT. What every operation of the block keeps, said once: its shape, the order of its version slots, its queue and its fuses;
and that free values are taken in order. -/

namespace Sys2Proof.Laws

open Sys2Proof.Machine Sys2Proof.Safety

/-- A state of the right shape with the queue `q` and the life-cycle code `f`, in which at least `n` free values have been taken. -/
structure Holds (q : List Instr) (f n : Nat) (s : State) : Prop where
  obj : Sparse.wf Dict.reset s.obj = true
  dom : Sparse.wf Defaults.dom s.dom = true
  ports : s.ports.length = 128
  pipes : s.pipes.length = 17
  sessions : s.sop.sessions.length = 8
  versions : SlotsGood s.versions
  lanes : s.fabric.lanes.length = 160
  seqs : s.atelier.seqs.length = 8
  pending : s.pending = q
  fuses : s.boot.fuses = f
  free : n ≤ s.freeIx

variable {q : List Instr} {f n : Nat} {s t : State}

/-- What a state shares with one of the kind. -/
theorem Holds.same (h : Holds q f n s) (e1 : t.obj = s.obj) (e2 : t.dom = s.dom) (e3 : t.ports = s.ports)
    (e4 : t.pipes = s.pipes) (e5 : t.sop.sessions = s.sop.sessions) (e6 : t.versions = s.versions)
    (e7 : t.fabric.lanes = s.fabric.lanes) (e8 : t.atelier.seqs = s.atelier.seqs) (e9 : t.pending = s.pending)
    (e10 : t.boot.fuses = s.boot.fuses) (e11 : t.freeIx = s.freeIx) : Holds q f n t :=
  ⟨e1 ▸ h.obj, e2 ▸ h.dom, e3 ▸ h.ports, e4 ▸ h.pipes, e5 ▸ h.sessions, e6 ▸ h.versions, e7 ▸ h.lanes, e8 ▸ h.seqs, e9 ▸ h.pending,
    e10 ▸ h.fuses, e11 ▸ h.free⟩

/-- The parts of a state that `Holds` speaks of. -/
structure Parts (q : List Instr) (f n : Nat) (obj : List (Nat × Nat)) (dom : List Host.Cell) (ports : List PortSt)
    (pipes : List PipeSt) (sessions : List Session) (versions : Versions) (lanes : List FLane) (seqs : List Seq)
    (pending : List Instr) (fuses freeIx : Nat) : Prop where
  obj : Sparse.wf Dict.reset obj = true
  dom : Sparse.wf Defaults.dom dom = true
  ports : ports.length = 128
  pipes : pipes.length = 17
  sessions : sessions.length = 8
  versions : SlotsGood versions
  lanes : lanes.length = 160
  seqs : seqs.length = 8
  pending : pending = q
  fuses : fuses = f
  free : n ≤ freeIx

theorem Holds.parts (h : Holds q f n s) : Parts q f n s.obj s.dom s.ports s.pipes s.sop.sessions s.versions s.fabric.lanes
    s.atelier.seqs s.pending s.boot.fuses s.freeIx :=
  ⟨h.obj, h.dom, h.ports, h.pipes, h.sessions, h.versions, h.lanes, h.seqs, h.pending, h.fuses, h.free⟩

theorem holds_mk {pending : List Instr} {clock : Nat} {timebase : Int} {freeIx : Nat} {obj : List (Nat × Nat)} {dom : List Host.Cell}
    {answer : Answer} {boot : Boot} {pins : Pins} {sop : Sop} {goals : List (Nat × FnGoal)} {frozen : List (Nat × Nat)}
    {frozenDom : List Host.Cell} {ports : List PortSt} {pipes : List PipeSt} {frames : List Frame} {copies : List Copy} {nextId : Nat}
    {captured : Option Nat} {em : Em} {relief : Relief} {versions : Versions} {arm : Armature} {queues : Queues} {fabric : Fabric}
    {cipher : Cipher} {faults : Faults} {kiln : Kiln} {flow : List (Nat × FlowLine)}
    {flowServed : List Nat} {flowWaiting : List FlowWait} {atelier : Atelier} {timing : Timing}
    (h : Parts q f n obj dom ports pipes sop.sessions versions fabric.lanes atelier.seqs pending boot.fuses freeIx) :
    Holds q f n ⟨pending, clock, timebase, freeIx, obj, dom, answer, boot, pins, sop, goals, frozen, frozenDom, ports, pipes, frames,
      copies, nextId, captured, em, relief, versions, arm, queues, fabric, cipher, faults, kiln, flow, flowServed,
      flowWaiting, atelier, timing⟩ :=
  ⟨h.obj, h.dom, h.ports, h.pipes, h.sessions, h.versions, h.lanes, h.seqs, h.pending, h.fuses, h.free⟩

/-- An outcome that does not refuse, stops only at a case of the table Undefined cases, and goes on, if it does, to a state of the
kind. -/
def HoldsR (q : List Instr) (f n : Nat) (r : Result) : Prop :=
  match r with
  | .next t => Holds q f n t
  | .fault x => namedFault x
  | .refused _ => False

/-- An optional state of the kind. -/
def HoldsO (q : List Instr) (f n : Nat) (o : Option State) : Prop := ∀ t, o = some t → Holds q f n t

/-- A write whose outcome is of the kind. -/
def HoldsW (q : List Instr) (f n : Nat) (w : Written) : Prop := ∀ r, w = .ok r → HoldsR q f n r

/-- An optional pair with a state of the kind. -/
def HoldsOP {α : Type} (q : List Instr) (f n : Nat) (o : Option (State × α)) : Prop := ∀ t a, o = some (t, a) → Holds q f n t

theorem HoldsR.next (h : Holds q f n s) : HoldsR q f n (.next s) := h
theorem HoldsR.undefined {i : String} (h : i ∈ undefinedCases) : HoldsR q f n (undefinedCase i) := h
theorem HoldsR.of_eq {r : Result} (e : r = .next t) (h : HoldsR q f n r) : Holds q f n t := by
  subst e
  exact h

theorem HoldsO.none : HoldsO q f n none := fun _ h => nomatch h
theorem HoldsO.some (h : Holds q f n s) : HoldsO q f n (some s) := fun _ e => Option.some.inj e ▸ h
theorem HoldsW.ok {r : Result} (h : HoldsR q f n r) : HoldsW q f n (.ok r) := fun _ e => Except.ok.inj e ▸ h
theorem HoldsW.error {c : Nat} : HoldsW q f n (.error c) := fun _ h => nomatch h

theorem HoldsOP.none {α : Type} : HoldsOP (α := α) q f n none := fun _ _ h => nomatch h
theorem HoldsOP.some {α : Type} {a : α} (h : Holds q f n s) : HoldsOP q f n (some (s, a)) :=
  fun _ _ e => (Prod.mk.inj (Option.some.inj e)).1 ▸ h

/-! What a match has found. -/

theorem holds_fst_eq {α : Type} {p : State × α} {a : α} (e : p = (t, a)) (h : Holds q f n p.1) : Holds q f n t := by
  subst e
  exact h

theorem holds_snd_eq {α : Type} {p : α × State} {a : α} (e : p = (a, t)) (h : Holds q f n p.2) : Holds q f n t := by
  subst e
  exact h

theorem HoldsO.of_eq {o : Option State} (e : o = Option.some t) (h : HoldsO q f n o) : Holds q f n t := h t e
theorem HoldsOP.of_eq {α : Type} {o : Option (State × α)} {a : α} (e : o = Option.some (t, a)) (h : HoldsOP q f n o) : Holds q f n t := h t a e
theorem HoldsW.of_eq {w : Written} {r : Result} (e : w = .ok r) (h : HoldsW q f n w) : HoldsR q f n r := h r e

/-! Both branches of a condition. -/

theorem holds_ite {c : Prop} [Decidable c] (h : Holds q f n s) (h' : Holds q f n t) : Holds q f n (if c then s else t) := by
  split <;> assumption

theorem holds_ite_fst {α : Type} {c : Prop} [Decidable c] {a b : State × α} (h : Holds q f n a.1) (h' : Holds q f n b.1) :
    Holds q f n (if c then a else b).1 := by
  split <;> assumption

theorem holds_ite_snd {α : Type} {c : Prop} [Decidable c] {a b : α × State} (h : Holds q f n a.2) (h' : Holds q f n b.2) :
    Holds q f n (if c then a else b).2 := by
  split <;> assumption

theorem HoldsR.ite {c : Prop} [Decidable c] {a b : Result} (h : HoldsR q f n a) (h' : HoldsR q f n b) :
    HoldsR q f n (if c then a else b) := by
  split <;> assumption

theorem HoldsO.ite {c : Prop} [Decidable c] {a b : Option State} (h : HoldsO q f n a) (h' : HoldsO q f n b) :
    HoldsO q f n (if c then a else b) := by
  split <;> assumption

theorem HoldsW.ite {c : Prop} [Decidable c] {a b : Written} (h : HoldsW q f n a) (h' : HoldsW q f n b) :
    HoldsW q f n (if c then a else b) := by
  split <;> assumption

theorem HoldsR.ite_outcome {c : Prop} [Decidable c] {a b : Served} (h : HoldsR q f n a.outcome) (h' : HoldsR q f n b.outcome) :
    HoldsR q f n (if c then a else b).outcome := by
  split <;> assumption

theorem HoldsOP.ite {α : Type} {c : Prop} [Decidable c] {a b : Option (State × α)} (h : HoldsOP q f n a) (h' : HoldsOP q f n b) :
    HoldsOP q f n (if c then a else b) := by
  split <;> assumption

theorem holds_foldl {α : Type} {g : State → α → State} {l : List α} (h : Holds q f n s)
    (hg : ∀ t x, Holds q f n t → Holds q f n (g t x)) : Holds q f n (l.foldl g s) := by
  induction l generalizing s with
  | nil => exact h
  | cons x l ih => exact ih (hg s x h)

theorem holds_foldl_fst {α β : Type} {g : State × β → α → State × β} {l : List α} {p : State × β} (h : Holds q f n p.1)
    (hg : ∀ p x, Holds q f n p.1 → Holds q f n (g p x).1) : Holds q f n (l.foldl g p).1 := by
  induction l generalizing p with
  | nil => exact h
  | cons x l ih => exact ih (hg p x h)

theorem HoldsO.map {o : Option State} {g : State → State} (ho : HoldsO q f n o) (hg : ∀ t, Holds q f n t → Holds q f n (g t)) :
    HoldsO q f n (o.map g) := by
  cases o with
  | none => exact HoldsO.none
  | some t => exact HoldsO.some (hg t (ho t rfl))

theorem holds_getD {o : Option State} (h : Holds q f n s) (ho : HoldsO q f n o) : Holds q f n (o.getD s) := by
  cases o with
  | none => exact h
  | some t => exact ho t rfl

theorem Holds.withVersions {v : Versions} (h : Holds q f n s) (hv : SlotsGood v) : Holds q f n { s with versions := v } :=
  { h with versions := hv }

theorem Holds.withFabric {x : Fabric} (h : Holds q f n s) (hx : x.lanes.length = 160) : Holds q f n { s with fabric := x } :=
  { h with lanes := hx }

theorem Holds.withAtelier {x : Atelier} (h : Holds q f n s) (hx : x.seqs.length = 8) : Holds q f n { s with atelier := x } :=
  { h with seqs := hx }

theorem Holds.withSop {x : Sop} (h : Holds q f n s) (hx : x.sessions.length = 8) : Holds q f n { s with sop := x } :=
  { h with sessions := hx }

theorem Holds.withBoot {x : Boot} (h : Holds q f n s) (hx : x.fuses = f) : Holds q f n { s with boot := x } :=
  { h with fuses := hx }

/-- The reset state is of the kind. -/
theorem holds_reset : Holds [] 2 0 State.reset :=
  ⟨rfl, rfl, by simp [State.reset], by simp [State.reset], by simp [State.reset, Sop.reset],
    by simp [SlotsGood, State.reset, Versions.reset, slotsIn, SlotSt.free], by simp [State.reset, Fabric.reset],
    by simp [State.reset, Atelier.reset], rfl, rfl, Nat.le_refl 0⟩

end Sys2Proof.Laws
end

