-- ==== Sys2Proof/Laws/Slots.lean ====
section
/-! SUPPORT. The order of the version slots (R220) under each slot transition of the table Slot transitions. -/

namespace Sys2Proof.Laws

open Sys2Proof.Machine Sys2Proof.Safety

/-- The states of the slots. -/
def slotStates (v : Versions) : List SlotState := v.slots.map (·.state)

/-- R220 as a condition on the states of the slots; `idle` says that no commit is under way. -/
def GoodStates (l : List SlotState) (idle : Prop) : Prop :=
  l.length = 3 ∧ l.countP (· = .current) = 1 ∧ l.countP (· = .building) ≤ 1 ∧
    l.countP (fun x => x = .draining || x = .retiring || x = .priming) ≤ 1 ∧
    (l.countP (· = .building) = 0 → l.countP (· = .free) = 2 ∧ idle)

theorem slotsGood_iff {v : Versions} : SlotsGood v ↔ GoodStates (slotStates v) (v.commit = .none) := by
  simp only [SlotsGood, GoodStates, slotStates, slotsIn, List.length_map, List.countP_map, Function.comp_def]

/-- Three slots, written out. -/
theorem three_of_length {α : Type} {l : List α} (h : l.length = 3) : ∃ x y z, l = [x, y, z] := by
  match l, h with
  | [x, y, z], _ => exact ⟨x, y, z, rfl⟩

variable {l : List SlotState} {idle idle' : Prop} {i j k : Nat}

/-- A place in a list of three. -/
theorem place_lt (h : GoodStates l idle) {x : SlotState} (e : l[i]? = some x) : i = 0 ∨ i = 1 ∨ i = 2 := by
  have : i < l.length := by
    rcases Nat.lt_or_ge i l.length with h1 | h1
    · exact h1
    · rw [List.getElem?_eq_none h1] at e
      cases e
  have := h.1
  omega

/-- A FREE slot becomes BUILDING where none is. -/
theorem good_open (h : GoodStates l idle) (hb : l.countP (· = .building) = 0) (e : l[i]? = some .free) :
    GoodStates (l.set i .building) idle' := by
  have hi := place_lt h e
  obtain ⟨x, y, z, rfl⟩ := three_of_length h.1
  obtain ⟨h1, h2, h3, h4, h5⟩ := h
  rcases hi with rfl | rfl | rfl <;> simp at e <;> subst e <;> (try cases x) <;> (try cases y) <;>
    (try cases z) <;> simp_all [GoodStates]

/-- A FREE slot becomes PRIMING beside a BUILDING one. -/
theorem good_prime (h : GoodStates l idle) (hb : l.countP (· = .building) ≠ 0) (e : l[i]? = some .free) :
    GoodStates (l.set i .priming) idle' := by
  have hi := place_lt h e
  obtain ⟨x, y, z, rfl⟩ := three_of_length h.1
  obtain ⟨h1, h2, h3, h4, h5⟩ := h
  rcases hi with rfl | rfl | rfl <;> simp at e <;> subst e <;> (try cases x) <;> (try cases y) <;> (try cases z) <;>
    simp_all [GoodStates]

/-- Beside a BUILDING slot a commit may be under way. -/
theorem good_commit (h : GoodStates l idle) (hb : l.countP (· = .building) ≠ 0) : GoodStates l idle' :=
  ⟨h.1, h.2.1, h.2.2.1, h.2.2.2.1, fun h0 => absurd h0 hb⟩

/-- Without a commit under way the slots are good as they are. -/
theorem good_idle (h : GoodStates l idle) (hi : idle') : GoodStates l idle' :=
  ⟨h.1, h.2.1, h.2.2.1, h.2.2.2.1, fun h0 => ⟨(h.2.2.2.2 h0).1, hi⟩⟩

/-- A DRAINING slot becomes RETIRING. -/
theorem good_retire (h : GoodStates l idle) (e : l[i]? = some .draining) : GoodStates (l.set i .retiring) idle := by
  have hi := place_lt h e
  obtain ⟨x, y, z, rfl⟩ := three_of_length h.1
  obtain ⟨h1, h2, h3, h4, h5⟩ := h
  rcases hi with rfl | rfl | rfl <;> simp at e <;> subst e <;> (try cases x) <;> (try cases y) <;> (try cases z) <;>
    simp_all [GoodStates]

/-- A RETIRING slot becomes FREE. -/
theorem good_free (h : GoodStates l idle) (e : l[i]? = some .retiring) : GoodStates (l.set i .free) idle := by
  have hi := place_lt h e
  obtain ⟨x, y, z, rfl⟩ := three_of_length h.1
  obtain ⟨h1, h2, h3, h4, h5⟩ := h
  rcases hi with rfl | rfl | rfl <;> simp at e <;> subst e <;> (try cases x) <;> (try cases y) <;> (try cases z) <;>
    simp_all [GoodStates]

/-- The switch of a commit: BUILDING to CURRENT, CURRENT to DRAINING, PRIMING to BUILDING. -/
theorem good_switch (h : GoodStates l idle) (eb : l[i]? = some .building) (ec : l[j]? = some .current)
    (ep : l[k]? = some .priming) : GoodStates (((l.set i .current).set j .draining).set k .building) idle' := by
  have hi := place_lt h eb
  have hj := place_lt h ec
  have hk := place_lt h ep
  obtain ⟨x, y, z, rfl⟩ := three_of_length h.1
  rcases hi with rfl | rfl | rfl <;> rcases hj with rfl | rfl | rfl <;> rcases hk with rfl | rfl | rfl <;>
    simp at eb ec ep <;> simp_all [GoodStates]

variable {s : State} {st : SlotState}

theorem slot_state {i : Nat} (hi : i < s.versions.slots.length) :
    (slotStates s.versions)[i]? = some (s.slot i).state := by
  simp [slotStates, State.slot, hi]

/-- The slot found in a state is in that state. -/
theorem slotIn_some (h : SlotsGood s.versions) {i : Nat} (e : s.slotIn st = some i) :
    (slotStates s.versions)[i]? = some st := by
  have hm := List.mem_of_find?_eq_some e
  have hp := List.find?_some e
  rw [slot_state (by rw [h.1]; simpa using hm)]
  simpa using hp

/-- A slot is found in a state that a slot is in. -/
theorem slotIn_none (h : SlotsGood s.versions) (e : s.slotIn st = none) :
    (slotStates s.versions).countP (· = st) = 0 := by
  rw [List.countP_eq_zero]
  intro x hx
  obtain ⟨i, hi, rfl⟩ := List.getElem_of_mem hx
  have hl : i < s.versions.slots.length := by simpa [slotStates] using hi
  have h3 : i < 3 := by rw [← h.1]; exact hl
  have hn := List.find?_eq_none.1 e i (by simpa using h3)
  have hs := slot_state hl
  rw [List.getElem?_eq_getElem hi] at hs
  simp only [Option.some.injEq] at hs
  rw [hs]
  simpa using hn

theorem slotIn_isSome (h : SlotsGood s.versions) (e : (s.slotIn st).isSome = true) :
    (slotStates s.versions).countP (· = st) ≠ 0 := by
  obtain ⟨i, hi⟩ := Option.isSome_iff_exists.1 e
  intro h0
  rw [List.countP_eq_zero] at h0
  have := h0 st (List.mem_of_getElem? (slotIn_some h hi))
  simp at this

/-- The current slot is CURRENT. -/
theorem currentSlot_current (h : SlotsGood s.versions) : (slotStates s.versions)[s.currentSlot]? = some .current := by
  unfold State.currentSlot
  cases e : s.slotIn .current with
  | some i => exact slotIn_some h e
  | none =>
    have h1 := (slotsGood_iff.1 h).2.1
    rw [slotIn_none h e] at h1
    cases h1

/-- The slots after one has entered a state. -/
theorem slotStates_slotTo {i : Nat} : slotStates (s.slotTo i st).versions = (slotStates s.versions).set i st := by
  have : ∀ (l : List SlotSt) (i t n : Nat),
      (l.modify i fun x => { x with state := st, since := t, entered := n }).map (·.state) = (l.map (·.state)).set i st := by
    intro l
    induction l with
    | nil => intro i t n; cases i <;> rfl
    | cons x l ih =>
      intro i t n
      cases i with
      | zero => rfl
      | succ i => simp [ih]
  exact this _ _ _ _

/-- The slots after one has changed in all but its state. -/
theorem slotStates_setSlot {i : Nat} {g : SlotSt → SlotSt} (hg : ∀ x, (g x).state = x.state) :
    slotStates (s.setSlot i g).versions = slotStates s.versions := by
  have : ∀ (l : List SlotSt) (i : Nat), (l.modify i g).map (·.state) = l.map (·.state) := by
    intro l
    induction l with
    | nil => intro i; cases i <;> rfl
    | cons x l ih =>
      intro i
      cases i with
      | zero => simp [hg]
      | succ i => simp [ih]
  exact this _ _

/-- A slot that enters a state changes nothing else of what `Holds` speaks of. -/
theorem holds_slotTo {q : List Instr} {f n i : Nat} (h : Holds q f n s)
    (hv : GoodStates ((slotStates s.versions).set i st) (s.versions.commit = .none)) : Holds q f n (s.slotTo i st) :=
  { h with versions := slotsGood_iff.2 (by rw [slotStates_slotTo]; exact hv) }

end Sys2Proof.Laws
end

