-- ==== Sys2Proof/Laws/HoldsOps.lean ====
section
/-! SUPPORT. What the operations of Machine/Ops.lean keep. -/

namespace Sys2Proof.Laws

open Sys2Proof.Machine Sys2Proof.Safety

variable {q : List Instr} {f n : Nat}

theorem holds_State_put {s : State} {a2 a3 : Nat} (h : Holds q f n s) : Holds q f n (s.put a2 a3) :=
  { h with obj := sparse_set_wf h.obj }

theorem holds_State_putBytes {s : State} {a2 a3 : Nat} {a4 : List Byte} (h : Holds q f n s) : Holds q f n (s.putBytes a2 a3 a4) :=
  { h with dom := sparse_setN_wf h.dom }

theorem holds_State_putRecord {s : Sys2Proof.Machine.State} {a2 : Nat} {a3 : Nat} {a4 : Nat} {a5 : Nat} (h : Holds q f n s) :
    Holds q f n (Sys2Proof.Machine.State.putRecord s a2 a3 a4 a5) := by
  unfold Sys2Proof.Machine.State.putRecord
  repeat' first
    | with_reducible assumption
    | (with_reducible intro _)
    | with_reducible apply holds_State_putBytes

theorem holds_State_bump32 {s : Sys2Proof.Machine.State} {a2 : Nat} (h : Holds q f n s) :
    Holds q f n (Sys2Proof.Machine.State.bump32 s a2) := by
  unfold Sys2Proof.Machine.State.bump32
  repeat' first
    | with_reducible assumption
    | (with_reducible intro _)
    | with_reducible apply holds_State_put

theorem holds_State_wrap32 {s : Sys2Proof.Machine.State} {a2 : Nat} (h : Holds q f n s) :
    Holds q f n (Sys2Proof.Machine.State.wrap32 s a2) := by
  unfold Sys2Proof.Machine.State.wrap32
  repeat' first
    | with_reducible assumption
    | (with_reducible intro _)
    | with_reducible apply holds_State_put

theorem holds_State_add64 {s : Sys2Proof.Machine.State} {a2 : Nat} {a3 : Nat} (h : Holds q f n s) :
    Holds q f n (Sys2Proof.Machine.State.add64 s a2 a3) := by
  unfold Sys2Proof.Machine.State.add64
  repeat' first
    | with_reducible assumption
    | (with_reducible intro _)
    | with_reducible apply holds_State_put

theorem holds_State_bump64 {s : Sys2Proof.Machine.State} {a2 : Nat} (h : Holds q f n s) :
    Holds q f n (Sys2Proof.Machine.State.bump64 s a2) := by
  unfold Sys2Proof.Machine.State.bump64
  repeat' first
    | with_reducible assumption
    | (with_reducible intro _)
    | with_reducible apply holds_State_add64

theorem holds_State_flag {s : Sys2Proof.Machine.State} {a2 : Nat} {a3 : Nat} (h : Holds q f n s) :
    Holds q f n (Sys2Proof.Machine.State.flag s a2 a3) := by
  unfold Sys2Proof.Machine.State.flag
  repeat' first
    | with_reducible assumption
    | (with_reducible intro _)
    | with_reducible apply holds_State_put

theorem holds_State_clearFlags {s : Sys2Proof.Machine.State} {a2 : Nat} {a3 : Nat} (h : Holds q f n s) :
    Holds q f n (Sys2Proof.Machine.State.clearFlags s a2 a3) := by
  unfold Sys2Proof.Machine.State.clearFlags
  repeat' first
    | with_reducible assumption
    | (with_reducible intro _)
    | with_reducible apply holds_State_put

theorem holds_State_free {s : State} {a2 : Nat} (h : Holds q f n s) : Holds q f n (s.free a2).2 :=
  { h with free := Nat.le_succ_of_le h.free }

theorem holds_State_countN {s : Sys2Proof.Machine.State} {a2 : Nat} {a3 : Nat} (h : Holds q f n s) :
    Holds q f n (Sys2Proof.Machine.State.countN s a2 a3) := by
  unfold Sys2Proof.Machine.State.countN
  repeat' first
    | with_reducible assumption
    | (with_reducible intro _)
    | with_reducible apply holds_State_putRecord
    | with_reducible apply holds_State_flag
    | with_reducible apply holds_ite

theorem holds_State_count {s : Sys2Proof.Machine.State} {a2 : Nat} (h : Holds q f n s) :
    Holds q f n (Sys2Proof.Machine.State.count s a2) := by
  unfold Sys2Proof.Machine.State.count
  repeat' first
    | with_reducible assumption
    | (with_reducible intro _)
    | with_reducible apply holds_State_countN

theorem holds_State_ringPush {s : Sys2Proof.Machine.State} {a2 : Nat} {a3 : List Sys2Proof.Byte} (h : Holds q f n s) :
    Holds q f n (Sys2Proof.Machine.State.ringPush s a2 a3) := by
  unfold Sys2Proof.Machine.State.ringPush
  repeat' first
    | with_reducible assumption
    | (with_reducible intro _)
    | with_reducible apply holds_State_flag
    | with_reducible apply holds_State_bump32
    | with_reducible apply holds_State_put
    | with_reducible apply holds_State_putBytes
    | with_reducible apply holds_ite

theorem holds_State_ringTake {s : Sys2Proof.Machine.State} {a2 : Nat} (h : Holds q f n s) :
    Holds q f n (Sys2Proof.Machine.State.ringTake s a2) := by
  unfold Sys2Proof.Machine.State.ringTake
  repeat' first
    | with_reducible assumption
    | (with_reducible intro _)
    | with_reducible apply holds_State_put

theorem holds_State_log {s : Sys2Proof.Machine.State} {a2 : Sys2Proof.Machine.Trouble} (h : Holds q f n s) :
    Holds q f n (Sys2Proof.Machine.State.log s a2) := by
  unfold Sys2Proof.Machine.State.log
  repeat' first
    | with_reducible assumption
    | (with_reducible intro _)
    | with_reducible apply holds_State_ringPush
    | split
    | (dsimp only)
    | (with_reducible refine holds_mk ?_; with_reducible apply Holds.parts)

theorem holds_State_setPort {s : State} {a2 : Nat} {a3 : PortSt → PortSt} (h : Holds q f n s) : Holds q f n (s.setPort a2 a3) :=
  { h with ports := (List.length_modify ..).trans h.ports }

theorem holds_State_setPipe {s : State} {a2 : Nat} {a3 : PipeSt → PipeSt} (h : Holds q f n s) : Holds q f n (s.setPipe a2 a3) :=
  { h with pipes := (List.length_modify ..).trans h.pipes }
end Sys2Proof.Laws
end

