-- ==== Sys2Proof/Laws/HoldsFrames.lean ====
section
/-! SUPPORT. What the operations of Machine/Frames.lean keep. -/

namespace Sys2Proof.Laws

open Sys2Proof.Machine Sys2Proof.Safety

variable {q : List Instr} {f n : Nat}

theorem holds_State_setFrame {s : Sys2Proof.Machine.State} {a2 : Nat} {a3 : Sys2Proof.Machine.Frame → Sys2Proof.Machine.Frame} (h : Holds q f n s) :
    Holds q f n (Sys2Proof.Machine.State.setFrame s a2 a3) := by
  unfold Sys2Proof.Machine.State.setFrame
  repeat' first
    | with_reducible assumption
    | (with_reducible intro _)
    | with_reducible apply holds_ite
    | split
    | (dsimp only)
    | (with_reducible refine holds_mk ?_; with_reducible apply Holds.parts)

theorem holds_State_setCopy {s : Sys2Proof.Machine.State} {a2 : Nat} {a3 : Sys2Proof.Machine.Copy → Sys2Proof.Machine.Copy} (h : Holds q f n s) :
    Holds q f n (Sys2Proof.Machine.State.setCopy s a2 a3) := by
  unfold Sys2Proof.Machine.State.setCopy
  repeat' first
    | with_reducible assumption
    | (with_reducible intro _)
    | with_reducible apply holds_ite
    | split
    | (dsimp only)
    | (with_reducible refine holds_mk ?_; with_reducible apply Holds.parts)

theorem holds_State_moveFrame {s : Sys2Proof.Machine.State} {a2 : Nat} {a3 : Sys2Proof.Machine.FrameLoc} (h : Holds q f n s) :
    Holds q f n (Sys2Proof.Machine.State.moveFrame s a2 a3) := by
  unfold Sys2Proof.Machine.State.moveFrame
  repeat' first
    | with_reducible assumption
    | (with_reducible intro _)
    | split
    | (dsimp only)
    | (with_reducible refine holds_mk ?_; with_reducible apply Holds.parts)

theorem holds_State_moveCopy {s : Sys2Proof.Machine.State} {a2 : Nat} {a3 : Sys2Proof.Machine.CopyLoc} (h : Holds q f n s) :
    Holds q f n (Sys2Proof.Machine.State.moveCopy s a2 a3) := by
  unfold Sys2Proof.Machine.State.moveCopy
  repeat' first
    | with_reducible assumption
    | (with_reducible intro _)
    | split
    | (dsimp only)
    | (with_reducible refine holds_mk ?_; with_reducible apply Holds.parts)

theorem holds_State_addFrame {s : Sys2Proof.Machine.State} {a2 : Sys2Proof.Machine.Frame} (h : Holds q f n s) :
    Holds q f n (Sys2Proof.Machine.State.addFrame s a2) := by
  unfold Sys2Proof.Machine.State.addFrame
  repeat' first
    | with_reducible assumption
    | (with_reducible intro _)
    | split
    | (dsimp only)
    | (with_reducible refine holds_mk ?_; with_reducible apply Holds.parts)

theorem holds_State_addCopy {s : Sys2Proof.Machine.State} {a2 : Sys2Proof.Machine.Copy} (h : Holds q f n s) :
    Holds q f n (Sys2Proof.Machine.State.addCopy s a2) := by
  unfold Sys2Proof.Machine.State.addCopy
  repeat' first
    | with_reducible assumption
    | (with_reducible intro _)
    | split
    | (dsimp only)
    | (with_reducible refine holds_mk ?_; with_reducible apply Holds.parts)

theorem holds_State_lengthOf {s : Sys2Proof.Machine.State} {a2 : Sys2Proof.Machine.Frame} (h : Holds q f n s) :
    Holds q f n (Sys2Proof.Machine.State.lengthOf s a2).2 := by
  unfold Sys2Proof.Machine.State.lengthOf
  repeat' first
    | with_reducible assumption
    | (with_reducible intro _)
    | with_reducible apply holds_State_free
    | with_reducible apply holds_ite_snd

theorem holds_State_ddr5Read {s : Sys2Proof.Machine.State} {a2 : Nat} {a3 : Nat} (h : Holds q f n s) :
    Holds q f n (Sys2Proof.Machine.State.ddr5Read s a2 a3) := by
  unfold Sys2Proof.Machine.State.ddr5Read
  repeat' first
    | with_reducible assumption
    | (with_reducible intro _)
    | with_reducible apply holds_State_countN
    | split
    | (dsimp only)
    | (with_reducible refine holds_mk ?_; with_reducible apply Holds.parts)

theorem holds_State_ddr5Write {s : Sys2Proof.Machine.State} {a2 : Nat} {a3 : Nat} (h : Holds q f n s) :
    Holds q f n (Sys2Proof.Machine.State.ddr5Write s a2 a3) := by
  unfold Sys2Proof.Machine.State.ddr5Write
  repeat' first
    | with_reducible assumption
    | (with_reducible intro _)
    | with_reducible apply holds_State_countN
    | split
    | (dsimp only)
    | (with_reducible refine holds_mk ?_; with_reducible apply Holds.parts)

theorem holds_State_noteFree {s : Sys2Proof.Machine.State} (h : Holds q f n s) :
    Holds q f n (Sys2Proof.Machine.State.noteFree s) := by
  unfold Sys2Proof.Machine.State.noteFree
  repeat' first
    | with_reducible assumption
    | (with_reducible intro _)
    | with_reducible apply holds_State_put

theorem holds_State_turnPointer {s : Sys2Proof.Machine.State} {a2 : Nat} {a3 : Nat} (h : Holds q f n s) :
    Holds q f n (Sys2Proof.Machine.State.turnPointer s a2 a3) := by
  unfold Sys2Proof.Machine.State.turnPointer
  repeat' first
    | with_reducible assumption
    | (with_reducible intro _)
    | split
    | (dsimp only)
    | (with_reducible refine holds_mk ?_; with_reducible apply Holds.parts)

theorem holds_State_grantCell {s : Sys2Proof.Machine.State} {a2 : Nat} {a3 : Nat} {a4 : Nat} {a5 : Nat} {a6 : Nat} (h : Holds q f n s) :
    Holds q f n (Sys2Proof.Machine.State.grantCell s a2 a3 a4 a5 a6) := by
  unfold Sys2Proof.Machine.State.grantCell
  repeat' first
    | with_reducible assumption
    | (with_reducible intro _)
    | with_reducible apply holds_State_setFrame
    | with_reducible apply holds_State_turnPointer
    | with_reducible apply holds_State_noteFree
    | with_reducible apply holds_State_count
    | split
    | (dsimp only)
    | (with_reducible refine holds_mk ?_; with_reducible apply Holds.parts)

theorem holds_State_askCell {s : Sys2Proof.Machine.State} {a2 : Sys2Proof.Machine.Writer} {a3 : Nat} {a4 : Nat} {a5 : Nat} {a6 : List (List Nat)} (h : Holds q f n s) :
    Holds q f n (Sys2Proof.Machine.State.askCell s a2 a3 a4 a5 a6).1 := by
  induction a4 generalizing s a2 a3 a5 a6 with
  | zero =>
    unfold Sys2Proof.Machine.State.askCell
    repeat' first
      | with_reducible assumption
  | succ k ih =>
    unfold Sys2Proof.Machine.State.askCell
    repeat' first
      | with_reducible assumption
      | (with_reducible intro _)
      | with_reducible apply ih
      | with_reducible apply holds_State_grantCell
      | with_reducible apply holds_State_turnPointer
      | with_reducible apply holds_State_count
      | with_reducible refine holds_fst_eq ‹_› ?_
      | with_reducible apply holds_ite_fst
      | with_reducible apply holds_ite
      | split
      | (dsimp only)
      | (with_reducible refine holds_mk ?_; with_reducible apply Holds.parts)

theorem holds_State_requestCell {s : Sys2Proof.Machine.State} {a2 : Sys2Proof.Machine.Writer} {a3 : Nat} {a4 : Nat} (h : Holds q f n s) :
    Holds q f n (Sys2Proof.Machine.State.requestCell s a2 a3 a4).1 := by
  unfold Sys2Proof.Machine.State.requestCell
  repeat' first
    | with_reducible assumption
    | (with_reducible intro _)
    | with_reducible apply holds_State_askCell
    | with_reducible refine holds_fst_eq ‹_› ?_
    | with_reducible apply holds_ite_fst

theorem holds_State_requestCells {s : Sys2Proof.Machine.State} {a2 : Sys2Proof.Machine.Writer} {a3 : Nat} {a4 : Nat} {a5 : Nat} (h : Holds q f n s) :
    Holds q f n (Sys2Proof.Machine.State.requestCells s a2 a3 a4 a5).1 := by
  induction a5 generalizing s a2 a3 a4 with
  | zero =>
    unfold Sys2Proof.Machine.State.requestCells
    repeat' first
      | with_reducible assumption
  | succ k ih =>
    unfold Sys2Proof.Machine.State.requestCells
    repeat' first
      | with_reducible assumption
      | (with_reducible intro _)
      | with_reducible apply ih
      | with_reducible apply holds_State_requestCell
      | with_reducible refine holds_fst_eq ‹_› ?_
      | split

theorem holds_State_pairCell {s : Sys2Proof.Machine.State} {a2 : Nat} {a3 : Nat} {a4 : Nat} (h : Holds q f n s) :
    Holds q f n (Sys2Proof.Machine.State.pairCell s a2 a3 a4) := by
  unfold Sys2Proof.Machine.State.pairCell
  repeat' first
    | with_reducible assumption
    | (with_reducible intro _)
    | with_reducible apply holds_State_setFrame
    | with_reducible apply holds_ite
    | split
    | (dsimp only)
    | (with_reducible refine holds_mk ?_; with_reducible apply Holds.parts)

theorem holds_State_openCell {s : Sys2Proof.Machine.State} {a2 : Nat} {a3 : Nat} (h : Holds q f n s) :
    Holds q f n (Sys2Proof.Machine.State.openCell s a2 a3) := by
  unfold Sys2Proof.Machine.State.openCell
  repeat' first
    | with_reducible assumption
    | (with_reducible intro _)
    | split
    | (dsimp only)
    | (with_reducible refine holds_mk ?_; with_reducible apply Holds.parts)

theorem holds_State_writeCells {s : Sys2Proof.Machine.State} {a2 : Sys2Proof.Machine.Writer} {a3 : Nat} {a4 : Nat} {a5 : Nat} (h : Holds q f n s) :
    Holds q f n (Sys2Proof.Machine.State.writeCells s a2 a3 a4 a5).1 := by
  unfold Sys2Proof.Machine.State.writeCells
  repeat' first
    | with_reducible assumption
    | (with_reducible intro _)
    | with_reducible apply holds_State_pairCell
    | with_reducible apply holds_State_requestCell
    | with_reducible apply holds_State_openCell
    | with_reducible apply holds_State_requestCells
    | with_reducible refine holds_fst_eq ‹_› ?_
    | with_reducible apply holds_ite_fst
    | with_reducible apply holds_ite
    | split

theorem holds_State_returnPointer {s : Sys2Proof.Machine.State} {a2 : Nat} {a3 : Nat} (h : Holds q f n s) :
    Holds q f n (Sys2Proof.Machine.State.returnPointer s a2 a3) := by
  unfold Sys2Proof.Machine.State.returnPointer
  repeat' first
    | with_reducible assumption
    | (with_reducible intro _)
    | with_reducible apply holds_ite
    | split
    | (dsimp only)
    | (with_reducible refine holds_mk ?_; with_reducible apply Holds.parts)

theorem holds_State_freeCells {s : Sys2Proof.Machine.State} {a2 : Nat} (h : Holds q f n s) :
    Holds q f n (Sys2Proof.Machine.State.freeCells s a2) := by
  unfold Sys2Proof.Machine.State.freeCells
  repeat' first
    | with_reducible assumption
    | (with_reducible intro _)
    | with_reducible apply holds_State_setFrame
    | with_reducible apply holds_State_returnPointer
    | with_reducible apply holds_foldl
    | with_reducible apply holds_foldl_fst
    | split

theorem holds_State_applyFrees {s : Sys2Proof.Machine.State} (h : Holds q f n s) :
    Holds q f n (Sys2Proof.Machine.State.applyFrees s) := by
  unfold Sys2Proof.Machine.State.applyFrees
  repeat' first
    | with_reducible assumption
    | (with_reducible intro _)
    | split
    | (dsimp only)
    | (with_reducible refine holds_mk ?_; with_reducible apply Holds.parts)

/-- A slot changed in its state keeps the order of the slots. -/
theorem slotsIn_modify {v : Versions} {i : Nat} {g : SlotSt → SlotSt} {p : SlotState → Bool} (hg : ∀ x, (g x).state = x.state) :
    slotsIn { v with slots := modifyAt v.slots i g } p = slotsIn v p := by
  have : ∀ (l : List SlotSt) (i : Nat), (l.modify i g).countP (fun x => p x.state) = l.countP fun x => p x.state := by
    intro l
    induction l with
    | nil => intro i; cases i <;> rfl
    | cons x l ih =>
      intro i
      cases i with
      | zero => simp [List.countP_cons, hg]
      | succ i => simp [List.countP_cons, ih]
  exact this v.slots i

theorem holds_State_setSlot {s : State} {a2 : Nat} {a3 : SlotSt → SlotSt} (h : Holds q f n s) (hg : ∀ x, (a3 x).state = x.state) :
    Holds q f n (s.setSlot a2 a3) := by
  refine { h with versions := ?_ }
  obtain ⟨h1, h2, h3, h4, h5⟩ := h.versions
  refine ⟨(List.length_modify ..).trans h1, ?_, ?_, ?_, ?_⟩
  · exact (slotsIn_modify hg).trans h2
  · exact Nat.le_trans (Nat.le_of_eq (slotsIn_modify hg)) h3
  · exact Nat.le_trans (Nat.le_of_eq (slotsIn_modify hg)) h4
  · intro h0
    obtain ⟨h6, h7⟩ := h5 ((slotsIn_modify hg).symm.trans h0)
    exact ⟨(slotsIn_modify hg).trans h6, h7⟩

theorem holds_State_stamp {s : Sys2Proof.Machine.State} {a2 : Nat} (h : Holds q f n s) :
    Holds q f n (Sys2Proof.Machine.State.stamp s a2) := by
  unfold Sys2Proof.Machine.State.stamp
  repeat' first
    | with_reducible assumption
    | (with_reducible intro _)
    | with_reducible apply holds_State_setSlot
    | with_reducible apply holds_State_setFrame
    | split
    | (dsimp only)

theorem holds_State_code {s : Sys2Proof.Machine.State} {a2 : Nat} {a3 : Nat} (h : Holds q f n s) :
    Holds q f n (Sys2Proof.Machine.State.code s a2 a3) := by
  unfold Sys2Proof.Machine.State.code
  repeat' first
    | with_reducible assumption
    | (with_reducible intro _)
    | with_reducible apply holds_State_count
    | with_reducible apply holds_State_bump64
    | with_reducible apply holds_State_flag
    | with_reducible apply holds_ite

theorem holds_State_retire {s : Sys2Proof.Machine.State} {a2 : Nat} (h : Holds q f n s) :
    Holds q f n (Sys2Proof.Machine.State.retire s a2) := by
  unfold Sys2Proof.Machine.State.retire
  repeat' first
    | with_reducible assumption
    | (with_reducible intro _)
    | with_reducible apply holds_State_freeCells
    | with_reducible apply holds_State_setSlot
    | split
    | (dsimp only)
    | (with_reducible refine holds_mk ?_; with_reducible apply Holds.parts)

theorem holds_State_endFrame {s : Sys2Proof.Machine.State} {a2 : Nat} {a3 : Nat} (h : Holds q f n s) :
    Holds q f n (Sys2Proof.Machine.State.endFrame s a2 a3) := by
  unfold Sys2Proof.Machine.State.endFrame
  repeat' first
    | with_reducible assumption
    | (with_reducible intro _)
    | with_reducible apply holds_State_retire
    | with_reducible apply holds_State_code
    | split

theorem holds_State_endIngress {s : Sys2Proof.Machine.State} {a2 : Nat} {a3 : Nat} (h : Holds q f n s) :
    Holds q f n (Sys2Proof.Machine.State.endIngress s a2 a3) := by
  unfold Sys2Proof.Machine.State.endIngress
  repeat' first
    | with_reducible assumption
    | (with_reducible intro _)
    | with_reducible apply holds_State_endFrame
    | with_reducible apply holds_State_setFrame
    | with_reducible apply holds_State_freeCells
    | with_reducible apply holds_ite
    | split

theorem holds_State_releaseRef {s : Sys2Proof.Machine.State} {a2 : Nat} (h : Holds q f n s) :
    Holds q f n (Sys2Proof.Machine.State.releaseRef s a2) := by
  unfold Sys2Proof.Machine.State.releaseRef
  repeat' first
    | with_reducible assumption
    | (with_reducible intro _)
    | with_reducible apply holds_State_retire
    | with_reducible apply holds_State_setFrame
    | with_reducible apply holds_ite
    | split

theorem holds_State_endCopy {s : Sys2Proof.Machine.State} {a2 : Nat} {a3 : Nat} (h : Holds q f n s) :
    Holds q f n (Sys2Proof.Machine.State.endCopy s a2 a3) := by
  unfold Sys2Proof.Machine.State.endCopy
  repeat' first
    | with_reducible assumption
    | (with_reducible intro _)
    | with_reducible apply holds_State_code
    | with_reducible apply holds_State_releaseRef
    | with_reducible apply holds_State_retire
    | with_reducible apply holds_ite
    | split
    | (dsimp only)
    | (with_reducible refine holds_mk ?_; with_reducible apply Holds.parts)

theorem holds_State_endCopies {s : Sys2Proof.Machine.State} {a2 : List Sys2Proof.Machine.Copy} {a3 : Nat} (h : Holds q f n s) :
    Holds q f n (Sys2Proof.Machine.State.endCopies s a2 a3) := by
  unfold Sys2Proof.Machine.State.endCopies
  repeat' first
    | with_reducible assumption
    | (with_reducible intro _)
    | with_reducible apply holds_State_endCopy
    | with_reducible apply holds_foldl

theorem holds_State_endFrames {s : Sys2Proof.Machine.State} {a2 : List Sys2Proof.Machine.Frame} {a3 : Nat} (h : Holds q f n s) :
    Holds q f n (Sys2Proof.Machine.State.endFrames s a2 a3) := by
  unfold Sys2Proof.Machine.State.endFrames
  repeat' first
    | with_reducible assumption
    | (with_reducible intro _)
    | with_reducible apply holds_State_endFrame
    | with_reducible apply holds_foldl
end Sys2Proof.Laws
end

