-- ==== Sys2Proof/Laws/HoldsSeqs.lean ====
section
/-! SUPPORT. What the operations of Machine/Seqs.lean keep. -/

namespace Sys2Proof.Laws

open Sys2Proof.Machine Sys2Proof.Safety

variable {q : List Instr} {f n : Nat}

theorem holds_State_setSeq {s : State} {a2 : Nat} {a3 : Machine.Seq → Machine.Seq} (h : Holds q f n s) :
    Holds q f n (s.setSeq a2 a3) :=
  { h with seqs := (List.length_modify ..).trans h.seqs }

theorem holds_State_request {s : Sys2Proof.Machine.State} {a2 : Nat} (h : Holds q f n s) :
    Holds q f n (Sys2Proof.Machine.State.request s a2) := by
  unfold Sys2Proof.Machine.State.request
  repeat' first
    | with_reducible assumption
    | (with_reducible intro _)
    | with_reducible apply holds_State_setSeq

theorem holds_State_raiseTrap {s : Sys2Proof.Machine.State} {a2 : Nat} {a3 : Nat} {a4 : Nat} (h : Holds q f n s) :
    Holds q f n (Sys2Proof.Machine.State.raiseTrap s a2 a3 a4) := by
  unfold Sys2Proof.Machine.State.raiseTrap
  repeat' first
    | with_reducible assumption
    | (with_reducible intro _)
    | with_reducible apply holds_State_setSeq
    | split

theorem holds_State_faultTrap {s : Sys2Proof.Machine.State} {a2 : Nat} (h : Holds q f n s) :
    Holds q f n (Sys2Proof.Machine.State.faultTrap s a2) := by
  unfold Sys2Proof.Machine.State.faultTrap
  repeat' first
    | with_reducible assumption
    | (with_reducible intro _)
    | with_reducible apply holds_State_raiseTrap

theorem holds_State_countRestart {s : Sys2Proof.Machine.State} (h : Holds q f n s) :
    Holds q f n (Sys2Proof.Machine.State.countRestart s) := by
  unfold Sys2Proof.Machine.State.countRestart
  repeat' first
    | with_reducible assumption
    | (with_reducible intro _)
    | with_reducible apply holds_State_flag
    | with_reducible apply holds_State_bump32

theorem holds_State_restartRoutine {s : Sys2Proof.Machine.State} {a2 : Nat} (h : Holds q f n s) :
    Holds q f n (Sys2Proof.Machine.State.restartRoutine s a2) := by
  unfold Sys2Proof.Machine.State.restartRoutine
  repeat' first
    | with_reducible assumption
    | (with_reducible intro _)
    | with_reducible apply holds_State_countRestart
    | with_reducible apply holds_State_setSeq
    | split

theorem holds_State_putBack {s : Sys2Proof.Machine.State} {a2 : Nat} (h : Holds q f n s) :
    Holds q f n (Sys2Proof.Machine.State.putBack s a2) := by
  unfold Sys2Proof.Machine.State.putBack
  repeat' first
    | with_reducible assumption
    | (with_reducible intro _)
    | with_reducible apply holds_State_setSeq
    | split
    | (dsimp only)

theorem holds_State_passTraps {s : Sys2Proof.Machine.State} {a2 : Nat} (h : Holds q f n s) :
    Holds q f n (Sys2Proof.Machine.State.passTraps s a2) := by
  unfold Sys2Proof.Machine.State.passTraps
  repeat' first
    | with_reducible assumption
    | (with_reducible intro _)
    | with_reducible apply holds_State_setSeq
    | split

theorem holds_State_passWork {s : Sys2Proof.Machine.State} {a2 : Nat} (h : Holds q f n s) :
    Holds q f n (Sys2Proof.Machine.State.passWork s a2) := by
  unfold Sys2Proof.Machine.State.passWork
  repeat' first
    | with_reducible assumption
    | (with_reducible intro _)
    | with_reducible apply holds_State_passTraps
    | with_reducible apply holds_State_setSeq
    | with_reducible apply holds_State_putBack
end Sys2Proof.Laws
end

