-- ==== Sys2Proof/Laws/HoldsMac.lean ====
section
/-! SUPPORT. What the operations of Machine/Mac.lean keep. -/

namespace Sys2Proof.Laws

open Sys2Proof.Machine Sys2Proof.Safety

variable {q : List Instr} {f n : Nat}

theorem holds_State_stat {s : Sys2Proof.Machine.State} {a2 : Nat} {a3 : Nat} {a4 : Nat} {a5 : Nat} (h : Holds q f n s) :
    Holds q f n (Sys2Proof.Machine.State.stat s a2 a3 a4 a5) := by
  unfold Sys2Proof.Machine.State.stat
  repeat' first
    | with_reducible assumption
    | (with_reducible intro _)
    | with_reducible apply holds_State_put
    | with_reducible apply holds_State_flag
    | with_reducible apply holds_ite

theorem holds_State_rxStat {s : Sys2Proof.Machine.State} {a2 : Nat} {a3 : Nat} {a4 : Nat} (h : Holds q f n s) :
    Holds q f n (Sys2Proof.Machine.State.rxStat s a2 a3 a4) := by
  unfold Sys2Proof.Machine.State.rxStat
  repeat' first
    | with_reducible assumption
    | (with_reducible intro _)
    | with_reducible apply holds_State_stat

theorem holds_State_txStat {s : Sys2Proof.Machine.State} {a2 : Nat} {a3 : Nat} {a4 : Nat} (h : Holds q f n s) :
    Holds q f n (Sys2Proof.Machine.State.txStat s a2 a3 a4) := by
  unfold Sys2Proof.Machine.State.txStat
  repeat' first
    | with_reducible assumption
    | (with_reducible intro _)
    | with_reducible apply holds_State_stat

theorem holds_State_rxGood {s : Sys2Proof.Machine.State} {a2 : Nat} {a3 : List Sys2Proof.Byte} (h : Holds q f n s) :
    Holds q f n (Sys2Proof.Machine.State.rxGood s a2 a3) := by
  unfold Sys2Proof.Machine.State.rxGood
  repeat' first
    | with_reducible assumption
    | (with_reducible intro _)
    | with_reducible apply holds_State_rxStat

theorem holds_State_rxDelimited {s : Sys2Proof.Machine.State} {a2 : Nat} {a3 : Nat} {a4 : Nat} (h : Holds q f n s) :
    Holds q f n (Sys2Proof.Machine.State.rxDelimited s a2 a3 a4) := by
  unfold Sys2Proof.Machine.State.rxDelimited
  repeat' first
    | with_reducible assumption
    | (with_reducible intro _)
    | with_reducible apply holds_State_rxStat
    | with_reducible apply holds_ite

theorem holds_State_txGood {s : Sys2Proof.Machine.State} {a2 : Nat} {a3 : List Sys2Proof.Byte} (h : Holds q f n s) :
    Holds q f n (Sys2Proof.Machine.State.txGood s a2 a3) := by
  unfold Sys2Proof.Machine.State.txGood
  repeat' first
    | with_reducible assumption
    | (with_reducible intro _)
    | with_reducible apply holds_State_txStat
    | with_reducible apply holds_State_put

theorem holds_State_rxCode {s : Sys2Proof.Machine.State} {a2 : Nat} {a3 : Nat} (h : Holds q f n s) :
    Holds q f n (Sys2Proof.Machine.State.rxCode s a2 a3) := by
  unfold Sys2Proof.Machine.State.rxCode
  repeat' first
    | with_reducible assumption
    | (with_reducible intro _)
    | with_reducible apply holds_State_rxStat
    | with_reducible apply holds_ite

theorem holds_State_txCode {s : Sys2Proof.Machine.State} {a2 : Nat} {a3 : Nat} (h : Holds q f n s) :
    Holds q f n (Sys2Proof.Machine.State.txCode s a2 a3) := by
  unfold Sys2Proof.Machine.State.txCode
  repeat' first
    | with_reducible assumption
    | (with_reducible intro _)
    | with_reducible apply holds_State_txStat
    | with_reducible apply holds_ite

theorem holds_State_endAtPort {s : Sys2Proof.Machine.State} {a2 : Nat} {a3 : Nat} {a4 : Nat} (h : Holds q f n s) :
    Holds q f n (Sys2Proof.Machine.State.endAtPort s a2 a3 a4) := by
  unfold Sys2Proof.Machine.State.endAtPort
  repeat' first
    | with_reducible assumption
    | (with_reducible intro _)
    | with_reducible apply holds_State_endCopy
    | with_reducible apply holds_State_txCode

theorem holds_State_endAllAtPort {s : Sys2Proof.Machine.State} {a2 : Nat} {a3 : List Sys2Proof.Machine.Copy} {a4 : Nat} (h : Holds q f n s) :
    Holds q f n (Sys2Proof.Machine.State.endAllAtPort s a2 a3 a4) := by
  unfold Sys2Proof.Machine.State.endAllAtPort
  repeat' first
    | with_reducible assumption
    | (with_reducible intro _)
    | with_reducible apply holds_State_endAtPort
    | with_reducible apply holds_foldl

theorem holds_State_stomp {s : Sys2Proof.Machine.State} {a2 : Nat} {a3 : Nat} (h : Holds q f n s) :
    Holds q f n (Sys2Proof.Machine.State.stomp s a2 a3) := by
  unfold Sys2Proof.Machine.State.stomp
  repeat' first
    | with_reducible assumption
    | (with_reducible intro _)
    | with_reducible apply holds_State_endAtPort
    | with_reducible apply holds_State_txStat
    | with_reducible apply holds_State_setPort
    | split

theorem holds_State_clearPauses {s : Sys2Proof.Machine.State} {a2 : Nat} (h : Holds q f n s) :
    Holds q f n (Sys2Proof.Machine.State.clearPauses s a2) := by
  unfold Sys2Proof.Machine.State.clearPauses
  repeat' first
    | with_reducible assumption
    | (with_reducible intro _)
    | with_reducible apply holds_State_put
    | with_reducible apply holds_State_setPort
end Sys2Proof.Laws
end

