-- ==== Sys2Proof/Laws/HoldsQueueOps.lean ====
section
/-! SUPPORT. What the operations of Machine/QueueOps.lean keep. -/

namespace Sys2Proof.Laws

open Sys2Proof.Machine Sys2Proof.Safety

variable {q : List Instr} {f n : Nat}

theorem holds_State_flushPort {s : Sys2Proof.Machine.State} {a2 : Nat} {a3 : Nat} (h : Holds q f n s) :
    Holds q f n (Sys2Proof.Machine.State.flushPort s a2 a3) := by
  unfold Sys2Proof.Machine.State.flushPort
  repeat' first
    | with_reducible assumption
    | (with_reducible intro _)
    | with_reducible apply holds_State_endAllAtPort

theorem holds_State_stopNaming {s : Sys2Proof.Machine.State} {a2 : List (Nat × Nat)} (h : Holds q f n s) :
    Holds q f n (Sys2Proof.Machine.State.stopNaming s a2) := by
  unfold Sys2Proof.Machine.State.stopNaming
  repeat' first
    | with_reducible assumption
    | (with_reducible intro _)
    | split
    | (dsimp only)
    | (with_reducible refine holds_mk ?_; with_reducible apply Holds.parts)

theorem holds_State_putNode {s : Sys2Proof.Machine.State} {a2 : Nat} {a3 : Nat} {a4 : Sys2Proof.Machine.Node} (h : Holds q f n s) :
    Holds q f n (Sys2Proof.Machine.State.putNode s a2 a3 a4) := by
  unfold Sys2Proof.Machine.State.putNode
  repeat' first
    | with_reducible assumption
    | (with_reducible intro _)
    | split
    | (dsimp only)
    | (with_reducible refine holds_mk ?_; with_reducible apply Holds.parts)

theorem holds_State_joinTree {s : Sys2Proof.Machine.State} {a2 : Nat} (h : Holds q f n s) :
    Holds q f n (Sys2Proof.Machine.State.joinTree s a2) := by
  unfold Sys2Proof.Machine.State.joinTree
  repeat' first
    | with_reducible assumption
    | (with_reducible intro _)
    | with_reducible apply holds_State_putNode
    | with_reducible apply holds_foldl
    | with_reducible apply holds_foldl_fst
    | with_reducible apply holds_getD
    | with_reducible apply holds_ite

theorem holds_State_placeAtEgress {s : Sys2Proof.Machine.State} {a2 : Option Nat} {a3 : Nat} {a4 : Nat} (h : Holds q f n s) :
    Holds q f n (Sys2Proof.Machine.State.placeAtEgress s a2 a3 a4).1 := by
  unfold Sys2Proof.Machine.State.placeAtEgress
  repeat' first
    | with_reducible assumption
    | (with_reducible intro _)
    | with_reducible apply holds_State_flag
    | with_reducible apply holds_State_bump64
    | with_reducible apply holds_ite_fst
    | with_reducible apply holds_ite
    | split
    | (dsimp only)

theorem holds_State_putAtEgress {s : Sys2Proof.Machine.State} {a2 : Nat} {a3 : Nat} {a4 : Nat} {a5 : Nat} (h : Holds q f n s) :
    Holds q f n (Sys2Proof.Machine.State.putAtEgress s a2 a3 a4 a5) := by
  unfold Sys2Proof.Machine.State.putAtEgress
  repeat' first
    | with_reducible assumption
    | (with_reducible intro _)
    | with_reducible apply holds_State_moveCopy
    | with_reducible apply holds_State_setCopy
    | with_reducible apply holds_State_joinTree

theorem holds_State_enterEgress {s : Sys2Proof.Machine.State} {a2 : Nat} {a3 : Option Nat} {a4 : Nat} {a5 : Nat} (h : Holds q f n s) :
    Holds q f n (Sys2Proof.Machine.State.enterEgress s a2 a3 a4 a5) := by
  unfold Sys2Proof.Machine.State.enterEgress
  repeat' first
    | with_reducible assumption
    | (with_reducible intro _)
    | with_reducible apply holds_State_placeAtEgress
    | with_reducible apply holds_State_endAtPort
    | with_reducible apply holds_State_putAtEgress
    | with_reducible refine holds_fst_eq ‹_› ?_
    | split
end Sys2Proof.Laws
end

