-- ==== Sys2Proof/Laws/HoldsCells.lean ====
section
/-! SUPPORT. What the operations of Machine/Cells.lean keep. -/

namespace Sys2Proof.Laws

open Sys2Proof.Machine Sys2Proof.Safety

variable {q : List Instr} {f n : Nat}

theorem holds_State_putOpenCell {s : Sys2Proof.Machine.State} {a2 : Nat} {a3 : Sys2Proof.Machine.OpenCell} (h : Holds q f n s) :
    Holds q f n (Sys2Proof.Machine.State.putOpenCell s a2 a3) := by
  unfold Sys2Proof.Machine.State.putOpenCell
  repeat' first
    | with_reducible assumption
    | (with_reducible intro _)
    | with_reducible apply holds_ite
    | split
    | (dsimp only)
    | (with_reducible refine holds_mk ?_; with_reducible apply Holds.parts)

theorem holds_State_formCell {s : Sys2Proof.Machine.State} {a2 : Nat} {a3 : Option Nat} (h : Holds q f n s) :
    Holds q f n (Sys2Proof.Machine.State.formCell s a2 a3) := by
  unfold Sys2Proof.Machine.State.formCell
  repeat' first
    | with_reducible assumption
    | (with_reducible intro _)
    | with_reducible apply holds_State_putOpenCell
    | with_reducible apply holds_getD
    | with_reducible apply holds_ite
    | split
    | (dsimp only)
    | (with_reducible refine holds_mk ?_; with_reducible apply Holds.parts)

theorem holds_State_poolOpenCell {s : Sys2Proof.Machine.State} (h : Holds q f n s) :
    Holds q f n (Sys2Proof.Machine.State.poolOpenCell s) := by
  unfold Sys2Proof.Machine.State.poolOpenCell
  repeat' first
    | with_reducible assumption
    | (with_reducible intro _)
    | with_reducible apply holds_State_formCell
    | with_reducible apply holds_ite
    | split

theorem holds_State_pour {s : Sys2Proof.Machine.State} {a2 : Nat} {a3 : Nat} {a4 : Bool} {a5 : Nat} {a6 : List Sys2Proof.Byte} (h : Holds q f n s) :
    Holds q f n (Sys2Proof.Machine.State.pour s a2 a3 a4 a5 a6) := by
  induction a5 generalizing s a2 a3 a4 a6 with
  | zero =>
    unfold Sys2Proof.Machine.State.pour
    repeat' first
      | with_reducible assumption
  | succ k ih =>
    unfold Sys2Proof.Machine.State.pour
    repeat' first
      | with_reducible assumption
      | (with_reducible intro _)
      | with_reducible apply ih
      | with_reducible apply holds_State_formCell
      | with_reducible apply holds_State_putOpenCell
      | with_reducible apply holds_State_poolOpenCell
      | with_reducible apply holds_getD
      | with_reducible apply holds_ite

theorem holds_State_settleCell {s : Sys2Proof.Machine.State} {a2 : Nat} (h : Holds q f n s) :
    Holds q f n (Sys2Proof.Machine.State.settleCell s a2) := by
  unfold Sys2Proof.Machine.State.settleCell
  repeat' first
    | with_reducible assumption
    | (with_reducible intro _)
    | with_reducible apply holds_State_formCell
    | with_reducible apply holds_ite
    | split

theorem holds_State_appendFrame {s : Sys2Proof.Machine.State} {a2 : Nat} {a3 : Nat} {a4 : Sys2Proof.Machine.FrameHeader} {a5 : List Sys2Proof.Byte} (h : Holds q f n s) :
    Holds q f n (Sys2Proof.Machine.State.appendFrame s a2 a3 a4 a5) := by
  unfold Sys2Proof.Machine.State.appendFrame
  repeat' first
    | with_reducible assumption
    | (with_reducible intro _)
    | with_reducible apply holds_State_settleCell
    | with_reducible apply holds_State_pour

theorem holds_State_appendOpen {s : Sys2Proof.Machine.State} {a2 : Nat} {a3 : Nat} {a4 : Sys2Proof.Machine.FrameHeader} {a5 : List Sys2Proof.Byte} (h : Holds q f n s) :
    Holds q f n (Sys2Proof.Machine.State.appendOpen s a2 a3 a4 a5) := by
  unfold Sys2Proof.Machine.State.appendOpen
  repeat' first
    | with_reducible assumption
    | (with_reducible intro _)
    | with_reducible apply holds_State_pour
    | with_reducible apply holds_State_putOpenCell
    | with_reducible apply holds_State_formCell
    | with_reducible apply holds_ite
    | split
    | (dsimp only)

theorem holds_State_appendTail {s : Sys2Proof.Machine.State} {a2 : Nat} {a3 : Nat} {a4 : List Sys2Proof.Byte} {a5 : Bool} (h : Holds q f n s) :
    Holds q f n (Sys2Proof.Machine.State.appendTail s a2 a3 a4 a5) := by
  unfold Sys2Proof.Machine.State.appendTail
  repeat' first
    | with_reducible assumption
    | (with_reducible intro _)
    | with_reducible apply holds_State_pour
    | with_reducible apply holds_State_settleCell
    | with_reducible apply holds_State_putOpenCell
    | split
    | (dsimp only)

theorem holds_State_closeBad {s : Sys2Proof.Machine.State} {a2 : Nat} (h : Holds q f n s) :
    Holds q f n (Sys2Proof.Machine.State.closeBad s a2) := by
  unfold Sys2Proof.Machine.State.closeBad
  repeat' first
    | with_reducible assumption
    | (with_reducible intro _)
    | with_reducible apply holds_State_appendTail
    | with_reducible apply holds_ite
    | split

theorem holds_State_failCopy {s : Sys2Proof.Machine.State} {a2 : Sys2Proof.Machine.Copy} {a3 : Nat} {a4 : Nat} (h : Holds q f n s) :
    Holds q f n (Sys2Proof.Machine.State.failCopy s a2 a3 a4) := by
  unfold Sys2Proof.Machine.State.failCopy
  repeat' first
    | with_reducible assumption
    | (with_reducible intro _)
    | with_reducible apply holds_State_stomp
    | with_reducible apply holds_State_endAtPort
    | with_reducible apply holds_State_closeBad
    | with_reducible apply holds_State_setFrame
    | with_reducible apply holds_State_endCopy
    | split

theorem holds_State_failFrame {s : Sys2Proof.Machine.State} {a2 : Nat} {a3 : Nat} {a4 : Nat} (h : Holds q f n s) :
    Holds q f n (Sys2Proof.Machine.State.failFrame s a2 a3 a4) := by
  unfold Sys2Proof.Machine.State.failFrame
  repeat' first
    | with_reducible assumption
    | (with_reducible intro _)
    | with_reducible apply holds_State_failCopy
    | with_reducible apply holds_State_setFrame
    | with_reducible apply holds_State_releaseRef
    | with_reducible apply holds_State_endFrame
    | with_reducible apply holds_foldl
    | with_reducible apply holds_foldl_fst
    | split
end Sys2Proof.Laws
end

