-- ==== Sys2Proof/Laws/HoldsBoot.lean ====
section
/-! SUPPORT. What the operations of Machine/Boot.lean keep. -/

namespace Sys2Proof.Laws

open Sys2Proof.Machine Sys2Proof.Safety

variable {q : List Instr} {f n : Nat}

theorem holds_State_setSession {s : State} {a2 : Nat} {a3 : Session → Session} (h : Holds q f n s) :
    Holds q f n (s.setSession a2 a3) :=
  { h with sessions := (List.length_modify ..).trans h.sessions }

theorem holds_State_closeSession {s : Sys2Proof.Machine.State} {a2 : Nat} (h : Holds q f n s) :
    Holds q f n (Sys2Proof.Machine.State.closeSession s a2) := by
  unfold Sys2Proof.Machine.State.closeSession
  repeat' first
    | with_reducible assumption
    | (with_reducible intro _)
    | with_reducible apply holds_State_setSession

theorem holds_State_closeSessions {s : State} {a2 : Session → Bool} (h : Holds q f n s) : Holds q f n (s.closeSessions a2) :=
  { h with sessions := (List.length_map ..).trans h.sessions }

theorem holds_State_setUnit {s : Sys2Proof.Machine.State} {a2 : Nat} {a3 : Sys2Proof.Machine.UnitSt → Sys2Proof.Machine.UnitSt} (h : Holds q f n s) :
    Holds q f n (Sys2Proof.Machine.State.setUnit s a2 a3) := by
  unfold Sys2Proof.Machine.State.setUnit
  repeat' first
    | with_reducible assumption
    | (with_reducible intro _)
    | split
    | (dsimp only)
    | (with_reducible refine holds_mk ?_; with_reducible apply Holds.parts)

theorem holds_State_markFenced {s : Sys2Proof.Machine.State} {a2 : Nat} {a3 : Nat} (h : Holds q f n s) :
    Holds q f n (Sys2Proof.Machine.State.markFenced s a2 a3) := by
  unfold Sys2Proof.Machine.State.markFenced
  repeat' first
    | with_reducible assumption
    | (with_reducible intro _)
    | with_reducible apply holds_State_setUnit

theorem holds_State_abandonReload {s : Sys2Proof.Machine.State} (h : Holds q f n s) :
    Holds q f n (Sys2Proof.Machine.State.abandonReload s) := by
  unfold Sys2Proof.Machine.State.abandonReload
  repeat' first
    | with_reducible assumption
    | (with_reducible intro _)
    | with_reducible apply holds_State_put
    | with_reducible apply holds_foldl

theorem restarted_seqs_length {a : Atelier} (h : a.seqs.length = 8) : a.restarted.seqs.length = 8 := by
  unfold Atelier.restarted
  dsimp only
  split
  · rw [List.length_map, List.length_map, h]
  · rw [List.length_map, h]

theorem holds_State_wipedBase {s : State} {a2 : SeqKind} (h : Holds q f n s) : Holds q f n (s.wipedBase a2) := by
  have hr := holds_reset
  refine ⟨sparse_filter_wf h.obj, sparse_filter_wf h.dom, hr.ports, hr.pipes, ?_, hr.versions, hr.lanes, ?_, h.pending, h.fuses,
    h.free⟩
  · cases a2 <;> first | exact h.sessions | exact hr.sessions
  · cases a2 <;> first | exact hr.seqs | exact restarted_seqs_length h.seqs

theorem holds_State_wiped {s : Sys2Proof.Machine.State} {a2 : Sys2Proof.Machine.SeqKind} (h : Holds q f n s) :
    Holds q f n (Sys2Proof.Machine.State.wiped s a2) := by
  unfold Sys2Proof.Machine.State.wiped
  repeat' first
    | with_reducible assumption
    | (with_reducible intro _)
    | with_reducible apply holds_State_wipedBase
    | with_reducible apply holds_State_closeSessions
    | with_reducible apply holds_State_abandonReload
    | with_reducible apply holds_ite
    | split

theorem holds_State_functionsOff {s : State} (h : Holds q f n s) : Holds q f n s.functionsOff :=
  { h with obj := sparse_filter_wf h.obj }

theorem holds_State_holdDomains {s : State} (h : Holds q f n s) : Holds q f n s.holdDomains := by
  have h' := holds_State_functionsOff h
  exact { h' with ports := holds_reset.ports, pipes := holds_reset.pipes, lanes := holds_reset.lanes }

theorem holds_State_bootTo {s : Sys2Proof.Machine.State} {a2 : Sys2Proof.Machine.BootStep} {a3 : Nat} (h : Holds q f n s) :
    Holds q f n (Sys2Proof.Machine.State.bootTo s a2 a3) := by
  unfold Sys2Proof.Machine.State.bootTo
  repeat' first
    | with_reducible assumption
    | (with_reducible intro _)
    | with_reducible apply holds_State_put
    | split
    | (dsimp only)
    | (with_reducible refine holds_mk ?_; with_reducible apply Holds.parts)

theorem holds_State_tryStart {s : Sys2Proof.Machine.State} (h : Holds q f n s) :
    Holds q f n (Sys2Proof.Machine.State.tryStart s) := by
  unfold Sys2Proof.Machine.State.tryStart
  repeat' first
    | with_reducible assumption
    | (with_reducible intro _)
    | with_reducible apply holds_State_bootTo
    | with_reducible apply holds_ite
    | split
    | (dsimp only)
    | (with_reducible refine holds_mk ?_; with_reducible apply Holds.parts)

theorem holds_State_beginReset {s : Sys2Proof.Machine.State} {a2 : Sys2Proof.Machine.SeqKind} {a3 : Nat} (h : Holds q f n s) :
    Holds q f n (Sys2Proof.Machine.State.beginReset s a2 a3) := by
  unfold Sys2Proof.Machine.State.beginReset
  repeat' first
    | with_reducible assumption
    | (with_reducible intro _)
    | with_reducible apply holds_State_wiped
    | with_reducible apply holds_State_put
    | with_reducible apply holds_State_log
    | with_reducible apply holds_State_tryStart
    | split
    | (dsimp only)
    | (with_reducible refine holds_mk ?_; with_reducible apply Holds.parts)

theorem holds_State_warmCause {s : Sys2Proof.Machine.State} {a2 : Nat} (h : Holds q f n s) :
    Holds q f n (Sys2Proof.Machine.State.warmCause s a2) := by
  unfold Sys2Proof.Machine.State.warmCause
  repeat' first
    | with_reducible assumption
    | (with_reducible intro _)
    | with_reducible apply holds_State_beginReset
    | with_reducible apply holds_ite

theorem holds_State_becomeReady {s : Sys2Proof.Machine.State} (h : Holds q f n s) :
    Holds q f n (Sys2Proof.Machine.State.becomeReady s) := by
  unfold Sys2Proof.Machine.State.becomeReady
  repeat' first
    | with_reducible assumption
    | (with_reducible intro _)
    | with_reducible apply holds_State_bootTo
    | with_reducible apply holds_State_put
    | with_reducible apply holds_ite
    | split
    | (dsimp only)
    | (with_reducible refine holds_mk ?_; with_reducible apply Holds.parts)

theorem holds_State_wipesEnded {s : Sys2Proof.Machine.State} (h : Holds q f n s) :
    Holds q f n (Sys2Proof.Machine.State.wipesEnded s) := by
  unfold Sys2Proof.Machine.State.wipesEnded
  repeat' first
    | with_reducible assumption
    | (with_reducible intro _)
    | with_reducible apply holds_State_becomeReady
    | with_reducible apply holds_State_bootTo
    | with_reducible apply holds_ite

theorem holds_State_loadImage {s : State} {a2 : Nat} (h : Holds q f n s) : Holds q f n (s.loadImage a2) := by
  unfold State.loadImage
  apply holds_foldl
  · apply holds_State_put
    apply holds_State_put
    apply holds_State_put
    exact { h with seqs := (List.length_map ..).trans h.seqs }
  · intro _ _ h
    exact holds_State_put h

theorem holds_State_imageChange {s : Sys2Proof.Machine.State} {a2 : Nat} (h : Holds q f n s) :
    Holds q f n (Sys2Proof.Machine.State.imageChange s a2) := by
  unfold Sys2Proof.Machine.State.imageChange
  repeat' first
    | with_reducible assumption
    | (with_reducible intro _)
    | with_reducible apply holds_State_log
    | with_reducible apply holds_State_flag

theorem holds_State_noImage {s : Sys2Proof.Machine.State} {a2 : Nat} {a3 : Nat} (h : Holds q f n s) :
    Holds q f n (Sys2Proof.Machine.State.noImage s a2 a3) := by
  unfold Sys2Proof.Machine.State.noImage
  repeat' first
    | with_reducible assumption
    | (with_reducible intro _)
    | with_reducible apply holds_State_bootTo
    | with_reducible apply holds_State_put

theorem holds_State_rejectImage {s : Sys2Proof.Machine.State} {a2 : Nat} {a3 : Nat} (h : Holds q f n s) :
    Holds q f n (Sys2Proof.Machine.State.rejectImage s a2 a3) := by
  unfold Sys2Proof.Machine.State.rejectImage
  repeat' first
    | with_reducible assumption
    | (with_reducible intro _)
    | with_reducible apply holds_State_bootTo
    | with_reducible apply holds_State_imageChange
    | with_reducible apply holds_State_noImage
    | with_reducible apply holds_ite

theorem holds_State_judgeImage {s : Sys2Proof.Machine.State} {a2 : Nat} {a3 : Bool} (h : Holds q f n s) :
    Holds q f n (Sys2Proof.Machine.State.judgeImage s a2 a3) := by
  unfold Sys2Proof.Machine.State.judgeImage
  repeat' first
    | with_reducible assumption
    | (with_reducible intro _)
    | with_reducible apply holds_State_rejectImage
    | with_reducible apply holds_State_bootTo
    | with_reducible apply holds_State_loadImage
    | with_reducible apply holds_State_imageChange
    | with_reducible apply holds_ite

theorem holds_State_upload {s : Sys2Proof.Machine.State} (h : Holds q f n s) :
    Holds q f n (Sys2Proof.Machine.State.upload s) := by
  unfold Sys2Proof.Machine.State.upload
  repeat' first
    | with_reducible assumption
    | (with_reducible intro _)
    | with_reducible apply holds_State_noImage
    | with_reducible apply holds_State_bootTo
    | with_reducible apply holds_ite
    | split
    | (dsimp only)
    | (with_reducible refine holds_mk ?_; with_reducible apply Holds.parts)

theorem holds_execPowerOn {a1 : BitVec 2} {s : State} (h : Holds q f n s) : HoldsR q f n (execPowerOn a1 s) :=
  { holds_reset with pending := h.pending, fuses := h.fuses, free := h.free }

theorem holds_execRailLoss {a1 : Fin 5} {s : Sys2Proof.Machine.State} (h : Holds q f n s) :
    HoldsR q f n (Sys2Proof.Machine.execRailLoss a1 s) := by
  unfold Sys2Proof.Machine.execRailLoss
  repeat' first
    | with_reducible assumption
    | (with_reducible intro _)
    | with_reducible apply holds_State_put
    | with_reducible apply holds_State_closeSessions
    | with_reducible apply holds_State_holdDomains
    | with_reducible apply holds_State_log
    | with_reducible apply holds_State_bootTo
    | with_reducible apply HoldsR.next
    | exact HoldsR.undefined (by decide)
    | with_reducible apply HoldsR.ite
    | with_reducible apply holds_ite
    | split
    | (dsimp only)
    | (with_reducible refine holds_mk ?_; with_reducible apply Holds.parts)

theorem holds_execRailReturn {s : Sys2Proof.Machine.State} (h : Holds q f n s) :
    HoldsR q f n (Sys2Proof.Machine.execRailReturn s) := by
  unfold Sys2Proof.Machine.execRailReturn
  repeat' first
    | with_reducible assumption
    | (with_reducible intro _)
    | with_reducible apply holds_State_put
    | with_reducible apply holds_State_beginReset
    | with_reducible apply holds_State_tryStart
    | with_reducible apply HoldsR.next
    | exact HoldsR.undefined (by decide)
    | with_reducible apply HoldsR.ite
    | with_reducible apply holds_ite
    | split
    | (dsimp only)

theorem holds_execColdNLow {s : Sys2Proof.Machine.State} (h : Holds q f n s) :
    HoldsR q f n (Sys2Proof.Machine.execColdNLow s) := by
  unfold Sys2Proof.Machine.execColdNLow
  repeat' first
    | with_reducible assumption
    | (with_reducible intro _)
    | with_reducible apply holds_State_beginReset
    | with_reducible apply HoldsR.next
    | exact HoldsR.undefined (by decide)
    | with_reducible apply HoldsR.ite
    | with_reducible apply holds_ite
    | split
    | (dsimp only)
    | (with_reducible refine holds_mk ?_; with_reducible apply Holds.parts)

theorem holds_execColdNRise {s : Sys2Proof.Machine.State} (h : Holds q f n s) :
    HoldsR q f n (Sys2Proof.Machine.execColdNRise s) := by
  unfold Sys2Proof.Machine.execColdNRise
  repeat' first
    | with_reducible assumption
    | (with_reducible intro _)
    | with_reducible apply holds_State_tryStart
    | with_reducible apply HoldsR.next
    | exact HoldsR.undefined (by decide)
    | split
    | (dsimp only)
    | (with_reducible refine holds_mk ?_; with_reducible apply Holds.parts)

theorem holds_execWarmNLow {s : Sys2Proof.Machine.State} (h : Holds q f n s) :
    HoldsR q f n (Sys2Proof.Machine.execWarmNLow s) := by
  unfold Sys2Proof.Machine.execWarmNLow
  repeat' first
    | with_reducible assumption
    | (with_reducible intro _)
    | with_reducible apply holds_State_warmCause
    | with_reducible apply HoldsR.next
    | exact HoldsR.undefined (by decide)
    | with_reducible apply HoldsR.ite
    | with_reducible apply holds_ite
    | split
    | (dsimp only)
    | (with_reducible refine holds_mk ?_; with_reducible apply Holds.parts)

theorem holds_execWarmNRise {s : Sys2Proof.Machine.State} (h : Holds q f n s) :
    HoldsR q f n (Sys2Proof.Machine.execWarmNRise s) := by
  unfold Sys2Proof.Machine.execWarmNRise
  repeat' first
    | with_reducible assumption
    | (with_reducible intro _)
    | with_reducible apply holds_State_tryStart
    | with_reducible apply holds_State_becomeReady
    | with_reducible apply HoldsR.next
    | exact HoldsR.undefined (by decide)
    | split
    | (dsimp only)
    | (with_reducible refine holds_mk ?_; with_reducible apply Holds.parts)

theorem holds_State_loseClock {s : Sys2Proof.Machine.State} {a2 : Sys2Proof.ClockSource} (h : Holds q f n s) :
    Holds q f n (Sys2Proof.Machine.State.loseClock s a2) := by
  unfold Sys2Proof.Machine.State.loseClock
  repeat' first
    | with_reducible assumption
    | (with_reducible intro _)
    | with_reducible apply holds_State_put
    | with_reducible apply holds_State_flag
    | with_reducible apply holds_ite

theorem holds_State_abandonForClocks {s : Sys2Proof.Machine.State} (h : Holds q f n s) :
    Holds q f n (Sys2Proof.Machine.State.abandonForClocks s) := by
  unfold Sys2Proof.Machine.State.abandonForClocks
  repeat' first
    | with_reducible assumption
    | (with_reducible intro _)
    | with_reducible apply holds_State_bootTo
    | split
    | (dsimp only)
    | (with_reducible refine holds_mk ?_; with_reducible apply Holds.parts)

theorem holds_execClockLossBeforeReady {a1 : Sys2Proof.ClockSource} {s : Sys2Proof.Machine.State} (h : Holds q f n s) :
    HoldsR q f n (Sys2Proof.Machine.execClockLossBeforeReady a1 s) := by
  unfold Sys2Proof.Machine.execClockLossBeforeReady
  repeat' first
    | with_reducible assumption
    | (with_reducible intro _)
    | with_reducible apply holds_State_abandonForClocks
    | with_reducible apply holds_State_loseClock
    | with_reducible apply HoldsR.next
    | exact HoldsR.undefined (by decide)
    | with_reducible apply HoldsR.ite

theorem holds_execClocksStable {s : Sys2Proof.Machine.State} (h : Holds q f n s) :
    HoldsR q f n (Sys2Proof.Machine.execClocksStable s) := by
  unfold Sys2Proof.Machine.execClocksStable
  repeat' first
    | with_reducible assumption
    | (with_reducible intro _)
    | with_reducible apply holds_State_put
    | with_reducible apply holds_State_tryStart
    | with_reducible apply HoldsR.next
    | exact HoldsR.undefined (by decide)
    | with_reducible apply HoldsR.ite
    | with_reducible apply holds_ite
    | split
    | (dsimp only)

theorem holds_State_pllsLocked {s : Sys2Proof.Machine.State} (h : Holds q f n s) :
    Holds q f n (Sys2Proof.Machine.State.pllsLocked s) := by
  unfold Sys2Proof.Machine.State.pllsLocked
  repeat' first
    | with_reducible assumption
    | (with_reducible intro _)
    | with_reducible apply holds_State_put
    | with_reducible apply holds_State_bootTo
    | split
    | (dsimp only)
    | (with_reducible refine holds_mk ?_; with_reducible apply Holds.parts)

theorem holds_execPllsLocked {s : Sys2Proof.Machine.State} (h : Holds q f n s) :
    HoldsR q f n (Sys2Proof.Machine.execPllsLocked s) := by
  unfold Sys2Proof.Machine.execPllsLocked
  repeat' first
    | with_reducible assumption
    | (with_reducible intro _)
    | with_reducible apply holds_State_pllsLocked
    | with_reducible apply HoldsR.next
    | exact HoldsR.undefined (by decide)
    | with_reducible apply HoldsR.ite
    | with_reducible apply holds_ite
    | split
    | (dsimp only)
    | (with_reducible refine holds_mk ?_; with_reducible apply Holds.parts)

theorem holds_execPllLockRestored {s : Sys2Proof.Machine.State} (h : Holds q f n s) :
    HoldsR q f n (Sys2Proof.Machine.execPllLockRestored s) := by
  unfold Sys2Proof.Machine.execPllLockRestored
  repeat' first
    | with_reducible assumption
    | (with_reducible intro _)
    | with_reducible apply holds_State_beginReset
    | with_reducible apply holds_State_put
    | with_reducible apply HoldsR.next
    | exact HoldsR.undefined (by decide)
    | with_reducible apply HoldsR.ite

theorem holds_execSdRefclkLoss {a1 : Fin 8} {s : Sys2Proof.Machine.State} (h : Holds q f n s) :
    HoldsR q f n (Sys2Proof.Machine.execSdRefclkLoss a1 s) := by
  unfold Sys2Proof.Machine.execSdRefclkLoss
  repeat' first
    | with_reducible assumption
    | (with_reducible intro _)
    | with_reducible apply holds_State_put
    | with_reducible apply HoldsR.next
    | exact HoldsR.undefined (by decide)
    | split
    | (dsimp only)
    | (with_reducible refine holds_mk ?_; with_reducible apply Holds.parts)

theorem holds_execSdRefclkReturn {a1 : Fin 8} {s : Sys2Proof.Machine.State} (h : Holds q f n s) :
    HoldsR q f n (Sys2Proof.Machine.execSdRefclkReturn a1 s) := by
  unfold Sys2Proof.Machine.execSdRefclkReturn
  repeat' first
    | with_reducible assumption
    | (with_reducible intro _)
    | with_reducible apply holds_State_put
    | with_reducible apply HoldsR.next
    | exact HoldsR.undefined (by decide)
    | split
    | (dsimp only)
    | (with_reducible refine holds_mk ?_; with_reducible apply Holds.parts)

theorem holds_execDieTempUpdate {a1 : BitVec 32} {s : Sys2Proof.Machine.State} (h : Holds q f n s) :
    HoldsR q f n (Sys2Proof.Machine.execDieTempUpdate a1 s) := by
  unfold Sys2Proof.Machine.execDieTempUpdate
  repeat' first
    | with_reducible assumption
    | (with_reducible intro _)
    | with_reducible apply holds_State_put
    | with_reducible apply HoldsR.next

theorem holds_execConfigBlockRead {a1 : List Sys2Proof.Byte} {s : Sys2Proof.Machine.State} (h : Holds q f n s) :
    HoldsR q f n (Sys2Proof.Machine.execConfigBlockRead a1 s) := by
  unfold Sys2Proof.Machine.execConfigBlockRead
  repeat' first
    | with_reducible assumption
    | (with_reducible intro _)
    | with_reducible apply holds_State_noImage
    | with_reducible apply holds_State_bootTo
    | with_reducible apply HoldsR.next
    | exact HoldsR.undefined (by decide)
    | with_reducible apply HoldsR.ite
    | with_reducible apply holds_ite
    | split
    | (dsimp only)
    | (with_reducible refine holds_mk ?_; with_reducible apply Holds.parts)

theorem holds_execImageReadEnd {a1 : List Sys2Proof.Byte} {s : Sys2Proof.Machine.State} (h : Holds q f n s) :
    HoldsR q f n (Sys2Proof.Machine.execImageReadEnd a1 s) := by
  unfold Sys2Proof.Machine.execImageReadEnd
  repeat' first
    | with_reducible assumption
    | (with_reducible intro _)
    | with_reducible apply holds_State_rejectImage
    | with_reducible apply holds_State_bootTo
    | with_reducible apply HoldsR.next
    | exact HoldsR.undefined (by decide)
    | with_reducible apply HoldsR.ite
    | with_reducible apply holds_ite
    | split
    | (dsimp only)
    | (with_reducible refine holds_mk ?_; with_reducible apply Holds.parts)

theorem holds_execImageVerified {a1 : Bool} {s : Sys2Proof.Machine.State} (h : Holds q f n s) :
    HoldsR q f n (Sys2Proof.Machine.execImageVerified a1 s) := by
  unfold Sys2Proof.Machine.execImageVerified
  repeat' first
    | with_reducible assumption
    | (with_reducible intro _)
    | with_reducible apply holds_State_judgeImage
    | with_reducible apply HoldsR.next
    | exact HoldsR.undefined (by decide)
    | split

theorem holds_execSramWipeEnd {s : Sys2Proof.Machine.State} (h : Holds q f n s) :
    HoldsR q f n (Sys2Proof.Machine.execSramWipeEnd s) := by
  unfold Sys2Proof.Machine.execSramWipeEnd
  repeat' first
    | with_reducible assumption
    | (with_reducible intro _)
    | with_reducible apply holds_State_wipesEnded
    | with_reducible apply HoldsR.next
    | exact HoldsR.undefined (by decide)
    | with_reducible apply HoldsR.ite
    | with_reducible apply holds_ite
    | split
    | (dsimp only)
    | (with_reducible refine holds_mk ?_; with_reducible apply Holds.parts)

theorem holds_State_fenceUntrained {s : Sys2Proof.Machine.State} (h : Holds q f n s) :
    Holds q f n (Sys2Proof.Machine.State.fenceUntrained s) := by
  unfold Sys2Proof.Machine.State.fenceUntrained
  repeat' first
    | with_reducible assumption
    | (with_reducible intro _)
    | with_reducible apply holds_State_log
    | with_reducible apply holds_State_markFenced
    | with_reducible apply holds_foldl
    | with_reducible apply holds_foldl_fst
    | with_reducible apply holds_ite

theorem holds_execDdr5TrainingEnd {a1 : BitVec 16} {s : Sys2Proof.Machine.State} (h : Holds q f n s) :
    HoldsR q f n (Sys2Proof.Machine.execDdr5TrainingEnd a1 s) := by
  unfold Sys2Proof.Machine.execDdr5TrainingEnd
  repeat' first
    | with_reducible assumption
    | (with_reducible intro _)
    | with_reducible apply holds_State_bootTo
    | with_reducible apply holds_State_put
    | with_reducible apply holds_State_fenceUntrained
    | with_reducible apply HoldsR.next
    | exact HoldsR.undefined (by decide)
    | split
    | (dsimp only)
    | (with_reducible refine holds_mk ?_; with_reducible apply Holds.parts)

theorem holds_execDdr5ResetRelease {s : Sys2Proof.Machine.State} (h : Holds q f n s) :
    HoldsR q f n (Sys2Proof.Machine.execDdr5ResetRelease s) := by
  unfold Sys2Proof.Machine.execDdr5ResetRelease
  repeat' first
    | with_reducible assumption
    | (with_reducible intro _)
    | with_reducible apply holds_State_bootTo
    | with_reducible apply HoldsR.next
    | exact HoldsR.undefined (by decide)
    | split

theorem holds_execDdr5ReinitEnd {s : Sys2Proof.Machine.State} (h : Holds q f n s) :
    HoldsR q f n (Sys2Proof.Machine.execDdr5ReinitEnd s) := by
  unfold Sys2Proof.Machine.execDdr5ReinitEnd
  repeat' first
    | with_reducible assumption
    | (with_reducible intro _)
    | with_reducible apply holds_State_bootTo
    | with_reducible apply holds_State_put
    | with_reducible apply holds_State_fenceUntrained
    | with_reducible apply HoldsR.next
    | exact HoldsR.undefined (by decide)
    | split

theorem holds_execDdr5WipeEnd {s : Sys2Proof.Machine.State} (h : Holds q f n s) :
    HoldsR q f n (Sys2Proof.Machine.execDdr5WipeEnd s) := by
  unfold Sys2Proof.Machine.execDdr5WipeEnd
  repeat' first
    | with_reducible assumption
    | (with_reducible intro _)
    | with_reducible apply holds_State_wipesEnded
    | with_reducible apply HoldsR.next
    | exact HoldsR.undefined (by decide)
    | with_reducible apply HoldsR.ite
    | with_reducible apply holds_ite
    | split
    | (dsimp only)
    | (with_reducible refine holds_mk ?_; with_reducible apply Holds.parts)

theorem holds_State_lifeRequest {s : Sys2Proof.Machine.State} {a2 : Nat} {a3 : Bool} (h : Holds q f n s) :
    Holds q f n (Sys2Proof.Machine.State.lifeRequest s a2 a3) := by
  unfold Sys2Proof.Machine.State.lifeRequest
  repeat' first
    | with_reducible assumption
    | (with_reducible intro _)
    | with_reducible apply holds_State_flag
    | with_reducible apply holds_State_put
    | with_reducible apply holds_ite
    | split
    | (dsimp only)
    | (with_reducible refine holds_mk ?_; with_reducible apply Holds.parts)

/-- FUSE_BLOW_END keeps all but the life-cycle code, which becomes the one being blown. -/
theorem holds_execFuseBlowEnd {s : State} (h : Holds q f n s) :
    HoldsR q (s.boot.blowing.getD f) n (execFuseBlowEnd s) := by
  unfold execFuseBlowEnd
  split
  · rename_i t e
    rw [e]
    apply holds_State_beginReset
    exact { h with fuses := rfl }
  · rename_i e
    rw [e]
    exact h

theorem holds_State_fusesAtLoss {s : State} (h : Holds q f n s) : Holds q f n s.fusesAtLoss.2 := by
  unfold State.fusesAtLoss
  split
  · exact holds_State_free (a2 := 1) h
  · exact h

/-- After a loss of power the fuses read the old code or the one being blown. -/
theorem fusesAtLoss_fst (s : State) : s.fusesAtLoss.1 = s.boot.fuses ∨ s.boot.blowing = some s.fusesAtLoss.1 := by
  unfold State.fusesAtLoss
  split
  · rename_i e
    dsimp only
    split
    · exact .inr e
    · exact .inl rfl
  · exact .inl rfl

/-- POWER_REMOVAL keeps all but the life-cycle code, which may become the one being blown. -/
theorem holds_execPowerRemoval {a1 : Bool} {s : State} (h : Holds q f n s) :
    ∃ f', (f' = f ∨ s.boot.blowing = some f') ∧ HoldsR q f' n (execPowerRemoval a1 s) := by
  unfold execPowerRemoval
  split
  · exact ⟨f, .inl rfl, HoldsR.undefined (by decide)⟩
  · have h2 := holds_State_fusesAtLoss h
    exact ⟨s.fusesAtLoss.1, h.fuses ▸ fusesAtLoss_fst s, { holds_reset with pending := h2.pending, fuses := rfl, free := h2.free }⟩
end Sys2Proof.Laws
end

