-- ==== Sys2Proof/Laws/HoldsLinks.lean ====
section
/-! SUPPORT. What the operations of Machine/Links.lean keep. -/

namespace Sys2Proof.Laws

open Sys2Proof.Machine Sys2Proof.Safety

variable {q : List Instr} {f n : Nat}

theorem holds_State_setLink {s : Sys2Proof.Machine.State} {a2 : Nat} {a3 : Nat} (h : Holds q f n s) :
    Holds q f n (Sys2Proof.Machine.State.setLink s a2 a3) := by
  unfold Sys2Proof.Machine.State.setLink
  repeat' first
    | with_reducible assumption
    | (with_reducible intro _)
    | with_reducible apply holds_State_put

theorem holds_State_clearSpeed {s : Sys2Proof.Machine.State} {a2 : Nat} (h : Holds q f n s) :
    Holds q f n (Sys2Proof.Machine.State.clearSpeed s a2) := by
  unfold Sys2Proof.Machine.State.clearSpeed
  repeat' first
    | with_reducible assumption
    | (with_reducible intro _)
    | with_reducible apply holds_State_put

theorem holds_State_toTraining {s : Sys2Proof.Machine.State} {a2 : Nat} (h : Holds q f n s) :
    Holds q f n (Sys2Proof.Machine.State.toTraining s a2) := by
  unfold Sys2Proof.Machine.State.toTraining
  repeat' first
    | with_reducible assumption
    | (with_reducible intro _)
    | with_reducible apply holds_State_setLink

theorem holds_State_startLink {s : Sys2Proof.Machine.State} {a2 : Nat} (h : Holds q f n s) :
    Holds q f n (Sys2Proof.Machine.State.startLink s a2) := by
  unfold Sys2Proof.Machine.State.startLink
  repeat' first
    | with_reducible assumption
    | (with_reducible intro _)
    | with_reducible apply holds_State_clearSpeed
    | with_reducible apply holds_State_setPort
    | with_reducible apply holds_State_setLink
    | with_reducible apply holds_State_toTraining
    | with_reducible apply holds_ite

theorem holds_State_disableLink {s : Sys2Proof.Machine.State} {a2 : Nat} (h : Holds q f n s) :
    Holds q f n (Sys2Proof.Machine.State.disableLink s a2) := by
  unfold Sys2Proof.Machine.State.disableLink
  repeat' first
    | with_reducible assumption
    | (with_reducible intro _)
    | with_reducible apply holds_State_setLink
    | with_reducible apply holds_State_setPort
    | with_reducible apply holds_State_clearSpeed

theorem holds_State_setPause {s : Sys2Proof.Machine.State} {a2 : Nat} {a3 : Nat} {a4 : Sys2Proof.Machine.Pause → Sys2Proof.Machine.Pause} (h : Holds q f n s) :
    Holds q f n (Sys2Proof.Machine.State.setPause s a2 a3 a4) := by
  unfold Sys2Proof.Machine.State.setPause
  repeat' first
    | with_reducible assumption
    | (with_reducible intro _)
    | with_reducible apply holds_State_setPort
    | with_reducible apply holds_State_put

theorem holds_State_pauseFor {s : Sys2Proof.Machine.State} {a2 : Nat} {a3 : Nat} {a4 : Nat} (h : Holds q f n s) :
    Holds q f n (Sys2Proof.Machine.State.pauseFor s a2 a3 a4) := by
  unfold Sys2Proof.Machine.State.pauseFor
  repeat' first
    | with_reducible assumption
    | (with_reducible intro _)
    | with_reducible apply holds_State_setPause
    | with_reducible apply holds_ite

theorem holds_State_secyCount {s : Sys2Proof.Machine.State} {a2 : Nat} {a3 : Nat} (h : Holds q f n s) :
    Holds q f n (Sys2Proof.Machine.State.secyCount s a2 a3) := by
  unfold Sys2Proof.Machine.State.secyCount
  repeat' first
    | with_reducible assumption
    | (with_reducible intro _)
    | with_reducible apply holds_State_putBytes

theorem holds_State_putPn {s : Sys2Proof.Machine.State} {a2 : Nat} {a3 : Nat} {a4 : Nat} (h : Holds q f n s) :
    Holds q f n (Sys2Proof.Machine.State.putPn s a2 a3 a4) := by
  unfold Sys2Proof.Machine.State.putPn
  repeat' first
    | with_reducible assumption
    | (with_reducible intro _)
    | with_reducible apply holds_State_putBytes

theorem holds_State_takeSeal {s : Sys2Proof.Machine.State} {a2 : Nat} (h : Holds q f n s) :
    HoldsOP q f n (Sys2Proof.Machine.State.takeSeal s a2) := by
  unfold Sys2Proof.Machine.State.takeSeal
  repeat' first
    | with_reducible assumption
    | (with_reducible intro _)
    | with_reducible apply holds_State_putPn
    | with_reducible apply holds_State_flag
    | exact HoldsOP.none
    | with_reducible apply HoldsOP.some
    | with_reducible apply HoldsOP.ite
    | with_reducible apply holds_ite
    | split
    | (dsimp only)

theorem holds_State_beginTx {s : Sys2Proof.Machine.State} {a2 : Nat} {a3 : Sys2Proof.Machine.Copy} {a4 : Bool} (h : Holds q f n s) :
    Holds q f n (Sys2Proof.Machine.State.beginTx s a2 a3 a4) := by
  unfold Sys2Proof.Machine.State.beginTx
  repeat' first
    | with_reducible assumption
    | (with_reducible intro _)
    | with_reducible apply holds_State_setPort
    | with_reducible apply holds_State_setCopy
    | with_reducible apply holds_State_secyCount
    | with_reducible apply holds_State_takeSeal
    | with_reducible apply holds_State_endAtPort
    | with_reducible refine HoldsOP.of_eq ‹_› ?_
    | with_reducible apply HoldsOP.ite
    | with_reducible apply holds_ite
    | split

theorem holds_State_startNext {s : Sys2Proof.Machine.State} {a2 : Nat} {a3 : Nat} (h : Holds q f n s) :
    Holds q f n (Sys2Proof.Machine.State.startNext s a2 a3) := by
  induction a3 generalizing s a2 with
  | zero =>
    unfold Sys2Proof.Machine.State.startNext
    repeat' first
      | with_reducible assumption
  | succ k ih =>
    unfold Sys2Proof.Machine.State.startNext
    repeat' first
      | with_reducible assumption
      | (with_reducible intro _)
      | with_reducible apply ih
      | with_reducible apply holds_State_beginTx
      | with_reducible apply holds_ite
      | split

theorem holds_State_startTx {s : Sys2Proof.Machine.State} {a2 : Nat} (h : Holds q f n s) :
    Holds q f n (Sys2Proof.Machine.State.startTx s a2) := by
  unfold Sys2Proof.Machine.State.startTx
  repeat' first
    | with_reducible assumption
    | (with_reducible intro _)
    | with_reducible apply holds_State_startNext

theorem holds_State_startPorts {s : Sys2Proof.Machine.State} {a2 : List Nat} (h : Holds q f n s) :
    Holds q f n (Sys2Proof.Machine.State.startPorts s a2) := by
  unfold Sys2Proof.Machine.State.startPorts
  repeat' first
    | with_reducible assumption
    | (with_reducible intro _)
    | with_reducible apply holds_State_startTx
    | with_reducible apply holds_foldl

theorem holds_State_loseFrame {s : Sys2Proof.Machine.State} {a2 : Nat} {a3 : Nat} {a4 : Nat} (h : Holds q f n s) :
    Holds q f n (Sys2Proof.Machine.State.loseFrame s a2 a3 a4) := by
  unfold Sys2Proof.Machine.State.loseFrame
  repeat' first
    | with_reducible assumption
    | (with_reducible intro _)
    | with_reducible apply holds_State_startPorts
    | with_reducible apply holds_State_failFrame

theorem holds_State_leaveHolding {s : Sys2Proof.Machine.State} {a2 : Nat} (h : Holds q f n s) :
    Holds q f n (Sys2Proof.Machine.State.leaveHolding s a2) := by
  unfold Sys2Proof.Machine.State.leaveHolding
  repeat' first
    | with_reducible assumption
    | (with_reducible intro _)
    | with_reducible apply holds_State_startLink
    | with_reducible apply holds_ite

theorem holds_State_linkDownFlush {s : Sys2Proof.Machine.State} {a2 : Nat} (h : Holds q f n s) :
    Holds q f n (Sys2Proof.Machine.State.linkDownFlush s a2) := by
  unfold Sys2Proof.Machine.State.linkDownFlush
  repeat' first
    | with_reducible assumption
    | (with_reducible intro _)
    | with_reducible apply holds_State_flag
    | with_reducible apply holds_State_flushPort
    | with_reducible apply holds_State_setPort

theorem holds_State_endReception {s : Sys2Proof.Machine.State} {a2 : Nat} {a3 : Nat} {a4 : Nat} (h : Holds q f n s) :
    Holds q f n (Sys2Proof.Machine.State.endReception s a2 a3 a4) := by
  unfold Sys2Proof.Machine.State.endReception
  repeat' first
    | with_reducible assumption
    | (with_reducible intro _)
    | with_reducible apply holds_State_setPort
    | with_reducible apply holds_State_loseFrame
    | with_reducible apply holds_State_rxCode
    | with_reducible apply holds_State_code
    | with_reducible apply holds_getD
    | with_reducible apply holds_ite
    | split

theorem holds_execPagesReceived {a1 : Sys2Proof.Port} {a2 : Sys2Proof.Pages} {s : Sys2Proof.Machine.State} (h : Holds q f n s) :
    HoldsR q f n (Sys2Proof.Machine.execPagesReceived a1 a2 s) := by
  unfold Sys2Proof.Machine.execPagesReceived
  repeat' first
    | with_reducible assumption
    | (with_reducible intro _)
    | with_reducible apply holds_State_put
    | with_reducible apply holds_State_setPort
    | with_reducible apply holds_State_flag
    | with_reducible apply holds_State_toTraining
    | with_reducible apply holds_State_setLink
    | with_reducible apply holds_State_linkDownFlush
    | with_reducible apply holds_State_leaveHolding
    | with_reducible apply HoldsR.next
    | exact HoldsR.undefined (by decide)
    | with_reducible apply HoldsR.ite
    | with_reducible apply holds_ite
    | split
    | (dsimp only)

theorem holds_execAnWaitExpiry {a1 : Sys2Proof.Port} {s : Sys2Proof.Machine.State} (h : Holds q f n s) :
    HoldsR q f n (Sys2Proof.Machine.execAnWaitExpiry a1 s) := by
  unfold Sys2Proof.Machine.execAnWaitExpiry
  repeat' first
    | with_reducible assumption
    | (with_reducible intro _)
    | with_reducible apply holds_State_setPort
    | with_reducible apply holds_State_setLink
    | with_reducible apply HoldsR.next
    | exact HoldsR.undefined (by decide)
    | with_reducible apply HoldsR.ite
    | with_reducible apply holds_ite
    | split

theorem holds_execPdDwellExpiry {a1 : Sys2Proof.Port} {s : Sys2Proof.Machine.State} (h : Holds q f n s) :
    HoldsR q f n (Sys2Proof.Machine.execPdDwellExpiry a1 s) := by
  unfold Sys2Proof.Machine.execPdDwellExpiry
  repeat' first
    | with_reducible assumption
    | (with_reducible intro _)
    | with_reducible apply holds_State_setPort
    | with_reducible apply holds_State_setLink
    | with_reducible apply HoldsR.next
    | exact HoldsR.undefined (by decide)
    | with_reducible apply HoldsR.ite
    | with_reducible apply holds_ite
    | split

theorem holds_execRateDetected {a1 : Sys2Proof.Port} {s : Sys2Proof.Machine.State} (h : Holds q f n s) :
    HoldsR q f n (Sys2Proof.Machine.execRateDetected a1 s) := by
  unfold Sys2Proof.Machine.execRateDetected
  repeat' first
    | with_reducible assumption
    | (with_reducible intro _)
    | with_reducible apply holds_State_setLink
    | with_reducible apply holds_State_setPort
    | with_reducible apply HoldsR.next
    | exact HoldsR.undefined (by decide)
    | with_reducible apply HoldsR.ite

theorem holds_execTrainingComplete {a1 : Sys2Proof.Port} {s : Sys2Proof.Machine.State} (h : Holds q f n s) :
    HoldsR q f n (Sys2Proof.Machine.execTrainingComplete a1 s) := by
  unfold Sys2Proof.Machine.execTrainingComplete
  repeat' first
    | with_reducible assumption
    | (with_reducible intro _)
    | with_reducible apply holds_State_setLink
    | with_reducible apply HoldsR.next
    | exact HoldsR.undefined (by decide)
    | with_reducible apply HoldsR.ite

theorem holds_execTrainingLimitExpiry {a1 : Sys2Proof.Port} {s : Sys2Proof.Machine.State} (h : Holds q f n s) :
    HoldsR q f n (Sys2Proof.Machine.execTrainingLimitExpiry a1 s) := by
  unfold Sys2Proof.Machine.execTrainingLimitExpiry
  repeat' first
    | with_reducible assumption
    | (with_reducible intro _)
    | with_reducible apply holds_State_flag
    | with_reducible apply holds_State_setLink
    | with_reducible apply HoldsR.next
    | exact HoldsR.undefined (by decide)
    | with_reducible apply HoldsR.ite

theorem holds_execLinkUp {a1 : Sys2Proof.Port} {s : Sys2Proof.Machine.State} (h : Holds q f n s) :
    HoldsR q f n (Sys2Proof.Machine.execLinkUp a1 s) := by
  unfold Sys2Proof.Machine.execLinkUp
  repeat' first
    | with_reducible assumption
    | (with_reducible intro _)
    | with_reducible apply holds_State_bump32
    | with_reducible apply holds_State_put
    | with_reducible apply holds_State_setLink
    | with_reducible apply holds_State_startTx
    | with_reducible apply holds_State_setPort
    | with_reducible apply HoldsR.next
    | exact HoldsR.undefined (by decide)
    | with_reducible apply HoldsR.ite
    | with_reducible apply holds_ite

theorem holds_State_loseLink {s : Sys2Proof.Machine.State} {a2 : Nat} {a3 : Sys2Proof.LossCause} (h : Holds q f n s) :
    Holds q f n (Sys2Proof.Machine.State.loseLink s a2 a3) := by
  unfold Sys2Proof.Machine.State.loseLink
  repeat' first
    | with_reducible assumption
    | (with_reducible intro _)
    | with_reducible apply holds_State_setPort
    | with_reducible apply holds_State_put
    | with_reducible apply holds_State_bump32
    | with_reducible apply holds_State_setLink
    | with_reducible apply holds_State_flag
    | with_reducible apply holds_State_endReception
    | with_reducible apply holds_State_stomp
    | with_reducible apply holds_State_clearPauses
    | with_reducible apply holds_State_leaveHolding
    | with_reducible apply holds_State_linkDownFlush
    | with_reducible apply holds_ite

theorem holds_execLinkLoss {a1 : Sys2Proof.Port} {a2 : Sys2Proof.LossCause} {s : Sys2Proof.Machine.State} (h : Holds q f n s) :
    HoldsR q f n (Sys2Proof.Machine.execLinkLoss a1 a2 s) := by
  unfold Sys2Proof.Machine.execLinkLoss
  repeat' first
    | with_reducible assumption
    | (with_reducible intro _)
    | with_reducible apply holds_State_loseLink
    | with_reducible apply HoldsR.next

theorem holds_execHoldTimeExpiry {a1 : Sys2Proof.Port} {s : Sys2Proof.Machine.State} (h : Holds q f n s) :
    HoldsR q f n (Sys2Proof.Machine.execHoldTimeExpiry a1 s) := by
  unfold Sys2Proof.Machine.execHoldTimeExpiry
  repeat' first
    | with_reducible assumption
    | (with_reducible intro _)
    | with_reducible apply holds_State_leaveHolding
    | with_reducible apply holds_State_linkDownFlush
    | with_reducible apply HoldsR.next
    | exact HoldsR.undefined (by decide)
    | with_reducible apply HoldsR.ite

theorem holds_execPauseTimerExpiry {a1 : Sys2Proof.Port} {a2 : Sys2Proof.TrafficClass} {s : Sys2Proof.Machine.State} (h : Holds q f n s) :
    HoldsR q f n (Sys2Proof.Machine.execPauseTimerExpiry a1 a2 s) := by
  unfold Sys2Proof.Machine.execPauseTimerExpiry
  repeat' first
    | with_reducible assumption
    | (with_reducible intro _)
    | with_reducible apply holds_State_startTx
    | with_reducible apply holds_State_setPause
    | with_reducible apply HoldsR.next
    | exact HoldsR.undefined (by decide)
    | with_reducible apply HoldsR.ite

theorem holds_execPauseWatchdogExpiry {a1 : Sys2Proof.Port} {a2 : Sys2Proof.TrafficClass} {s : Sys2Proof.Machine.State} (h : Holds q f n s) :
    HoldsR q f n (Sys2Proof.Machine.execPauseWatchdogExpiry a1 a2 s) := by
  unfold Sys2Proof.Machine.execPauseWatchdogExpiry
  repeat' first
    | with_reducible assumption
    | (with_reducible intro _)
    | with_reducible apply holds_State_setPause
    | with_reducible apply holds_State_flag
    | with_reducible apply holds_State_bump32
    | with_reducible apply holds_State_startTx
    | with_reducible apply holds_State_log
    | with_reducible apply HoldsR.next
    | exact HoldsR.undefined (by decide)
    | with_reducible apply HoldsR.ite

theorem holds_execPauseWatchdogIgnoreEnd {a1 : Sys2Proof.Port} {a2 : Sys2Proof.TrafficClass} {s : Sys2Proof.Machine.State} (h : Holds q f n s) :
    HoldsR q f n (Sys2Proof.Machine.execPauseWatchdogIgnoreEnd a1 a2 s) := by
  unfold Sys2Proof.Machine.execPauseWatchdogIgnoreEnd
  repeat' first
    | with_reducible assumption
    | (with_reducible intro _)
    | with_reducible apply holds_State_setPause
    | with_reducible apply HoldsR.next

theorem holds_execTransmitUnderrun {a1 : Sys2Proof.Port} {s : Sys2Proof.Machine.State} (h : Holds q f n s) :
    HoldsR q f n (Sys2Proof.Machine.execTransmitUnderrun a1 s) := by
  unfold Sys2Proof.Machine.execTransmitUnderrun
  repeat' first
    | with_reducible assumption
    | (with_reducible intro _)
    | with_reducible apply holds_State_put
    | with_reducible apply holds_State_flag
    | with_reducible apply holds_State_stomp
    | with_reducible apply holds_State_startTx
    | with_reducible apply HoldsR.next
    | exact HoldsR.undefined (by decide)
    | with_reducible apply HoldsR.ite
    | with_reducible apply holds_ite
    | split
    | (dsimp only)

theorem holds_execCleanFramesLimit {a1 : Sys2Proof.Port} {s : Sys2Proof.Machine.State} (h : Holds q f n s) :
    HoldsR q f n (Sys2Proof.Machine.execCleanFramesLimit a1 s) := by
  unfold Sys2Proof.Machine.execCleanFramesLimit
  repeat' first
    | with_reducible assumption
    | (with_reducible intro _)
    | with_reducible apply holds_State_put
    | with_reducible apply HoldsR.next
    | exact HoldsR.undefined (by decide)
    | with_reducible apply HoldsR.ite

theorem holds_State_underrunStepReset {s : Sys2Proof.Machine.State} {a2 : Nat} (h : Holds q f n s) :
    Holds q f n (Sys2Proof.Machine.State.underrunStepReset s a2) := by
  unfold Sys2Proof.Machine.State.underrunStepReset
  repeat' first
    | with_reducible assumption
    | (with_reducible intro _)
    | with_reducible apply holds_State_put

theorem holds_State_zeroFrom {s : Sys2Proof.Machine.State} {a2 : Nat} {a3 : Nat} (h : Holds q f n s) :
    Holds q f n (Sys2Proof.Machine.State.zeroFrom s a2 a3) := by
  unfold Sys2Proof.Machine.State.zeroFrom
  repeat' first
    | with_reducible assumption
    | (with_reducible intro _)
    | with_reducible apply holds_State_put
    | with_reducible apply holds_foldl

theorem holds_State_statsClear {s : Sys2Proof.Machine.State} {a2 : Nat} {a3 : Nat} (h : Holds q f n s) :
    Holds q f n (Sys2Proof.Machine.State.statsClear s a2 a3) := by
  unfold Sys2Proof.Machine.State.statsClear
  repeat' first
    | with_reducible assumption
    | (with_reducible intro _)
    | with_reducible apply holds_State_put
    | with_reducible apply holds_State_zeroFrom
    | with_reducible apply holds_ite
end Sys2Proof.Laws
end

