-- ==== Sys2Proof/Laws/HoldsParser.lean ====
section
/-! SUPPORT. What the operations of Machine/Parser.lean keep. -/

namespace Sys2Proof.Laws

open Sys2Proof.Machine Sys2Proof.Safety

variable {q : List Instr} {f n : Nat}

theorem holds_State_loadStandardGraph {s : Sys2Proof.Machine.State} (h : Holds q f n s) :
    Holds q f n (Sys2Proof.Machine.State.loadStandardGraph s) := by
  unfold Sys2Proof.Machine.State.loadStandardGraph
  repeat' first
    | with_reducible assumption
    | (with_reducible intro _)
    | with_reducible apply holds_State_putBytes
end Sys2Proof.Laws
end

