-- ==== Sys2Proof/Laws/HoldsEm.lean ====
section
/-! SUPPORT. What the operations of Machine/Em.lean keep. -/

namespace Sys2Proof.Laws

open Sys2Proof.Machine Sys2Proof.Safety

variable {q : List Instr} {f n : Nat}

theorem holds_State_filterStep {s : Sys2Proof.Machine.State} {a2 : Nat} {a3 : Bool} {a4 : Nat} (h : Holds q f n s) :
    Holds q f n (Sys2Proof.Machine.State.filterStep s a2 a3 a4) := by
  unfold Sys2Proof.Machine.State.filterStep
  repeat' first
    | with_reducible assumption
    | (with_reducible intro _)
    | with_reducible apply holds_ite
    | split
    | (dsimp only)
    | (with_reducible refine holds_mk ?_; with_reducible apply Holds.parts)

theorem holds_State_filterKey {s : Sys2Proof.Machine.State} {a2 : Nat} {a3 : Nat} {a4 : Nat} {a5 : Bool} (h : Holds q f n s) :
    Holds q f n (Sys2Proof.Machine.State.filterKey s a2 a3 a4 a5) := by
  unfold Sys2Proof.Machine.State.filterKey
  repeat' first
    | with_reducible assumption
    | (with_reducible intro _)
    | with_reducible apply holds_State_filterStep
    | with_reducible apply holds_foldl
    | with_reducible apply holds_foldl_fst
    | with_reducible apply holds_ite

theorem holds_State_moveUnit {s : Sys2Proof.Machine.State} {a2 : Sys2Proof.Machine.EmUnit} {a3 : Nat} (h : Holds q f n s) :
    Holds q f n (Sys2Proof.Machine.State.moveUnit s a2 a3) := by
  unfold Sys2Proof.Machine.State.moveUnit
  repeat' first
    | with_reducible assumption
    | (with_reducible intro _)
    | with_reducible apply holds_ite
    | split
    | (dsimp only)
    | (with_reducible refine holds_mk ?_; with_reducible apply Holds.parts)

theorem holds_State_makeMoves {s : Sys2Proof.Machine.State} {a2 : List (Sys2Proof.Machine.EmUnit × Nat)} (h : Holds q f n s) :
    Holds q f n (Sys2Proof.Machine.State.makeMoves s a2) := by
  induction a2 generalizing s with
  | nil =>
    unfold Sys2Proof.Machine.State.makeMoves
    repeat' first
      | with_reducible assumption
  | cons x l ih =>
    unfold Sys2Proof.Machine.State.makeMoves
    repeat' first
      | with_reducible assumption
      | (with_reducible intro _)
      | with_reducible apply ih
      | with_reducible apply holds_State_moveUnit
      | split

theorem holds_State_emPlace {s : Sys2Proof.Machine.State} {a2 : Nat} {a3 : Nat} {a4 : Nat} (h : Holds q f n s) :
    Holds q f n (Sys2Proof.Machine.State.emPlace s a2 a3 a4).1 := by
  unfold Sys2Proof.Machine.State.emPlace
  repeat' first
    | with_reducible assumption
    | (with_reducible intro _)
    | with_reducible apply holds_State_countN
    | with_reducible apply holds_State_makeMoves
    | with_reducible apply holds_ite_fst
    | with_reducible apply holds_ite
    | split
    | (dsimp only)

theorem holds_State_addUnit {s : Sys2Proof.Machine.State} {a2 : Sys2Proof.Machine.EmUnit} (h : Holds q f n s) :
    Holds q f n (Sys2Proof.Machine.State.addUnit s a2) := by
  unfold Sys2Proof.Machine.State.addUnit
  repeat' first
    | with_reducible assumption
    | (with_reducible intro _)
    | with_reducible apply holds_State_filterKey
    | split
    | (dsimp only)
    | (with_reducible refine holds_mk ?_; with_reducible apply Holds.parts)

theorem holds_State_drainOverflow {s : Sys2Proof.Machine.State} {a2 : Nat} (h : Holds q f n s) :
    Holds q f n (Sys2Proof.Machine.State.drainOverflow s a2) := by
  unfold Sys2Proof.Machine.State.drainOverflow
  repeat' first
    | with_reducible assumption
    | (with_reducible intro _)
    | with_reducible apply holds_State_moveUnit
    | with_reducible apply holds_foldl
    | with_reducible apply holds_foldl_fst
    | split

theorem holds_State_freeUnit {s : Sys2Proof.Machine.State} {a2 : Sys2Proof.Machine.EmUnit} (h : Holds q f n s) :
    Holds q f n (Sys2Proof.Machine.State.freeUnit s a2) := by
  unfold Sys2Proof.Machine.State.freeUnit
  repeat' first
    | with_reducible assumption
    | (with_reducible intro _)
    | with_reducible apply holds_State_filterKey
    | with_reducible apply holds_State_drainOverflow
    | split
    | (dsimp only)
    | (with_reducible refine holds_mk ?_; with_reducible apply Holds.parts)

theorem holds_State_setVisible {s : Sys2Proof.Machine.State} {a2 : Sys2Proof.Machine.EmUnit} {a3 : Nat} (h : Holds q f n s) :
    Holds q f n (Sys2Proof.Machine.State.setVisible s a2 a3) := by
  unfold Sys2Proof.Machine.State.setVisible
  repeat' first
    | with_reducible assumption
    | (with_reducible intro _)
    | with_reducible apply holds_State_freeUnit
    | with_reducible apply holds_ite
    | split
    | (dsimp only)
    | (with_reducible refine holds_mk ?_; with_reducible apply Holds.parts)

theorem holds_State_emPlaces {s : Sys2Proof.Machine.State} {a2 : Nat} {a3 : Nat} {a4 : List Nat} (h : Holds q f n s) :
    Holds q f n (Sys2Proof.Machine.State.emPlaces s a2 a3 a4).1 := by
  induction a4 generalizing s a2 a3 with
  | nil =>
    unfold Sys2Proof.Machine.State.emPlaces
    repeat' first
      | with_reducible assumption
  | cons x l ih =>
    unfold Sys2Proof.Machine.State.emPlaces
    repeat' first
      | with_reducible assumption
      | (with_reducible intro _)
      | with_reducible apply ih
      | with_reducible apply holds_State_emPlace
      | with_reducible refine holds_fst_eq ‹_› ?_
      | split

theorem holds_State_tableDone {s : Sys2Proof.Machine.State} {a2 : Nat} {a3 : Nat} {a4 : Nat} {a5 : Nat} {a6 : Nat} {a7 : Nat} (h : Holds q f n s) :
    Holds q f n (Sys2Proof.Machine.State.tableDone s a2 a3 a4 a5 a6 a7) := by
  unfold Sys2Proof.Machine.State.tableDone
  repeat' first
    | with_reducible assumption
    | (with_reducible intro _)
    | with_reducible apply holds_State_ringPush
    | with_reducible apply holds_State_flag
    | with_reducible apply holds_State_bump64
    | with_reducible apply holds_ite

theorem holds_State_takeTable {s : Sys2Proof.Machine.State} {a2 : Nat} {a3 : Nat → Sys2Proof.Machine.State → Sys2Proof.Machine.State} (h : Holds q f n s) (ha3 : ∀ x0 x1, Holds q f n x1 → Holds q f n (a3 x0 x1)) :
    Holds q f n (Sys2Proof.Machine.State.takeTable s a2 a3) := by
  unfold Sys2Proof.Machine.State.takeTable
  repeat' first
    | with_reducible assumption
    | (with_reducible intro _)
    | with_reducible apply ha3
    | with_reducible apply holds_State_ringTake
    | with_reducible apply holds_State_tableDone
    | with_reducible apply holds_ite
    | split

theorem holds_State_logChange {s : Sys2Proof.Machine.State} {a2 : Nat} {a3 : Sys2Proof.Machine.LogKey} (h : Holds q f n s) :
    HoldsO q f n (Sys2Proof.Machine.State.logChange s a2 a3) := by
  unfold Sys2Proof.Machine.State.logChange
  repeat' first
    | with_reducible assumption
    | (with_reducible intro _)
    | with_reducible apply holds_State_setSlot
    | exact HoldsO.none
    | with_reducible apply HoldsO.some
    | with_reducible apply HoldsO.ite
    | with_reducible apply holds_ite
    | split
    | (dsimp only)

theorem holds_State_refuseTable {s : Sys2Proof.Machine.State} {a2 : Sys2Proof.Machine.TableCommand} {a3 : Nat} (h : Holds q f n s) :
    Holds q f n (Sys2Proof.Machine.State.refuseTable s a2 a3) := by
  unfold Sys2Proof.Machine.State.refuseTable
  repeat' first
    | with_reducible assumption
    | (with_reducible intro _)
    | with_reducible apply holds_State_tableDone

theorem holds_State_logFor {s : Sys2Proof.Machine.State} {a2 : Sys2Proof.Machine.TableCommand} {a3 : Nat} (h : Holds q f n s) :
    HoldsO q f n (Sys2Proof.Machine.State.logFor s a2 a3) := by
  unfold Sys2Proof.Machine.State.logFor
  repeat' first
    | with_reducible assumption
    | (with_reducible intro _)
    | with_reducible apply holds_State_logChange
    | exact HoldsO.none
    | with_reducible apply HoldsO.some
    | with_reducible apply HoldsO.ite

theorem holds_State_editCopy {s : Sys2Proof.Machine.State} {a2 : Sys2Proof.Machine.EmWriting} {a3 : Nat} (h : Holds q f n s) :
    Holds q f n (Sys2Proof.Machine.State.editCopy s a2 a3) := by
  unfold Sys2Proof.Machine.State.editCopy
  repeat' first
    | with_reducible assumption
    | (with_reducible intro _)
    | with_reducible apply holds_State_setVisible
    | with_reducible apply holds_foldl
    | with_reducible apply holds_foldl_fst
    | with_reducible apply holds_ite
    | split
    | (dsimp only)
    | (with_reducible refine holds_mk ?_; with_reducible apply Holds.parts)

theorem holds_State_replan {s : Sys2Proof.Machine.State} {a2 : Sys2Proof.Machine.TableCommand} {a3 : Nat} {a4 : Nat} (h : Holds q f n s) :
    Holds q f n (Sys2Proof.Machine.State.replan s a2 a3 a4).1 := by
  unfold Sys2Proof.Machine.State.replan
  repeat' first
    | with_reducible assumption
    | (with_reducible intro _)
    | with_reducible apply holds_State_emPlace
    | with_reducible apply holds_ite_fst

theorem holds_State_writeCopy {s : Sys2Proof.Machine.State} {a2 : Sys2Proof.Machine.EmWriting} {a3 : Nat} (h : Holds q f n s) :
    Holds q f n (Sys2Proof.Machine.State.writeCopy s a2 a3).1 := by
  unfold Sys2Proof.Machine.State.writeCopy
  repeat' first
    | with_reducible assumption
    | (with_reducible intro _)
    | with_reducible apply holds_State_editCopy
    | with_reducible apply holds_State_replan
    | with_reducible apply holds_State_addUnit
    | with_reducible apply holds_State_setVisible
    | with_reducible refine holds_fst_eq ‹_› ?_
    | with_reducible apply holds_foldl
    | with_reducible apply holds_foldl_fst
    | split
    | (dsimp only)

theorem holds_State_endWriting {s : Sys2Proof.Machine.State} {a2 : Sys2Proof.Machine.EmWriting} {a3 : Nat} (h : Holds q f n s) :
    Holds q f n (Sys2Proof.Machine.State.endWriting s a2 a3) := by
  unfold Sys2Proof.Machine.State.endWriting
  repeat' first
    | with_reducible assumption
    | (with_reducible intro _)
    | with_reducible apply holds_State_tableDone
    | split
    | (dsimp only)
    | (with_reducible refine holds_mk ?_; with_reducible apply Holds.parts)

theorem holds_State_undoCopy {s : Sys2Proof.Machine.State} {a2 : Sys2Proof.Machine.EmWriting} {a3 : Nat} (h : Holds q f n s) :
    Holds q f n (Sys2Proof.Machine.State.undoCopy s a2 a3) := by
  unfold Sys2Proof.Machine.State.undoCopy
  repeat' first
    | with_reducible assumption
    | (with_reducible intro _)
    | with_reducible apply holds_State_freeUnit
    | with_reducible apply holds_foldl
    | with_reducible apply holds_foldl_fst
    | with_reducible apply holds_ite
    | split
    | (dsimp only)
    | (with_reducible refine holds_mk ?_; with_reducible apply Holds.parts)

theorem holds_State_undoWriting {s : Sys2Proof.Machine.State} {a2 : Sys2Proof.Machine.EmWriting} (h : Holds q f n s) :
    Holds q f n (Sys2Proof.Machine.State.undoWriting s a2) := by
  unfold Sys2Proof.Machine.State.undoWriting
  repeat' first
    | with_reducible assumption
    | (with_reducible intro _)
    | with_reducible apply holds_State_undoCopy
    | with_reducible apply holds_State_setSlot
    | with_reducible apply holds_State_endWriting
    | with_reducible apply holds_foldl
    | with_reducible apply holds_foldl_fst
    | with_reducible apply holds_ite
    | split
    | (dsimp only)

theorem holds_State_writeNext {s : Sys2Proof.Machine.State} (h : Holds q f n s) :
    Holds q f n (Sys2Proof.Machine.State.writeNext s) := by
  unfold Sys2Proof.Machine.State.writeNext
  repeat' first
    | with_reducible assumption
    | (with_reducible intro _)
    | with_reducible apply holds_State_endWriting
    | with_reducible apply holds_State_writeCopy
    | with_reducible apply holds_State_undoWriting
    | with_reducible refine holds_fst_eq ‹_› ?_
    | with_reducible apply holds_ite_fst
    | with_reducible apply holds_ite
    | split
    | (dsimp only)
    | (with_reducible refine holds_mk ?_; with_reducible apply Holds.parts)

theorem holds_State_startWriting {s : Sys2Proof.Machine.State} {a2 : Sys2Proof.Machine.TableCommand} {a3 : Nat} {a4 : List (Nat × Nat)} {a5 : Nat} {a6 : Bool} (h : Holds q f n s) :
    Holds q f n (Sys2Proof.Machine.State.startWriting s a2 a3 a4 a5 a6) := by
  unfold Sys2Proof.Machine.State.startWriting
  repeat' first
    | with_reducible assumption
    | (with_reducible intro _)
    | with_reducible apply holds_State_writeNext
    | split
    | (dsimp only)
    | (with_reducible refine holds_mk ?_; with_reducible apply Holds.parts)

theorem holds_State_emInsert {s : Sys2Proof.Machine.State} {a2 : Sys2Proof.Machine.TableCommand} (h : Holds q f n s) :
    Holds q f n (Sys2Proof.Machine.State.emInsert s a2) := by
  unfold Sys2Proof.Machine.State.emInsert
  repeat' first
    | with_reducible assumption
    | (with_reducible intro _)
    | with_reducible refine Holds.withVersions ?_ (Holds.versions ‹_›)
    | with_reducible apply holds_State_refuseTable
    | with_reducible apply holds_State_logFor
    | with_reducible apply holds_State_emPlaces
    | with_reducible apply holds_State_startWriting
    | with_reducible apply holds_State_tableDone
    | with_reducible refine HoldsO.of_eq ‹_› ?_
    | with_reducible refine holds_fst_eq ‹_› ?_
    | exact HoldsO.none
    | with_reducible apply HoldsO.some
    | with_reducible apply HoldsO.ite
    | with_reducible apply holds_ite_fst
    | with_reducible apply holds_ite
    | split

theorem holds_State_emModify {s : Sys2Proof.Machine.State} {a2 : Sys2Proof.Machine.TableCommand} (h : Holds q f n s) :
    Holds q f n (Sys2Proof.Machine.State.emModify s a2) := by
  unfold Sys2Proof.Machine.State.emModify
  repeat' first
    | with_reducible assumption
    | (with_reducible intro _)
    | with_reducible refine Holds.withVersions ?_ (Holds.versions ‹_›)
    | with_reducible apply holds_State_refuseTable
    | with_reducible apply holds_State_startWriting
    | with_reducible apply holds_State_logFor
    | with_reducible apply holds_State_emPlaces
    | with_reducible apply holds_State_tableDone
    | with_reducible refine HoldsO.of_eq ‹_› ?_
    | with_reducible refine holds_fst_eq ‹_› ?_
    | exact HoldsO.none
    | with_reducible apply HoldsO.some
    | with_reducible apply HoldsO.ite
    | with_reducible apply holds_ite_fst
    | with_reducible apply holds_ite
    | split

theorem holds_State_emDelete {s : Sys2Proof.Machine.State} {a2 : Sys2Proof.Machine.TableCommand} (h : Holds q f n s) :
    Holds q f n (Sys2Proof.Machine.State.emDelete s a2) := by
  unfold Sys2Proof.Machine.State.emDelete
  repeat' first
    | with_reducible assumption
    | (with_reducible intro _)
    | with_reducible apply holds_State_refuseTable
    | with_reducible apply holds_State_logFor
    | with_reducible apply holds_State_startWriting
    | with_reducible refine HoldsO.of_eq ‹_› ?_
    | exact HoldsO.none
    | with_reducible apply HoldsO.some
    | with_reducible apply HoldsO.ite
    | with_reducible apply holds_ite
    | split

theorem holds_State_emLookup {s : Sys2Proof.Machine.State} {a2 : Sys2Proof.Machine.TableCommand} (h : Holds q f n s) :
    Holds q f n (Sys2Proof.Machine.State.emLookup s a2) := by
  unfold Sys2Proof.Machine.State.emLookup
  repeat' first
    | with_reducible assumption
    | (with_reducible intro _)
    | with_reducible apply holds_State_refuseTable
    | with_reducible apply holds_State_tableDone
    | with_reducible apply holds_ite
    | split
    | (dsimp only)

theorem holds_State_emHitTest {s : Sys2Proof.Machine.State} {a2 : Sys2Proof.Machine.TableCommand} (h : Holds q f n s) :
    Holds q f n (Sys2Proof.Machine.State.emHitTest s a2) := by
  unfold Sys2Proof.Machine.State.emHitTest
  repeat' first
    | with_reducible assumption
    | (with_reducible intro _)
    | with_reducible apply holds_State_refuseTable
    | with_reducible apply holds_State_tableDone
    | with_reducible apply holds_ite
    | split
    | (dsimp only)
    | (with_reducible refine holds_mk ?_; with_reducible apply Holds.parts)

theorem holds_execInsert {s : Sys2Proof.Machine.State} (h : Holds q f n s) :
    HoldsR q f n (Sys2Proof.Machine.execInsert s) := by
  unfold Sys2Proof.Machine.execInsert
  repeat' first
    | with_reducible assumption
    | (with_reducible intro _)
    | with_reducible apply holds_State_takeTable
    | with_reducible apply holds_State_emInsert
    | with_reducible apply HoldsR.next

theorem holds_execModify {s : Sys2Proof.Machine.State} (h : Holds q f n s) :
    HoldsR q f n (Sys2Proof.Machine.execModify s) := by
  unfold Sys2Proof.Machine.execModify
  repeat' first
    | with_reducible assumption
    | (with_reducible intro _)
    | with_reducible apply holds_State_takeTable
    | with_reducible apply holds_State_emModify
    | with_reducible apply HoldsR.next

theorem holds_execDelete {s : Sys2Proof.Machine.State} (h : Holds q f n s) :
    HoldsR q f n (Sys2Proof.Machine.execDelete s) := by
  unfold Sys2Proof.Machine.execDelete
  repeat' first
    | with_reducible assumption
    | (with_reducible intro _)
    | with_reducible apply holds_State_takeTable
    | with_reducible apply holds_State_emDelete
    | with_reducible apply HoldsR.next

theorem holds_execLookup {s : Sys2Proof.Machine.State} (h : Holds q f n s) :
    HoldsR q f n (Sys2Proof.Machine.execLookup s) := by
  unfold Sys2Proof.Machine.execLookup
  repeat' first
    | with_reducible assumption
    | (with_reducible intro _)
    | with_reducible apply holds_State_takeTable
    | with_reducible apply holds_State_emLookup
    | with_reducible apply HoldsR.next

theorem holds_execHitTest {s : Sys2Proof.Machine.State} (h : Holds q f n s) :
    HoldsR q f n (Sys2Proof.Machine.execHitTest s) := by
  unfold Sys2Proof.Machine.execHitTest
  repeat' first
    | with_reducible assumption
    | (with_reducible intro _)
    | with_reducible apply holds_State_takeTable
    | with_reducible apply holds_State_emHitTest
    | with_reducible apply HoldsR.next

theorem holds_State_copyUnitBit {s : Sys2Proof.Machine.State} {a2 : Nat} {a3 : Nat} {a4 : Nat} {a5 : Nat} (h : Holds q f n s) :
    Holds q f n (Sys2Proof.Machine.State.copyUnitBit s a2 a3 a4 a5) := by
  unfold Sys2Proof.Machine.State.copyUnitBit
  repeat' first
    | with_reducible assumption
    | (with_reducible intro _)
    | with_reducible apply holds_State_setVisible
    | with_reducible apply holds_foldl

theorem holds_State_markCorrupt {s : Sys2Proof.Machine.State} {a2 : Nat} {a3 : Nat} (h : Holds q f n s) :
    Holds q f n (Sys2Proof.Machine.State.markCorrupt s a2 a3) := by
  unfold Sys2Proof.Machine.State.markCorrupt
  repeat' first
    | with_reducible assumption
    | (with_reducible intro _)
    | with_reducible apply holds_ite
    | split
    | (dsimp only)
    | (with_reducible refine holds_mk ?_; with_reducible apply Holds.parts)

theorem holds_State_clearCorrupt {s : Sys2Proof.Machine.State} {a2 : Nat} {a3 : Nat} (h : Holds q f n s) :
    Holds q f n (Sys2Proof.Machine.State.clearCorrupt s a2 a3) := by
  unfold Sys2Proof.Machine.State.clearCorrupt
  repeat' first
    | with_reducible assumption
    | (with_reducible intro _)
    | split
    | (dsimp only)
    | (with_reducible refine holds_mk ?_; with_reducible apply Holds.parts)

theorem holds_State_restorePlace {s : Sys2Proof.Machine.State} {a2 : Nat} {a3 : Nat} (h : Holds q f n s) :
    Holds q f n (Sys2Proof.Machine.State.restorePlace s a2 a3) := by
  unfold Sys2Proof.Machine.State.restorePlace
  repeat' first
    | with_reducible assumption
    | (with_reducible intro _)
    | with_reducible apply holds_State_bump32
    | with_reducible apply holds_State_clearCorrupt
    | with_reducible apply holds_ite

theorem holds_execBucketRestore {a1 : Sys2Proof.Quadrant} {a2 : Sys2Proof.EmPlace} {s : Sys2Proof.Machine.State} (h : Holds q f n s) :
    HoldsR q f n (Sys2Proof.Machine.execBucketRestore a1 a2 s) := by
  unfold Sys2Proof.Machine.execBucketRestore
  repeat' first
    | with_reducible assumption
    | (with_reducible intro _)
    | with_reducible apply holds_State_restorePlace
    | with_reducible apply HoldsR.next

theorem holds_execScrub {a1 : Sys2Proof.Quadrant} {a2 : Sys2Proof.EmPlace} {s : Sys2Proof.Machine.State} (h : Holds q f n s) :
    HoldsR q f n (Sys2Proof.Machine.execScrub a1 a2 s) := by
  unfold Sys2Proof.Machine.execScrub
  repeat' first
    | with_reducible assumption
    | (with_reducible intro _)
    | with_reducible apply holds_State_restorePlace
    | with_reducible apply HoldsR.next
    | exact HoldsR.undefined (by decide)
    | with_reducible apply HoldsR.ite

theorem holds_State_loseUnit {s : Sys2Proof.Machine.State} {a2 : Nat} (h : Holds q f n s) :
    Holds q f n (Sys2Proof.Machine.State.loseUnit s a2) := by
  unfold Sys2Proof.Machine.State.loseUnit
  repeat' first
    | with_reducible assumption
    | (with_reducible intro _)
    | with_reducible apply holds_State_flag
    | with_reducible apply holds_State_bump32

theorem holds_State_rebuildUnit {s : Sys2Proof.Machine.State} {a2 : Nat} {a3 : Sys2Proof.Machine.EmUnit} (h : Holds q f n s) :
    Holds q f n (Sys2Proof.Machine.State.rebuildUnit s a2 a3) := by
  unfold Sys2Proof.Machine.State.rebuildUnit
  repeat' first
    | with_reducible assumption
    | (with_reducible intro _)
    | with_reducible apply holds_State_emPlace
    | with_reducible apply holds_State_addUnit
    | with_reducible apply holds_State_loseUnit
    | with_reducible refine holds_fst_eq ‹_› ?_
    | split

theorem holds_execBucketRebuild {a1 : Sys2Proof.Quadrant} {a2 : Fin 64} {a3 : Fin 8192} {s : Sys2Proof.Machine.State} (h : Holds q f n s) :
    HoldsR q f n (Sys2Proof.Machine.execBucketRebuild a1 a2 a3 s) := by
  unfold Sys2Proof.Machine.execBucketRebuild
  repeat' first
    | with_reducible assumption
    | (with_reducible intro _)
    | with_reducible apply holds_State_freeUnit
    | with_reducible apply holds_State_rebuildUnit
    | with_reducible apply holds_State_clearCorrupt
    | with_reducible apply holds_State_loseUnit
    | with_reducible apply HoldsR.next
    | exact HoldsR.undefined (by decide)
    | with_reducible apply holds_foldl
    | with_reducible apply holds_foldl_fst
    | with_reducible apply HoldsR.ite
    | with_reducible apply holds_ite
    | split
    | (dsimp only)
    | (with_reducible refine holds_mk ?_; with_reducible apply Holds.parts)

theorem holds_State_emRehome {s : Sys2Proof.Machine.State} {a2 : Nat} {a3 : Nat} (h : Holds q f n s) :
    Holds q f n (Sys2Proof.Machine.State.emRehome s a2 a3) := by
  unfold Sys2Proof.Machine.State.emRehome
  repeat' first
    | with_reducible assumption
    | (with_reducible intro _)
    | with_reducible apply holds_State_moveUnit
    | with_reducible apply holds_foldl
    | with_reducible apply holds_foldl_fst
    | split

theorem holds_State_dedupeWrite {s : Sys2Proof.Machine.State} {a2 : Nat} {a3 : Nat} {a4 : Nat} {a5 : Nat} (h : Holds q f n s) :
    Holds q f n (Sys2Proof.Machine.State.dedupeWrite s a2 a3 a4 a5) := by
  unfold Sys2Proof.Machine.State.dedupeWrite
  repeat' first
    | with_reducible assumption
    | (with_reducible intro _)
    | with_reducible apply holds_foldl
    | with_reducible apply holds_foldl_fst
    | with_reducible apply holds_getD
    | with_reducible apply holds_ite
    | split
    | (dsimp only)
    | (with_reducible refine holds_mk ?_; with_reducible apply Holds.parts)

theorem holds_State_judgeLearn {s : Sys2Proof.Machine.State} {a2 : Sys2Proof.Machine.Learn} (h : Holds q f n s) :
    Holds q f n (Sys2Proof.Machine.State.judgeLearn s a2) := by
  unfold Sys2Proof.Machine.State.judgeLearn
  repeat' first
    | with_reducible assumption
    | (with_reducible intro _)
    | with_reducible apply holds_State_bump64
    | with_reducible apply holds_State_ringPush
    | with_reducible apply holds_State_dedupeWrite
    | with_reducible apply holds_ite
    | split
    | (dsimp only)
    | (with_reducible refine holds_mk ?_; with_reducible apply Holds.parts)

theorem holds_execLearnEvent {s : Sys2Proof.Machine.State} (h : Holds q f n s) :
    HoldsR q f n (Sys2Proof.Machine.execLearnEvent s) := by
  unfold Sys2Proof.Machine.execLearnEvent
  repeat' first
    | with_reducible assumption
    | (with_reducible intro _)
    | with_reducible apply holds_State_judgeLearn
    | with_reducible apply HoldsR.next
    | exact HoldsR.undefined (by decide)
    | split
    | (dsimp only)
    | (with_reducible refine holds_mk ?_; with_reducible apply Holds.parts)
end Sys2Proof.Laws
end

