-- ==== Sys2Proof/Laws/HoldsRelief.lean ====
section
/-! SUPPORT. What the operations of Machine/Relief.lean keep. -/

namespace Sys2Proof.Laws

open Sys2Proof.Machine Sys2Proof.Safety

variable {q : List Instr} {f n : Nat}

theorem holds_State_putBank {s : Sys2Proof.Machine.State} {a2 : Nat} {a3 : Nat} {a4 : Sys2Proof.Machine.BankSt} (h : Holds q f n s) :
    Holds q f n (Sys2Proof.Machine.State.putBank s a2 a3 a4) := by
  unfold Sys2Proof.Machine.State.putBank
  repeat' first
    | with_reducible assumption
    | (with_reducible intro _)
    | split
    | (dsimp only)
    | (with_reducible refine holds_mk ?_; with_reducible apply Holds.parts)

theorem holds_State_takeGuest {s : Sys2Proof.Machine.State} {a2 : Nat} {a3 : Nat} {a4 : Nat} (h : Holds q f n s) :
    Holds q f n (Sys2Proof.Machine.State.takeGuest s a2 a3 a4) := by
  unfold Sys2Proof.Machine.State.takeGuest
  repeat' first
    | with_reducible assumption
    | (with_reducible intro _)
    | with_reducible apply holds_State_putBank
    | with_reducible apply holds_State_flag
    | with_reducible apply holds_ite

theorem holds_State_placeGuests {s : Sys2Proof.Machine.State} {a2 : Nat} {a3 : Nat} {a4 : Nat} {a5 : Nat} {a6 : List Sys2Proof.Machine.Rule} {a7 : List Sys2Proof.Machine.Place} (h : Holds q f n s) :
    Holds q f n (Sys2Proof.Machine.State.placeGuests s a2 a3 a4 a5 a6 a7) := by
  unfold Sys2Proof.Machine.State.placeGuests
  repeat' first
    | with_reducible assumption
    | (with_reducible intro _)
    | with_reducible apply holds_State_takeGuest
    | with_reducible apply holds_State_putBank
    | with_reducible apply holds_foldl
    | with_reducible apply holds_foldl_fst
    | with_reducible apply holds_ite
    | split
    | (dsimp only)
    | (with_reducible refine holds_mk ?_; with_reducible apply Holds.parts)

theorem holds_State_clearGroup {s : Sys2Proof.Machine.State} {a2 : Nat} {a3 : Nat} (h : Holds q f n s) :
    Holds q f n (Sys2Proof.Machine.State.clearGroup s a2 a3) := by
  unfold Sys2Proof.Machine.State.clearGroup
  repeat' first
    | with_reducible assumption
    | (with_reducible intro _)
    | split
    | (dsimp only)
    | (with_reducible refine holds_mk ?_; with_reducible apply Holds.parts)

theorem holds_State_freeSpares {s : Sys2Proof.Machine.State} {a2 : Nat} (h : Holds q f n s) :
    Holds q f n (Sys2Proof.Machine.State.freeSpares s a2) := by
  unfold Sys2Proof.Machine.State.freeSpares
  repeat' first
    | with_reducible assumption
    | (with_reducible intro _)
    | with_reducible apply holds_State_putBank
    | with_reducible apply holds_foldl
    | with_reducible apply holds_foldl_fst
    | with_reducible apply holds_ite

theorem holds_State_returnHome {s : Sys2Proof.Machine.State} {a2 : Nat} {a3 : Nat} (h : Holds q f n s) :
    Holds q f n (Sys2Proof.Machine.State.returnHome s a2 a3) := by
  unfold Sys2Proof.Machine.State.returnHome
  repeat' first
    | with_reducible assumption
    | (with_reducible intro _)
    | with_reducible apply holds_State_clearGroup
    | with_reducible apply holds_State_putBank
    | with_reducible apply holds_State_freeSpares
    | with_reducible apply holds_foldl
    | with_reducible apply holds_foldl_fst
    | split
    | (dsimp only)
    | (with_reducible refine holds_mk ?_; with_reducible apply Holds.parts)

theorem holds_State_loseBank {s : Sys2Proof.Machine.State} {a2 : Nat} {a3 : Nat} (h : Holds q f n s) :
    Holds q f n (Sys2Proof.Machine.State.loseBank s a2 a3) := by
  unfold Sys2Proof.Machine.State.loseBank
  repeat' first
    | with_reducible assumption
    | (with_reducible intro _)
    | with_reducible apply holds_State_clearGroup
    | with_reducible apply holds_State_flag
    | with_reducible apply holds_State_putBank
    | with_reducible apply holds_foldl
    | with_reducible apply holds_foldl_fst
    | with_reducible apply holds_ite

theorem holds_State_reliefFence {s : Sys2Proof.Machine.State} {a2 : Nat} {a3 : Nat} (h : Holds q f n s) :
    Holds q f n (Sys2Proof.Machine.State.reliefFence s a2 a3) := by
  unfold Sys2Proof.Machine.State.reliefFence
  repeat' first
    | with_reducible assumption
    | (with_reducible intro _)
    | with_reducible apply holds_State_loseBank
    | with_reducible apply holds_State_freeSpares
    | with_reducible apply holds_foldl

theorem holds_State_rehomeBank {s : Sys2Proof.Machine.State} {a2 : Nat} {a3 : Nat} (h : Holds q f n s) :
    Holds q f n (Sys2Proof.Machine.State.rehomeBank s a2 a3) := by
  unfold Sys2Proof.Machine.State.rehomeBank
  repeat' first
    | with_reducible assumption
    | (with_reducible intro _)
    | with_reducible apply holds_State_flag
    | with_reducible apply holds_State_placeGuests
    | with_reducible apply holds_State_putBank
    | with_reducible apply holds_foldl
    | with_reducible apply holds_foldl_fst
    | with_reducible apply holds_ite
    | split
    | (dsimp only)

theorem holds_State_reliefRelease {s : Sys2Proof.Machine.State} {a2 : Nat} {a3 : Nat} (h : Holds q f n s) :
    Holds q f n (Sys2Proof.Machine.State.reliefRelease s a2 a3) := by
  unfold Sys2Proof.Machine.State.reliefRelease
  repeat' first
    | with_reducible assumption
    | (with_reducible intro _)
    | with_reducible apply holds_State_returnHome
    | with_reducible apply holds_State_putBank
    | with_reducible apply holds_foldl
    | with_reducible apply holds_foldl_fst
    | with_reducible apply holds_ite

theorem holds_State_reliefRewrite {s : Sys2Proof.Machine.State} {a2 : Nat} (h : Holds q f n s) :
    Holds q f n (Sys2Proof.Machine.State.reliefRewrite s a2) := by
  unfold Sys2Proof.Machine.State.reliefRewrite
  repeat' first
    | with_reducible assumption
    | (with_reducible intro _)
    | with_reducible apply holds_State_returnHome
    | with_reducible apply holds_foldl
    | with_reducible apply holds_foldl_fst
    | with_reducible apply holds_ite

theorem holds_State_ruleDone {s : Sys2Proof.Machine.State} {a2 : Sys2Proof.Machine.RuleCommand} {a3 : Nat} {a4 : Nat} (h : Holds q f n s) :
    Holds q f n (Sys2Proof.Machine.State.ruleDone s a2 a3 a4) := by
  unfold Sys2Proof.Machine.State.ruleDone
  repeat' first
    | with_reducible assumption
    | (with_reducible intro _)
    | with_reducible apply holds_State_tableDone

theorem holds_State_dropRule {s : Sys2Proof.Machine.State} {a2 : Nat} {a3 : Nat} (h : Holds q f n s) :
    Holds q f n (Sys2Proof.Machine.State.dropRule s a2 a3) := by
  unfold Sys2Proof.Machine.State.dropRule
  repeat' first
    | with_reducible assumption
    | (with_reducible intro _)
    | split
    | (dsimp only)
    | (with_reducible refine holds_mk ?_; with_reducible apply Holds.parts)

theorem holds_State_setRuleVisible {s : Sys2Proof.Machine.State} {a2 : Nat} {a3 : Nat} {a4 : Nat} (h : Holds q f n s) :
    Holds q f n (Sys2Proof.Machine.State.setRuleVisible s a2 a3 a4) := by
  unfold Sys2Proof.Machine.State.setRuleVisible
  repeat' first
    | with_reducible assumption
    | (with_reducible intro _)
    | with_reducible apply holds_State_dropRule
    | with_reducible apply holds_ite
    | split
    | (dsimp only)
    | (with_reducible refine holds_mk ?_; with_reducible apply Holds.parts)

theorem holds_State_writeQuadrant {s : Sys2Proof.Machine.State} {a2 : Nat} {a3 : List Sys2Proof.Machine.Rule} {a4 : Option (Nat × List Sys2Proof.Machine.Place)} (h : Holds q f n s) :
    Holds q f n (Sys2Proof.Machine.State.writeQuadrant s a2 a3 a4) := by
  unfold Sys2Proof.Machine.State.writeQuadrant
  repeat' first
    | with_reducible assumption
    | (with_reducible intro _)
    | with_reducible apply holds_State_placeGuests
    | with_reducible apply holds_ite
    | split
    | (dsimp only)
    | (with_reducible refine holds_mk ?_; with_reducible apply Holds.parts)

theorem holds_State_writeRule {s : Sys2Proof.Machine.State} {a2 : List Sys2Proof.Machine.Rule} (h : Holds q f n s) :
    HoldsO q f n (Sys2Proof.Machine.State.writeRule s a2) := by
  unfold Sys2Proof.Machine.State.writeRule
  repeat' first
    | with_reducible assumption
    | (with_reducible intro _)
    | with_reducible apply holds_State_writeQuadrant
    | exact HoldsO.none
    | with_reducible apply HoldsO.some
    | with_reducible apply holds_foldl
    | with_reducible apply holds_foldl_fst
    | with_reducible apply HoldsO.map
    | with_reducible apply holds_getD
    | with_reducible apply HoldsO.ite
    | with_reducible apply holds_ite
    | split
    | (dsimp only)
    | (with_reducible refine holds_mk ?_; with_reducible apply Holds.parts)

theorem holds_State_ruleWrite {s : Sys2Proof.Machine.State} {a2 : Sys2Proof.Machine.RuleCommand} (h : Holds q f n s) :
    Holds q f n (Sys2Proof.Machine.State.ruleWrite s a2) := by
  unfold Sys2Proof.Machine.State.ruleWrite
  repeat' first
    | with_reducible assumption
    | (with_reducible intro _)
    | with_reducible apply holds_State_ruleDone
    | with_reducible apply holds_State_logChange
    | with_reducible apply holds_State_writeRule
    | with_reducible refine HoldsO.of_eq ‹_› ?_
    | exact HoldsO.none
    | with_reducible apply HoldsO.some
    | with_reducible apply HoldsO.map
    | with_reducible apply holds_getD
    | with_reducible apply HoldsO.ite
    | with_reducible apply holds_ite
    | split
    | (dsimp only)

theorem holds_State_ruleDelete {s : Sys2Proof.Machine.State} {a2 : Sys2Proof.Machine.RuleCommand} (h : Holds q f n s) :
    Holds q f n (Sys2Proof.Machine.State.ruleDelete s a2) := by
  unfold Sys2Proof.Machine.State.ruleDelete
  repeat' first
    | with_reducible assumption
    | (with_reducible intro _)
    | with_reducible apply holds_State_ruleDone
    | with_reducible apply holds_State_logChange
    | with_reducible apply holds_State_setRuleVisible
    | with_reducible refine HoldsO.of_eq ‹_› ?_
    | exact HoldsO.none
    | with_reducible apply HoldsO.some
    | with_reducible apply HoldsO.ite
    | with_reducible apply holds_ite
    | split

theorem holds_State_ruleRead {s : Sys2Proof.Machine.State} {a2 : Sys2Proof.Machine.RuleCommand} (h : Holds q f n s) :
    Holds q f n (Sys2Proof.Machine.State.ruleRead s a2) := by
  unfold Sys2Proof.Machine.State.ruleRead
  repeat' first
    | with_reducible assumption
    | (with_reducible intro _)
    | with_reducible apply holds_State_ruleDone
    | with_reducible apply holds_State_putRecord
    | with_reducible apply holds_foldl
    | with_reducible apply holds_foldl_fst
    | with_reducible apply holds_ite
    | split

theorem holds_execRuleWrite {s : Sys2Proof.Machine.State} (h : Holds q f n s) :
    HoldsR q f n (Sys2Proof.Machine.execRuleWrite s) := by
  unfold Sys2Proof.Machine.execRuleWrite
  repeat' first
    | with_reducible assumption
    | (with_reducible intro _)
    | with_reducible apply holds_State_takeTable
    | with_reducible apply holds_State_ruleWrite
    | with_reducible apply HoldsR.next

theorem holds_execRuleDelete {s : Sys2Proof.Machine.State} (h : Holds q f n s) :
    HoldsR q f n (Sys2Proof.Machine.execRuleDelete s) := by
  unfold Sys2Proof.Machine.execRuleDelete
  repeat' first
    | with_reducible assumption
    | (with_reducible intro _)
    | with_reducible apply holds_State_takeTable
    | with_reducible apply holds_State_ruleDelete
    | with_reducible apply HoldsR.next

theorem holds_execRuleRead {s : Sys2Proof.Machine.State} (h : Holds q f n s) :
    HoldsR q f n (Sys2Proof.Machine.execRuleRead s) := by
  unfold Sys2Proof.Machine.execRuleRead
  repeat' first
    | with_reducible assumption
    | (with_reducible intro _)
    | with_reducible apply holds_State_takeTable
    | with_reducible apply holds_State_ruleRead
    | with_reducible apply HoldsR.next

theorem holds_execRehomingSwitch {a1 : Sys2Proof.Quadrant} {a2 : Fin 32} {s : Sys2Proof.Machine.State} (h : Holds q f n s) :
    HoldsR q f n (Sys2Proof.Machine.execRehomingSwitch a1 a2 s) := by
  unfold Sys2Proof.Machine.execRehomingSwitch
  repeat' first
    | with_reducible assumption
    | (with_reducible intro _)
    | with_reducible apply holds_State_rehomeBank
    | with_reducible apply HoldsR.next

theorem holds_execShadowRebuild {a1 : Sys2Proof.Quadrant} {a2 : Fin 32} {s : Sys2Proof.Machine.State} (h : Holds q f n s) :
    HoldsR q f n (Sys2Proof.Machine.execShadowRebuild a1 a2 s) := by
  unfold Sys2Proof.Machine.execShadowRebuild
  repeat' first
    | with_reducible assumption
    | (with_reducible intro _)
    | with_reducible apply HoldsR.next
    | exact HoldsR.undefined (by decide)
    | split
    | (dsimp only)
    | (with_reducible refine holds_mk ?_; with_reducible apply Holds.parts)

theorem holds_State_copyRuleBit {s : Sys2Proof.Machine.State} {a2 : Nat} {a3 : Nat} {a4 : Nat} {a5 : Nat} (h : Holds q f n s) :
    Holds q f n (Sys2Proof.Machine.State.copyRuleBit s a2 a3 a4 a5) := by
  unfold Sys2Proof.Machine.State.copyRuleBit
  repeat' first
    | with_reducible assumption
    | (with_reducible intro _)
    | with_reducible apply holds_State_setRuleVisible
    | with_reducible apply holds_ite
    | split

theorem holds_State_countSet {s : Sys2Proof.Machine.State} {a2 : Nat} {a3 : Nat} {a4 : Sys2Proof.Machine.SetOut} (h : Holds q f n s) :
    Holds q f n (Sys2Proof.Machine.State.countSet s a2 a3 a4) := by
  unfold Sys2Proof.Machine.State.countSet
  repeat' first
    | with_reducible assumption
    | (with_reducible intro _)
    | with_reducible apply holds_State_count
    | with_reducible apply holds_State_bump64
    | with_reducible apply holds_State_countN
    | with_reducible apply holds_ite
    | split
end Sys2Proof.Laws
end

