-- ==== Sys2Proof/Laws/HoldsVersions.lean ====
section
/-! SUPPORT. What the operations of Machine/Versions.lean keep. -/

namespace Sys2Proof.Laws

open Sys2Proof.Machine Sys2Proof.Safety

variable {q : List Instr} {f n : Nat}

/-! `State.slotTo` is told by `holds_slotTo`. -/

theorem holds_State_versionDone {s : Sys2Proof.Machine.State} {a2 : Nat} {a3 : Nat} {a4 : Nat} (h : Holds q f n s) :
    Holds q f n (Sys2Proof.Machine.State.versionDone s a2 a3 a4) := by
  unfold Sys2Proof.Machine.State.versionDone
  repeat' first
    | with_reducible assumption
    | (with_reducible intro _)
    | with_reducible apply holds_State_tableDone

theorem holds_State_applyLog {s : Sys2Proof.Machine.State} {a2 : List Sys2Proof.Machine.LogKey} {a3 : Nat} {a4 : Nat} (h : Holds q f n s) :
    Holds q f n (Sys2Proof.Machine.State.applyLog s a2 a3 a4) := by
  unfold Sys2Proof.Machine.State.applyLog
  repeat' first
    | with_reducible assumption
    | (with_reducible intro _)
    | with_reducible apply holds_State_copyUnitBit
    | with_reducible apply holds_State_copyRuleBit
    | with_reducible apply holds_foldl
    | with_reducible apply holds_foldl_fst
    | split

theorem holds_State_takeVersion {s : Sys2Proof.Machine.State} {a2 : Nat} {a3 : Nat → Sys2Proof.Machine.State → Sys2Proof.Machine.State} (h : Holds q f n s) (ha3 : ∀ x0 x1, Holds q f n x1 → Holds q f n (a3 x0 x1)) :
    Holds q f n (Sys2Proof.Machine.State.takeVersion s a2 a3) := by
  unfold Sys2Proof.Machine.State.takeVersion
  repeat' first
    | with_reducible assumption
    | (with_reducible intro _)
    | with_reducible apply ha3
    | with_reducible apply holds_State_takeTable
    | with_reducible apply holds_State_versionDone
    | with_reducible apply holds_ite

/-- No slot is BUILDING. -/
theorem building_none {s : State} (h : SlotsGood s.versions) (hb : ¬s.buildingSlot.isSome = true) :
    (slotStates s.versions).countP (· = .building) = 0 :=
  slotIn_none h (by simpa [State.buildingSlot] using hb)

/-- A slot is BUILDING. -/
theorem building_some {s : State} (h : SlotsGood s.versions) (hb : ¬s.buildingSlot.isNone = true) :
    (slotStates s.versions).countP (· = .building) ≠ 0 := by
  apply slotIn_isSome h
  unfold State.buildingSlot at hb
  cases e : s.slotIn .building with
  | none => rw [e] at hb; exact absurd rfl hb
  | some i => rfl

theorem holds_State_versionOpen {s : State} {a2 : Nat} (h : Holds q f n s) : Holds q f n (s.versionOpen a2) := by
  unfold State.versionOpen
  split
  · exact holds_State_versionDone h
  · rename_i hb
    split
    · exact holds_State_versionDone h
    · rename_i i e
      dsimp only
      apply holds_State_versionDone
      refine holds_State_setSlot ?_ ?_
      case refine_2 => exact fun _ => rfl
      apply holds_slotTo h
      exact good_open (slotsGood_iff.1 h.versions) (building_none h.versions hb) (slotIn_some h.versions e)

theorem holds_State_startPriming {s : State} {a2 : Nat} (h : Holds q f n s)
    (hb : (slotStates s.versions).countP (· = .building) ≠ 0) : Holds q f n (s.startPriming a2) := by
  unfold State.startPriming
  split
  · exact h
  · rename_i i e
    have hg : ∀ {p : Prop}, GoodStates ((slotStates s.versions).set i .priming) p :=
      good_prime (slotsGood_iff.1 h.versions) hb (slotIn_some h.versions e)
    apply holds_State_request
    apply Holds.withVersions (holds_slotTo h hg)
    rw [slotsGood_iff]
    have : slotStates { (s.slotTo i .priming).versions with commit := .priming a2 } = (slotStates s.versions).set i .priming :=
      slotStates_slotTo
    rw [this]
    exact hg

theorem holds_State_versionCommit {s : State} {a2 : Nat} (h : Holds q f n s) : Holds q f n (s.versionCommit a2) := by
  unfold State.versionCommit
  dsimp only
  split
  · exact holds_State_versionDone h
  · rename_i hb
    split
    · exact holds_State_startPriming h (building_some h.versions hb)
    · split
      · exact holds_State_versionDone h
      · have hv := slotsGood_iff.1 h.versions
        exact Holds.withVersions h (slotsGood_iff.2 (show GoodStates (slotStates s.versions) _ from
          good_commit hv (building_some h.versions hb)))

theorem holds_State_versionAbort {s : State} {a2 : Nat} (h : Holds q f n s) : Holds q f n (s.versionAbort a2) := by
  unfold State.versionAbort
  split
  · exact holds_State_versionDone h
  · exact holds_State_request (Holds.withVersions h h.versions)

theorem holds_execVersionOpen {s : Sys2Proof.Machine.State} (h : Holds q f n s) :
    HoldsR q f n (Sys2Proof.Machine.execVersionOpen s) := by
  unfold Sys2Proof.Machine.execVersionOpen
  repeat' first
    | with_reducible assumption
    | (with_reducible intro _)
    | with_reducible apply holds_State_takeVersion
    | with_reducible apply holds_State_versionOpen
    | with_reducible apply HoldsR.next

theorem holds_execCommit {s : Sys2Proof.Machine.State} (h : Holds q f n s) :
    HoldsR q f n (Sys2Proof.Machine.execCommit s) := by
  unfold Sys2Proof.Machine.execCommit
  repeat' first
    | with_reducible assumption
    | (with_reducible intro _)
    | with_reducible apply holds_State_takeVersion
    | with_reducible apply holds_State_versionCommit
    | with_reducible apply HoldsR.next

theorem holds_execVersionAbort {s : Sys2Proof.Machine.State} (h : Holds q f n s) :
    HoldsR q f n (Sys2Proof.Machine.execVersionAbort s) := by
  unfold Sys2Proof.Machine.execVersionAbort
  repeat' first
    | with_reducible assumption
    | (with_reducible intro _)
    | with_reducible apply holds_State_takeVersion
    | with_reducible apply holds_State_versionAbort
    | with_reducible apply HoldsR.next

theorem holds_execAbortComplete {s : State} (h : Holds q f n s) : HoldsR q f n (execAbortComplete s) := by
  unfold execAbortComplete
  split
  · rename_i i b _ _
    have h' : Holds q f n ((s.applyLog (s.slot b).log b s.currentSlot).setSlot b fun x => { x with log := [] }) :=
      holds_State_setSlot (holds_State_applyLog h) fun _ => rfl
    exact holds_State_versionDone (Holds.withVersions h' h'.versions)
  · exact h

theorem holds_execPrimingStart {s : State} (h : Holds q f n s) : HoldsR q f n (execPrimingStart s) := by
  unfold execPrimingStart
  split
  · rename_i tag e
    apply holds_State_startPriming h
    intro h0
    have := ((slotsGood_iff.1 h.versions).2.2.2.2 h0).2
    rw [e] at this
    cases this
  · exact h

/-! The exact-match store and the Relief arrays leave the version slots alone. -/

theorem foldl_versions {α : Type} {g : State → α → State} {l : List α} {s : State}
    (hg : ∀ t x, (g t x).versions = t.versions) : (l.foldl g s).versions = s.versions := by
  induction l generalizing s with
  | nil => rfl
  | cons x l ih => rw [List.foldl_cons, ih, hg]

theorem filterStep_versions {s : State} {c n : Nat} {up : Bool} : (s.filterStep c up n).versions = s.versions := by
  unfold State.filterStep
  rfl

theorem filterKey_versions {s : State} {c t k : Nat} {up : Bool} : (s.filterKey c t k up).versions = s.versions := by
  unfold State.filterKey
  split
  · exact foldl_versions fun _ _ => filterStep_versions
  · rfl

theorem drainOverflow_versions {s : State} {c : Nat} : (s.drainOverflow c).versions = s.versions := by
  unfold State.drainOverflow
  refine foldl_versions fun t u => ?_
  split <;> rfl

theorem setVisible_versions {s : State} {u : EmUnit} {v : Nat} : (s.setVisible u v).versions = s.versions := by
  unfold State.setVisible State.freeUnit
  split
  · split
    · rfl
    · rw [drainOverflow_versions]
      exact filterKey_versions
  · rfl

theorem setRuleVisible_versions {s : State} {b i v : Nat} : (s.setRuleVisible b i v).versions = s.versions := by
  unfold State.setRuleVisible
  split <;> rfl

theorem applyLog_versions {s : State} {log : List LogKey} {dst src : Nat} : (s.applyLog log dst src).versions = s.versions := by
  unfold State.applyLog
  refine foldl_versions fun t k => ?_
  cases k with
  | unit t key => exact foldl_versions fun _ _ => setVisible_versions
  | rule b i =>
    dsimp only
    unfold State.copyRuleBit
    split
    · exact setRuleVisible_versions
    · rfl

/-- A slot changed is a change of the slots alone. -/
theorem setSlot_eq {s : State} {i : Nat} {g : SlotSt → SlotSt} : s.setSlot i g = { s with versions := (s.setSlot i g).versions } := rfl

/-- A slot that enters a state is a change of the slots alone. -/
theorem slotTo_eq {s : State} {i : Nat} {st : SlotState} : s.slotTo i st = { s with versions := (s.slotTo i st).versions } := rfl

/-- The three slots of a commit change as one (R228). -/
theorem holds_switch {s t : State} {c b p : Nat} {g : SlotSt → SlotSt} (hg : ∀ x, (g x).state = x.state) (h : Holds q f n s)
    (ht : ∀ {x : Prop}, GoodStates ((((slotStates s.versions).set b .current).set c .draining).set p .building) x)
    (e : t = (((s.slotTo b .current).slotTo c .draining).slotTo p .building).setSlot p g) :
    Holds q f n { t with versions := { t.versions with commit := .none } } := by
  have hs : slotStates t.versions = (((slotStates s.versions).set b .current).set c .draining).set p .building := by
    rw [e, slotStates_setSlot hg, slotStates_slotTo, slotStates_slotTo, slotStates_slotTo]
  have hv : SlotsGood { t.versions with commit := .none } :=
    slotsGood_iff.2 (show GoodStates (slotStates t.versions) _ by rw [hs]; exact ht)
  rw [setSlot_eq, slotTo_eq, slotTo_eq, slotTo_eq] at e
  generalize t.versions = v at hv
  subst e
  exact { h with versions := hv }

theorem holds_execCommitSwitch {s : State} (h : Holds q f n s) : HoldsR q f n (execCommitSwitch s) := by
  unfold execCommitSwitch
  split
  · rename_i tag b p _ eb ep
    apply holds_State_versionDone
    apply holds_State_raiseTrap
    apply holds_State_flag
    apply holds_State_bump32
    refine holds_switch (g := fun x => { x with number := nextVersion (s.slot b).number, log := [] }) (fun _ => rfl)
      (holds_State_applyLog h) ?_ rfl
    rw [applyLog_versions]
    exact good_switch (slotsGood_iff.1 h.versions) (slotIn_some h.versions eb) (currentSlot_current h.versions)
      (slotIn_some h.versions ep)
  · exact h

theorem holds_execSlotRetire {a1 : Slot} {s : State} (h : Holds q f n s) : HoldsR q f n (execSlotRetire a1 s) := by
  unfold execSlotRetire
  dsimp only
  split
  · rename_i e
    apply holds_State_request
    apply holds_slotTo h
    apply good_retire (slotsGood_iff.1 h.versions)
    rw [slot_state (by rw [h.versions.1]; exact a1.isLt), e.1]
  · exact h

theorem holds_execCleanupComplete {a1 : Slot} {s : State} (h : Holds q f n s) : HoldsR q f n (execCleanupComplete a1 s) := by
  unfold execCleanupComplete
  dsimp only
  split
  · rename_i e
    apply holds_State_flag
    refine holds_State_setSlot ?_ ?_
    case refine_2 => exact fun _ => rfl
    have hl : ∀ x : SlotSt, ({ x with log := [] } : SlotSt).state = x.state := fun _ => rfl
    have ha := holds_State_applyLog (a2 := (s.slot s.currentSlot).log) (a3 := a1.val) (a4 := s.currentSlot) h
    have h' := holds_State_setSlot (a2 := s.currentSlot) (a3 := fun x => { x with log := [] }) ha hl
    refine holds_slotTo h' (good_free (slotsGood_iff.1 h'.versions) ?_)
    rw [slotStates_setSlot hl, applyLog_versions, slot_state (by rw [h.versions.1]; exact a1.isLt), e]
  · exact h

theorem holds_State_versionCancel {s : State} (h : Holds q f n s) : Holds q f n s.versionCancel := by
  unfold State.versionCancel
  split
  · apply holds_State_versionDone
    apply holds_State_put
    have hv := slotsGood_iff.1 h.versions
    exact Holds.withVersions h (slotsGood_iff.2 (show GoodStates (slotStates s.versions) _ from good_idle hv rfl))
  · exact holds_State_put h
  · exact holds_State_put h

theorem holds_execStaleSweep {a1 : Sys2Proof.QueueId} {s : Sys2Proof.Machine.State} (h : Holds q f n s) :
    HoldsR q f n (Sys2Proof.Machine.execStaleSweep a1 s) := by
  unfold Sys2Proof.Machine.execStaleSweep
  repeat' first
    | with_reducible assumption
    | (with_reducible intro _)
    | with_reducible apply holds_State_endCopies
    | with_reducible apply HoldsR.next
    | exact HoldsR.undefined (by decide)
    | with_reducible apply HoldsR.ite
end Sys2Proof.Laws
end

