-- ==== Sys2Proof/Laws/HoldsBuffers.lean ====
section
/-! SUPPORT. What the operations of Machine/Buffers.lean keep. -/

namespace Sys2Proof.Laws

open Sys2Proof.Machine Sys2Proof.Safety

variable {q : List Instr} {f n : Nat}

theorem holds_State_armatureClock {s : Sys2Proof.Machine.State} (h : Holds q f n s) :
    Holds q f n (Sys2Proof.Machine.State.armatureClock s) := by
  unfold Sys2Proof.Machine.State.armatureClock
  repeat' first
    | with_reducible assumption
    | (with_reducible intro _)
    | with_reducible apply holds_State_applyFrees
    | split
    | (dsimp only)
    | (with_reducible refine holds_mk ?_; with_reducible apply Holds.parts)

theorem holds_State_arriveVoq {s : Sys2Proof.Machine.State} {a2 : Nat} {a3 : Nat} (h : Holds q f n s) :
    Holds q f n (Sys2Proof.Machine.State.arriveVoq s a2 a3).1 := by
  unfold Sys2Proof.Machine.State.arriveVoq
  repeat' first
    | with_reducible assumption
    | (with_reducible intro _)
    | with_reducible apply holds_ite_fst
    | with_reducible apply holds_ite
    | split
    | (dsimp only)
    | (with_reducible refine holds_mk ?_; with_reducible apply Holds.parts)

theorem holds_State_store {s : Sys2Proof.Machine.State} {a2 : Sys2Proof.Machine.Writer} {a3 : Nat} {a4 : Sys2Proof.Machine.CopyLoc} (h : Holds q f n s) :
    Holds q f n (Sys2Proof.Machine.State.store s a2 a3 a4).1 := by
  unfold Sys2Proof.Machine.State.store
  repeat' first
    | with_reducible assumption
    | (with_reducible intro _)
    | with_reducible apply holds_State_writeCells
    | with_reducible apply holds_State_requestCells
    | with_reducible refine holds_fst_eq ‹_› ?_
    | with_reducible apply holds_ite_fst
    | with_reducible apply holds_ite
    | split

theorem holds_State_growCells {s : Sys2Proof.Machine.State} {a2 : Sys2Proof.Machine.Writer} {a3 : Nat} (h : Holds q f n s) :
    Holds q f n (Sys2Proof.Machine.State.growCells s a2 a3).1 := by
  unfold Sys2Proof.Machine.State.growCells
  repeat' first
    | with_reducible assumption
    | (with_reducible intro _)
    | with_reducible apply holds_State_requestCells
    | with_reducible refine holds_fst_eq ‹_› ?_
    | with_reducible apply holds_ite_fst
    | with_reducible apply holds_ite
    | split

theorem holds_State_offerVoq {s : Sys2Proof.Machine.State} {a2 : Sys2Proof.Machine.Writer} {a3 : Nat} {a4 : Nat} {a5 : Nat} (h : Holds q f n s) :
    Holds q f n (Sys2Proof.Machine.State.offerVoq s a2 a3 a4 a5).1 := by
  unfold Sys2Proof.Machine.State.offerVoq
  repeat' first
    | with_reducible assumption
    | (with_reducible intro _)
    | with_reducible apply holds_State_arriveVoq
    | with_reducible apply holds_State_store
    | with_reducible apply holds_State_addCopy
    | with_reducible apply holds_State_setFrame
    | with_reducible refine holds_fst_eq ‹_› ?_
    | split
    | (dsimp only)

theorem holds_State_offerRepl {s : Sys2Proof.Machine.State} {a2 : Sys2Proof.Machine.Writer} {a3 : Nat} {a4 : Nat} (h : Holds q f n s) :
    Holds q f n (Sys2Proof.Machine.State.offerRepl s a2 a3 a4).1 := by
  unfold Sys2Proof.Machine.State.offerRepl
  repeat' first
    | with_reducible assumption
    | (with_reducible intro _)
    | with_reducible apply holds_State_store
    | with_reducible apply holds_State_addCopy
    | with_reducible apply holds_State_setFrame
    | with_reducible refine holds_fst_eq ‹_› ?_
    | split

theorem holds_State_enqueueRepl {s : Sys2Proof.Machine.State} {a2 : Sys2Proof.Machine.Writer} {a3 : Nat} {a4 : Nat} (h : Holds q f n s) :
    Holds q f n (Sys2Proof.Machine.State.enqueueRepl s a2 a3 a4) := by
  unfold Sys2Proof.Machine.State.enqueueRepl
  repeat' first
    | with_reducible assumption
    | (with_reducible intro _)
    | with_reducible apply holds_State_offerRepl
    | with_reducible apply holds_State_endFrame
    | with_reducible refine holds_fst_eq ‹_› ?_
    | split

theorem holds_State_putCredit {s : Sys2Proof.Machine.State} {a2 : Nat} {a3 : Int} (h : Holds q f n s) :
    Holds q f n (Sys2Proof.Machine.State.putCredit s a2 a3) := by
  unfold Sys2Proof.Machine.State.putCredit
  repeat' first
    | with_reducible assumption
    | (with_reducible intro _)
    | split
    | (dsimp only)
    | (with_reducible refine holds_mk ?_; with_reducible apply Holds.parts)

theorem holds_State_capCredit {s : Sys2Proof.Machine.State} {a2 : Nat} (h : Holds q f n s) :
    Holds q f n (Sys2Proof.Machine.State.capCredit s a2) := by
  unfold Sys2Proof.Machine.State.capCredit
  repeat' first
    | with_reducible assumption
    | (with_reducible intro _)
    | with_reducible apply holds_State_putCredit
    | with_reducible apply holds_ite

theorem holds_State_addCredit {s : Sys2Proof.Machine.State} {a2 : Nat} {a3 : Nat} (h : Holds q f n s) :
    Holds q f n (Sys2Proof.Machine.State.addCredit s a2 a3) := by
  unfold Sys2Proof.Machine.State.addCredit
  repeat' first
    | with_reducible assumption
    | (with_reducible intro _)
    | with_reducible apply holds_State_putCredit
    | with_reducible apply holds_State_capCredit
    | split
    | (dsimp only)
    | (with_reducible refine holds_mk ?_; with_reducible apply Holds.parts)

theorem holds_State_spendCredit {s : Sys2Proof.Machine.State} {a2 : Nat} {a3 : Nat} (h : Holds q f n s) :
    Holds q f n (Sys2Proof.Machine.State.spendCredit s a2 a3) := by
  unfold Sys2Proof.Machine.State.spendCredit
  repeat' first
    | with_reducible assumption
    | (with_reducible intro _)
    | with_reducible apply holds_State_putCredit

theorem holds_State_writeOut {s : Sys2Proof.Machine.State} {a2 : Nat} (h : Holds q f n s) :
    Holds q f n (Sys2Proof.Machine.State.writeOut s a2) := by
  unfold Sys2Proof.Machine.State.writeOut
  repeat' first
    | with_reducible assumption
    | (with_reducible intro _)
    | with_reducible apply holds_State_ddr5Write
    | with_reducible apply holds_ite
    | split
    | (dsimp only)
    | (with_reducible refine holds_mk ?_; with_reducible apply Holds.parts)

theorem holds_State_packBin {s : Sys2Proof.Machine.State} {a2 : Nat} {a3 : Nat} {a4 : Nat} {a5 : Nat} (h : Holds q f n s) :
    HoldsO q f n (Sys2Proof.Machine.State.packBin s a2 a3 a4 a5) := by
  induction a4 generalizing s a2 a3 a5 with
  | zero =>
    unfold Sys2Proof.Machine.State.packBin
    repeat' first
      | with_reducible assumption
      | (with_reducible intro _)
      | with_reducible apply holds_State_writeOut
      | with_reducible refine HoldsO.of_eq ‹_› ?_
      | exact HoldsO.none
  | succ k ih =>
    unfold Sys2Proof.Machine.State.packBin
    repeat' first
      | with_reducible assumption
      | (with_reducible intro _)
      | with_reducible apply ih
      | (cases ‹k + 1 = Nat.succ _›; with_reducible apply ih)
      | with_reducible apply holds_State_writeOut
      | with_reducible refine HoldsO.of_eq ‹_› ?_
      | exact HoldsO.none
      | with_reducible apply HoldsO.some
      | with_reducible apply HoldsO.map
      | with_reducible apply HoldsO.ite
      | with_reducible apply holds_ite
      | split
      | (dsimp only)
      | (with_reducible refine holds_mk ?_; with_reducible apply Holds.parts)

theorem holds_execSpillWrite {s : Sys2Proof.Machine.State} (h : Holds q f n s) :
    HoldsR q f n (Sys2Proof.Machine.execSpillWrite s) := by
  unfold Sys2Proof.Machine.execSpillWrite
  repeat' first
    | with_reducible assumption
    | (with_reducible intro _)
    | with_reducible apply holds_State_packBin
    | with_reducible apply holds_State_setCopy
    | with_reducible apply holds_State_freeCells
    | with_reducible apply holds_State_add64
    | with_reducible refine HoldsO.of_eq ‹_› ?_
    | with_reducible apply HoldsR.next
    | exact HoldsR.undefined (by decide)
    | exact HoldsO.none
    | with_reducible apply HoldsO.some
    | with_reducible apply HoldsO.ite
    | with_reducible apply HoldsR.ite
    | with_reducible apply holds_ite
    | split

theorem holds_execBinFlush {a1 : Fin 131072} {s : Sys2Proof.Machine.State} (h : Holds q f n s) :
    HoldsR q f n (Sys2Proof.Machine.execBinFlush a1 s) := by
  unfold Sys2Proof.Machine.execBinFlush
  repeat' first
    | with_reducible assumption
    | (with_reducible intro _)
    | with_reducible apply holds_State_writeOut
    | with_reducible apply HoldsR.next
    | exact HoldsR.undefined (by decide)
    | split

theorem holds_State_returnCells {s : Sys2Proof.Machine.State} {a2 : Nat} {a3 : Sys2Proof.Machine.Frame} (h : Holds q f n s) :
    Holds q f n (Sys2Proof.Machine.State.returnCells s a2 a3).1 := by
  unfold Sys2Proof.Machine.State.returnCells
  repeat' first
    | with_reducible assumption
    | (with_reducible intro _)
    | with_reducible apply holds_State_requestCells
    | with_reducible refine holds_fst_eq ‹_› ?_
    | split

theorem holds_State_returnCopy {s : Sys2Proof.Machine.State} {a2 : Sys2Proof.Machine.Bin} {a3 : Nat} (h : Holds q f n s) :
    Holds q f n (Sys2Proof.Machine.State.returnCopy s a2 a3).1 := by
  unfold Sys2Proof.Machine.State.returnCopy
  repeat' first
    | with_reducible assumption
    | (with_reducible intro _)
    | with_reducible apply holds_State_returnCells
    | with_reducible apply holds_State_add64
    | with_reducible apply holds_State_setCopy
    | with_reducible apply holds_State_moveCopy
    | with_reducible refine holds_fst_eq ‹_› ?_
    | split

theorem holds_State_returnCopies {s : Sys2Proof.Machine.State} {a2 : Sys2Proof.Machine.Bin} {a3 : List Nat} (h : Holds q f n s) :
    Holds q f n (Sys2Proof.Machine.State.returnCopies s a2 a3).1 := by
  induction a3 generalizing s a2 with
  | nil =>
    unfold Sys2Proof.Machine.State.returnCopies
    repeat' first
      | with_reducible assumption
  | cons x l ih =>
    unfold Sys2Proof.Machine.State.returnCopies
    repeat' first
      | with_reducible assumption
      | (with_reducible intro _)
      | with_reducible apply ih
      | with_reducible apply holds_State_returnCopy
      | with_reducible refine holds_fst_eq ‹_› ?_
      | split

theorem holds_State_returnBin {s : Sys2Proof.Machine.State} {a2 : Sys2Proof.Machine.Bin} (h : Holds q f n s) :
    Holds q f n (Sys2Proof.Machine.State.returnBin s a2) := by
  unfold Sys2Proof.Machine.State.returnBin
  repeat' first
    | with_reducible assumption
    | (with_reducible intro _)
    | with_reducible apply holds_State_returnCopies
    | with_reducible apply holds_State_ddr5Read
    | with_reducible refine holds_fst_eq ‹_› ?_
    | with_reducible apply holds_ite_fst
    | with_reducible apply holds_ite
    | split
    | (dsimp only)
    | (with_reducible refine holds_mk ?_; with_reducible apply Holds.parts)

theorem holds_execSpillReturn {s : Sys2Proof.Machine.State} (h : Holds q f n s) :
    HoldsR q f n (Sys2Proof.Machine.execSpillReturn s) := by
  unfold Sys2Proof.Machine.execSpillReturn
  repeat' first
    | with_reducible assumption
    | (with_reducible intro _)
    | with_reducible apply holds_State_returnBin
    | with_reducible apply HoldsR.next
    | exact HoldsR.undefined (by decide)
    | split

theorem holds_State_loseBins {s : Sys2Proof.Machine.State} {a2 : Nat → Bool} {a3 : Nat} (h : Holds q f n s) :
    Holds q f n (Sys2Proof.Machine.State.loseBins s a2 a3) := by
  unfold Sys2Proof.Machine.State.loseBins
  repeat' first
    | with_reducible assumption
    | (with_reducible intro _)
    | with_reducible apply holds_State_endCopies
    | split
    | (dsimp only)
    | (with_reducible refine holds_mk ?_; with_reducible apply Holds.parts)

theorem holds_State_retireBin {s : Sys2Proof.Machine.State} {a2 : Nat} (h : Holds q f n s) :
    Holds q f n (Sys2Proof.Machine.State.retireBin s a2) := by
  unfold Sys2Proof.Machine.State.retireBin
  repeat' first
    | with_reducible assumption
    | (with_reducible intro _)
    | with_reducible apply holds_State_loseBins
    | with_reducible apply holds_State_flag
    | with_reducible apply holds_State_bump32
    | with_reducible apply holds_ite
    | split
    | (dsimp only)
    | (with_reducible refine holds_mk ?_; with_reducible apply Holds.parts)
end Sys2Proof.Laws
end

