-- ==== Sys2Proof/Laws/HoldsCast.lean ====
section
/-! SUPPORT. What the operations of Machine/Cast.lean keep. -/

namespace Sys2Proof.Laws

open Sys2Proof.Machine Sys2Proof.Safety

variable {q : List Instr} {f n : Nat}

theorem holds_State_copyMade {s : Sys2Proof.Machine.State} {a2 : Nat} (h : Holds q f n s) :
    Holds q f n (Sys2Proof.Machine.State.copyMade s a2) := by
  unfold Sys2Proof.Machine.State.copyMade
  repeat' first
    | with_reducible assumption
    | (with_reducible intro _)
    | with_reducible apply holds_State_count
    | with_reducible apply holds_State_bump64
    | with_reducible apply holds_State_setFrame

theorem holds_State_addCast {s : Sys2Proof.Machine.State} {a2 : Nat} {a3 : Sys2Proof.Machine.Copy} (h : Holds q f n s) :
    Holds q f n (Sys2Proof.Machine.State.addCast s a2 a3) := by
  unfold Sys2Proof.Machine.State.addCast
  repeat' first
    | with_reducible assumption
    | (with_reducible intro _)
    | with_reducible apply holds_State_setFrame
    | with_reducible apply holds_State_addCopy

theorem holds_State_castLocal {s : Sys2Proof.Machine.State} {a2 : Sys2Proof.Machine.Frame} {a3 : Nat} {a4 : Nat} {a5 : Nat} (h : Holds q f n s) :
    Holds q f n (Sys2Proof.Machine.State.castLocal s a2 a3 a4 a5) := by
  unfold Sys2Proof.Machine.State.castLocal
  repeat' first
    | with_reducible assumption
    | (with_reducible intro _)
    | with_reducible apply holds_State_addCast
    | with_reducible apply holds_State_enterEgress
    | with_reducible apply holds_State_copyMade
    | with_reducible apply holds_ite

theorem holds_State_castRemote {s : Sys2Proof.Machine.State} {a2 : Sys2Proof.Machine.Frame} {a3 : Nat} {a4 : Nat} (h : Holds q f n s) :
    Holds q f n (Sys2Proof.Machine.State.castRemote s a2 a3 a4) := by
  unfold Sys2Proof.Machine.State.castRemote
  repeat' first
    | with_reducible assumption
    | (with_reducible intro _)
    | with_reducible apply holds_State_code
    | with_reducible apply holds_State_arriveVoq
    | with_reducible apply holds_State_copyMade
    | with_reducible apply holds_State_addCast
    | with_reducible refine holds_fst_eq ‹_› ?_
    | split
    | (dsimp only)

theorem holds_State_castEntry {s : Sys2Proof.Machine.State} {a2 : Nat} {a3 : Nat} {a4 : Bool} {a5 : Nat} (h : Holds q f n s) :
    Holds q f n (Sys2Proof.Machine.State.castEntry s a2 a3 a4 a5) := by
  unfold Sys2Proof.Machine.State.castEntry
  repeat' first
    | with_reducible assumption
    | (with_reducible intro _)
    | with_reducible apply holds_State_bump64
    | with_reducible apply holds_State_castRemote
    | with_reducible apply holds_State_castLocal
    | with_reducible apply holds_ite
    | split

theorem holds_execCastWalk {s : Sys2Proof.Machine.State} (h : Holds q f n s) :
    HoldsR q f n (Sys2Proof.Machine.execCastWalk s) := by
  unfold Sys2Proof.Machine.execCastWalk
  repeat' first
    | with_reducible assumption
    | (with_reducible intro _)
    | with_reducible apply holds_State_endCopy
    | with_reducible apply holds_State_count
    | with_reducible apply holds_State_moveFrame
    | with_reducible apply holds_State_setFrame
    | with_reducible apply HoldsR.next
    | exact HoldsR.undefined (by decide)
    | with_reducible apply holds_getD
    | with_reducible apply HoldsR.ite
    | with_reducible apply holds_ite
    | split
    | (dsimp only)
    | (with_reducible refine holds_mk ?_; with_reducible apply Holds.parts)

theorem holds_State_readEntries {s : Sys2Proof.Machine.State} {a2 : Sys2Proof.Machine.Walk} {a3 : Nat} (h : Holds q f n s) :
    Holds q f n (Sys2Proof.Machine.State.readEntries s a2 a3) := by
  unfold Sys2Proof.Machine.State.readEntries
  repeat' first
    | with_reducible assumption
    | (with_reducible intro _)
    | with_reducible apply holds_State_castEntry
    | with_reducible apply holds_State_setFrame
    | with_reducible apply holds_foldl

theorem holds_State_castClock {s : Sys2Proof.Machine.State} (h : Holds q f n s) :
    Holds q f n (Sys2Proof.Machine.State.castClock s) := by
  unfold Sys2Proof.Machine.State.castClock
  repeat' first
    | with_reducible assumption
    | (with_reducible intro _)
    | with_reducible apply holds_State_readEntries
    | with_reducible apply holds_foldl
    | with_reducible apply holds_foldl_fst

theorem holds_execCastWalkEnd {s : Sys2Proof.Machine.State} (h : Holds q f n s) :
    HoldsR q f n (Sys2Proof.Machine.execCastWalkEnd s) := by
  unfold Sys2Proof.Machine.execCastWalkEnd
  repeat' first
    | with_reducible assumption
    | (with_reducible intro _)
    | with_reducible apply holds_State_releaseRef
    | with_reducible apply holds_State_setFrame
    | with_reducible apply holds_State_endFrame
    | with_reducible apply HoldsR.next
    | exact HoldsR.undefined (by decide)
    | with_reducible apply HoldsR.ite
    | with_reducible apply holds_ite
    | split

theorem holds_State_seedSamples {s : State} {a2 : Nat} (h : Holds q f n s) : Holds q f n (s.seedSamples a2) :=
  { h with pipes := (List.length_mapIdx ..).trans h.pipes }

theorem holds_State_sample {s : Sys2Proof.Machine.State} {a2 : Nat} {a3 : Bool} {a4 : Nat} (h : Holds q f n s) :
    Holds q f n (Sys2Proof.Machine.State.sample s a2 a3 a4).1 := by
  unfold Sys2Proof.Machine.State.sample
  repeat' first
    | with_reducible assumption
    | (with_reducible intro _)
    | with_reducible apply holds_State_setPipe

theorem holds_State_offerCapture {s : Sys2Proof.Machine.State} {a2 : Nat} {a3 : List Sys2Proof.Byte} (h : Holds q f n s) :
    Holds q f n (Sys2Proof.Machine.State.offerCapture s a2 a3) := by
  unfold Sys2Proof.Machine.State.offerCapture
  repeat' first
    | with_reducible assumption
    | (with_reducible intro _)
    | with_reducible apply holds_State_count
    | with_reducible apply holds_State_free
    | with_reducible apply holds_State_flag
    | with_reducible apply holds_State_bump32
    | with_reducible apply holds_State_ringPush
    | with_reducible apply holds_State_put
    | with_reducible apply holds_State_ddr5Write
    | with_reducible apply holds_State_bump64
    | with_reducible refine holds_snd_eq ‹_› ?_
    | with_reducible apply holds_foldl
    | with_reducible apply holds_foldl_fst
    | with_reducible apply holds_ite_snd
    | with_reducible apply holds_ite
    | split
    | (dsimp only)
    | (with_reducible refine holds_mk ?_; with_reducible apply Holds.parts)

theorem holds_State_capturePoint {s : Sys2Proof.Machine.State} {a2 : Nat} {a3 : Bool} {a4 : Nat} {a5 : Nat} {a6 : Nat → Nat} {a7 : List Sys2Proof.Byte} (h : Holds q f n s) :
    Holds q f n (Sys2Proof.Machine.State.capturePoint s a2 a3 a4 a5 a6 a7) := by
  unfold Sys2Proof.Machine.State.capturePoint
  repeat' first
    | with_reducible assumption
    | (with_reducible intro _)
    | with_reducible apply holds_State_offerCapture
    | with_reducible apply holds_State_sample
    | with_reducible refine holds_fst_eq ‹_› ?_
    | with_reducible apply holds_ite_fst
    | with_reducible apply holds_ite
    | split

theorem holds_State_captureLength {s : Sys2Proof.Machine.State} {a2 : Sys2Proof.Machine.Frame} {a3 : Nat} (h : Holds q f n s) :
    Holds q f n (Sys2Proof.Machine.State.captureLength s a2 a3).2 := by
  unfold Sys2Proof.Machine.State.captureLength
  repeat' first
    | with_reducible assumption
    | (with_reducible intro _)
    | with_reducible apply holds_State_free
    | with_reducible apply holds_ite_snd

theorem holds_State_captureIngress {s : Sys2Proof.Machine.State} {a2 : Sys2Proof.Machine.Frame} {a3 : Nat} {a4 : Nat} (h : Holds q f n s) :
    Holds q f n (Sys2Proof.Machine.State.captureIngress s a2 a3 a4) := by
  unfold Sys2Proof.Machine.State.captureIngress
  repeat' first
    | with_reducible assumption
    | (with_reducible intro _)
    | with_reducible apply holds_State_captureLength
    | with_reducible apply holds_State_capturePoint

theorem holds_State_captureEgress {s : Sys2Proof.Machine.State} {a2 : Sys2Proof.Machine.Frame} {a3 : Sys2Proof.Machine.Copy} {a4 : Nat} {a5 : Nat} {a6 : List Sys2Proof.Byte} (h : Holds q f n s) :
    Holds q f n (Sys2Proof.Machine.State.captureEgress s a2 a3 a4 a5 a6) := by
  unfold Sys2Proof.Machine.State.captureEgress
  repeat' first
    | with_reducible assumption
    | (with_reducible intro _)
    | with_reducible apply holds_State_captureLength
    | with_reducible apply holds_State_capturePoint

theorem holds_State_enterRecirc {s : Sys2Proof.Machine.State} {a2 : Nat} {a3 : Nat} (h : Holds q f n s) :
    Holds q f n (Sys2Proof.Machine.State.enterRecirc s a2 a3).1 := by
  unfold Sys2Proof.Machine.State.enterRecirc
  repeat' first
    | with_reducible assumption
    | (with_reducible intro _)
    | with_reducible apply holds_State_store
    | with_reducible apply holds_State_moveFrame
    | with_reducible apply holds_State_put
    | with_reducible refine holds_fst_eq ‹_› ?_
    | with_reducible apply holds_ite_fst
    | with_reducible apply holds_ite
    | split

theorem holds_State_restartPeak {s : Sys2Proof.Machine.State} {a2 : Nat} (h : Holds q f n s) :
    Holds q f n (Sys2Proof.Machine.State.restartPeak s a2) := by
  unfold Sys2Proof.Machine.State.restartPeak
  repeat' first
    | with_reducible assumption
    | (with_reducible intro _)
    | with_reducible apply holds_State_put
end Sys2Proof.Laws
end

