-- ==== Sys2Proof/Laws/HoldsFlow.lean ====
section
/-! SUPPORT. What the operations of Machine/Flow.lean keep. -/

namespace Sys2Proof.Laws

open Sys2Proof.Machine Sys2Proof.Safety

variable {q : List Instr} {f n : Nat}

theorem holds_State_putFlow {s : Sys2Proof.Machine.State} {a2 : Nat} {a3 : Sys2Proof.Machine.FlowLine} (h : Holds q f n s) :
    Holds q f n (Sys2Proof.Machine.State.putFlow s a2 a3) := by
  unfold Sys2Proof.Machine.State.putFlow
  repeat' first
    | with_reducible assumption
    | (with_reducible intro _)
    | split
    | (dsimp only)
    | (with_reducible refine holds_mk ?_; with_reducible apply Holds.parts)

theorem holds_State_storePair {s : Sys2Proof.Machine.State} {a2 : Nat} {a3 : Nat} {a4 : Nat} (h : Holds q f n s) :
    Holds q f n (Sys2Proof.Machine.State.storePair s a2 a3 a4) := by
  unfold Sys2Proof.Machine.State.storePair
  repeat' first
    | with_reducible assumption
    | (with_reducible intro _)
    | with_reducible apply holds_State_putBytes

theorem holds_State_flowWriteBack {s : Sys2Proof.Machine.State} {a2 : Nat} (h : Holds q f n s) :
    Holds q f n (Sys2Proof.Machine.State.flowWriteBack s a2) := by
  unfold Sys2Proof.Machine.State.flowWriteBack
  repeat' first
    | with_reducible assumption
    | (with_reducible intro _)
    | with_reducible apply holds_State_ddr5Write
    | with_reducible apply holds_State_ddr5Read
    | with_reducible apply holds_State_putFlow
    | with_reducible apply holds_State_storePair

theorem holds_State_flowRoom {s : Sys2Proof.Machine.State} {a2 : Nat} (h : Holds q f n s) :
    Holds q f n (Sys2Proof.Machine.State.flowRoom s a2) := by
  unfold Sys2Proof.Machine.State.flowRoom
  repeat' first
    | with_reducible assumption
    | (with_reducible intro _)
    | with_reducible apply holds_State_flowWriteBack
    | with_reducible apply holds_ite

theorem holds_State_flowDiscard {s : Sys2Proof.Machine.State} (h : Holds q f n s) :
    Holds q f n (Sys2Proof.Machine.State.flowDiscard s) := by
  unfold Sys2Proof.Machine.State.flowDiscard
  repeat' first
    | with_reducible assumption
    | (with_reducible intro _)
    | with_reducible apply holds_State_flag
    | with_reducible apply holds_State_bump64

theorem holds_State_flowAccept {s : Sys2Proof.Machine.State} {a2 : Nat} {a3 : Nat} {a4 : Nat} (h : Holds q f n s) :
    Holds q f n (Sys2Proof.Machine.State.flowAccept s a2 a3 a4) := by
  unfold Sys2Proof.Machine.State.flowAccept
  repeat' first
    | with_reducible assumption
    | (with_reducible intro _)
    | with_reducible apply holds_State_flowDiscard
    | with_reducible apply holds_State_flowRoom
    | with_reducible apply holds_State_putFlow
    | with_reducible apply holds_State_flowWriteBack
    | with_reducible apply holds_ite

theorem holds_State_flowServe {s : Sys2Proof.Machine.State} {a2 : Nat} {a3 : Nat} {a4 : Nat} (h : Holds q f n s) :
    Holds q f n (Sys2Proof.Machine.State.flowServe s a2 a3 a4) := by
  unfold Sys2Proof.Machine.State.flowServe
  repeat' first
    | with_reducible assumption
    | (with_reducible intro _)
    | with_reducible apply holds_State_flowAccept
    | with_reducible apply holds_ite
    | split
    | (dsimp only)
    | (with_reducible refine holds_mk ?_; with_reducible apply Holds.parts)

theorem holds_State_flowWait {s : Sys2Proof.Machine.State} {a2 : Nat} {a3 : Nat} {a4 : Nat} (h : Holds q f n s) :
    Holds q f n (Sys2Proof.Machine.State.flowWait s a2 a3 a4) := by
  unfold Sys2Proof.Machine.State.flowWait
  repeat' first
    | with_reducible assumption
    | (with_reducible intro _)
    | with_reducible apply holds_State_flowDiscard
    | with_reducible apply holds_ite
    | split
    | (dsimp only)
    | (with_reducible refine holds_mk ?_; with_reducible apply Holds.parts)

theorem holds_State_flowInc {s : Sys2Proof.Machine.State} {a2 : Nat} {a3 : Nat} {a4 : Nat} (h : Holds q f n s) :
    Holds q f n (Sys2Proof.Machine.State.flowInc s a2 a3 a4) := by
  unfold Sys2Proof.Machine.State.flowInc
  repeat' first
    | with_reducible assumption
    | (with_reducible intro _)
    | with_reducible apply holds_State_flowServe
    | with_reducible apply holds_State_flowWait
    | with_reducible apply holds_ite

theorem holds_State_flowClock {s : Sys2Proof.Machine.State} (h : Holds q f n s) :
    Holds q f n (Sys2Proof.Machine.State.flowClock s) := by
  unfold Sys2Proof.Machine.State.flowClock
  repeat' first
    | with_reducible assumption
    | (with_reducible intro _)
    | with_reducible apply holds_State_flowServe
    | with_reducible apply holds_foldl
    | with_reducible apply holds_foldl_fst
    | with_reducible apply holds_ite
    | split
    | (dsimp only)
    | (with_reducible refine holds_mk ?_; with_reducible apply Holds.parts)

theorem holds_State_countNextHop {s : Sys2Proof.Machine.State} {a2 : Option Nat} {a3 : Nat} {a4 : Nat} (h : Holds q f n s) :
    Holds q f n (Sys2Proof.Machine.State.countNextHop s a2 a3 a4) := by
  unfold Sys2Proof.Machine.State.countNextHop
  repeat' first
    | with_reducible assumption
    | (with_reducible intro _)
    | with_reducible apply holds_State_flowInc
    | with_reducible apply holds_ite
    | split

theorem holds_State_flowRead {s : Sys2Proof.Machine.State} {a2 : Nat} (h : Holds q f n s) :
    Holds q f n (Sys2Proof.Machine.State.flowRead s a2).2 := by
  unfold Sys2Proof.Machine.State.flowRead
  repeat' first
    | with_reducible assumption
    | (with_reducible intro _)
    | with_reducible apply holds_State_ddr5Read
    | with_reducible apply holds_State_putFlow
    | with_reducible apply holds_State_storePair
    | with_reducible apply holds_ite_snd
    | with_reducible apply holds_ite

theorem holds_State_flowReads {s : Sys2Proof.Machine.State} {a2 : Nat} {a3 : Nat} (h : Holds q f n s) :
    Holds q f n (Sys2Proof.Machine.State.flowReads s a2 a3).2 := by
  induction a3 generalizing s a2 with
  | zero =>
    unfold Sys2Proof.Machine.State.flowReads
    repeat' first
      | with_reducible assumption
  | succ k ih =>
    unfold Sys2Proof.Machine.State.flowReads
    repeat' first
      | with_reducible assumption
      | (with_reducible intro _)
      | with_reducible apply ih
      | with_reducible apply holds_State_flowRead

theorem holds_State_flowWrite {s : Sys2Proof.Machine.State} {a2 : Nat} {a3 : Nat} {a4 : Nat} (h : Holds q f n s) :
    Holds q f n (Sys2Proof.Machine.State.flowWrite s a2 a3 a4) := by
  unfold Sys2Proof.Machine.State.flowWrite
  repeat' first
    | with_reducible assumption
    | (with_reducible intro _)
    | with_reducible apply holds_State_ddr5Write
    | with_reducible apply holds_State_putFlow
    | with_reducible apply holds_State_storePair

theorem holds_State_flowLose {s : Sys2Proof.Machine.State} {a2 : Nat} (h : Holds q f n s) :
    Holds q f n (Sys2Proof.Machine.State.flowLose s a2) := by
  unfold Sys2Proof.Machine.State.flowLose
  repeat' first
    | with_reducible assumption
    | (with_reducible intro _)
    | with_reducible apply holds_State_bump32
    | with_reducible apply holds_State_storePair
    | with_reducible apply holds_State_flag
    | with_reducible apply holds_State_put
    | with_reducible apply holds_foldl
end Sys2Proof.Laws
end

