-- ==== Sys2Proof/Laws/HoldsSched.lean ====
section
/-! SUPPORT. What the operations of Machine/Sched.lean keep. -/

namespace Sys2Proof.Laws

open Sys2Proof.Machine Sys2Proof.Safety

variable {q : List Instr} {f n : Nat}

theorem holds_State_putPolicer {s : Sys2Proof.Machine.State} {a2 : Nat} {a3 : Sys2Proof.Machine.Policer} (h : Holds q f n s) :
    Holds q f n (Sys2Proof.Machine.State.putPolicer s a2 a3) := by
  unfold Sys2Proof.Machine.State.putPolicer
  repeat' first
    | with_reducible assumption
    | (with_reducible intro _)
    | split
    | (dsimp only)
    | (with_reducible refine holds_mk ?_; with_reducible apply Holds.parts)

theorem holds_State_police {s : Sys2Proof.Machine.State} {a2 : Nat} {a3 : Nat} {a4 : Nat} {a5 : Sys2Proof.Machine.Colour} (h : Holds q f n s) :
    Holds q f n (Sys2Proof.Machine.State.police s a2 a3 a4 a5).1 := by
  unfold Sys2Proof.Machine.State.police
  repeat' first
    | with_reducible assumption
    | (with_reducible intro _)
    | with_reducible apply holds_State_putPolicer
    | with_reducible apply holds_State_flowInc
    | with_reducible apply holds_ite_fst
    | with_reducible apply holds_ite
    | split

theorem holds_State_policerWritten {s : Sys2Proof.Machine.State} {a2 : Nat} {a3 : Nat} (h : Holds q f n s) :
    Holds q f n (Sys2Proof.Machine.State.policerWritten s a2 a3) := by
  unfold Sys2Proof.Machine.State.policerWritten
  repeat' first
    | with_reducible assumption
    | (with_reducible intro _)
    | with_reducible apply holds_State_putPolicer
    | with_reducible apply holds_ite

theorem holds_State_setLane {s : State} {a2 : Nat} {a3 : FLane → FLane} (h : Holds q f n s) : Holds q f n (s.setLane a2 a3) :=
  { h with lanes := (List.length_modify ..).trans h.lanes }

theorem holds_State_queueWord {s : Sys2Proof.Machine.State} {a2 : BitVec 64} (h : Holds q f n s) :
    Holds q f n (Sys2Proof.Machine.State.queueWord s a2) := by
  unfold Sys2Proof.Machine.State.queueWord
  repeat' first
    | with_reducible assumption
    | (with_reducible intro _)
    | split
    | (dsimp only)
    | (with_reducible refine holds_mk ?_; with_reducible apply Holds.parts)

theorem holds_State_sendRequest {s : Sys2Proof.Machine.State} {a2 : Nat} {a3 : Nat} (h : Holds q f n s) :
    Holds q f n (Sys2Proof.Machine.State.sendRequest s a2 a3) := by
  unfold Sys2Proof.Machine.State.sendRequest
  repeat' first
    | with_reducible assumption
    | (with_reducible intro _)
    | with_reducible apply holds_State_queueWord
    | with_reducible apply holds_ite
    | split

theorem holds_State_noteCredit {s : Sys2Proof.Machine.State} {a2 : Nat} {a3 : Int} (h : Holds q f n s) :
    Holds q f n (Sys2Proof.Machine.State.noteCredit s a2 a3) := by
  unfold Sys2Proof.Machine.State.noteCredit
  repeat' first
    | with_reducible assumption
    | (with_reducible intro _)
    | with_reducible apply holds_State_sendRequest
    | with_reducible apply holds_ite

theorem holds_State_takeGrant {s : Sys2Proof.Machine.State} {a2 : Nat} {a3 : Nat} (h : Holds q f n s) :
    Holds q f n (Sys2Proof.Machine.State.takeGrant s a2 a3) := by
  unfold Sys2Proof.Machine.State.takeGrant
  repeat' first
    | with_reducible assumption
    | (with_reducible intro _)
    | with_reducible apply holds_State_noteCredit
    | with_reducible apply holds_State_addCredit

theorem holds_State_creditClock {s : Sys2Proof.Machine.State} (h : Holds q f n s) :
    Holds q f n (Sys2Proof.Machine.State.creditClock s) := by
  unfold Sys2Proof.Machine.State.creditClock
  repeat' first
    | with_reducible assumption
    | (with_reducible intro _)
    | with_reducible apply holds_State_capCredit
    | with_reducible apply holds_foldl

theorem holds_State_payCredit {s : Sys2Proof.Machine.State} {a2 : Nat} {a3 : Nat} (h : Holds q f n s) :
    Holds q f n (Sys2Proof.Machine.State.payCredit s a2 a3) := by
  unfold Sys2Proof.Machine.State.payCredit
  repeat' first
    | with_reducible assumption
    | (with_reducible intro _)
    | with_reducible apply holds_State_noteCredit
    | with_reducible apply holds_State_spendCredit

theorem holds_execCreditGrant {a1 : Sys2Proof.Port} {s : Sys2Proof.Machine.State} (h : Holds q f n s) :
    HoldsR q f n (Sys2Proof.Machine.execCreditGrant a1 s) := by
  unfold Sys2Proof.Machine.execCreditGrant
  repeat' first
    | with_reducible assumption
    | (with_reducible intro _)
    | with_reducible apply holds_State_takeGrant
    | with_reducible apply holds_State_count
    | with_reducible apply holds_State_queueWord
    | with_reducible apply HoldsR.next
    | exact HoldsR.undefined (by decide)
    | with_reducible apply HoldsR.ite
    | with_reducible apply holds_ite
    | split
    | (dsimp only)
    | (with_reducible refine holds_mk ?_; with_reducible apply Holds.parts)

theorem holds_State_passRemote {s : Sys2Proof.Machine.State} {a2 : Nat} {a3 : Nat} {a4 : Sys2Proof.Machine.Frame} {a5 : Sys2Proof.Machine.Copy} (h : Holds q f n s) :
    Holds q f n (Sys2Proof.Machine.State.passRemote s a2 a3 a4 a5) := by
  unfold Sys2Proof.Machine.State.passRemote
  repeat' first
    | with_reducible assumption
    | (with_reducible intro _)
    | with_reducible apply holds_State_payCredit
    | with_reducible apply holds_State_moveCopy
    | with_reducible apply holds_State_appendFrame
    | with_reducible apply holds_State_appendOpen
    | with_reducible apply holds_ite

theorem holds_State_noteAble {s : Sys2Proof.Machine.State} (h : Holds q f n s) :
    Holds q f n (Sys2Proof.Machine.State.noteAble s) := by
  unfold Sys2Proof.Machine.State.noteAble
  repeat' first
    | with_reducible assumption
    | (with_reducible intro _)
    | split
    | (dsimp only)
    | (with_reducible refine holds_mk ?_; with_reducible apply Holds.parts)

theorem holds_State_passVoq {s : Sys2Proof.Machine.State} {a2 : Nat} (h : Holds q f n s) :
    Holds q f n (Sys2Proof.Machine.State.passVoq s a2) := by
  unfold Sys2Proof.Machine.State.passVoq
  repeat' first
    | with_reducible assumption
    | (with_reducible intro _)
    | with_reducible apply holds_State_endCopy
    | with_reducible apply holds_State_enterEgress
    | with_reducible apply holds_State_payCredit
    | with_reducible apply holds_State_passRemote
    | with_reducible apply holds_ite
    | split

theorem holds_execVoqPass {a1 : Fin 131072} {s : Sys2Proof.Machine.State} (h : Holds q f n s) :
    HoldsR q f n (Sys2Proof.Machine.execVoqPass a1 s) := by
  unfold Sys2Proof.Machine.execVoqPass
  repeat' first
    | with_reducible assumption
    | (with_reducible intro _)
    | with_reducible apply holds_State_noteAble
    | with_reducible apply holds_State_capCredit
    | with_reducible apply holds_State_passVoq
    | with_reducible apply HoldsR.next
    | exact HoldsR.undefined (by decide)
    | with_reducible apply HoldsR.ite

theorem holds_execShaperRefill {a1 : Sys2Proof.Group} {a2 : Fin 4744} {s : Sys2Proof.Machine.State} (h : Holds q f n s) :
    HoldsR q f n (Sys2Proof.Machine.execShaperRefill a1 a2 s) := by
  unfold Sys2Proof.Machine.execShaperRefill
  repeat' first
    | with_reducible assumption
    | (with_reducible intro _)
    | with_reducible apply holds_State_putNode
    | with_reducible apply HoldsR.next

theorem holds_State_dwrr {s : Sys2Proof.Machine.State} {a2 : Nat} {a3 : Nat} {a4 : List Nat} {a5 : List Nat} {a6 : Nat} (h : Holds q f n s) :
    Holds q f n (Sys2Proof.Machine.State.dwrr s a2 a3 a4 a5 a6).1 := by
  induction a6 generalizing s a2 a3 a4 a5 with
  | zero =>
    unfold Sys2Proof.Machine.State.dwrr
    repeat' first
      | with_reducible assumption
  | succ k ih =>
    unfold Sys2Proof.Machine.State.dwrr
    repeat' first
      | with_reducible assumption
      | (with_reducible intro _)
      | with_reducible apply ih
      | with_reducible apply holds_State_putNode
      | with_reducible refine holds_fst_eq ‹_› ?_
      | with_reducible apply holds_ite_fst
      | with_reducible apply holds_ite
      | split

theorem holds_State_pickChild {s : Sys2Proof.Machine.State} {a2 : Nat} {a3 : Sys2Proof.Machine.Eligible} {a4 : Nat} (h : Holds q f n s) :
    Holds q f n (Sys2Proof.Machine.State.pickChild s a2 a3 a4).1 := by
  unfold Sys2Proof.Machine.State.pickChild
  repeat' first
    | with_reducible assumption
    | (with_reducible intro _)
    | with_reducible apply holds_State_dwrr
    | with_reducible refine holds_fst_eq ‹_› ?_
    | with_reducible apply holds_ite_fst
    | with_reducible apply holds_ite
    | split
    | (dsimp only)

theorem holds_State_walkTree {s : Sys2Proof.Machine.State} {a2 : Nat} {a3 : Nat} (h : Holds q f n s) :
    Holds q f n (Sys2Proof.Machine.State.walkTree s a2 a3).1 := by
  unfold Sys2Proof.Machine.State.walkTree
  repeat' first
    | with_reducible assumption
    | (with_reducible intro _)
    | with_reducible apply holds_State_pickChild
    | with_reducible refine holds_fst_eq ‹_› ?_
    | with_reducible apply holds_ite_fst
    | with_reducible apply holds_ite
    | split

theorem holds_State_served {s : Sys2Proof.Machine.State} {a2 : Nat} {a3 : Nat} {a4 : Sys2Proof.Machine.Pick} {a5 : Int} (h : Holds q f n s) :
    Holds q f n (Sys2Proof.Machine.State.served s a2 a3 a4 a5) := by
  unfold Sys2Proof.Machine.State.served
  repeat' first
    | with_reducible assumption
    | (with_reducible intro _)
    | with_reducible apply holds_State_putNode
    | with_reducible apply holds_ite

theorem holds_State_chargeWalk {s : Sys2Proof.Machine.State} {a2 : Nat} {a3 : Nat} {a4 : List Sys2Proof.Machine.Pick} {a5 : Int} (h : Holds q f n s) :
    Holds q f n (Sys2Proof.Machine.State.chargeWalk s a2 a3 a4 a5) := by
  unfold Sys2Proof.Machine.State.chargeWalk
  repeat' first
    | with_reducible assumption
    | (with_reducible intro _)
    | with_reducible apply holds_State_putNode
    | with_reducible apply holds_State_served
    | with_reducible apply holds_foldl
    | with_reducible apply holds_foldl_fst
end Sys2Proof.Laws
end

