-- ==== Sys2Proof/Laws/HoldsFabric.lean ====
section
/-! SUPPORT. What the operations of Machine/Fabric.lean keep. -/

namespace Sys2Proof.Laws

open Sys2Proof.Machine Sys2Proof.Safety

variable {q : List Instr} {f n : Nat}

theorem holds_State_completeFrame {s : Sys2Proof.Machine.State} {a2 : Nat} (h : Holds q f n s) :
    Holds q f n (Sys2Proof.Machine.State.completeFrame s a2) := by
  unfold Sys2Proof.Machine.State.completeFrame
  repeat' first
    | with_reducible assumption
    | (with_reducible intro _)
    | with_reducible apply holds_State_setFrame
    | with_reducible apply holds_State_countNextHop
    | with_reducible apply holds_State_setCopy
    | with_reducible apply holds_State_startTx
    | with_reducible apply holds_foldl
    | with_reducible apply holds_foldl_fst
    | split
    | (dsimp only)

theorem holds_State_replaceCells {s : Sys2Proof.Machine.State} {a2 : List Sys2Proof.Machine.WaitingCell} (h : Holds q f n s) :
    Holds q f n (Sys2Proof.Machine.State.replaceCells s a2) := by
  unfold Sys2Proof.Machine.State.replaceCells
  repeat' first
    | with_reducible assumption
    | (with_reducible intro _)
    | split
    | (dsimp only)
    | (with_reducible refine holds_mk ?_; with_reducible apply Holds.parts)

theorem holds_State_settleReach {s : Sys2Proof.Machine.State} (h : Holds q f n s) :
    Holds q f n (Sys2Proof.Machine.State.settleReach s) := by
  unfold Sys2Proof.Machine.State.settleReach
  repeat' first
    | with_reducible assumption
    | (with_reducible intro _)
    | split
    | (dsimp only)
    | (with_reducible refine holds_mk ?_; with_reducible apply Holds.parts)

theorem holds_State_laneDown {s : Sys2Proof.Machine.State} {a2 : Nat} {a3 : Sys2Proof.Machine.LaneState} (h : Holds q f n s) :
    Holds q f n (Sys2Proof.Machine.State.laneDown s a2 a3) := by
  unfold Sys2Proof.Machine.State.laneDown
  repeat' first
    | with_reducible assumption
    | (with_reducible intro _)
    | with_reducible apply holds_State_setLane
    | with_reducible apply holds_State_replaceCells
    | with_reducible apply holds_State_flag
    | with_reducible apply holds_ite

theorem holds_execFabricLaneTrained {a1 : Sys2Proof.FabricLane} {s : Sys2Proof.Machine.State} (h : Holds q f n s) :
    HoldsR q f n (Sys2Proof.Machine.execFabricLaneTrained a1 s) := by
  unfold Sys2Proof.Machine.execFabricLaneTrained
  repeat' first
    | with_reducible assumption
    | (with_reducible intro _)
    | with_reducible apply holds_State_setLane
    | with_reducible apply HoldsR.next
    | exact HoldsR.undefined (by decide)
    | with_reducible apply HoldsR.ite

theorem holds_State_takeHello {s : Sys2Proof.Machine.State} {a2 : Nat} {a3 : Nat} (h : Holds q f n s) :
    Holds q f n (Sys2Proof.Machine.State.takeHello s a2 a3) := by
  unfold Sys2Proof.Machine.State.takeHello
  repeat' first
    | with_reducible assumption
    | (with_reducible intro _)
    | with_reducible apply holds_State_settleReach
    | with_reducible apply holds_State_setLane
    | with_reducible apply holds_State_laneDown
    | with_reducible apply holds_ite
    | split
    | (dsimp only)

theorem holds_execHello {a1 : Sys2Proof.FabricLane} {a2 : BitVec 64} {s : Sys2Proof.Machine.State} (h : Holds q f n s) :
    HoldsR q f n (Sys2Proof.Machine.execHello a1 a2 s) := by
  unfold Sys2Proof.Machine.execHello
  repeat' first
    | with_reducible assumption
    | (with_reducible intro _)
    | with_reducible apply holds_State_takeHello
    | with_reducible apply HoldsR.next
    | exact HoldsR.undefined (by decide)
    | with_reducible apply HoldsR.ite

theorem holds_execFabricLaneLoss {a1 : Sys2Proof.FabricLane} {s : Sys2Proof.Machine.State} (h : Holds q f n s) :
    HoldsR q f n (Sys2Proof.Machine.execFabricLaneLoss a1 s) := by
  unfold Sys2Proof.Machine.execFabricLaneLoss
  repeat' first
    | with_reducible assumption
    | (with_reducible intro _)
    | with_reducible apply holds_State_laneDown
    | with_reducible apply HoldsR.next
    | exact HoldsR.undefined (by decide)
    | split

theorem holds_State_takeRequest {s : Sys2Proof.Machine.State} {a2 : Nat} (h : Holds q f n s) :
    Holds q f n (Sys2Proof.Machine.State.takeRequest s a2) := by
  unfold Sys2Proof.Machine.State.takeRequest
  repeat' first
    | with_reducible assumption
    | (with_reducible intro _)
    | with_reducible apply holds_State_bump64
    | with_reducible apply holds_ite
    | split
    | (dsimp only)
    | (with_reducible refine holds_mk ?_; with_reducible apply Holds.parts)

theorem holds_State_takeGrantWord {s : Sys2Proof.Machine.State} {a2 : Nat} (h : Holds q f n s) :
    Holds q f n (Sys2Proof.Machine.State.takeGrantWord s a2) := by
  unfold Sys2Proof.Machine.State.takeGrantWord
  repeat' first
    | with_reducible assumption
    | (with_reducible intro _)
    | with_reducible apply holds_State_bump64
    | with_reducible apply holds_State_takeGrant
    | with_reducible apply holds_ite

theorem holds_State_takeLinkCredit {s : Sys2Proof.Machine.State} {a2 : Nat} {a3 : Nat} (h : Holds q f n s) :
    Holds q f n (Sys2Proof.Machine.State.takeLinkCredit s a2 a3) := by
  unfold Sys2Proof.Machine.State.takeLinkCredit
  repeat' first
    | with_reducible assumption
    | (with_reducible intro _)
    | with_reducible apply holds_State_count
    | with_reducible apply holds_State_setLane
    | with_reducible apply holds_ite

theorem holds_State_dropUnreached {s : Sys2Proof.Machine.State} {a2 : Nat} (h : Holds q f n s) :
    Holds q f n (Sys2Proof.Machine.State.dropUnreached s a2) := by
  unfold Sys2Proof.Machine.State.dropUnreached
  repeat' first
    | with_reducible assumption
    | (with_reducible intro _)
    | with_reducible apply holds_State_replaceCells
    | with_reducible apply holds_State_setLane

theorem holds_State_setReach {s : Sys2Proof.Machine.State} {a2 : Nat} {a3 : Nat} {a4 : Nat} (h : Holds q f n s) :
    Holds q f n (Sys2Proof.Machine.State.setReach s a2 a3 a4) := by
  unfold Sys2Proof.Machine.State.setReach
  repeat' first
    | with_reducible assumption
    | (with_reducible intro _)
    | with_reducible apply holds_State_settleReach
    | with_reducible apply holds_State_dropUnreached
    | with_reducible apply holds_State_setLane

theorem holds_State_takeReach {s : Sys2Proof.Machine.State} {a2 : Nat} {a3 : Nat} (h : Holds q f n s) :
    Holds q f n (Sys2Proof.Machine.State.takeReach s a2 a3) := by
  unfold Sys2Proof.Machine.State.takeReach
  repeat' first
    | with_reducible assumption
    | (with_reducible intro _)
    | with_reducible apply holds_State_setReach
    | with_reducible apply holds_ite

theorem holds_State_takeWord {s : Sys2Proof.Machine.State} {a2 : Nat} {a3 : Nat} (h : Holds q f n s) :
    Holds q f n (Sys2Proof.Machine.State.takeWord s a2 a3) := by
  unfold Sys2Proof.Machine.State.takeWord
  repeat' first
    | with_reducible assumption
    | (with_reducible intro _)
    | with_reducible apply holds_State_takeRequest
    | with_reducible apply holds_State_takeGrantWord
    | with_reducible apply holds_State_takeLinkCredit
    | with_reducible apply holds_State_takeReach
    | with_reducible apply holds_State_takeHello
    | with_reducible apply holds_ite

theorem holds_execRequest {a1 : BitVec 64} {s : Sys2Proof.Machine.State} (h : Holds q f n s) :
    HoldsR q f n (Sys2Proof.Machine.execRequest a1 s) := by
  unfold Sys2Proof.Machine.execRequest
  repeat' first
    | with_reducible assumption
    | (with_reducible intro _)
    | with_reducible apply holds_State_takeRequest
    | with_reducible apply HoldsR.next
    | exact HoldsR.undefined (by decide)
    | with_reducible apply HoldsR.ite

theorem holds_execGrant {a1 : BitVec 64} {s : Sys2Proof.Machine.State} (h : Holds q f n s) :
    HoldsR q f n (Sys2Proof.Machine.execGrant a1 s) := by
  unfold Sys2Proof.Machine.execGrant
  repeat' first
    | with_reducible assumption
    | (with_reducible intro _)
    | with_reducible apply holds_State_takeGrantWord
    | with_reducible apply HoldsR.next
    | exact HoldsR.undefined (by decide)
    | with_reducible apply HoldsR.ite

theorem holds_execLinkCredit {a1 : Sys2Proof.FabricLane} {a2 : BitVec 64} {s : Sys2Proof.Machine.State} (h : Holds q f n s) :
    HoldsR q f n (Sys2Proof.Machine.execLinkCredit a1 a2 s) := by
  unfold Sys2Proof.Machine.execLinkCredit
  repeat' first
    | with_reducible assumption
    | (with_reducible intro _)
    | with_reducible apply holds_State_takeLinkCredit
    | with_reducible apply HoldsR.next
    | exact HoldsR.undefined (by decide)
    | with_reducible apply HoldsR.ite

theorem holds_execReach {a1 : Sys2Proof.FabricLane} {a2 : BitVec 64} {s : Sys2Proof.Machine.State} (h : Holds q f n s) :
    HoldsR q f n (Sys2Proof.Machine.execReach a1 a2 s) := by
  unfold Sys2Proof.Machine.execReach
  repeat' first
    | with_reducible assumption
    | (with_reducible intro _)
    | with_reducible apply holds_State_takeReach
    | with_reducible apply HoldsR.next
    | exact HoldsR.undefined (by decide)
    | with_reducible apply HoldsR.ite

theorem holds_execReachBlockExpiry {a1 : Sys2Proof.FabricLane} {a2 : Fin 86} {s : Sys2Proof.Machine.State} (h : Holds q f n s) :
    HoldsR q f n (Sys2Proof.Machine.execReachBlockExpiry a1 a2 s) := by
  unfold Sys2Proof.Machine.execReachBlockExpiry
  repeat' first
    | with_reducible assumption
    | (with_reducible intro _)
    | with_reducible apply holds_State_setReach
    | with_reducible apply HoldsR.next

theorem holds_execRequestRefresh {a1 : Fin 131072} {s : Sys2Proof.Machine.State} (h : Holds q f n s) :
    HoldsR q f n (Sys2Proof.Machine.execRequestRefresh a1 s) := by
  unfold Sys2Proof.Machine.execRequestRefresh
  repeat' first
    | with_reducible assumption
    | (with_reducible intro _)
    | with_reducible apply holds_State_sendRequest
    | with_reducible apply HoldsR.next
    | exact HoldsR.undefined (by decide)
    | with_reducible apply HoldsR.ite

theorem holds_execRequestFlagExpiry {a1 : Sys2Proof.Port} {a2 : Sys2Proof.TrafficClass} {a3 : Sys2Proof.Device} {s : Sys2Proof.Machine.State} (h : Holds q f n s) :
    HoldsR q f n (Sys2Proof.Machine.execRequestFlagExpiry a1 a2 a3 s) := by
  unfold Sys2Proof.Machine.execRequestFlagExpiry
  repeat' first
    | with_reducible assumption
    | (with_reducible intro _)
    | with_reducible apply HoldsR.next
    | exact HoldsR.undefined (by decide)
    | split
    | (dsimp only)
    | (with_reducible refine holds_mk ?_; with_reducible apply Holds.parts)

theorem holds_execCellFillTimeout {a1 : Sys2Proof.Device} {a2 : Fin 17} {s : Sys2Proof.Machine.State} (h : Holds q f n s) :
    HoldsR q f n (Sys2Proof.Machine.execCellFillTimeout a1 a2 s) := by
  unfold Sys2Proof.Machine.execCellFillTimeout
  repeat' first
    | with_reducible assumption
    | (with_reducible intro _)
    | with_reducible apply holds_State_formCell
    | with_reducible apply HoldsR.next
    | exact HoldsR.undefined (by decide)
    | with_reducible apply HoldsR.ite
    | with_reducible apply holds_ite
    | split
    | (dsimp only)

theorem holds_State_endPlaced {s : Sys2Proof.Machine.State} {a2 : List Nat} (h : Holds q f n s) :
    Holds q f n (Sys2Proof.Machine.State.endPlaced s a2) := by
  unfold Sys2Proof.Machine.State.endPlaced
  repeat' first
    | with_reducible assumption
    | (with_reducible intro _)
    | with_reducible apply holds_State_endCopy
    | with_reducible apply holds_foldl
    | with_reducible apply holds_foldl_fst
    | with_reducible apply holds_getD
    | split

theorem holds_execCellPlacement {a1 : Sys2Proof.Device} {s : Sys2Proof.Machine.State} (h : Holds q f n s) :
    HoldsR q f n (Sys2Proof.Machine.execCellPlacement a1 s) := by
  unfold Sys2Proof.Machine.execCellPlacement
  repeat' first
    | with_reducible assumption
    | (with_reducible intro _)
    | with_reducible apply holds_State_setLane
    | with_reducible apply holds_State_endPlaced
    | with_reducible apply HoldsR.next
    | exact HoldsR.undefined (by decide)
    | with_reducible apply HoldsR.ite
    | with_reducible apply holds_ite
    | split
    | (dsimp only)
    | (with_reducible refine holds_mk ?_; with_reducible apply Holds.parts)

theorem holds_State_discardWaiting {s : Sys2Proof.Machine.State} {a2 : Nat} (h : Holds q f n s) :
    Holds q f n (Sys2Proof.Machine.State.discardWaiting s a2) := by
  unfold Sys2Proof.Machine.State.discardWaiting
  repeat' first
    | with_reducible assumption
    | (with_reducible intro _)
    | with_reducible apply holds_State_endCopy
    | with_reducible apply holds_State_closeBad
    | with_reducible apply holds_foldl
    | with_reducible apply holds_foldl_fst
    | with_reducible apply holds_ite
    | split
    | (dsimp only)
    | (with_reducible refine holds_mk ?_; with_reducible apply Holds.parts)

theorem holds_execUnreachableHoldExpiry {a1 : Sys2Proof.Device} {s : Sys2Proof.Machine.State} (h : Holds q f n s) :
    HoldsR q f n (Sys2Proof.Machine.execUnreachableHoldExpiry a1 s) := by
  unfold Sys2Proof.Machine.execUnreachableHoldExpiry
  repeat' first
    | with_reducible assumption
    | (with_reducible intro _)
    | with_reducible apply holds_State_discardWaiting
    | with_reducible apply HoldsR.next
    | exact HoldsR.undefined (by decide)
    | with_reducible apply HoldsR.ite

theorem holds_execStaleCellDiscard {a1 : Sys2Proof.Device} {s : Sys2Proof.Machine.State} (h : Holds q f n s) :
    HoldsR q f n (Sys2Proof.Machine.execStaleCellDiscard a1 s) := by
  unfold Sys2Proof.Machine.execStaleCellDiscard
  repeat' first
    | with_reducible assumption
    | (with_reducible intro _)
    | with_reducible apply holds_State_discardWaiting
    | with_reducible apply HoldsR.next
    | exact HoldsR.undefined (by decide)
    | with_reducible apply holds_getD
    | with_reducible apply HoldsR.ite

theorem holds_State_putRx {s : Sys2Proof.Machine.State} {a2 : Nat} {a3 : Sys2Proof.Machine.RxStream} (h : Holds q f n s) :
    Holds q f n (Sys2Proof.Machine.State.putRx s a2 a3) := by
  unfold Sys2Proof.Machine.State.putRx
  repeat' first
    | with_reducible assumption
    | (with_reducible intro _)
    | split
    | (dsimp only)
    | (with_reducible refine holds_mk ?_; with_reducible apply Holds.parts)

theorem holds_State_fabricArrive {s : Sys2Proof.Machine.State} {a2 : Nat} {a3 : Nat} {a4 : Nat} {a5 : List Sys2Proof.Byte} {a6 : Bool} (h : Holds q f n s) :
    Holds q f n (Sys2Proof.Machine.State.fabricArrive s a2 a3 a4 a5 a6) := by
  unfold Sys2Proof.Machine.State.fabricArrive
  repeat' first
    | with_reducible assumption
    | (with_reducible intro _)
    | with_reducible apply holds_State_stamp
    | with_reducible apply holds_State_addFrame
    | with_reducible apply holds_State_enqueueRepl
    | with_reducible apply holds_State_placeAtEgress
    | with_reducible apply holds_State_endFrame
    | with_reducible apply holds_State_txCode
    | with_reducible apply holds_State_store
    | with_reducible apply holds_State_addCopy
    | with_reducible apply holds_State_joinTree
    | with_reducible apply holds_State_code
    | with_reducible refine holds_fst_eq ‹_› ?_
    | with_reducible apply holds_ite_fst
    | with_reducible apply holds_ite
    | split
    | (dsimp only)

theorem holds_State_breakStream {s : Sys2Proof.Machine.State} {a2 : Nat} {a3 : Nat} (h : Holds q f n s) :
    Holds q f n (Sys2Proof.Machine.State.breakStream s a2 a3) := by
  unfold Sys2Proof.Machine.State.breakStream
  repeat' first
    | with_reducible assumption
    | (with_reducible intro _)
    | with_reducible apply holds_State_loseFrame
    | with_reducible apply holds_State_code
    | with_reducible apply holds_State_putRx
    | with_reducible apply holds_ite
    | split

theorem holds_State_endStreamFrame {s : Sys2Proof.Machine.State} {a2 : Nat} {a3 : Bool} (h : Holds q f n s) :
    Holds q f n (Sys2Proof.Machine.State.endStreamFrame s a2 a3) := by
  unfold Sys2Proof.Machine.State.endStreamFrame
  repeat' first
    | with_reducible assumption
    | (with_reducible intro _)
    | with_reducible apply holds_State_putRx
    | with_reducible apply holds_State_loseFrame
    | with_reducible apply holds_State_completeFrame
    | with_reducible apply holds_State_code
    | with_reducible apply holds_State_fabricArrive
    | with_reducible apply holds_ite
    | split
    | (dsimp only)

theorem holds_State_growFrame {s : Sys2Proof.Machine.State} {a2 : Nat} {a3 : Nat} {a4 : List Sys2Proof.Byte} (h : Holds q f n s) :
    Holds q f n (Sys2Proof.Machine.State.growFrame s a2 a3 a4) := by
  unfold Sys2Proof.Machine.State.growFrame
  repeat' first
    | with_reducible assumption
    | (with_reducible intro _)
    | with_reducible apply holds_State_setFrame
    | with_reducible apply holds_State_growCells
    | with_reducible apply holds_State_breakStream
    | with_reducible refine holds_fst_eq ‹_› ?_
    | split
    | (dsimp only)

theorem holds_State_feedStream {s : Sys2Proof.Machine.State} {a2 : Nat} {a3 : Nat} {a4 : List Sys2Proof.Byte} (h : Holds q f n s) :
    Holds q f n (Sys2Proof.Machine.State.feedStream s a2 a3 a4) := by
  induction a3 generalizing s a2 a4 with
  | zero =>
    unfold Sys2Proof.Machine.State.feedStream
    repeat' first
      | with_reducible assumption
  | succ k ih =>
    unfold Sys2Proof.Machine.State.feedStream
    repeat' first
      | with_reducible assumption
      | (with_reducible intro _)
      | with_reducible apply ih
      | with_reducible apply holds_State_growFrame
      | with_reducible apply holds_State_putRx
      | with_reducible apply holds_State_breakStream
      | with_reducible apply holds_State_endStreamFrame
      | with_reducible apply holds_ite
      | split
      | (dsimp only)

theorem holds_State_openEarly {s : Sys2Proof.Machine.State} {a2 : Nat} (h : Holds q f n s) :
    Holds q f n (Sys2Proof.Machine.State.openEarly s a2) := by
  unfold Sys2Proof.Machine.State.openEarly
  repeat' first
    | with_reducible assumption
    | (with_reducible intro _)
    | with_reducible apply holds_State_putRx
    | with_reducible apply holds_State_fabricArrive
    | with_reducible apply holds_ite
    | split
    | (dsimp only)

theorem holds_State_streamCell {s : Sys2Proof.Machine.State} {a2 : Nat} {a3 : Nat} {a4 : List Sys2Proof.Byte} (h : Holds q f n s) :
    Holds q f n (Sys2Proof.Machine.State.streamCell s a2 a3 a4) := by
  unfold Sys2Proof.Machine.State.streamCell
  repeat' first
    | with_reducible assumption
    | (with_reducible intro _)
    | with_reducible apply holds_State_feedStream
    | with_reducible apply holds_State_putRx
    | with_reducible apply holds_State_endStreamFrame
    | with_reducible apply holds_State_openEarly
    | with_reducible apply holds_ite

theorem holds_State_putExpected {s : Sys2Proof.Machine.State} {a2 : Nat} {a3 : Nat} (h : Holds q f n s) :
    Holds q f n (Sys2Proof.Machine.State.putExpected s a2 a3) := by
  unfold Sys2Proof.Machine.State.putExpected
  repeat' first
    | with_reducible assumption
    | (with_reducible intro _)
    | split
    | (dsimp only)
    | (with_reducible refine holds_mk ?_; with_reducible apply Holds.parts)

theorem holds_State_discardCell {s : Sys2Proof.Machine.State} {a2 : List Sys2Proof.Byte} (h : Holds q f n s) :
    Holds q f n (Sys2Proof.Machine.State.discardCell s a2) := by
  unfold Sys2Proof.Machine.State.discardCell
  repeat' first
    | with_reducible assumption
    | (with_reducible intro _)
    | with_reducible apply holds_State_code
    | with_reducible apply holds_foldl

theorem holds_State_passCell {s : Sys2Proof.Machine.State} {a2 : Nat} {a3 : List Sys2Proof.Byte} (h : Holds q f n s) :
    Holds q f n (Sys2Proof.Machine.State.passCell s a2 a3) := by
  unfold Sys2Proof.Machine.State.passCell
  repeat' first
    | with_reducible assumption
    | (with_reducible intro _)
    | with_reducible apply holds_State_discardCell
    | with_reducible apply holds_State_streamCell
    | with_reducible apply holds_State_putExpected
    | with_reducible apply holds_ite

theorem holds_State_drainReorder {s : Sys2Proof.Machine.State} {a2 : Nat} {a3 : Nat} (h : Holds q f n s) :
    Holds q f n (Sys2Proof.Machine.State.drainReorder s a2 a3) := by
  induction a3 generalizing s a2 with
  | zero =>
    unfold Sys2Proof.Machine.State.drainReorder
    repeat' first
      | with_reducible assumption
  | succ k ih =>
    unfold Sys2Proof.Machine.State.drainReorder
    repeat' first
      | with_reducible assumption
      | (with_reducible intro _)
      | with_reducible apply ih
      | with_reducible apply holds_State_passCell
      | split
      | (dsimp only)
      | (with_reducible refine holds_mk ?_; with_reducible apply Holds.parts)

theorem holds_State_declareLost {s : Sys2Proof.Machine.State} {a2 : Nat} (h : Holds q f n s) :
    Holds q f n (Sys2Proof.Machine.State.declareLost s a2) := by
  unfold Sys2Proof.Machine.State.declareLost
  repeat' first
    | with_reducible assumption
    | (with_reducible intro _)
    | with_reducible apply holds_State_flag
    | with_reducible apply holds_State_add64
    | with_reducible apply holds_State_putExpected
    | with_reducible apply holds_State_drainReorder
    | with_reducible apply holds_State_breakStream
    | with_reducible apply holds_foldl
    | with_reducible apply holds_foldl_fst
    | split
    | (dsimp only)

theorem holds_State_sequenceCell {s : Sys2Proof.Machine.State} {a2 : Nat} {a3 : List Sys2Proof.Byte} (h : Holds q f n s) :
    Holds q f n (Sys2Proof.Machine.State.sequenceCell s a2 a3) := by
  unfold Sys2Proof.Machine.State.sequenceCell
  repeat' first
    | with_reducible assumption
    | (with_reducible intro _)
    | with_reducible apply holds_State_discardCell
    | with_reducible apply holds_State_putExpected
    | with_reducible apply holds_State_drainReorder
    | with_reducible apply holds_State_passCell
    | with_reducible apply holds_State_declareLost
    | with_reducible apply holds_State_bump64
    | with_reducible apply holds_ite
    | split
    | (dsimp only)
    | (with_reducible refine holds_mk ?_; with_reducible apply Holds.parts)

theorem holds_State_takeDataCell {s : Sys2Proof.Machine.State} {a2 : Nat} {a3 : List Sys2Proof.Byte} (h : Holds q f n s) :
    Holds q f n (Sys2Proof.Machine.State.takeDataCell s a2 a3) := by
  unfold Sys2Proof.Machine.State.takeDataCell
  repeat' first
    | with_reducible assumption
    | (with_reducible intro _)
    | with_reducible apply holds_State_setLane
    | with_reducible apply holds_State_count
    | with_reducible apply holds_State_bump64
    | with_reducible apply holds_State_takeWord
    | with_reducible apply holds_State_sequenceCell
    | with_reducible apply holds_ite

theorem holds_State_takeControlCell {s : Sys2Proof.Machine.State} {a2 : Nat} {a3 : List Sys2Proof.Byte} (h : Holds q f n s) :
    Holds q f n (Sys2Proof.Machine.State.takeControlCell s a2 a3) := by
  unfold Sys2Proof.Machine.State.takeControlCell
  repeat' first
    | with_reducible assumption
    | (with_reducible intro _)
    | with_reducible apply holds_State_bump64
    | with_reducible apply holds_State_takeWord
    | with_reducible apply holds_foldl
    | with_reducible apply holds_foldl_fst
    | with_reducible apply holds_ite

theorem holds_State_takeHelloCell {s : Sys2Proof.Machine.State} {a2 : Nat} {a3 : List Sys2Proof.Byte} (h : Holds q f n s) :
    Holds q f n (Sys2Proof.Machine.State.takeHelloCell s a2 a3) := by
  unfold Sys2Proof.Machine.State.takeHelloCell
  repeat' first
    | with_reducible assumption
    | (with_reducible intro _)
    | with_reducible apply holds_State_setLane
    | with_reducible apply holds_State_takeHello
    | with_reducible apply holds_ite

theorem holds_State_takeCell {s : Sys2Proof.Machine.State} {a2 : Nat} {a3 : List Sys2Proof.Byte} (h : Holds q f n s) :
    Holds q f n (Sys2Proof.Machine.State.takeCell s a2 a3) := by
  unfold Sys2Proof.Machine.State.takeCell
  repeat' first
    | with_reducible assumption
    | (with_reducible intro _)
    | with_reducible apply holds_State_takeDataCell
    | with_reducible apply holds_State_takeControlCell
    | with_reducible apply holds_State_takeHelloCell
    | with_reducible apply holds_ite
    | split

theorem holds_State_receiveCell {s : Sys2Proof.Machine.State} {a2 : Nat} {a3 : List Sys2Proof.Byte} (h : Holds q f n s) :
    HoldsR q f n (Sys2Proof.Machine.State.receiveCell s a2 a3) := by
  unfold Sys2Proof.Machine.State.receiveCell
  repeat' first
    | with_reducible assumption
    | (with_reducible intro _)
    | with_reducible apply holds_State_takeCell
    | with_reducible apply HoldsR.next
    | exact HoldsR.undefined (by decide)
    | with_reducible apply HoldsR.ite

theorem holds_execDataCell {a1 : Sys2Proof.FabricLane} {a2 : List Sys2Proof.Byte} {s : Sys2Proof.Machine.State} (h : Holds q f n s) :
    HoldsR q f n (Sys2Proof.Machine.execDataCell a1 a2 s) := by
  unfold Sys2Proof.Machine.execDataCell
  repeat' first
    | with_reducible assumption
    | (with_reducible intro _)
    | with_reducible apply holds_State_receiveCell

theorem holds_execControlCell {a1 : Sys2Proof.FabricLane} {a2 : List Sys2Proof.Byte} {s : Sys2Proof.Machine.State} (h : Holds q f n s) :
    HoldsR q f n (Sys2Proof.Machine.execControlCell a1 a2 s) := by
  unfold Sys2Proof.Machine.execControlCell
  repeat' first
    | with_reducible assumption
    | (with_reducible intro _)
    | with_reducible apply holds_State_receiveCell

theorem holds_execReorderTimeout {a1 : Sys2Proof.Device} {s : Sys2Proof.Machine.State} (h : Holds q f n s) :
    HoldsR q f n (Sys2Proof.Machine.execReorderTimeout a1 s) := by
  unfold Sys2Proof.Machine.execReorderTimeout
  repeat' first
    | with_reducible assumption
    | (with_reducible intro _)
    | with_reducible apply holds_State_declareLost
    | with_reducible apply HoldsR.next

theorem holds_State_closeReassembly {s : Sys2Proof.Machine.State} {a2 : Nat} (h : Holds q f n s) :
    Holds q f n (Sys2Proof.Machine.State.closeReassembly s a2) := by
  unfold Sys2Proof.Machine.State.closeReassembly
  repeat' first
    | with_reducible assumption
    | (with_reducible intro _)
    | with_reducible apply holds_State_breakStream
    | with_reducible apply holds_foldl

theorem holds_State_clearRequests {s : Sys2Proof.Machine.State} (h : Holds q f n s) :
    Holds q f n (Sys2Proof.Machine.State.clearRequests s) := by
  unfold Sys2Proof.Machine.State.clearRequests
  repeat' first
    | with_reducible assumption
    | (with_reducible intro _)
    | split
    | (dsimp only)
    | (with_reducible refine holds_mk ?_; with_reducible apply Holds.parts)

theorem holds_State_requestAll {s : Sys2Proof.Machine.State} (h : Holds q f n s) :
    Holds q f n (Sys2Proof.Machine.State.requestAll s) := by
  unfold Sys2Proof.Machine.State.requestAll
  repeat' first
    | with_reducible assumption
    | (with_reducible intro _)
    | with_reducible apply holds_State_sendRequest
    | with_reducible apply holds_foldl

theorem holds_State_startLanes {s : Sys2Proof.Machine.State} (h : Holds q f n s) :
    Holds q f n (Sys2Proof.Machine.State.startLanes s) := by
  unfold Sys2Proof.Machine.State.startLanes
  repeat' first
    | with_reducible assumption
    | (with_reducible intro _)
    | with_reducible apply holds_State_setLane
    | with_reducible apply holds_foldl
    | with_reducible apply holds_foldl_fst
    | with_reducible apply holds_ite
    | split

theorem holds_State_stopLanes {s : Sys2Proof.Machine.State} (h : Holds q f n s) :
    Holds q f n (Sys2Proof.Machine.State.stopLanes s) := by
  unfold Sys2Proof.Machine.State.stopLanes
  repeat' first
    | with_reducible assumption
    | (with_reducible intro _)
    | with_reducible apply holds_State_setLane
    | with_reducible apply holds_State_flag
    | with_reducible apply holds_foldl
    | with_reducible apply holds_foldl_fst
    | with_reducible apply holds_ite
    | split

theorem holds_State_laneSends {s : Sys2Proof.Machine.State} {a2 : Nat} (h : Holds q f n s) :
    Holds q f n (Sys2Proof.Machine.State.laneSends s a2) := by
  unfold Sys2Proof.Machine.State.laneSends
  repeat' first
    | with_reducible assumption
    | (with_reducible intro _)
    | with_reducible apply holds_State_count
    | with_reducible apply holds_State_setLane
    | with_reducible apply holds_State_countN
    | with_reducible apply holds_State_bump64
    | with_reducible apply holds_foldl
    | with_reducible apply holds_foldl_fst
    | with_reducible apply holds_ite
    | split
    | (dsimp only)
    | (with_reducible refine holds_mk ?_; with_reducible apply Holds.parts)

theorem holds_State_lanesSend {s : Sys2Proof.Machine.State} (h : Holds q f n s) :
    Holds q f n (Sys2Proof.Machine.State.lanesSend s) := by
  unfold Sys2Proof.Machine.State.lanesSend
  repeat' first
    | with_reducible assumption
    | (with_reducible intro _)
    | with_reducible apply holds_State_laneSends
    | with_reducible apply holds_foldl
    | with_reducible apply holds_foldl_fst
    | with_reducible apply holds_ite
end Sys2Proof.Laws
end

