-- ==== Sys2Proof/Laws/HoldsCipher.lean ====
section
/-! SUPPORT. What the operations of Machine/Cipher.lean keep. -/

namespace Sys2Proof.Laws

open Sys2Proof.Machine Sys2Proof.Safety

variable {q : List Instr} {f n : Nat}

theorem holds_State_setJob {s : Sys2Proof.Machine.State} {a2 : Nat} {a3 : Sys2Proof.Machine.Job → Sys2Proof.Machine.Job} (h : Holds q f n s) :
    Holds q f n (Sys2Proof.Machine.State.setJob s a2 a3) := by
  unfold Sys2Proof.Machine.State.setJob
  repeat' first
    | with_reducible assumption
    | (with_reducible intro _)
    | with_reducible apply holds_ite
    | split
    | (dsimp only)
    | (with_reducible refine holds_mk ?_; with_reducible apply Holds.parts)

theorem holds_State_suspendJob {s : Sys2Proof.Machine.State} {a2 : Sys2Proof.Machine.Job} (h : Holds q f n s) :
    Holds q f n (Sys2Proof.Machine.State.suspendJob s a2) := by
  unfold Sys2Proof.Machine.State.suspendJob
  repeat' first
    | with_reducible assumption
    | (with_reducible intro _)
    | with_reducible apply holds_State_bump64
    | with_reducible apply holds_State_setJob
    | with_reducible apply holds_ite

theorem holds_State_suspendJobs {s : Sys2Proof.Machine.State} {a2 : List Sys2Proof.Machine.Job} (h : Holds q f n s) :
    Holds q f n (Sys2Proof.Machine.State.suspendJobs s a2) := by
  unfold Sys2Proof.Machine.State.suspendJobs
  repeat' first
    | with_reducible assumption
    | (with_reducible intro _)
    | with_reducible apply holds_State_suspendJob
    | with_reducible apply holds_foldl

theorem holds_State_lineBlocks {s : Sys2Proof.Machine.State} {a2 : Nat} {a3 : Nat} (h : Holds q f n s) :
    Holds q f n (Sys2Proof.Machine.State.lineBlocks s a2 a3) := by
  unfold Sys2Proof.Machine.State.lineBlocks
  repeat' first
    | with_reducible assumption
    | (with_reducible intro _)
    | with_reducible apply holds_State_countN
    | with_reducible apply holds_State_suspendJob
    | with_reducible apply holds_ite
    | split

theorem holds_State_judgeSecure {s : Sys2Proof.Machine.State} {a2 : Nat} {a3 : List Sys2Proof.Byte} {a4 : Bool} (h : Holds q f n s) :
    Holds q f n (Sys2Proof.Machine.State.judgeSecure s a2 a3 a4).1 := by
  unfold Sys2Proof.Machine.State.judgeSecure
  repeat' first
    | with_reducible assumption
    | (with_reducible intro _)
    | with_reducible apply holds_State_secyCount
    | with_reducible apply holds_getD
    | with_reducible apply holds_ite_fst
    | with_reducible apply holds_ite
    | split
    | (dsimp only)

theorem holds_State_icvChecked {s : Sys2Proof.Machine.State} {a2 : Nat} {a3 : Sys2Proof.Machine.Seal} {a4 : Bool} (h : Holds q f n s) :
    Holds q f n (Sys2Proof.Machine.State.icvChecked s a2 a3 a4) := by
  unfold Sys2Proof.Machine.State.icvChecked
  repeat' first
    | with_reducible assumption
    | (with_reducible intro _)
    | with_reducible apply holds_State_secyCount
    | with_reducible apply holds_State_putPn
    | with_reducible apply holds_ite

theorem holds_State_wakeTo {s : Sys2Proof.Machine.State} {a2 : Nat} {a3 : Nat} (h : Holds q f n s) :
    Holds q f n (Sys2Proof.Machine.State.wakeTo s a2 a3) := by
  unfold Sys2Proof.Machine.State.wakeTo
  repeat' first
    | with_reducible assumption
    | (with_reducible intro _)
    | with_reducible apply holds_State_setPipe
    | with_reducible apply holds_State_bump32
    | with_reducible apply holds_ite
    | split

theorem holds_State_beginWake {s : Sys2Proof.Machine.State} {a2 : Nat} (h : Holds q f n s) :
    Holds q f n (Sys2Proof.Machine.State.beginWake s a2) := by
  unfold Sys2Proof.Machine.State.beginWake
  repeat' first
    | with_reducible assumption
    | (with_reducible intro _)
    | with_reducible apply holds_State_wakeTo

theorem holds_State_putKey {s : Sys2Proof.Machine.State} {a2 : Nat} {a3 : Option Sys2Proof.Machine.Key} (h : Holds q f n s) :
    Holds q f n (Sys2Proof.Machine.State.putKey s a2 a3) := by
  unfold Sys2Proof.Machine.State.putKey
  repeat' first
    | with_reducible assumption
    | (with_reducible intro _)
    | split
    | (dsimp only)
    | (with_reducible refine holds_mk ?_; with_reducible apply Holds.parts)

theorem holds_State_startLoad {s : Sys2Proof.Machine.State} {a2 : List Sys2Proof.Byte} (h : Holds q f n s) :
    Holds q f n (Sys2Proof.Machine.State.startLoad s a2) := by
  unfold Sys2Proof.Machine.State.startLoad
  repeat' first
    | with_reducible assumption
    | (with_reducible intro _)
    | with_reducible apply holds_State_put
    | split
    | (dsimp only)
    | (with_reducible refine holds_mk ?_; with_reducible apply Holds.parts)

theorem holds_execKeyLoadEnd {s : Sys2Proof.Machine.State} (h : Holds q f n s) :
    HoldsR q f n (Sys2Proof.Machine.execKeyLoadEnd s) := by
  unfold Sys2Proof.Machine.execKeyLoadEnd
  repeat' first
    | with_reducible assumption
    | (with_reducible intro _)
    | with_reducible apply holds_State_bump32
    | with_reducible apply holds_State_put
    | with_reducible apply holds_State_putKey
    | with_reducible apply holds_State_flag
    | with_reducible apply HoldsR.next
    | exact HoldsR.undefined (by decide)
    | split
    | (dsimp only)
    | (with_reducible refine holds_mk ?_; with_reducible apply Holds.parts)

theorem holds_State_jobDone {s : Sys2Proof.Machine.State} {a2 : List Sys2Proof.Byte} {a3 : Nat} (h : Holds q f n s) :
    Holds q f n (Sys2Proof.Machine.State.jobDone s a2 a3) := by
  unfold Sys2Proof.Machine.State.jobDone
  repeat' first
    | with_reducible assumption
    | (with_reducible intro _)
    | with_reducible apply holds_State_flag
    | with_reducible apply holds_State_ringPush
    | with_reducible apply holds_ite
    | split
    | (dsimp only)
    | (with_reducible refine holds_mk ?_; with_reducible apply Holds.parts)

theorem holds_State_flushEnded {s : Sys2Proof.Machine.State} {a2 : Nat} (h : Holds q f n s) :
    Holds q f n (Sys2Proof.Machine.State.flushEnded s a2) := by
  induction a2 generalizing s with
  | zero =>
    unfold Sys2Proof.Machine.State.flushEnded
    repeat' first
      | with_reducible assumption
  | succ k ih =>
    unfold Sys2Proof.Machine.State.flushEnded
    repeat' first
      | with_reducible assumption
      | (with_reducible intro _)
      | with_reducible apply ih
      | with_reducible apply holds_State_ringPush
      | with_reducible apply holds_ite
      | split
      | (dsimp only)
      | (with_reducible refine holds_mk ?_; with_reducible apply Holds.parts)

theorem holds_State_placeJob {s : Sys2Proof.Machine.State} {a2 : List Sys2Proof.Byte} {a3 : Sys2Proof.Machine.Key} {a4 : Nat} (h : Holds q f n s) :
    Holds q f n (Sys2Proof.Machine.State.placeJob s a2 a3 a4) := by
  unfold Sys2Proof.Machine.State.placeJob
  repeat' first
    | with_reducible assumption
    | (with_reducible intro _)
    | with_reducible apply holds_State_beginWake
    | with_reducible apply holds_ite
    | split
    | (dsimp only)
    | (with_reducible refine holds_mk ?_; with_reducible apply Holds.parts)

theorem holds_State_putJobBytes {s : Sys2Proof.Machine.State} {a2 : Nat} {a3 : List Sys2Proof.Byte} (h : Holds q f n s) :
    Holds q f n (Sys2Proof.Machine.State.putJobBytes s a2 a3) := by
  unfold Sys2Proof.Machine.State.putJobBytes
  repeat' first
    | with_reducible assumption
    | (with_reducible intro _)
    | with_reducible apply holds_State_putBytes

theorem holds_State_wipeOutput {s : Sys2Proof.Machine.State} {a2 : Nat} (h : Holds q f n s) :
    Holds q f n (Sys2Proof.Machine.State.wipeOutput s a2) := by
  unfold Sys2Proof.Machine.State.wipeOutput
  repeat' first
    | with_reducible assumption
    | with_reducible apply holds_State_putJobBytes
    | with_reducible apply holds_ite

theorem holds_State_spendAbort {s : Sys2Proof.Machine.State} {a2 : Nat} (h : Holds q f n s) :
    Holds q f n (Sys2Proof.Machine.State.spendAbort s a2) := by
  unfold Sys2Proof.Machine.State.spendAbort
  repeat' first
    | with_reducible assumption
    | with_reducible apply holds_State_wipeOutput
    | with_reducible apply holds_ite
    | (dsimp only)
    | (with_reducible refine holds_mk ?_; with_reducible apply Holds.parts)

theorem holds_State_takeJob {s : Sys2Proof.Machine.State} {a2 : Nat} (h : Holds q f n s) :
    HoldsR q f n (Sys2Proof.Machine.State.takeJob s a2) := by
  unfold Sys2Proof.Machine.State.takeJob
  repeat' first
    | with_reducible assumption
    | (with_reducible intro _)
    | with_reducible apply holds_State_jobDone
    | with_reducible apply holds_State_spendAbort
    | with_reducible apply holds_State_ringTake
    | with_reducible apply holds_State_placeJob
    | with_reducible apply HoldsR.next
    | exact HoldsR.undefined (by decide)
    | with_reducible apply HoldsR.ite
    | with_reducible apply holds_ite
    | split
    | (dsimp only)
    | (with_reducible refine holds_mk ?_; with_reducible apply Holds.parts)

theorem holds_execGcmEncrypt {s : Sys2Proof.Machine.State} (h : Holds q f n s) :
    HoldsR q f n (Sys2Proof.Machine.execGcmEncrypt s) := by
  unfold Sys2Proof.Machine.execGcmEncrypt
  repeat' first
    | with_reducible assumption
    | (with_reducible intro _)
    | with_reducible apply holds_State_takeJob

theorem holds_execGcmDecrypt {s : Sys2Proof.Machine.State} (h : Holds q f n s) :
    HoldsR q f n (Sys2Proof.Machine.execGcmDecrypt s) := by
  unfold Sys2Proof.Machine.execGcmDecrypt
  repeat' first
    | with_reducible assumption
    | (with_reducible intro _)
    | with_reducible apply holds_State_takeJob

theorem holds_execCmac {s : Sys2Proof.Machine.State} (h : Holds q f n s) :
    HoldsR q f n (Sys2Proof.Machine.execCmac s) := by
  unfold Sys2Proof.Machine.execCmac
  repeat' first
    | with_reducible assumption
    | (with_reducible intro _)
    | with_reducible apply holds_State_takeJob

theorem holds_execWrap {s : Sys2Proof.Machine.State} (h : Holds q f n s) :
    HoldsR q f n (Sys2Proof.Machine.execWrap s) := by
  unfold Sys2Proof.Machine.execWrap
  repeat' first
    | with_reducible assumption
    | (with_reducible intro _)
    | with_reducible apply holds_State_takeJob

theorem holds_execUnwrap {s : Sys2Proof.Machine.State} (h : Holds q f n s) :
    HoldsR q f n (Sys2Proof.Machine.execUnwrap s) := by
  unfold Sys2Proof.Machine.execUnwrap
  repeat' first
    | with_reducible assumption
    | (with_reducible intro _)
    | with_reducible apply holds_State_takeJob

theorem holds_execExportKey {s : Sys2Proof.Machine.State} (h : Holds q f n s) :
    HoldsR q f n (Sys2Proof.Machine.execExportKey s) := by
  unfold Sys2Proof.Machine.execExportKey
  repeat' first
    | with_reducible assumption
    | (with_reducible intro _)
    | with_reducible apply holds_State_takeJob

theorem holds_State_partialOutput {s : Sys2Proof.Machine.State} {a2 : Sys2Proof.Machine.Job} {a3 : Nat} (h : Holds q f n s) :
    Holds q f n (Sys2Proof.Machine.State.partialOutput s a2 a3) := by
  unfold Sys2Proof.Machine.State.partialOutput
  repeat' first
    | with_reducible assumption
    | (with_reducible intro _)
    | with_reducible apply holds_State_putJobBytes
    | with_reducible apply holds_State_wipeOutput
    | with_reducible apply holds_ite

theorem holds_State_countJob {s : Sys2Proof.Machine.State} {a2 : Sys2Proof.Machine.Job} {a3 : Nat} (h : Holds q f n s) :
    Holds q f n (Sys2Proof.Machine.State.countJob s a2 a3) := by
  unfold Sys2Proof.Machine.State.countJob
  repeat' first
    | with_reducible assumption
    | (with_reducible intro _)
    | with_reducible apply holds_State_countN
    | with_reducible apply holds_ite

theorem holds_execJobEnd {a1 : Nat} {s : Sys2Proof.Machine.State} (h : Holds q f n s) :
    HoldsR q f n (Sys2Proof.Machine.execJobEnd a1 s) := by
  unfold Sys2Proof.Machine.execJobEnd
  repeat' first
    | with_reducible assumption
    | (with_reducible intro _)
    | with_reducible apply holds_State_free
    | with_reducible apply holds_State_jobDone
    | with_reducible apply holds_State_countJob
    | with_reducible apply holds_State_partialOutput
    | with_reducible apply holds_State_putJobBytes
    | with_reducible refine holds_snd_eq ‹_› ?_
    | with_reducible apply HoldsR.next
    | exact HoldsR.undefined (by decide)
    | with_reducible apply holds_foldl
    | with_reducible apply holds_foldl_fst
    | with_reducible apply holds_ite_snd
    | with_reducible apply HoldsR.ite
    | with_reducible apply holds_ite
    | split
    | (dsimp only)
    | (with_reducible refine holds_mk ?_; with_reducible apply Holds.parts)

theorem holds_execJobResume {a1 : Nat} {s : Sys2Proof.Machine.State} (h : Holds q f n s) :
    HoldsR q f n (Sys2Proof.Machine.execJobResume a1 s) := by
  unfold Sys2Proof.Machine.execJobResume
  repeat' first
    | with_reducible assumption
    | (with_reducible intro _)
    | with_reducible apply holds_State_setJob
    | with_reducible apply holds_State_beginWake
    | with_reducible apply holds_State_request
    | with_reducible apply HoldsR.next
    | exact HoldsR.undefined (by decide)
    | with_reducible apply HoldsR.ite
    | with_reducible apply holds_ite
    | split

theorem holds_State_abortJob {s : Sys2Proof.Machine.State} {a2 : Nat} (h : Holds q f n s) :
    Holds q f n (Sys2Proof.Machine.State.abortJob s a2) := by
  unfold Sys2Proof.Machine.State.abortJob
  repeat' first
    | with_reducible assumption
    | (with_reducible intro _)
    | with_reducible apply holds_State_put
    | with_reducible apply holds_State_setJob
    | with_reducible apply holds_ite
    | split
    | (dsimp only)
    | (with_reducible refine holds_mk ?_; with_reducible apply Holds.parts)

theorem holds_State_doomSlot {s : Sys2Proof.Machine.State} {a2 : Nat} {a3 : Nat} (h : Holds q f n s) :
    Holds q f n (Sys2Proof.Machine.State.doomSlot s a2 a3) := by
  unfold Sys2Proof.Machine.State.doomSlot
  repeat' first
    | with_reducible assumption
    | (with_reducible intro _)
    | with_reducible apply holds_ite
    | split
    | (dsimp only)
    | (with_reducible refine holds_mk ?_; with_reducible apply Holds.parts)

theorem holds_State_eraseKey {s : Sys2Proof.Machine.State} {a2 : Nat} (h : Holds q f n s) :
    Holds q f n (Sys2Proof.Machine.State.eraseKey s a2) := by
  unfold Sys2Proof.Machine.State.eraseKey
  repeat' first
    | with_reducible assumption
    | (with_reducible intro _)
    | with_reducible apply holds_State_doomSlot
    | with_reducible apply holds_State_putKey
    | with_reducible apply holds_State_closeSessions
    | with_reducible apply holds_ite

theorem holds_State_writeClearLoad {s : Sys2Proof.Machine.State} {a2 : Nat} (h : Holds q f n s) :
    HoldsO q f n (Sys2Proof.Machine.State.writeClearLoad s a2) := by
  unfold Sys2Proof.Machine.State.writeClearLoad
  repeat' first
    | with_reducible assumption
    | (with_reducible intro _)
    | with_reducible apply holds_State_put
    | exact HoldsO.none
    | with_reducible apply HoldsO.some
    | with_reducible apply HoldsO.ite
    | with_reducible apply holds_ite
    | split
    | (dsimp only)
    | (with_reducible refine holds_mk ?_; with_reducible apply Holds.parts)

theorem holds_State_moveJobs {s : Sys2Proof.Machine.State} {a2 : Nat} (h : Holds q f n s) :
    Holds q f n (Sys2Proof.Machine.State.moveJobs s a2) := by
  unfold Sys2Proof.Machine.State.moveJobs
  repeat' first
    | with_reducible assumption
    | (with_reducible intro _)
    | with_reducible apply holds_State_suspendJobs
    | with_reducible apply holds_ite

theorem holds_State_failJobs {s : Sys2Proof.Machine.State} {a2 : Nat} (h : Holds q f n s) :
    Holds q f n (Sys2Proof.Machine.State.failJobs s a2) := by
  unfold Sys2Proof.Machine.State.failJobs
  repeat' first
    | with_reducible assumption
    | (with_reducible intro _)
    | with_reducible apply holds_ite
    | split
    | (dsimp only)
    | (with_reducible refine holds_mk ?_; with_reducible apply Holds.parts)
end Sys2Proof.Laws
end

