-- ==== Sys2Proof/Laws/HoldsFunctions.lean ====
section
/-! SUPPORT. What the operations of Machine/Functions.lean keep. -/

namespace Sys2Proof.Laws

open Sys2Proof.Machine Sys2Proof.Safety

variable {q : List Instr} {f n : Nat}

theorem holds_State_thaw {s : Sys2Proof.Machine.State} {a2 : Nat} (h : Holds q f n s) :
    Holds q f n (Sys2Proof.Machine.State.thaw s a2) := by
  unfold Sys2Proof.Machine.State.thaw
  repeat' first
    | with_reducible assumption
    | (with_reducible intro _)
    | split
    | (dsimp only)
    | (with_reducible refine holds_mk ?_; with_reducible apply Holds.parts)

theorem holds_State_armPair {s : Sys2Proof.Machine.State} {a2 : Nat} {a3 : Nat} (h : Holds q f n s) :
    Holds q f n (Sys2Proof.Machine.State.armPair s a2 a3) := by
  unfold Sys2Proof.Machine.State.armPair
  repeat' first
    | with_reducible assumption
    | (with_reducible intro _)
    | with_reducible apply holds_ite
    | split
    | (dsimp only)
    | (with_reducible refine holds_mk ?_; with_reducible apply Holds.parts)

theorem holds_State_setFn {s : Sys2Proof.Machine.State} {a2 : Nat} {a3 : Nat} (h : Holds q f n s) :
    Holds q f n (Sys2Proof.Machine.State.setFn s a2 a3) := by
  unfold Sys2Proof.Machine.State.setFn
  repeat' first
    | with_reducible assumption
    | (with_reducible intro _)
    | with_reducible apply holds_State_armPair
    | with_reducible apply holds_State_put
    | split
    | (dsimp only)
    | (with_reducible refine holds_mk ?_; with_reducible apply Holds.parts)

theorem holds_State_passFn {s : Sys2Proof.Machine.State} {a2 : Nat} {a3 : Nat} {a4 : Sys2Proof.Machine.FnGoal} (h : Holds q f n s) :
    Holds q f n (Sys2Proof.Machine.State.passFn s a2 a3 a4) := by
  unfold Sys2Proof.Machine.State.passFn
  repeat' first
    | with_reducible assumption
    | (with_reducible intro _)
    | with_reducible apply holds_State_armPair
    | with_reducible apply holds_State_put
    | split
    | (dsimp only)
    | (with_reducible refine holds_mk ?_; with_reducible apply Holds.parts)

theorem holds_State_restoreSlice {s : Sys2Proof.Machine.State} {a2 : Nat} (h : Holds q f n s) :
    Holds q f n (Sys2Proof.Machine.State.restoreSlice s a2) := by
  unfold Sys2Proof.Machine.State.restoreSlice
  repeat' first
    | with_reducible assumption
    | (with_reducible intro _)
    | with_reducible apply holds_State_returnHome
    | with_reducible apply holds_State_setSeq
    | with_reducible apply holds_ite

theorem holds_State_endSlice {s : Sys2Proof.Machine.State} {a2 : Sys2Proof.Machine.SliceRun} (h : Holds q f n s) :
    Holds q f n (Sys2Proof.Machine.State.endSlice s a2) := by
  unfold Sys2Proof.Machine.State.endSlice
  repeat' first
    | with_reducible assumption
    | (with_reducible intro _)
    | with_reducible apply holds_State_bump64
    | with_reducible apply holds_State_restoreSlice
    | with_reducible apply holds_State_put
    | with_reducible apply holds_ite
    | split
    | (dsimp only)
    | (with_reducible refine holds_mk ?_; with_reducible apply Holds.parts)

theorem holds_State_endSlices {s : Sys2Proof.Machine.State} {a2 : Nat → Bool} (h : Holds q f n s) :
    Holds q f n (Sys2Proof.Machine.State.endSlices s a2) := by
  unfold Sys2Proof.Machine.State.endSlices
  repeat' first
    | with_reducible assumption
    | (with_reducible intro _)
    | with_reducible apply holds_State_endSlice
    | with_reducible apply holds_foldl

theorem holds_State_portRuns {s : Sys2Proof.Machine.State} {a2 : Nat} {a3 : Bool} (h : Holds q f n s) :
    Holds q f n (Sys2Proof.Machine.State.portRuns s a2 a3) := by
  unfold Sys2Proof.Machine.State.portRuns
  repeat' first
    | with_reducible assumption
    | (with_reducible intro _)
    | with_reducible apply holds_State_startLink
    | with_reducible apply holds_State_startTx
    | with_reducible apply holds_State_leaveHolding
    | with_reducible apply holds_State_linkDownFlush
    | with_reducible apply holds_State_setPort
    | with_reducible apply holds_ite

theorem holds_State_dropLanes {s : Sys2Proof.Machine.State} (h : Holds q f n s) :
    Holds q f n (Sys2Proof.Machine.State.dropLanes s) := by
  unfold Sys2Proof.Machine.State.dropLanes
  repeat' first
    | with_reducible assumption
    | (with_reducible intro _)
    | with_reducible apply holds_State_laneDown
    | with_reducible apply holds_foldl
    | with_reducible apply holds_foldl_fst
    | with_reducible apply holds_ite

theorem holds_State_runFn {s : Sys2Proof.Machine.State} {a2 : Nat} {a3 : Bool} (h : Holds q f n s) :
    Holds q f n (Sys2Proof.Machine.State.runFn s a2 a3) := by
  unfold Sys2Proof.Machine.State.runFn
  repeat' first
    | with_reducible assumption
    | (with_reducible intro _)
    | with_reducible apply holds_State_portRuns
    | with_reducible apply holds_State_startPorts
    | with_reducible apply holds_State_reliefRewrite
    | with_reducible apply holds_State_requestAll
    | with_reducible apply holds_State_dropLanes
    | with_reducible apply holds_ite

theorem holds_State_sleepOff {s : Sys2Proof.Machine.State} {a2 : Nat} (h : Holds q f n s) :
    Holds q f n (Sys2Proof.Machine.State.sleepOff s a2) := by
  unfold Sys2Proof.Machine.State.sleepOff
  repeat' first
    | with_reducible assumption
    | (with_reducible intro _)
    | with_reducible apply holds_State_wakeTo
    | with_reducible apply holds_ite

theorem holds_State_thawSleep {s : Sys2Proof.Machine.State} {a2 : List Nat} (h : Holds q f n s) :
    Holds q f n (Sys2Proof.Machine.State.thawSleep s a2) := by
  unfold Sys2Proof.Machine.State.thawSleep
  repeat' first
    | with_reducible assumption
    | (with_reducible intro _)
    | with_reducible apply holds_State_sleepOff
    | with_reducible apply holds_foldl
    | with_reducible apply holds_foldl_fst
    | split
    | (dsimp only)
    | (with_reducible refine holds_mk ?_; with_reducible apply Holds.parts)

theorem holds_State_reachRun {s : Sys2Proof.Machine.State} {a2 : Nat} (h : Holds q f n s) :
    Holds q f n (Sys2Proof.Machine.State.reachRun s a2) := by
  unfold Sys2Proof.Machine.State.reachRun
  repeat' first
    | with_reducible assumption
    | (with_reducible intro _)
    | with_reducible apply holds_State_thawSleep
    | with_reducible apply holds_State_thaw
    | with_reducible apply holds_State_runFn
    | with_reducible apply holds_State_setFn
    | split

theorem holds_State_holdFromOff {s : Sys2Proof.Machine.State} {a2 : Nat} (h : Holds q f n s) :
    Holds q f n (Sys2Proof.Machine.State.holdFromOff s a2) := by
  unfold Sys2Proof.Machine.State.holdFromOff
  repeat' first
    | with_reducible assumption
    | (with_reducible intro _)
    | with_reducible apply holds_State_setFn
    | with_reducible apply holds_State_startLink
    | with_reducible apply holds_State_startLanes
    | with_reducible apply holds_ite

theorem holds_State_holdFromRun {s : Sys2Proof.Machine.State} {a2 : Nat} (h : Holds q f n s) :
    Holds q f n (Sys2Proof.Machine.State.holdFromRun s a2) := by
  unfold Sys2Proof.Machine.State.holdFromRun
  repeat' first
    | with_reducible assumption
    | (with_reducible intro _)
    | with_reducible apply holds_State_setFn
    | with_reducible apply holds_State_clearRequests
    | with_reducible apply holds_State_closeReassembly
    | with_reducible apply holds_ite

theorem holds_State_reachOff {s : Sys2Proof.Machine.State} {a2 : Nat} (h : Holds q f n s) :
    Holds q f n (Sys2Proof.Machine.State.reachOff s a2) := by
  unfold Sys2Proof.Machine.State.reachOff
  repeat' first
    | with_reducible assumption
    | (with_reducible intro _)
    | with_reducible apply holds_State_setFn
    | with_reducible apply holds_State_disableLink
    | with_reducible apply holds_State_linkDownFlush
    | with_reducible apply holds_State_stopLanes
    | with_reducible apply holds_ite

theorem holds_State_beginDrain {s : Sys2Proof.Machine.State} {a2 : Nat} (h : Holds q f n s) :
    Holds q f n (Sys2Proof.Machine.State.beginDrain s a2) := by
  unfold Sys2Proof.Machine.State.beginDrain
  repeat' first
    | with_reducible assumption
    | (with_reducible intro _)
    | with_reducible apply holds_State_endSlices
    | with_reducible apply holds_State_passFn
    | with_reducible apply holds_State_suspendJobs
    | with_reducible apply holds_ite

theorem holds_State_beginStart {s : Sys2Proof.Machine.State} {a2 : Nat} (h : Holds q f n s) :
    Holds q f n (Sys2Proof.Machine.State.beginStart s a2) := by
  unfold Sys2Proof.Machine.State.beginStart
  repeat' first
    | with_reducible assumption
    | (with_reducible intro _)
    | with_reducible apply holds_State_endSlices
    | with_reducible apply holds_State_passFn

theorem holds_State_endSending {s : Sys2Proof.Machine.State} {a2 : Nat} {a3 : Nat} (h : Holds q f n s) :
    Holds q f n (Sys2Proof.Machine.State.endSending s a2 a3) := by
  unfold Sys2Proof.Machine.State.endSending
  repeat' first
    | with_reducible assumption
    | (with_reducible intro _)
    | with_reducible apply holds_State_stomp
    | with_reducible apply holds_State_endAllAtPort

theorem holds_State_forceReception {s : Sys2Proof.Machine.State} {a2 : Nat} {a3 : Nat} (h : Holds q f n s) :
    Holds q f n (Sys2Proof.Machine.State.forceReception s a2 a3) := by
  unfold Sys2Proof.Machine.State.forceReception
  repeat' first
    | with_reducible assumption
    | (with_reducible intro _)
    | with_reducible apply holds_State_txCode
    | with_reducible apply holds_State_endReception
    | with_reducible apply holds_ite

theorem holds_State_endCrossing {s : State} {a2 : Nat} (h : Holds q f n s) : Holds q f n (s.endCrossing a2) := by
  unfold State.endCrossing
  have h' := holds_foldl (l := s.copies.filter fun c => match c.loc with
    | .fabric _ => true
    | _ => false) (g := fun s c => (s.closeBad c.id).endCopy c.id a2) h fun _ _ h => holds_State_endCopy (holds_State_closeBad h)
  exact Holds.withFabric h' ((List.length_map ..).trans h'.lanes)

theorem holds_State_forceWork {s : Sys2Proof.Machine.State} {a2 : Nat} (h : Holds q f n s) :
    Holds q f n (Sys2Proof.Machine.State.forceWork s a2) := by
  unfold Sys2Proof.Machine.State.forceWork
  repeat' first
    | with_reducible assumption
    | (with_reducible intro _)
    | with_reducible apply holds_State_stomp
    | with_reducible apply holds_State_forceReception
    | with_reducible apply holds_State_flag
    | with_reducible apply holds_State_endSending
    | with_reducible apply holds_State_endFrames
    | with_reducible apply holds_State_endCrossing
    | with_reducible apply holds_foldl
    | with_reducible apply holds_foldl_fst
    | with_reducible apply holds_ite

theorem holds_execDrainComplete {a1 : Sys2Proof.Fn} {s : Sys2Proof.Machine.State} (h : Holds q f n s) :
    HoldsR q f n (Sys2Proof.Machine.execDrainComplete a1 s) := by
  unfold Sys2Proof.Machine.execDrainComplete
  repeat' first
    | with_reducible assumption
    | (with_reducible intro _)
    | with_reducible apply holds_State_holdFromRun
    | with_reducible apply HoldsR.next
    | exact HoldsR.undefined (by decide)
    | with_reducible apply HoldsR.ite

theorem holds_execStartComplete {a1 : Sys2Proof.Fn} {s : Sys2Proof.Machine.State} (h : Holds q f n s) :
    HoldsR q f n (Sys2Proof.Machine.execStartComplete a1 s) := by
  unfold Sys2Proof.Machine.execStartComplete
  repeat' first
    | with_reducible assumption
    | (with_reducible intro _)
    | with_reducible apply holds_State_reachRun
    | with_reducible apply holds_State_holdFromOff
    | with_reducible apply HoldsR.next
    | exact HoldsR.undefined (by decide)
    | with_reducible apply HoldsR.ite
    | with_reducible apply holds_ite
    | split

theorem holds_execPipeGatedEntry {a1 : Sys2Proof.Pipe} {s : Sys2Proof.Machine.State} (h : Holds q f n s) :
    HoldsR q f n (Sys2Proof.Machine.execPipeGatedEntry a1 s) := by
  unfold Sys2Proof.Machine.execPipeGatedEntry
  repeat' first
    | with_reducible assumption
    | (with_reducible intro _)
    | with_reducible apply holds_State_put
    | with_reducible apply HoldsR.next
    | exact HoldsR.undefined (by decide)
    | with_reducible apply HoldsR.ite

theorem holds_execPipeRetainEntry {a1 : Sys2Proof.Pipe} {s : Sys2Proof.Machine.State} (h : Holds q f n s) :
    HoldsR q f n (Sys2Proof.Machine.execPipeRetainEntry a1 s) := by
  unfold Sys2Proof.Machine.execPipeRetainEntry
  repeat' first
    | with_reducible assumption
    | (with_reducible intro _)
    | with_reducible apply holds_State_put
    | with_reducible apply HoldsR.next
    | exact HoldsR.undefined (by decide)
    | with_reducible apply HoldsR.ite

theorem holds_execPipeOffEntry {a1 : Sys2Proof.Pipe} {s : Sys2Proof.Machine.State} (h : Holds q f n s) :
    HoldsR q f n (Sys2Proof.Machine.execPipeOffEntry a1 s) := by
  unfold Sys2Proof.Machine.execPipeOffEntry
  repeat' first
    | with_reducible assumption
    | (with_reducible intro _)
    | with_reducible apply holds_State_put
    | with_reducible apply holds_State_setPipe
    | with_reducible apply HoldsR.next
    | exact HoldsR.undefined (by decide)
    | with_reducible apply HoldsR.ite

theorem holds_execPipeWake {a1 : Sys2Proof.Pipe} {a2 : Sys2Proof.WakeCause} {s : Sys2Proof.Machine.State} (h : Holds q f n s) :
    HoldsR q f n (Sys2Proof.Machine.execPipeWake a1 a2 s) := by
  unfold Sys2Proof.Machine.execPipeWake
  repeat' first
    | with_reducible assumption
    | (with_reducible intro _)
    | with_reducible apply holds_State_beginWake
    | with_reducible apply holds_State_wakeTo
    | with_reducible apply HoldsR.next
    | exact HoldsR.undefined (by decide)
    | with_reducible apply HoldsR.ite
    | with_reducible apply holds_ite
    | split

theorem holds_execPipeWakeEnd {a1 : Sys2Proof.Pipe} {s : Sys2Proof.Machine.State} (h : Holds q f n s) :
    HoldsR q f n (Sys2Proof.Machine.execPipeWakeEnd a1 s) := by
  unfold Sys2Proof.Machine.execPipeWakeEnd
  repeat' first
    | with_reducible assumption
    | (with_reducible intro _)
    | with_reducible apply holds_State_put
    | with_reducible apply holds_State_setPipe
    | with_reducible apply HoldsR.next
    | exact HoldsR.undefined (by decide)
    | split
    | (dsimp only)
end Sys2Proof.Laws
end

