-- ==== Sys2Proof/Laws/HoldsReload.lean ====
section
/-! SUPPORT. What the operations of Machine/Reload.lean keep. -/

namespace Sys2Proof.Laws

open Sys2Proof.Machine Sys2Proof.Safety

variable {q : List Instr} {f n : Nat}

theorem holds_State_startReload {s : Sys2Proof.Machine.State} {a2 : List Sys2Proof.Byte} {a3 : Bool} (h : Holds q f n s) :
    Holds q f n (Sys2Proof.Machine.State.startReload s a2 a3) := by
  unfold Sys2Proof.Machine.State.startReload
  repeat' first
    | with_reducible assumption
    | (with_reducible intro _)
    | with_reducible apply holds_State_put
    | split
    | (dsimp only)
    | (with_reducible refine holds_mk ?_; with_reducible apply Holds.parts)

theorem holds_State_rerunSignature {s : Sys2Proof.Machine.State} (h : Holds q f n s) :
    Holds q f n (Sys2Proof.Machine.State.rerunSignature s) := by
  unfold Sys2Proof.Machine.State.rerunSignature
  repeat' first
    | with_reducible assumption
    | (with_reducible intro _)
    | with_reducible apply holds_ite
    | split
    | (dsimp only)
    | (with_reducible refine holds_mk ?_; with_reducible apply Holds.parts)

theorem holds_State_endReload {s : Sys2Proof.Machine.State} {a2 : Nat} (h : Holds q f n s) :
    Holds q f n (Sys2Proof.Machine.State.endReload s a2) := by
  unfold Sys2Proof.Machine.State.endReload
  repeat' first
    | with_reducible assumption
    | (with_reducible intro _)
    | with_reducible apply holds_State_put
    | with_reducible apply holds_State_rerunSignature
    | with_reducible apply holds_State_flag
    | with_reducible apply holds_ite
    | split
    | (dsimp only)
    | (with_reducible refine holds_mk ?_; with_reducible apply Holds.parts)

theorem holds_State_finishReload {s : Sys2Proof.Machine.State} (h : Holds q f n s) :
    Holds q f n (Sys2Proof.Machine.State.finishReload s) := by
  unfold Sys2Proof.Machine.State.finishReload
  repeat' first
    | with_reducible assumption
    | (with_reducible intro _)
    | with_reducible apply holds_State_endReload
    | with_reducible apply holds_State_put
    | split
    | (dsimp only)
    | (with_reducible refine holds_mk ?_; with_reducible apply Holds.parts)

theorem holds_State_releaseSeq {s : Sys2Proof.Machine.State} {a2 : Nat} (h : Holds q f n s) :
    Holds q f n (Sys2Proof.Machine.State.releaseSeq s a2) := by
  unfold Sys2Proof.Machine.State.releaseSeq
  repeat' first
    | with_reducible assumption
    | (with_reducible intro _)
    | with_reducible apply holds_State_passTraps
    | with_reducible apply holds_State_setSeq

theorem holds_State_reloadNext {s : Sys2Proof.Machine.State} (h : Holds q f n s) :
    Holds q f n (Sys2Proof.Machine.State.reloadNext s) := by
  unfold Sys2Proof.Machine.State.reloadNext
  repeat' first
    | with_reducible assumption
    | (with_reducible intro _)
    | with_reducible apply holds_State_releaseSeq
    | with_reducible apply holds_State_put
    | with_reducible apply holds_State_finishReload
    | split

theorem holds_State_judgeReload {s : Sys2Proof.Machine.State} {a2 : List Sys2Proof.Byte} {a3 : Bool} (h : Holds q f n s) :
    Holds q f n (Sys2Proof.Machine.State.judgeReload s a2 a3) := by
  unfold Sys2Proof.Machine.State.judgeReload
  repeat' first
    | with_reducible assumption
    | (with_reducible intro _)
    | with_reducible apply holds_State_reloadNext
    | with_reducible apply holds_State_put
    | with_reducible apply holds_State_endReload
    | with_reducible apply holds_ite
    | split
    | (dsimp only)
    | (with_reducible refine holds_mk ?_; with_reducible apply Holds.parts)

theorem holds_execReloadVerified {a1 : Bool} {s : Sys2Proof.Machine.State} (h : Holds q f n s) :
    HoldsR q f n (Sys2Proof.Machine.execReloadVerified a1 s) := by
  unfold Sys2Proof.Machine.execReloadVerified
  repeat' first
    | with_reducible assumption
    | (with_reducible intro _)
    | with_reducible apply holds_State_judgeReload
    | with_reducible apply HoldsR.next
    | exact HoldsR.undefined (by decide)
    | with_reducible apply HoldsR.ite
    | with_reducible apply holds_ite
    | split
    | (dsimp only)
    | (with_reducible refine holds_mk ?_; with_reducible apply Holds.parts)

theorem holds_execFlashRereadEnd {a1 : List Sys2Proof.Byte} {a2 : Bool} {s : Sys2Proof.Machine.State} (h : Holds q f n s) :
    HoldsR q f n (Sys2Proof.Machine.execFlashRereadEnd a1 a2 s) := by
  unfold Sys2Proof.Machine.execFlashRereadEnd
  repeat' first
    | with_reducible assumption
    | (with_reducible intro _)
    | with_reducible apply holds_State_judgeReload
    | with_reducible apply HoldsR.next
    | exact HoldsR.undefined (by decide)
    | with_reducible apply HoldsR.ite
    | with_reducible apply holds_ite
    | split
    | (dsimp only)
    | (with_reducible refine holds_mk ?_; with_reducible apply Holds.parts)

theorem holds_execSequencerRelease {s : Sys2Proof.Machine.State} (h : Holds q f n s) :
    HoldsR q f n (Sys2Proof.Machine.execSequencerRelease s) := by
  unfold Sys2Proof.Machine.execSequencerRelease
  repeat' first
    | with_reducible assumption
    | (with_reducible intro _)
    | with_reducible apply holds_State_setSeq
    | with_reducible apply holds_State_passWork
    | with_reducible apply HoldsR.next
    | exact HoldsR.undefined (by decide)
    | with_reducible apply HoldsR.ite
    | with_reducible apply holds_ite
    | split
end Sys2Proof.Laws
end

