-- ==== Sys2Proof/Laws/HoldsFence.lean ====
section
/-! SUPPORT. What the operations of Machine/Fence.lean keep. -/

namespace Sys2Proof.Laws

open Sys2Proof.Machine Sys2Proof.Safety

variable {q : List Instr} {f n : Nat}

theorem holds_State_fenceFn {s : Sys2Proof.Machine.State} {a2 : Nat} (h : Holds q f n s) :
    Holds q f n (Sys2Proof.Machine.State.fenceFn s a2) := by
  unfold Sys2Proof.Machine.State.fenceFn
  repeat' first
    | with_reducible assumption
    | (with_reducible intro _)
    | with_reducible apply holds_State_flag
    | with_reducible apply holds_State_setFn
    | with_reducible apply holds_ite

theorem holds_State_cutOff {s : Sys2Proof.Machine.State} {a2 : Nat} {a3 : Nat} (h : Holds q f n s) :
    Holds q f n (Sys2Proof.Machine.State.cutOff s a2 a3) := by
  unfold Sys2Proof.Machine.State.cutOff
  repeat' first
    | with_reducible assumption
    | (with_reducible intro _)
    | with_reducible apply holds_State_endAtPort
    | with_reducible apply holds_State_setPort
    | split

theorem holds_State_endAtMac {s : Sys2Proof.Machine.State} {a2 : Nat} {a3 : Nat} (h : Holds q f n s) :
    Holds q f n (Sys2Proof.Machine.State.endAtMac s a2 a3) := by
  unfold Sys2Proof.Machine.State.endAtMac
  repeat' first
    | with_reducible assumption
    | (with_reducible intro _)
    | with_reducible apply holds_State_cutOff
    | with_reducible apply holds_State_endReception

theorem holds_State_fencePort {s : Sys2Proof.Machine.State} {a2 : Nat} (h : Holds q f n s) :
    Holds q f n (Sys2Proof.Machine.State.fencePort s a2) := by
  unfold Sys2Proof.Machine.State.fencePort
  repeat' first
    | with_reducible assumption
    | (with_reducible intro _)
    | with_reducible apply holds_State_disableLink
    | with_reducible apply holds_State_flushPort
    | with_reducible apply holds_State_fenceFn
    | with_reducible apply holds_State_endAtMac

theorem holds_State_fenceTree {s : Sys2Proof.Machine.State} {a2 : Nat} (h : Holds q f n s) :
    Holds q f n (Sys2Proof.Machine.State.fenceTree s a2) := by
  unfold Sys2Proof.Machine.State.fenceTree
  repeat' first
    | with_reducible assumption
    | (with_reducible intro _)
    | with_reducible apply holds_State_flushPort
    | with_reducible apply holds_State_fenceFn
    | with_reducible apply holds_foldl

theorem holds_State_fenceCipher {s : Sys2Proof.Machine.State} {a2 : Nat} (h : Holds q f n s) :
    Holds q f n (Sys2Proof.Machine.State.fenceCipher s a2) := by
  unfold Sys2Proof.Machine.State.fenceCipher
  repeat' first
    | with_reducible assumption
    | (with_reducible intro _)
    | with_reducible apply holds_State_endReception
    | with_reducible apply holds_State_stomp
    | with_reducible apply holds_State_flushPort
    | with_reducible apply holds_State_fenceFn
    | with_reducible apply holds_foldl
    | with_reducible apply holds_foldl_fst
    | with_reducible apply holds_ite

theorem holds_State_startTakeover {s : Sys2Proof.Machine.State} (h : Holds q f n s) :
    Holds q f n (Sys2Proof.Machine.State.startTakeover s) := by
  unfold Sys2Proof.Machine.State.startTakeover
  repeat' first
    | with_reducible assumption
    | (with_reducible intro _)
    | with_reducible apply holds_State_passFn
    | with_reducible apply holds_State_beginWake
    | with_reducible apply holds_ite
    | split

theorem holds_State_loseGroup {s : Sys2Proof.Machine.State} {a2 : Nat} {a3 : Nat} {a4 : Nat} (h : Holds q f n s) :
    Holds q f n (Sys2Proof.Machine.State.loseGroup s a2 a3 a4) := by
  unfold Sys2Proof.Machine.State.loseGroup
  repeat' first
    | with_reducible assumption
    | (with_reducible intro _)
    | with_reducible apply holds_State_put
    | with_reducible apply holds_State_disableLink
    | with_reducible apply holds_State_fenceFn
    | with_reducible apply holds_State_flushPort
    | with_reducible apply holds_State_markFenced
    | with_reducible apply holds_State_log
    | with_reducible apply holds_foldl

theorem holds_State_placeGroup {s : Sys2Proof.Machine.State} {a2 : Nat} {a3 : Nat} {a4 : Nat} (h : Holds q f n s) :
    Holds q f n (Sys2Proof.Machine.State.placeGroup s a2 a3 a4) := by
  unfold Sys2Proof.Machine.State.placeGroup
  repeat' first
    | with_reducible assumption
    | (with_reducible intro _)
    | with_reducible apply holds_State_startTakeover
    | with_reducible apply holds_State_loseGroup
    | with_reducible apply holds_ite
    | split
    | (dsimp only)
    | (with_reducible refine holds_mk ?_; with_reducible apply Holds.parts)

theorem holds_State_breakWriter {s : Sys2Proof.Machine.State} {a2 : Nat} {a3 : Nat} (h : Holds q f n s) :
    Holds q f n (Sys2Proof.Machine.State.breakWriter s a2 a3) := by
  unfold Sys2Proof.Machine.State.breakWriter
  repeat' first
    | with_reducible assumption
    | (with_reducible intro _)
    | with_reducible apply holds_State_breakStream
    | with_reducible apply holds_foldl

theorem holds_State_isolateGroup {s : Sys2Proof.Machine.State} {a2 : Nat} {a3 : Nat} (h : Holds q f n s) :
    Holds q f n (Sys2Proof.Machine.State.isolateGroup s a2 a3) := by
  unfold Sys2Proof.Machine.State.isolateGroup
  repeat' first
    | with_reducible assumption
    | (with_reducible intro _)
    | with_reducible apply holds_State_endAllAtPort
    | with_reducible apply holds_State_endAtMac
    | with_reducible apply holds_State_breakWriter
    | with_reducible apply holds_foldl

theorem holds_State_losePipe {s : Sys2Proof.Machine.State} {a2 : Nat} {a3 : Nat} (h : Holds q f n s) :
    Holds q f n (Sys2Proof.Machine.State.losePipe s a2 a3) := by
  unfold Sys2Proof.Machine.State.losePipe
  repeat' first
    | with_reducible assumption
    | (with_reducible intro _)
    | with_reducible apply holds_State_fenceFn
    | with_reducible apply holds_State_startTakeover
    | with_reducible apply holds_State_failJobs
    | with_reducible apply holds_State_placeGroup
    | with_reducible apply holds_State_isolateGroup
    | with_reducible apply holds_foldl
    | with_reducible apply holds_foldl_fst
    | with_reducible apply holds_ite
    | split
    | (dsimp only)
    | (with_reducible refine holds_mk ?_; with_reducible apply Holds.parts)

theorem holds_State_loseCipherUnit {s : Sys2Proof.Machine.State} {a2 : Nat} (h : Holds q f n s) :
    Holds q f n (Sys2Proof.Machine.State.loseCipherUnit s a2) := by
  unfold Sys2Proof.Machine.State.loseCipherUnit
  repeat' first
    | with_reducible assumption
    | (with_reducible intro _)
    | with_reducible apply holds_State_free
    | with_reducible apply holds_State_endReception
    | with_reducible apply holds_State_stomp
    | with_reducible apply holds_State_moveJobs
    | with_reducible apply holds_State_suspendJobs
    | with_reducible refine holds_snd_eq ‹_› ?_
    | with_reducible apply holds_foldl
    | with_reducible apply holds_foldl_fst
    | with_reducible apply holds_ite_snd
    | with_reducible apply holds_ite

theorem holds_State_loseBitmapBank {s : Sys2Proof.Machine.State} {a2 : Nat} (h : Holds q f n s) :
    Holds q f n (Sys2Proof.Machine.State.loseBitmapBank s a2) := by
  unfold Sys2Proof.Machine.State.loseBitmapBank
  repeat' first
    | with_reducible assumption
    | (with_reducible intro _)
    | split
    | (dsimp only)
    | (with_reducible refine holds_mk ?_; with_reducible apply Holds.parts)

theorem holds_State_loseChannel {s : Sys2Proof.Machine.State} {a2 : Nat} (h : Holds q f n s) :
    Holds q f n (Sys2Proof.Machine.State.loseChannel s a2) := by
  unfold Sys2Proof.Machine.State.loseChannel
  repeat' first
    | with_reducible assumption
    | (with_reducible intro _)
    | with_reducible apply holds_State_put
    | with_reducible apply holds_State_loseBins

theorem holds_State_loseFabric {s : Sys2Proof.Machine.State} (h : Holds q f n s) :
    Holds q f n (Sys2Proof.Machine.State.loseFabric s) := by
  unfold Sys2Proof.Machine.State.loseFabric
  repeat' first
    | with_reducible assumption
    | (with_reducible intro _)
    | with_reducible apply holds_State_clearRequests
    | with_reducible apply holds_State_endCrossing
    | with_reducible apply holds_State_closeReassembly
    | with_reducible apply holds_State_fenceFn

theorem holds_State_isolate {s : Sys2Proof.Machine.State} {a2 : Nat} {a3 : Nat} (h : Holds q f n s) :
    Holds q f n (Sys2Proof.Machine.State.isolate s a2 a3) := by
  unfold Sys2Proof.Machine.State.isolate
  repeat' first
    | with_reducible assumption
    | (with_reducible intro _)
    | with_reducible apply holds_State_markFenced
    | with_reducible apply holds_State_put
    | with_reducible apply holds_State_endSlices
    | with_reducible apply holds_ite
    | split
    | (dsimp only)
    | (with_reducible refine holds_mk ?_; with_reducible apply Holds.parts)

theorem holds_State_fenceEffect {s : Sys2Proof.Machine.State} {a2 : Nat} {a3 : Nat} (h : Holds q f n s) :
    Holds q f n (Sys2Proof.Machine.State.fenceEffect s a2 a3) := by
  unfold Sys2Proof.Machine.State.fenceEffect
  repeat' first
    | with_reducible assumption
    | (with_reducible intro _)
    | with_reducible apply holds_State_losePipe
    | with_reducible apply holds_State_endIngress
    | with_reducible apply holds_State_fenceFn
    | with_reducible apply holds_State_fencePort
    | with_reducible apply holds_State_laneDown
    | with_reducible apply holds_State_request
    | with_reducible apply holds_State_emRehome
    | with_reducible apply holds_State_flag
    | with_reducible apply holds_State_putBank
    | with_reducible apply holds_State_reliefFence
    | with_reducible apply holds_State_loseBitmapBank
    | with_reducible apply holds_State_loseChannel
    | with_reducible apply holds_State_loseCipherUnit
    | with_reducible apply holds_State_setSeq
    | with_reducible apply holds_State_passWork
    | with_reducible apply holds_State_countRestart
    | with_reducible apply holds_State_reloadNext
    | with_reducible apply holds_State_loseFabric
    | with_reducible apply holds_State_fenceTree
    | with_reducible apply holds_State_fenceCipher
    | with_reducible apply holds_foldl
    | with_reducible apply holds_foldl_fst
    | with_reducible apply holds_ite
    | split

theorem holds_State_fenceOne {s : Sys2Proof.Machine.State} {a2 : Nat} {a3 : Nat} {a4 : Bool} (h : Holds q f n s) :
    Holds q f n (Sys2Proof.Machine.State.fenceOne s a2 a3 a4) := by
  unfold Sys2Proof.Machine.State.fenceOne
  repeat' first
    | with_reducible assumption
    | (with_reducible intro _)
    | with_reducible apply holds_State_log
    | with_reducible apply holds_State_faultTrap
    | with_reducible apply holds_State_fenceEffect
    | with_reducible apply holds_State_isolate
    | with_reducible apply holds_ite

theorem holds_State_fenceUnit {s : Sys2Proof.Machine.State} {a2 : Nat} {a3 : Nat} {a4 : Bool} (h : Holds q f n s) :
    Holds q f n (Sys2Proof.Machine.State.fenceUnit s a2 a3 a4) := by
  unfold Sys2Proof.Machine.State.fenceUnit
  repeat' first
    | with_reducible assumption
    | (with_reducible intro _)
    | with_reducible apply holds_State_fenceOne
    | with_reducible apply holds_foldl
    | with_reducible apply holds_foldl_fst
    | split

theorem holds_State_sweep {s : Sys2Proof.Machine.State} {a2 : Nat} (h : Holds q f n s) :
    Holds q f n (Sys2Proof.Machine.State.sweep s a2) := by
  unfold Sys2Proof.Machine.State.sweep
  repeat' first
    | with_reducible assumption
    | (with_reducible intro _)
    | with_reducible apply holds_State_endFrame
    | with_reducible apply holds_State_loseFrame
    | with_reducible apply holds_foldl
    | with_reducible apply holds_foldl_fst
    | with_reducible apply holds_ite
    | split

theorem holds_execFenceSweep {a1 : BitVec 12} {s : Sys2Proof.Machine.State} (h : Holds q f n s) :
    HoldsR q f n (Sys2Proof.Machine.execFenceSweep a1 s) := by
  unfold Sys2Proof.Machine.execFenceSweep
  repeat' first
    | with_reducible assumption
    | (with_reducible intro _)
    | with_reducible apply holds_State_sweep
    | with_reducible apply HoldsR.next
    | exact HoldsR.undefined (by decide)
    | with_reducible apply HoldsR.ite

theorem holds_State_copySampling {s : Sys2Proof.Machine.State} {a2 : Nat} {a3 : Nat} (h : Holds q f n s) :
    Holds q f n (Sys2Proof.Machine.State.copySampling s a2 a3) := by
  unfold Sys2Proof.Machine.State.copySampling
  repeat' first
    | with_reducible assumption
    | (with_reducible intro _)
    | with_reducible apply holds_State_setPipe
    | with_reducible apply holds_ite

theorem holds_execTakeover {s : Sys2Proof.Machine.State} (h : Holds q f n s) :
    HoldsR q f n (Sys2Proof.Machine.execTakeover s) := by
  unfold Sys2Proof.Machine.execTakeover
  repeat' first
    | with_reducible assumption
    | (with_reducible intro _)
    | with_reducible apply holds_State_copySampling
    | with_reducible apply holds_State_put
    | with_reducible apply holds_State_setPipe
    | with_reducible apply holds_State_reachRun
    | with_reducible apply holds_State_thawSleep
    | with_reducible apply holds_State_endSlices
    | with_reducible apply holds_State_bump32
    | with_reducible apply holds_State_log
    | with_reducible apply holds_State_startTakeover
    | with_reducible apply holds_State_startPorts
    | with_reducible apply HoldsR.next
    | exact HoldsR.undefined (by decide)
    | with_reducible apply HoldsR.ite
    | with_reducible apply holds_ite
    | split
    | (dsimp only)
    | (with_reducible refine holds_mk ?_; with_reducible apply Holds.parts)

theorem holds_State_groupReturn {s : Sys2Proof.Machine.State} {a2 : Nat} (h : Holds q f n s) :
    HoldsO q f n (Sys2Proof.Machine.State.groupReturn s a2) := by
  unfold Sys2Proof.Machine.State.groupReturn
  repeat' first
    | with_reducible assumption
    | (with_reducible intro _)
    | exact HoldsO.none
    | with_reducible apply HoldsO.some
    | with_reducible apply HoldsO.ite
    | with_reducible apply holds_ite
    | split
    | (dsimp only)
    | (with_reducible refine holds_mk ?_; with_reducible apply Holds.parts)

theorem holds_execGroupReturnEnd {a1 : Sys2Proof.Group} {s : Sys2Proof.Machine.State} (h : Holds q f n s) :
    HoldsR q f n (Sys2Proof.Machine.execGroupReturnEnd a1 s) := by
  unfold Sys2Proof.Machine.execGroupReturnEnd
  repeat' first
    | with_reducible assumption
    | (with_reducible intro _)
    | with_reducible apply holds_State_reachRun
    | with_reducible apply holds_State_put
    | with_reducible apply holds_State_startPorts
    | with_reducible apply holds_State_log
    | with_reducible apply HoldsR.next
    | exact HoldsR.undefined (by decide)
    | with_reducible apply HoldsR.ite
    | with_reducible apply holds_ite
    | split
    | (dsimp only)
    | (with_reducible refine holds_mk ?_; with_reducible apply Holds.parts)

theorem holds_State_startRelease {s : Sys2Proof.Machine.State} {a2 : Nat} {a3 : Bool} (h : Holds q f n s) :
    HoldsO q f n (Sys2Proof.Machine.State.startRelease s a2 a3) := by
  unfold Sys2Proof.Machine.State.startRelease
  repeat' first
    | with_reducible assumption
    | (with_reducible intro _)
    | with_reducible apply holds_State_put
    | with_reducible apply holds_State_sweep
    | exact HoldsO.none
    | with_reducible apply HoldsO.some
    | with_reducible apply HoldsO.ite
    | with_reducible apply holds_ite
    | split
    | (dsimp only)
    | (with_reducible refine holds_mk ?_; with_reducible apply Holds.parts)

theorem holds_State_wipeRegion {s : State} {a2 a3 : Nat} (h : Holds q f n s) : Holds q f n (s.wipeRegion a2 a3) :=
  { h with dom := sparse_filter_wf h.dom }

theorem holds_State_restoreChannel {s : Sys2Proof.Machine.State} {a2 : Nat} (h : Holds q f n s) :
    Holds q f n (Sys2Proof.Machine.State.restoreChannel s a2) := by
  unfold Sys2Proof.Machine.State.restoreChannel
  repeat' first
    | with_reducible assumption
    | (with_reducible intro _)
    | with_reducible apply holds_State_wipeRegion
    | with_reducible apply holds_State_put
    | split
    | (dsimp only)
    | (with_reducible refine holds_mk ?_; with_reducible apply Holds.parts)

theorem holds_State_loadFromHold {s : Sys2Proof.Machine.State} {a2 : Nat} (h : Holds q f n s) :
    Holds q f n (Sys2Proof.Machine.State.loadFromHold s a2) := by
  unfold Sys2Proof.Machine.State.loadFromHold
  repeat' first
    | with_reducible assumption
    | (with_reducible intro _)
    | with_reducible apply holds_State_put
    | with_reducible apply holds_State_setSeq

theorem holds_State_unfence {s : Sys2Proof.Machine.State} {a2 : Nat} (h : Holds q f n s) :
    Holds q f n (Sys2Proof.Machine.State.unfence s a2) := by
  unfold Sys2Proof.Machine.State.unfence
  repeat' first
    | with_reducible assumption
    | (with_reducible intro _)
    | with_reducible apply holds_State_setUnit
    | with_reducible apply holds_State_reliefRelease
    | with_reducible apply holds_State_restoreChannel
    | with_reducible apply holds_State_setLane
    | with_reducible apply holds_State_loadFromHold
    | split

theorem holds_State_countPassed {s : Sys2Proof.Machine.State} {a2 : Nat} (h : Holds q f n s) :
    Holds q f n (Sys2Proof.Machine.State.countPassed s a2) := by
  unfold Sys2Proof.Machine.State.countPassed
  repeat' first
    | with_reducible assumption
    | (with_reducible intro _)
    | with_reducible apply holds_State_add64
    | with_reducible apply holds_foldl

theorem holds_State_endRelease {s : Sys2Proof.Machine.State} {a2 : Nat} {a3 : Nat} (h : Holds q f n s) :
    Holds q f n (Sys2Proof.Machine.State.endRelease s a2 a3) := by
  unfold Sys2Proof.Machine.State.endRelease
  repeat' first
    | with_reducible assumption
    | (with_reducible intro _)
    | with_reducible apply holds_State_put
    | with_reducible apply holds_State_log
    | split
    | (dsimp only)
    | (with_reducible refine holds_mk ?_; with_reducible apply Holds.parts)
end Sys2Proof.Laws
end

