-- ==== Sys2Proof/Laws/HoldsFault.lean ====
section
/-! SUPPORT. What the operations of Machine/Fault.lean keep. -/

namespace Sys2Proof.Laws

open Sys2Proof.Machine Sys2Proof.Safety

variable {q : List Instr} {f n : Nat}

theorem holds_State_holdForPll {s : Sys2Proof.Machine.State} {a2 : Nat} (h : Holds q f n s) :
    Holds q f n (Sys2Proof.Machine.State.holdForPll s a2) := by
  unfold Sys2Proof.Machine.State.holdForPll
  repeat' first
    | with_reducible assumption
    | (with_reducible intro _)
    | with_reducible apply holds_State_holdDomains
    | with_reducible apply holds_State_loseClock
    | with_reducible apply holds_State_put
    | with_reducible apply holds_ite
    | split
    | (dsimp only)
    | (with_reducible refine holds_mk ?_; with_reducible apply Holds.parts)

theorem holds_State_react {s : Sys2Proof.Machine.State} {a2 : Nat} {a3 : Nat} (h : Holds q f n s) :
    Holds q f n (Sys2Proof.Machine.State.react s a2 a3) := by
  unfold Sys2Proof.Machine.State.react
  repeat' first
    | with_reducible assumption
    | (with_reducible intro _)
    | with_reducible apply holds_State_beginReset
    | with_reducible apply holds_State_warmCause
    | with_reducible apply holds_State_holdForPll
    | with_reducible apply holds_State_fenceUnit
    | with_reducible apply holds_ite
    | split

theorem holds_State_abandonRelease {s : Sys2Proof.Machine.State} {a2 : Nat} (h : Holds q f n s) :
    Holds q f n (Sys2Proof.Machine.State.abandonRelease s a2) := by
  unfold Sys2Proof.Machine.State.abandonRelease
  repeat' first
    | with_reducible assumption
    | (with_reducible intro _)
    | with_reducible apply holds_State_faultTrap
    | with_reducible apply holds_State_endRelease
    | with_reducible apply holds_ite

theorem holds_State_capture {s : Sys2Proof.Machine.State} {a2 : Sys2Proof.Machine.Report} {a3 : Nat} (h : Holds q f n s) :
    Holds q f n (Sys2Proof.Machine.State.capture s a2 a3) := by
  unfold Sys2Proof.Machine.State.capture
  repeat' first
    | with_reducible assumption
    | (with_reducible intro _)
    | with_reducible apply holds_State_put

theorem holds_State_clearFirst {s : Sys2Proof.Machine.State} (h : Holds q f n s) :
    Holds q f n (Sys2Proof.Machine.State.clearFirst s) := by
  unfold Sys2Proof.Machine.State.clearFirst
  repeat' first
    | with_reducible assumption
    | (with_reducible intro _)
    | with_reducible apply holds_State_put

theorem holds_State_countFault {s : Sys2Proof.Machine.State} {a2 : Nat} {a3 : Bool} {a4 : Bool} (h : Holds q f n s) :
    Holds q f n (Sys2Proof.Machine.State.countFault s a2 a3 a4) := by
  unfold Sys2Proof.Machine.State.countFault
  repeat' first
    | with_reducible assumption
    | (with_reducible intro _)
    | with_reducible apply holds_State_flag
    | with_reducible apply holds_State_bump64
    | with_reducible apply holds_ite

theorem holds_State_judge {s : Sys2Proof.Machine.State} {a2 : Sys2Proof.Machine.Report} (h : Holds q f n s) :
    Holds q f n (Sys2Proof.Machine.State.judge s a2) := by
  unfold Sys2Proof.Machine.State.judge
  repeat' first
    | with_reducible assumption
    | (with_reducible intro _)
    | with_reducible apply holds_State_abandonRelease
    | with_reducible apply holds_State_countFault
    | with_reducible apply holds_State_setUnit
    | with_reducible apply holds_State_capture
    | with_reducible apply holds_State_log
    | with_reducible apply holds_State_react
    | with_reducible apply holds_ite

theorem holds_State_leakCells {s : Sys2Proof.Machine.State} {a2 : Nat} (h : Holds q f n s) :
    Holds q f n (Sys2Proof.Machine.State.leakCells s a2) := by
  unfold Sys2Proof.Machine.State.leakCells
  repeat' first
    | with_reducible assumption
    | (with_reducible intro _)
    | with_reducible apply holds_State_setFrame
    | with_reducible apply holds_State_put
    | split

theorem holds_State_repairStore {s : Sys2Proof.Machine.State} {a2 : Nat} {a3 : Nat} (h : Holds q f n s) :
    Holds q f n (Sys2Proof.Machine.State.repairStore s a2 a3) := by
  unfold Sys2Proof.Machine.State.repairStore
  repeat' first
    | with_reducible assumption
    | (with_reducible intro _)
    | with_reducible apply holds_State_setSeq
    | with_reducible apply holds_State_restartRoutine
    | with_reducible apply holds_State_flag
    | with_reducible apply holds_State_bump32

theorem holds_State_loseData {s : Sys2Proof.Machine.State} {a2 : Sys2Proof.FaultEvent} (h : Holds q f n s) :
    Holds q f n (Sys2Proof.Machine.State.loseData s a2) := by
  unfold Sys2Proof.Machine.State.loseData
  repeat' first
    | with_reducible assumption
    | (with_reducible intro _)
    | with_reducible apply holds_State_loseFrame
    | with_reducible apply holds_State_leakCells
    | with_reducible apply holds_State_request
    | with_reducible apply holds_State_markCorrupt
    | with_reducible apply holds_State_repairStore
    | with_reducible apply holds_State_restartRoutine
    | with_reducible apply holds_State_eraseKey
    | with_reducible apply holds_foldl
    | with_reducible apply holds_foldl_fst
    | with_reducible apply holds_ite
    | split
    | (dsimp only)
    | (with_reducible refine holds_mk ?_; with_reducible apply Holds.parts)

theorem holds_State_handleData {s : Sys2Proof.Machine.State} {a2 : Sys2Proof.FaultEvent} (h : Holds q f n s) :
    Holds q f n (Sys2Proof.Machine.State.handleData s a2) := by
  unfold Sys2Proof.Machine.State.handleData
  repeat' first
    | with_reducible assumption
    | (with_reducible intro _)
    | with_reducible apply holds_State_loseLink
    | with_reducible apply holds_State_laneDown
    | with_reducible apply holds_State_flag
    | with_reducible apply holds_State_bump32
    | with_reducible apply holds_State_loseData
    | with_reducible apply holds_foldl
    | with_reducible apply holds_foldl_fst
    | with_reducible apply holds_ite
    | split
    | (dsimp only)
    | (with_reducible refine holds_mk ?_; with_reducible apply Holds.parts)

theorem holds_State_fault {s : Sys2Proof.Machine.State} {a2 : Sys2Proof.FaultEvent} {a3 : Bool} (h : Holds q f n s) :
    Holds q f n (Sys2Proof.Machine.State.fault s a2 a3) := by
  unfold Sys2Proof.Machine.State.fault
  repeat' first
    | with_reducible assumption
    | (with_reducible intro _)
    | with_reducible apply holds_State_judge
    | with_reducible apply holds_State_handleData

theorem holds_State_takeInjection {s : Sys2Proof.Machine.State} (h : Holds q f n s) :
    Holds q f n (Sys2Proof.Machine.State.takeInjection s) := by
  unfold Sys2Proof.Machine.State.takeInjection
  repeat' first
    | with_reducible assumption
    | (with_reducible intro _)
    | with_reducible apply holds_State_put
    | with_reducible apply holds_ite
    | split
    | (dsimp only)
    | (with_reducible refine holds_mk ?_; with_reducible apply Holds.parts)

theorem holds_execFault {a1 : Sys2Proof.FaultEvent} {s : Sys2Proof.Machine.State} (h : Holds q f n s) :
    HoldsR q f n (Sys2Proof.Machine.execFault a1 s) := by
  unfold Sys2Proof.Machine.execFault
  repeat' first
    | with_reducible assumption
    | (with_reducible intro _)
    | with_reducible apply holds_State_fault
    | with_reducible apply holds_State_takeInjection
    | with_reducible apply HoldsR.next
    | exact HoldsR.undefined (by decide)
    | with_reducible apply HoldsR.ite
    | with_reducible apply holds_ite
    | split

theorem holds_State_faultAck {s : Sys2Proof.Machine.State} {a2 : Nat} (h : Holds q f n s) :
    HoldsO q f n (Sys2Proof.Machine.State.faultAck s a2) := by
  unfold Sys2Proof.Machine.State.faultAck
  repeat' first
    | with_reducible assumption
    | (with_reducible intro _)
    | with_reducible apply holds_State_setUnit
    | exact HoldsO.none
    | with_reducible apply HoldsO.some
    | with_reducible apply HoldsO.map
    | with_reducible apply HoldsO.ite
    | with_reducible apply holds_ite
    | split
    | (dsimp only)
    | (with_reducible refine holds_mk ?_; with_reducible apply Holds.parts)

theorem holds_execCorrectedAutoAck {a1 : BitVec 12} {s : Sys2Proof.Machine.State} (h : Holds q f n s) :
    HoldsR q f n (Sys2Proof.Machine.execCorrectedAutoAck a1 s) := by
  unfold Sys2Proof.Machine.execCorrectedAutoAck
  repeat' first
    | with_reducible assumption
    | (with_reducible intro _)
    | with_reducible apply holds_State_setUnit
    | with_reducible apply HoldsR.next
    | exact HoldsR.undefined (by decide)
    | with_reducible apply HoldsR.ite

theorem holds_State_hostFence {s : Sys2Proof.Machine.State} {a2 : Nat} (h : Holds q f n s) :
    HoldsO q f n (Sys2Proof.Machine.State.hostFence s a2) := by
  unfold Sys2Proof.Machine.State.hostFence
  repeat' first
    | with_reducible assumption
    | (with_reducible intro _)
    | with_reducible apply holds_State_fenceUnit
    | exact HoldsO.none
    | with_reducible apply HoldsO.some
    | with_reducible apply HoldsO.ite
    | with_reducible apply holds_ite
    | split

theorem holds_State_fenceRequest {s : Sys2Proof.Machine.State} {a2 : Nat} (h : Holds q f n s) :
    HoldsO q f n (Sys2Proof.Machine.State.fenceRequest s a2) := by
  unfold Sys2Proof.Machine.State.fenceRequest
  repeat' first
    | with_reducible assumption
    | (with_reducible intro _)
    | with_reducible apply holds_State_hostFence
    | with_reducible apply holds_State_startRelease
    | exact HoldsO.none
    | with_reducible apply HoldsO.some
    | with_reducible apply HoldsO.ite

theorem holds_State_failRelease {s : Sys2Proof.Machine.State} {a2 : Nat} (h : Holds q f n s) :
    Holds q f n (Sys2Proof.Machine.State.failRelease s a2) := by
  unfold Sys2Proof.Machine.State.failRelease
  repeat' first
    | with_reducible assumption
    | (with_reducible intro _)
    | with_reducible apply holds_State_free
    | with_reducible apply holds_State_bump32
    | with_reducible apply holds_State_endRelease
    | with_reducible apply holds_State_judge
    | with_reducible apply holds_State_setUnit
    | with_reducible apply holds_State_put

theorem holds_execReleaseEnd {a1 : Bool} {s : Sys2Proof.Machine.State} (h : Holds q f n s) :
    HoldsR q f n (Sys2Proof.Machine.execReleaseEnd a1 s) := by
  unfold Sys2Proof.Machine.execReleaseEnd
  repeat' first
    | with_reducible assumption
    | (with_reducible intro _)
    | with_reducible apply holds_State_failRelease
    | with_reducible apply holds_State_countPassed
    | with_reducible apply holds_State_endRelease
    | with_reducible apply holds_State_unfence
    | with_reducible apply HoldsR.next
    | exact HoldsR.undefined (by decide)
    | with_reducible apply HoldsR.ite
    | with_reducible apply holds_ite
    | split

theorem holds_State_writeInject {s : Sys2Proof.Machine.State} {a2 : Nat} (h : Holds q f n s) :
    HoldsO q f n (Sys2Proof.Machine.State.writeInject s a2) := by
  unfold Sys2Proof.Machine.State.writeInject
  repeat' first
    | with_reducible assumption
    | (with_reducible intro _)
    | with_reducible apply holds_State_put
    | exact HoldsO.none
    | with_reducible apply HoldsO.some
    | with_reducible apply HoldsO.ite
    | with_reducible apply holds_ite
    | split
    | (dsimp only)
    | (with_reducible refine holds_mk ?_; with_reducible apply Holds.parts)

theorem holds_execTimingMargin {a1 : Sys2Proof.Quadrant} {a2 : BitVec 32} {s : Sys2Proof.Machine.State} (h : Holds q f n s) :
    HoldsR q f n (Sys2Proof.Machine.execTimingMargin a1 a2 s) := by
  unfold Sys2Proof.Machine.execTimingMargin
  repeat' first
    | with_reducible assumption
    | (with_reducible intro _)
    | with_reducible apply holds_State_put
    | with_reducible apply holds_State_log
    | with_reducible apply HoldsR.next
    | exact HoldsR.undefined (by decide)
    | with_reducible apply holds_getD
    | with_reducible apply HoldsR.ite
    | with_reducible apply holds_ite
    | split
    | (dsimp only)
    | (with_reducible refine holds_mk ?_; with_reducible apply Holds.parts)

theorem holds_execPllLossOfLock {a1 : Sys2Proof.Pll} {s : Sys2Proof.Machine.State} (h : Holds q f n s) :
    HoldsR q f n (Sys2Proof.Machine.execPllLossOfLock a1 s) := by
  unfold Sys2Proof.Machine.execPllLossOfLock
  repeat' first
    | with_reducible assumption
    | (with_reducible intro _)
    | with_reducible apply holds_State_judge
    | with_reducible apply holds_State_loseClock
    | with_reducible apply holds_execClockLossBeforeReady
    | with_reducible refine HoldsR.of_eq ‹_› ?_
    | with_reducible apply HoldsR.next
    | exact HoldsR.undefined (by decide)
    | with_reducible apply HoldsR.ite

theorem holds_execShadowMismatch {a1 : Sys2Proof.Quadrant} {a2 : Fin 32} {a3 : Fin 1024} {s : Sys2Proof.Machine.State} (h : Holds q f n s) :
    HoldsR q f n (Sys2Proof.Machine.execShadowMismatch a1 a2 a3 s) := by
  unfold Sys2Proof.Machine.execShadowMismatch
  repeat' first
    | with_reducible assumption
    | (with_reducible intro _)
    | with_reducible apply holds_State_flag
    | with_reducible apply holds_State_count
    | with_reducible apply holds_State_bump64
    | with_reducible apply holds_State_request
    | with_reducible apply holds_State_judge
    | with_reducible apply HoldsR.next
    | exact HoldsR.undefined (by decide)
    | with_reducible apply HoldsR.ite

theorem holds_State_unformCopies {s : Sys2Proof.Machine.State} {a2 : List Nat} (h : Holds q f n s) :
    Holds q f n (Sys2Proof.Machine.State.unformCopies s a2) := by
  unfold Sys2Proof.Machine.State.unformCopies
  repeat' first
    | with_reducible assumption
    | (with_reducible intro _)
    | with_reducible apply holds_State_closeBad
    | with_reducible apply holds_foldl
    | with_reducible apply holds_foldl_fst
    | split
    | (dsimp only)
    | (with_reducible refine holds_mk ?_; with_reducible apply Holds.parts)

theorem holds_State_auditSlot {s : Sys2Proof.Machine.State} {a2 : Nat} (h : Holds q f n s) :
    Holds q f n (Sys2Proof.Machine.State.auditSlot s a2) := by
  unfold Sys2Proof.Machine.State.auditSlot
  repeat' first
    | with_reducible assumption
    | (with_reducible intro _)
    | with_reducible apply holds_State_breakStream
    | with_reducible apply holds_State_loseFrame
    | with_reducible apply holds_State_endCopies
    | with_reducible apply holds_State_unformCopies
    | with_reducible apply holds_foldl

theorem holds_execSlotAudit {a1 : Sys2Proof.Slot} {s : Sys2Proof.Machine.State} (h : Holds q f n s) :
    HoldsR q f n (Sys2Proof.Machine.execSlotAudit a1 s) := by
  unfold Sys2Proof.Machine.execSlotAudit
  repeat' first
    | with_reducible assumption
    | (with_reducible intro _)
    | with_reducible apply holds_State_auditSlot
    | with_reducible apply holds_State_bump32
    | with_reducible apply holds_State_setSlot
    | with_reducible apply holds_State_judge
    | with_reducible apply HoldsR.next
    | exact HoldsR.undefined (by decide)
    | with_reducible apply holds_getD
    | with_reducible apply HoldsR.ite
    | with_reducible apply holds_ite
    | split
    | (dsimp only)
    | (with_reducible refine holds_mk ?_; with_reducible apply Holds.parts)

theorem holds_State_ddr5Fault {s : Sys2Proof.Machine.State} {a2 : Nat} {a3 : Nat} {a4 : Nat} {a5 : Nat} (h : Holds q f n s) :
    Holds q f n (Sys2Proof.Machine.State.ddr5Fault s a2 a3 a4 a5) := by
  unfold Sys2Proof.Machine.State.ddr5Fault
  repeat' first
    | with_reducible assumption
    | (with_reducible intro _)
    | with_reducible apply holds_State_judge

theorem holds_execDdr5Reread {a1 : Sys2Proof.Channel} {a2 : Sys2Proof.Ddr5Place} {a3 : Sys2Proof.Ddr5Burst} {s : Sys2Proof.Machine.State} (h : Holds q f n s) :
    HoldsR q f n (Sys2Proof.Machine.execDdr5Reread a1 a2 a3 s) := by
  unfold Sys2Proof.Machine.execDdr5Reread
  repeat' first
    | with_reducible assumption
    | (with_reducible intro _)
    | with_reducible apply holds_State_ddr5Fault
    | with_reducible apply holds_State_bump64
    | with_reducible apply holds_State_flowLose
    | with_reducible apply holds_State_putBytes
    | with_reducible apply holds_State_retireBin
    | with_reducible apply holds_State_fenceUnit
    | with_reducible apply HoldsR.next
    | exact HoldsR.undefined (by decide)
    | with_reducible apply HoldsR.ite
    | with_reducible apply holds_ite
    | split
    | (dsimp only)
    | (with_reducible refine holds_mk ?_; with_reducible apply Holds.parts)

theorem holds_execDdr5Alert {a1 : Sys2Proof.Channel} {s : Sys2Proof.Machine.State} (h : Holds q f n s) :
    HoldsR q f n (Sys2Proof.Machine.execDdr5Alert a1 s) := by
  unfold Sys2Proof.Machine.execDdr5Alert
  repeat' first
    | with_reducible assumption
    | (with_reducible intro _)
    | with_reducible apply holds_State_free
    | with_reducible apply holds_State_ddr5Fault
    | with_reducible refine holds_snd_eq ‹_› ?_
    | with_reducible apply HoldsR.next
    | exact HoldsR.undefined (by decide)
    | with_reducible apply holds_ite_snd
    | with_reducible apply HoldsR.ite
end Sys2Proof.Laws
end

