-- ==== Sys2Proof/Laws/HoldsRequests.lean ====
section
/-! SUPPORT. What the operations of Machine/Requests.lean keep. -/

namespace Sys2Proof.Laws

open Sys2Proof.Machine Sys2Proof.Safety

variable {q : List Instr} {f n : Nat}

theorem holds_State_requestFn {s : Sys2Proof.Machine.State} {a2 : Nat} {a3 : Nat} (h : Holds q f n s) :
    HoldsW q f n (Sys2Proof.Machine.State.requestFn s a2 a3) := by
  unfold Sys2Proof.Machine.State.requestFn
  repeat' first
    | with_reducible assumption
    | (with_reducible intro _)
    | with_reducible apply holds_State_hostFence
    | with_reducible apply holds_State_beginStart
    | with_reducible apply holds_State_passFn
    | with_reducible apply holds_State_beginDrain
    | with_reducible apply holds_State_reachOff
    | with_reducible refine HoldsO.of_eq ‹_› ?_
    | with_reducible apply HoldsR.next
    | exact HoldsR.undefined (by decide)
    | exact HoldsO.none
    | with_reducible apply HoldsO.some
    | with_reducible apply HoldsW.ok
    | exact HoldsW.error
    | with_reducible apply HoldsO.ite
    | with_reducible apply holds_ite
    | with_reducible apply HoldsW.ite
    | split
end Sys2Proof.Laws
end

