-- ==== Sys2Proof/Laws/HoldsAtelier.lean ====
section
/-! SUPPORT. What the operations of Machine/Atelier.lean keep. -/

namespace Sys2Proof.Laws

open Sys2Proof.Machine Sys2Proof.Safety

variable {q : List Instr} {f n : Nat}

theorem holds_State_flagValue {s : Sys2Proof.Machine.State} {a2 : Option Bool} (h : Holds q f n s) :
    Holds q f n (Sys2Proof.Machine.State.flagValue s a2).2 := by
  unfold Sys2Proof.Machine.State.flagValue
  repeat' first
    | with_reducible assumption
    | (with_reducible intro _)
    | with_reducible apply holds_State_free
    | with_reducible refine holds_snd_eq ‹_› ?_
    | split

theorem holds_State_setFlags {s : Sys2Proof.Machine.State} {a2 : Nat} {a3 : Sys2Proof.Machine.AluOut} (h : Holds q f n s) :
    Holds q f n (Sys2Proof.Machine.State.setFlags s a2 a3) := by
  unfold Sys2Proof.Machine.State.setFlags
  repeat' first
    | with_reducible assumption
    | (with_reducible intro _)
    | with_reducible apply holds_State_flagValue
    | with_reducible apply holds_State_setSeq
    | with_reducible refine holds_snd_eq ‹_› ?_
    | split

theorem holds_State_busData {s : Sys2Proof.Machine.State} {a2 : Nat} {a3 : Nat} {a4 : Nat} (h : Holds q f n s) :
    Holds q f n (Sys2Proof.Machine.State.busData s a2 a3 a4) := by
  unfold Sys2Proof.Machine.State.busData
  repeat' first
    | with_reducible assumption
    | (with_reducible intro _)
    | with_reducible apply holds_State_free
    | with_reducible apply holds_State_setSeq
    | with_reducible refine holds_snd_eq ‹_› ?_
    | with_reducible apply holds_foldl
    | with_reducible apply holds_foldl_fst
    | with_reducible apply holds_ite_snd
    | with_reducible apply holds_ite

theorem holds_State_busOp {s : Sys2Proof.Machine.State} {a2 : Nat} {a3 : Nat} (h : Holds q f n s) :
    Holds q f n (Sys2Proof.Machine.State.busOp s a2 a3) := by
  unfold Sys2Proof.Machine.State.busOp
  repeat' first
    | with_reducible assumption
    | (with_reducible intro _)
    | with_reducible apply holds_State_free
    | with_reducible apply holds_State_setSeq
    | with_reducible apply holds_State_busData
    | with_reducible refine holds_snd_eq ‹_› ?_
    | with_reducible apply holds_ite_snd
    | with_reducible apply holds_ite

theorem holds_State_runOps {s : Sys2Proof.Machine.State} {a2 : Nat} {a3 : Nat} (h : Holds q f n s) :
    Holds q f n (Sys2Proof.Machine.State.runOps s a2 a3) := by
  unfold Sys2Proof.Machine.State.runOps
  repeat' first
    | with_reducible assumption
    | (with_reducible intro _)
    | with_reducible apply holds_State_countN
    | with_reducible apply holds_State_setSeq
    | with_reducible apply holds_State_busOp
    | with_reducible apply holds_State_setFlags
    | with_reducible apply holds_ite
    | split

theorem holds_State_condition {s : Sys2Proof.Machine.State} {a2 : Nat} {a3 : Nat} (h : Holds q f n s) :
    Holds q f n (Sys2Proof.Machine.State.condition s a2 a3).2 := by
  unfold Sys2Proof.Machine.State.condition
  repeat' first
    | with_reducible assumption
    | (with_reducible intro _)
    | with_reducible apply holds_State_free
    | with_reducible refine holds_snd_eq ‹_› ?_
    | with_reducible apply holds_ite_snd

theorem holds_State_goto {s : Sys2Proof.Machine.State} {a2 : Nat} {a3 : Nat} (h : Holds q f n s) :
    Holds q f n (Sys2Proof.Machine.State.goto s a2 a3) := by
  unfold Sys2Proof.Machine.State.goto
  repeat' first
    | with_reducible assumption
    | (with_reducible intro _)
    | with_reducible apply holds_State_setSeq
    | with_reducible apply holds_State_judge
    | with_reducible apply holds_ite

theorem holds_execContinueWord {a1 : Sys2Proof.Sequencer} {s : Sys2Proof.Machine.State} (h : Holds q f n s) :
    HoldsR q f n (Sys2Proof.Machine.execContinueWord a1 s) := by
  unfold Sys2Proof.Machine.execContinueWord
  repeat' first
    | with_reducible assumption
    | (with_reducible intro _)
    | with_reducible apply holds_State_goto
    | with_reducible apply holds_State_runOps
    | with_reducible apply HoldsR.next
    | exact HoldsR.undefined (by decide)
    | with_reducible apply HoldsR.ite

theorem holds_execJumpWord {a1 : Sys2Proof.Sequencer} {s : Sys2Proof.Machine.State} (h : Holds q f n s) :
    HoldsR q f n (Sys2Proof.Machine.execJumpWord a1 s) := by
  unfold Sys2Proof.Machine.execJumpWord
  repeat' first
    | with_reducible assumption
    | (with_reducible intro _)
    | with_reducible apply holds_State_goto
    | with_reducible apply holds_State_runOps
    | with_reducible apply HoldsR.next
    | exact HoldsR.undefined (by decide)
    | with_reducible apply HoldsR.ite

theorem holds_State_branchWord {s : Sys2Proof.Machine.State} {a2 : Nat} {a3 : Bool} (h : Holds q f n s) :
    Holds q f n (Sys2Proof.Machine.State.branchWord s a2 a3) := by
  unfold Sys2Proof.Machine.State.branchWord
  repeat' first
    | with_reducible assumption
    | (with_reducible intro _)
    | with_reducible apply holds_State_condition
    | with_reducible apply holds_State_runOps
    | with_reducible apply holds_State_goto

theorem holds_execBranchSet {a1 : Sys2Proof.Sequencer} {s : Sys2Proof.Machine.State} (h : Holds q f n s) :
    HoldsR q f n (Sys2Proof.Machine.execBranchSet a1 s) := by
  unfold Sys2Proof.Machine.execBranchSet
  repeat' first
    | with_reducible assumption
    | (with_reducible intro _)
    | with_reducible apply holds_State_branchWord
    | with_reducible apply HoldsR.next
    | exact HoldsR.undefined (by decide)
    | with_reducible apply HoldsR.ite

theorem holds_execBranchClear {a1 : Sys2Proof.Sequencer} {s : Sys2Proof.Machine.State} (h : Holds q f n s) :
    HoldsR q f n (Sys2Proof.Machine.execBranchClear a1 s) := by
  unfold Sys2Proof.Machine.execBranchClear
  repeat' first
    | with_reducible assumption
    | (with_reducible intro _)
    | with_reducible apply holds_State_branchWord
    | with_reducible apply HoldsR.next
    | exact HoldsR.undefined (by decide)
    | with_reducible apply HoldsR.ite

theorem holds_execCallWord {a1 : Sys2Proof.Sequencer} {s : Sys2Proof.Machine.State} (h : Holds q f n s) :
    HoldsR q f n (Sys2Proof.Machine.execCallWord a1 s) := by
  unfold Sys2Proof.Machine.execCallWord
  repeat' first
    | with_reducible assumption
    | (with_reducible intro _)
    | with_reducible apply holds_State_goto
    | with_reducible apply holds_State_setSeq
    | with_reducible apply holds_State_runOps
    | with_reducible apply HoldsR.next
    | exact HoldsR.undefined (by decide)
    | with_reducible apply HoldsR.ite

theorem holds_execReturnWord {a1 : Sys2Proof.Sequencer} {s : Sys2Proof.Machine.State} (h : Holds q f n s) :
    HoldsR q f n (Sys2Proof.Machine.execReturnWord a1 s) := by
  unfold Sys2Proof.Machine.execReturnWord
  repeat' first
    | with_reducible assumption
    | (with_reducible intro _)
    | with_reducible apply holds_State_runOps
    | with_reducible apply holds_State_goto
    | with_reducible apply HoldsR.next
    | exact HoldsR.undefined (by decide)
    | with_reducible apply HoldsR.ite

theorem holds_execWaitWord {a1 : Sys2Proof.Sequencer} {s : Sys2Proof.Machine.State} (h : Holds q f n s) :
    HoldsR q f n (Sys2Proof.Machine.execWaitWord a1 s) := by
  unfold Sys2Proof.Machine.execWaitWord
  repeat' first
    | with_reducible assumption
    | (with_reducible intro _)
    | with_reducible apply holds_State_countN
    | with_reducible apply holds_State_runOps
    | with_reducible apply holds_State_condition
    | with_reducible apply holds_State_goto
    | with_reducible apply holds_State_setSeq
    | with_reducible refine holds_snd_eq ‹_› ?_
    | with_reducible apply HoldsR.next
    | exact HoldsR.undefined (by decide)
    | with_reducible apply holds_ite_snd
    | with_reducible apply HoldsR.ite
    | with_reducible apply holds_ite

theorem holds_execRoutineDispatch {a1 : Sys2Proof.Sequencer} {s : Sys2Proof.Machine.State} (h : Holds q f n s) :
    HoldsR q f n (Sys2Proof.Machine.execRoutineDispatch a1 s) := by
  unfold Sys2Proof.Machine.execRoutineDispatch
  repeat' first
    | with_reducible assumption
    | (with_reducible intro _)
    | with_reducible apply holds_State_setSeq
    | with_reducible apply HoldsR.next
    | exact HoldsR.undefined (by decide)
    | with_reducible apply HoldsR.ite
    | with_reducible apply holds_ite
    | split

theorem holds_execCheckpoint {a1 : Sys2Proof.Sequencer} {s : Sys2Proof.Machine.State} (h : Holds q f n s) :
    HoldsR q f n (Sys2Proof.Machine.execCheckpoint a1 s) := by
  unfold Sys2Proof.Machine.execCheckpoint
  repeat' first
    | with_reducible assumption
    | (with_reducible intro _)
    | with_reducible apply holds_State_goto
    | with_reducible apply holds_State_runOps
    | with_reducible apply holds_State_setSeq
    | with_reducible apply holds_State_putBack
    | with_reducible apply HoldsR.next
    | exact HoldsR.undefined (by decide)
    | with_reducible apply HoldsR.ite
    | with_reducible apply holds_ite
    | split
    | (dsimp only)

theorem holds_execEndRoutine {a1 : Sys2Proof.Sequencer} {s : Sys2Proof.Machine.State} (h : Holds q f n s) :
    HoldsR q f n (Sys2Proof.Machine.execEndRoutine a1 s) := by
  unfold Sys2Proof.Machine.execEndRoutine
  repeat' first
    | with_reducible assumption
    | (with_reducible intro _)
    | with_reducible apply holds_State_runOps
    | with_reducible apply holds_State_bump64
    | with_reducible apply holds_State_setSeq
    | with_reducible apply HoldsR.next
    | exact HoldsR.undefined (by decide)
    | with_reducible apply holds_getD
    | with_reducible apply HoldsR.ite

theorem holds_execMicroTrap {a1 : Sys2Proof.Sequencer} {s : Sys2Proof.Machine.State} (h : Holds q f n s) :
    HoldsR q f n (Sys2Proof.Machine.execMicroTrap a1 s) := by
  unfold Sys2Proof.Machine.execMicroTrap
  repeat' first
    | with_reducible assumption
    | (with_reducible intro _)
    | with_reducible apply holds_State_setSeq
    | with_reducible apply holds_State_count
    | with_reducible apply HoldsR.next
    | exact HoldsR.undefined (by decide)
    | with_reducible apply HoldsR.ite
    | with_reducible apply holds_ite
    | split
    | (dsimp only)

theorem holds_execTrapReturn {a1 : Sys2Proof.Sequencer} {s : Sys2Proof.Machine.State} (h : Holds q f n s) :
    HoldsR q f n (Sys2Proof.Machine.execTrapReturn a1 s) := by
  unfold Sys2Proof.Machine.execTrapReturn
  repeat' first
    | with_reducible assumption
    | (with_reducible intro _)
    | with_reducible apply holds_State_runOps
    | with_reducible apply holds_State_setSeq
    | with_reducible apply holds_State_free
    | with_reducible apply holds_State_goto
    | with_reducible refine holds_snd_eq ‹_› ?_
    | with_reducible apply HoldsR.next
    | exact HoldsR.undefined (by decide)
    | with_reducible apply holds_getD
    | with_reducible apply holds_ite_snd
    | with_reducible apply HoldsR.ite
    | with_reducible apply holds_ite
    | split
    | (dsimp only)

theorem holds_State_reloadStart {s : Sys2Proof.Machine.State} {a2 : Nat} (h : Holds q f n s) :
    HoldsO q f n (Sys2Proof.Machine.State.reloadStart s a2) := by
  unfold Sys2Proof.Machine.State.reloadStart
  repeat' first
    | with_reducible assumption
    | (with_reducible intro _)
    | with_reducible apply holds_State_request
    | with_reducible apply holds_State_startReload
    | exact HoldsO.none
    | with_reducible apply HoldsO.some
    | with_reducible apply HoldsO.ite

theorem holds_execSequencerLoaded {a1 : Bool} {s : Sys2Proof.Machine.State} (h : Holds q f n s) :
    HoldsR q f n (Sys2Proof.Machine.execSequencerLoaded a1 s) := by
  unfold Sys2Proof.Machine.execSequencerLoaded
  repeat' first
    | with_reducible assumption
    | (with_reducible intro _)
    | with_reducible apply holds_State_setSeq
    | with_reducible apply holds_State_put
    | with_reducible apply holds_State_reloadNext
    | with_reducible apply holds_State_judge
    | with_reducible apply holds_State_fenceUnit
    | with_reducible apply HoldsR.next
    | exact HoldsR.undefined (by decide)
    | with_reducible apply HoldsR.ite
    | with_reducible apply holds_ite
    | split
    | (dsimp only)
    | (with_reducible refine holds_mk ?_; with_reducible apply Holds.parts)
end Sys2Proof.Laws
end

