-- ==== Sys2Proof/Laws/HoldsKiln.lean ====
section
/-! SUPPORT. What the operations of Machine/Kiln.lean keep. -/

namespace Sys2Proof.Laws

open Sys2Proof.Machine Sys2Proof.Safety

variable {q : List Instr} {f n : Nat}

theorem holds_State_testBank {s : Sys2Proof.Machine.State} {a2 : Nat} {a3 : Nat} (h : Holds q f n s) :
    Holds q f n (Sys2Proof.Machine.State.testBank s a2 a3) := by
  unfold Sys2Proof.Machine.State.testBank
  repeat' first
    | with_reducible assumption
    | (with_reducible intro _)
    | with_reducible apply holds_State_placeGuests
    | with_reducible apply holds_State_clearGroup
    | split

theorem holds_State_takeUnit {s : Sys2Proof.Machine.State} {a2 : Sys2Proof.Machine.Slice} (h : Holds q f n s) :
    Holds q f n (Sys2Proof.Machine.State.takeUnit s a2) := by
  unfold Sys2Proof.Machine.State.takeUnit
  repeat' first
    | with_reducible assumption
    | (with_reducible intro _)
    | with_reducible apply holds_State_wakeTo
    | with_reducible apply holds_State_laneDown
    | with_reducible apply holds_State_releaseSeq
    | with_reducible apply holds_State_moveJobs
    | with_reducible apply holds_State_suspendJobs
    | with_reducible apply holds_State_testBank
    | with_reducible apply holds_ite
    | split
    | (dsimp only)

theorem holds_State_startSlice {s : Sys2Proof.Machine.State} {a2 : Sys2Proof.Machine.Slice} {a3 : Bool} (h : Holds q f n s) :
    Holds q f n (Sys2Proof.Machine.State.startSlice s a2 a3) := by
  unfold Sys2Proof.Machine.State.startSlice
  repeat' first
    | with_reducible assumption
    | (with_reducible intro _)
    | with_reducible apply holds_State_takeUnit
    | with_reducible apply holds_State_put
    | with_reducible apply holds_ite
    | split
    | (dsimp only)
    | (with_reducible refine holds_mk ?_; with_reducible apply Holds.parts)

theorem holds_State_countSkip {s : Sys2Proof.Machine.State} {a2 : Nat} {a3 : Bool} (h : Holds q f n s) :
    Holds q f n (Sys2Proof.Machine.State.countSkip s a2 a3) := by
  unfold Sys2Proof.Machine.State.countSkip
  repeat' first
    | with_reducible assumption
    | (with_reducible intro _)
    | with_reducible apply holds_State_bump64
    | with_reducible apply holds_State_put
    | with_reducible apply holds_ite

theorem holds_State_runEntry {s : Sys2Proof.Machine.State} {a2 : Nat} {a3 : Option Sys2Proof.Machine.Slice} {a4 : Bool} (h : Holds q f n s) :
    Holds q f n (Sys2Proof.Machine.State.runEntry s a2 a3 a4) := by
  unfold Sys2Proof.Machine.State.runEntry
  repeat' first
    | with_reducible assumption
    | (with_reducible intro _)
    | with_reducible apply holds_State_countSkip
    | with_reducible apply holds_State_startSlice
    | with_reducible apply holds_ite
    | split

theorem holds_State_advanceSweep {s : Sys2Proof.Machine.State} (h : Holds q f n s) :
    Holds q f n (Sys2Proof.Machine.State.advanceSweep s) := by
  unfold Sys2Proof.Machine.State.advanceSweep
  repeat' first
    | with_reducible assumption
    | (with_reducible intro _)
    | with_reducible apply holds_State_bump32
    | with_reducible apply holds_State_put
    | with_reducible apply holds_ite

theorem holds_State_requestedSlice {s : Sys2Proof.Machine.State} {a2 : Nat} (h : Holds q f n s) :
    Holds q f n (Sys2Proof.Machine.State.requestedSlice s a2).2 := by
  unfold Sys2Proof.Machine.State.requestedSlice
  repeat' first
    | with_reducible assumption
    | (with_reducible intro _)
    | with_reducible apply holds_State_free
    | with_reducible refine holds_snd_eq ‹_› ?_
    | with_reducible apply holds_ite_snd

theorem holds_execKilnTick {s : Sys2Proof.Machine.State} (h : Holds q f n s) :
    HoldsR q f n (Sys2Proof.Machine.execKilnTick s) := by
  unfold Sys2Proof.Machine.execKilnTick
  repeat' first
    | with_reducible assumption
    | (with_reducible intro _)
    | with_reducible apply holds_State_request
    | with_reducible apply holds_State_requestedSlice
    | with_reducible apply holds_State_runEntry
    | with_reducible apply holds_State_advanceSweep
    | with_reducible refine holds_snd_eq ‹_› ?_
    | with_reducible apply HoldsR.next
    | exact HoldsR.undefined (by decide)
    | with_reducible apply holds_ite_snd
    | with_reducible apply HoldsR.ite
    | with_reducible apply holds_ite
    | split
    | (dsimp only)
    | (with_reducible refine holds_mk ?_; with_reducible apply Holds.parts)

theorem holds_State_dropSlice {s : Sys2Proof.Machine.State} {a2 : Sys2Proof.Machine.SliceRun} (h : Holds q f n s) :
    Holds q f n (Sys2Proof.Machine.State.dropSlice s a2) := by
  unfold Sys2Proof.Machine.State.dropSlice
  repeat' first
    | with_reducible assumption
    | (with_reducible intro _)
    | split
    | (dsimp only)
    | (with_reducible refine holds_mk ?_; with_reducible apply Holds.parts)

theorem holds_State_passSlice {s : Sys2Proof.Machine.State} {a2 : Sys2Proof.Machine.SliceRun} (h : Holds q f n s) :
    Holds q f n (Sys2Proof.Machine.State.passSlice s a2) := by
  unfold Sys2Proof.Machine.State.passSlice
  repeat' first
    | with_reducible assumption
    | (with_reducible intro _)
    | with_reducible apply holds_State_bump64
    | with_reducible apply holds_State_restoreSlice
    | with_reducible apply holds_State_dropSlice
    | with_reducible apply holds_State_put
    | with_reducible apply holds_ite
    | split
    | (dsimp only)
    | (with_reducible refine holds_mk ?_; with_reducible apply Holds.parts)

theorem holds_State_recordFailure {s : Sys2Proof.Machine.State} {a2 : Nat} {a3 : Nat} {a4 : Nat} {a5 : Nat} {a6 : Nat} (h : Holds q f n s) :
    Holds q f n (Sys2Proof.Machine.State.recordFailure s a2 a3 a4 a5 a6) := by
  unfold Sys2Proof.Machine.State.recordFailure
  repeat' first
    | with_reducible assumption
    | (with_reducible intro _)
    | with_reducible apply holds_State_put

theorem holds_State_kilnFailed {s : Sys2Proof.Machine.State} {a2 : Nat} (h : Holds q f n s) :
    Holds q f n (Sys2Proof.Machine.State.kilnFailed s a2) := by
  unfold Sys2Proof.Machine.State.kilnFailed
  repeat' first
    | with_reducible assumption
    | (with_reducible intro _)
    | with_reducible apply holds_State_bootTo
    | with_reducible apply holds_State_holdDomains
    | with_reducible apply holds_State_log

theorem holds_State_failSignature {s : Sys2Proof.Machine.State} (h : Holds q f n s) :
    Holds q f n (Sys2Proof.Machine.State.failSignature s) := by
  unfold Sys2Proof.Machine.State.failSignature
  repeat' first
    | with_reducible assumption
    | (with_reducible intro _)
    | with_reducible apply holds_State_kilnFailed
    | with_reducible apply holds_State_request
    | with_reducible apply holds_State_startReload
    | with_reducible apply holds_State_rerunSignature
    | with_reducible apply holds_ite
    | split
    | (dsimp only)
    | (with_reducible refine holds_mk ?_; with_reducible apply Holds.parts)

theorem holds_State_failSlice {s : Sys2Proof.Machine.State} {a2 : Sys2Proof.Machine.SliceRun} {a3 : Nat} {a4 : Nat} {a5 : Nat} (h : Holds q f n s) :
    Holds q f n (Sys2Proof.Machine.State.failSlice s a2 a3 a4 a5) := by
  unfold Sys2Proof.Machine.State.failSlice
  repeat' first
    | with_reducible assumption
    | (with_reducible intro _)
    | with_reducible apply holds_State_bump32
    | with_reducible apply holds_State_dropSlice
    | with_reducible apply holds_State_recordFailure
    | with_reducible apply holds_State_put
    | with_reducible apply holds_State_failSignature
    | with_reducible apply holds_State_judge
    | with_reducible apply holds_State_restoreSlice
    | with_reducible apply holds_ite

theorem holds_execSliceEnd {a1 : Fin 2} {a2 : Sys2Proof.SliceResult} {s : Sys2Proof.Machine.State} (h : Holds q f n s) :
    HoldsR q f n (Sys2Proof.Machine.execSliceEnd a1 a2 s) := by
  unfold Sys2Proof.Machine.execSliceEnd
  repeat' first
    | with_reducible assumption
    | (with_reducible intro _)
    | with_reducible apply holds_State_passSlice
    | with_reducible apply holds_State_failSlice
    | with_reducible apply HoldsR.next
    | exact HoldsR.undefined (by decide)
    | with_reducible apply holds_getD
    | with_reducible apply HoldsR.ite
    | with_reducible apply holds_ite
    | split

theorem holds_execSliceTimeout {a1 : Fin 2} {s : Sys2Proof.Machine.State} (h : Holds q f n s) :
    HoldsR q f n (Sys2Proof.Machine.execSliceTimeout a1 s) := by
  unfold Sys2Proof.Machine.execSliceTimeout
  repeat' first
    | with_reducible assumption
    | (with_reducible intro _)
    | with_reducible apply holds_State_failSlice
    | with_reducible apply HoldsR.next
    | exact HoldsR.undefined (by decide)
    | with_reducible apply holds_getD
    | with_reducible apply HoldsR.ite
    | with_reducible apply holds_ite
    | split

theorem holds_State_sliceRequest {s : Sys2Proof.Machine.State} {a2 : Nat} (h : Holds q f n s) :
    HoldsO q f n (Sys2Proof.Machine.State.sliceRequest s a2) := by
  unfold Sys2Proof.Machine.State.sliceRequest
  repeat' first
    | with_reducible assumption
    | (with_reducible intro _)
    | with_reducible apply holds_State_put
    | exact HoldsO.none
    | with_reducible apply HoldsO.some
    | with_reducible apply HoldsO.ite
    | with_reducible apply holds_ite
    | split
    | (dsimp only)
    | (with_reducible refine holds_mk ?_; with_reducible apply Holds.parts)

theorem holds_execPowerOnKilnPassEnd {a1 : Option Sys2Proof.SliceFailure} {s : Sys2Proof.Machine.State} (h : Holds q f n s) :
    HoldsR q f n (Sys2Proof.Machine.execPowerOnKilnPassEnd a1 s) := by
  unfold Sys2Proof.Machine.execPowerOnKilnPassEnd
  repeat' first
    | with_reducible assumption
    | (with_reducible intro _)
    | with_reducible apply holds_State_becomeReady
    | with_reducible apply holds_State_recordFailure
    | with_reducible apply holds_State_kilnFailed
    | with_reducible apply HoldsR.next
    | exact HoldsR.undefined (by decide)
    | with_reducible apply HoldsR.ite
    | with_reducible apply holds_ite
    | split
end Sys2Proof.Laws
end

