-- ==== Sys2Proof/Laws/HoldsTiming.lean ====
section
/-! SUPPORT. What the operations of Machine/Timing.lean keep. -/

namespace Sys2Proof.Laws

open Sys2Proof.Machine Sys2Proof.Safety

variable {q : List Instr} {f n : Nat}

theorem holds_State_ppsBase {s : Sys2Proof.Machine.State} (h : Holds q f n s) :
    Holds q f n (Sys2Proof.Machine.State.ppsBase s) := by
  unfold Sys2Proof.Machine.State.ppsBase
  repeat' first
    | with_reducible assumption
    | (with_reducible intro _)
    | split
    | (dsimp only)
    | (with_reducible refine holds_mk ?_; with_reducible apply Holds.parts)

theorem holds_State_ppsJudge {s : Sys2Proof.Machine.State} (h : Holds q f n s) :
    Holds q f n (Sys2Proof.Machine.State.ppsJudge s) := by
  unfold Sys2Proof.Machine.State.ppsJudge
  repeat' first
    | with_reducible assumption
    | (with_reducible intro _)
    | with_reducible apply holds_State_ppsBase
    | with_reducible apply holds_ite
    | split
    | (dsimp only)
    | (with_reducible refine holds_mk ?_; with_reducible apply Holds.parts)

theorem holds_execPpsInEdge {s : Sys2Proof.Machine.State} (h : Holds q f n s) :
    HoldsR q f n (Sys2Proof.Machine.execPpsInEdge s) := by
  unfold Sys2Proof.Machine.execPpsInEdge
  repeat' first
    | with_reducible assumption
    | (with_reducible intro _)
    | with_reducible apply holds_State_wrap32
    | with_reducible apply holds_State_put
    | with_reducible apply HoldsR.next
    | exact HoldsR.undefined (by decide)
    | with_reducible apply HoldsR.ite
    | with_reducible apply holds_ite
    | split
    | (dsimp only)
    | (with_reducible refine holds_mk ?_; with_reducible apply Holds.parts)

theorem holds_execPpsOutEdge {s : Sys2Proof.Machine.State} (h : Holds q f n s) :
    HoldsR q f n (Sys2Proof.Machine.execPpsOutEdge s) := by
  unfold Sys2Proof.Machine.execPpsOutEdge
  repeat' first
    | with_reducible assumption
    | (with_reducible intro _)
    | with_reducible apply holds_State_ppsJudge
    | with_reducible apply HoldsR.next
    | exact HoldsR.undefined (by decide)
    | with_reducible apply HoldsR.ite

theorem holds_execPpsOutWidthExpiry {s : Sys2Proof.Machine.State} (h : Holds q f n s) :
    HoldsR q f n (Sys2Proof.Machine.execPpsOutWidthExpiry s) := by
  unfold Sys2Proof.Machine.execPpsOutWidthExpiry
  repeat' first
    | with_reducible assumption
    | (with_reducible intro _)
    | with_reducible apply HoldsR.next
    | exact HoldsR.undefined (by decide)
    | split
    | (dsimp only)
    | (with_reducible refine holds_mk ?_; with_reducible apply Holds.parts)

theorem holds_execTodTxStart {s : Sys2Proof.Machine.State} (h : Holds q f n s) :
    HoldsR q f n (Sys2Proof.Machine.execTodTxStart s) := by
  unfold Sys2Proof.Machine.execTodTxStart
  repeat' first
    | with_reducible assumption
    | (with_reducible intro _)
    | with_reducible apply HoldsR.next
    | exact HoldsR.undefined (by decide)
    | with_reducible apply HoldsR.ite
    | with_reducible apply holds_ite
    | split
    | (dsimp only)
    | (with_reducible refine holds_mk ?_; with_reducible apply Holds.parts)

theorem holds_execTodMessageReceived {a1 : List Sys2Proof.Byte} {s : Sys2Proof.Machine.State} (h : Holds q f n s) :
    HoldsR q f n (Sys2Proof.Machine.execTodMessageReceived a1 s) := by
  unfold Sys2Proof.Machine.execTodMessageReceived
  repeat' first
    | with_reducible assumption
    | (with_reducible intro _)
    | with_reducible apply holds_State_wrap32
    | with_reducible apply holds_State_put
    | with_reducible apply holds_State_bump32
    | with_reducible apply HoldsR.next
    | exact HoldsR.undefined (by decide)
    | with_reducible apply HoldsR.ite

theorem holds_execTimebaseStep {a1 : Int} {s : Sys2Proof.Machine.State} (h : Holds q f n s) :
    HoldsR q f n (Sys2Proof.Machine.execTimebaseStep a1 s) := by
  unfold Sys2Proof.Machine.execTimebaseStep
  repeat' first
    | with_reducible assumption
    | (with_reducible intro _)
    | with_reducible apply holds_State_ppsJudge
    | with_reducible apply holds_State_ppsBase
    | with_reducible apply HoldsR.next
    | exact HoldsR.undefined (by decide)
    | with_reducible apply HoldsR.ite
    | with_reducible apply holds_ite
    | split
    | (dsimp only)
    | (with_reducible refine holds_mk ?_; with_reducible apply Holds.parts)

theorem holds_State_smbusRead {s : Sys2Proof.Machine.State} {a2 : Bool} {a3 : Nat} {a4 : Nat} {a5 : Nat} (h : Holds q f n s) :
    Holds q f n (Sys2Proof.Machine.State.smbusRead s a2 a3 a4 a5) := by
  unfold Sys2Proof.Machine.State.smbusRead
  repeat' first
    | with_reducible assumption
    | (with_reducible intro _)
    | with_reducible apply holds_ite
    | split
    | (dsimp only)
    | (with_reducible refine holds_mk ?_; with_reducible apply Holds.parts)

theorem holds_execSmbusReadBootState {s : Sys2Proof.Machine.State} (h : Holds q f n s) :
    HoldsR q f n (Sys2Proof.Machine.execSmbusReadBootState s) := by
  unfold Sys2Proof.Machine.execSmbusReadBootState
  repeat' first
    | with_reducible assumption
    | (with_reducible intro _)
    | with_reducible apply holds_State_smbusRead
    | with_reducible apply HoldsR.next

theorem holds_execSmbusReadLifeState {s : Sys2Proof.Machine.State} (h : Holds q f n s) :
    HoldsR q f n (Sys2Proof.Machine.execSmbusReadLifeState s) := by
  unfold Sys2Proof.Machine.execSmbusReadLifeState
  repeat' first
    | with_reducible assumption
    | (with_reducible intro _)
    | with_reducible apply holds_State_smbusRead
    | with_reducible apply HoldsR.next

theorem holds_execSmbusReadDieTemp {s : Sys2Proof.Machine.State} (h : Holds q f n s) :
    HoldsR q f n (Sys2Proof.Machine.execSmbusReadDieTemp s) := by
  unfold Sys2Proof.Machine.execSmbusReadDieTemp
  repeat' first
    | with_reducible assumption
    | (with_reducible intro _)
    | with_reducible apply holds_State_smbusRead
    | with_reducible apply HoldsR.next

theorem holds_execSmbusReadTempAlarm {s : Sys2Proof.Machine.State} (h : Holds q f n s) :
    HoldsR q f n (Sys2Proof.Machine.execSmbusReadTempAlarm s) := by
  unfold Sys2Proof.Machine.execSmbusReadTempAlarm
  repeat' first
    | with_reducible assumption
    | (with_reducible intro _)
    | with_reducible apply holds_State_smbusRead
    | with_reducible apply HoldsR.next

theorem holds_execSmbusWriteTempAlarm {a1 : List Sys2Proof.Byte} {a2 : Option Sys2Proof.Byte} {s : Sys2Proof.Machine.State} (h : Holds q f n s) :
    HoldsR q f n (Sys2Proof.Machine.execSmbusWriteTempAlarm a1 a2 s) := by
  unfold Sys2Proof.Machine.execSmbusWriteTempAlarm
  repeat' first
    | with_reducible assumption
    | (with_reducible intro _)
    | with_reducible apply holds_State_put
    | with_reducible apply HoldsR.next
    | exact HoldsR.undefined (by decide)
    | with_reducible apply HoldsR.ite
    | with_reducible apply holds_ite
    | split
    | (dsimp only)
    | (with_reducible refine holds_mk ?_; with_reducible apply Holds.parts)

theorem holds_execSmbusReadRailStatus {s : Sys2Proof.Machine.State} (h : Holds q f n s) :
    HoldsR q f n (Sys2Proof.Machine.execSmbusReadRailStatus s) := by
  unfold Sys2Proof.Machine.execSmbusReadRailStatus
  repeat' first
    | with_reducible assumption
    | (with_reducible intro _)
    | with_reducible apply holds_State_smbusRead
    | with_reducible apply HoldsR.next

theorem holds_execSmbusReadRailVoltage {a1 : Fin 7} {a2 : BitVec 16} {s : Sys2Proof.Machine.State} (h : Holds q f n s) :
    HoldsR q f n (Sys2Proof.Machine.execSmbusReadRailVoltage a1 a2 s) := by
  unfold Sys2Proof.Machine.execSmbusReadRailVoltage
  repeat' first
    | with_reducible assumption
    | (with_reducible intro _)
    | with_reducible apply holds_State_smbusRead
    | with_reducible apply HoldsR.next

theorem holds_execPerstNLow {s : Sys2Proof.Machine.State} (h : Holds q f n s) :
    HoldsR q f n (Sys2Proof.Machine.execPerstNLow s) := by
  unfold Sys2Proof.Machine.execPerstNLow
  repeat' first
    | with_reducible assumption
    | (with_reducible intro _)
    | with_reducible apply HoldsR.next
    | exact HoldsR.undefined (by decide)
    | split
    | (dsimp only)
    | (with_reducible refine holds_mk ?_; with_reducible apply Holds.parts)

theorem holds_execPerstNRise {s : Sys2Proof.Machine.State} (h : Holds q f n s) :
    HoldsR q f n (Sys2Proof.Machine.execPerstNRise s) := by
  unfold Sys2Proof.Machine.execPerstNRise
  repeat' first
    | with_reducible assumption
    | (with_reducible intro _)
    | with_reducible apply HoldsR.next
    | exact HoldsR.undefined (by decide)
    | split
    | (dsimp only)
    | (with_reducible refine holds_mk ?_; with_reducible apply Holds.parts)

theorem holds_execTrstNLow {s : Sys2Proof.Machine.State} (h : Holds q f n s) :
    HoldsR q f n (Sys2Proof.Machine.execTrstNLow s) := by
  unfold Sys2Proof.Machine.execTrstNLow
  repeat' first
    | with_reducible assumption
    | (with_reducible intro _)
    | with_reducible apply HoldsR.next
    | exact HoldsR.undefined (by decide)
    | split
    | (dsimp only)
    | (with_reducible refine holds_mk ?_; with_reducible apply Holds.parts)

theorem holds_State_loadInstruction {s : Sys2Proof.Machine.State} {a2 : Sys2Proof.Machine.Tap} (h : Holds q f n s) :
    HoldsR q f n (Sys2Proof.Machine.State.loadInstruction s a2) := by
  unfold Sys2Proof.Machine.State.loadInstruction
  repeat' first
    | with_reducible assumption
    | (with_reducible intro _)
    | with_reducible apply HoldsR.next
    | exact HoldsR.undefined (by decide)
    | with_reducible apply HoldsR.ite
    | with_reducible apply holds_ite
    | split
    | (dsimp only)
    | (with_reducible refine holds_mk ?_; with_reducible apply Holds.parts)

theorem holds_execExtestPulse {s : Sys2Proof.Machine.State} (h : Holds q f n s) :
    HoldsR q f n (Sys2Proof.Machine.execExtestPulse s) := by
  unfold Sys2Proof.Machine.execExtestPulse
  repeat' first
    | with_reducible assumption
    | (with_reducible intro _)
    | with_reducible apply holds_State_loadInstruction

theorem holds_execExtestTrain {s : Sys2Proof.Machine.State} (h : Holds q f n s) :
    HoldsR q f n (Sys2Proof.Machine.execExtestTrain s) := by
  unfold Sys2Proof.Machine.execExtestTrain
  repeat' first
    | with_reducible assumption
    | (with_reducible intro _)
    | with_reducible apply holds_State_loadInstruction

theorem holds_execFlowFlush {a1 : Fin 2097152} {s : Sys2Proof.Machine.State} (h : Holds q f n s) :
    HoldsR q f n (Sys2Proof.Machine.execFlowFlush a1 s) := by
  unfold Sys2Proof.Machine.execFlowFlush
  repeat' first
    | with_reducible assumption
    | (with_reducible intro _)
    | with_reducible apply holds_State_flowWriteBack
    | with_reducible apply HoldsR.next
    | exact HoldsR.undefined (by decide)
    | with_reducible apply HoldsR.ite

theorem holds_State_caliperFreeze {s : Sys2Proof.Machine.State} {a2 : Nat} (h : Holds q f n s) :
    Holds q f n (Sys2Proof.Machine.State.caliperFreeze s a2) := by
  unfold Sys2Proof.Machine.State.caliperFreeze
  repeat' first
    | with_reducible assumption
    | (with_reducible intro _)
    | with_reducible apply holds_State_put
    | with_reducible apply holds_ite

theorem holds_State_caliperClear {s : State} (h : Holds q f n s) : Holds q f n s.caliperClear :=
  { h with dom := sparse_filter_wf h.dom }
end Sys2Proof.Laws
end

