-- ==== Sys2Proof/Laws/HoldsWrites.lean ====
section
/-! SUPPORT. What the operations of Machine/Writes.lean keep. -/

namespace Sys2Proof.Laws

open Sys2Proof.Machine Sys2Proof.Safety

variable {q : List Instr} {f n : Nat}

theorem holds_refuseValue   :
    HoldsW q f n (Sys2Proof.Machine.refuseValue) := by
  unfold Sys2Proof.Machine.refuseValue
  repeat' first
    | with_reducible assumption
    | (with_reducible intro _)
    | with_reducible apply HoldsR.next
    | exact HoldsR.undefined (by decide)
    | with_reducible apply HoldsW.ok
    | exact HoldsW.error

theorem holds_wrote {s : Sys2Proof.Machine.State} (h : Holds q f n s) :
    HoldsW q f n (Sys2Proof.Machine.wrote s) := by
  unfold Sys2Proof.Machine.wrote
  repeat' first
    | with_reducible assumption
    | (with_reducible intro _)
    | with_reducible apply HoldsR.next
    | exact HoldsR.undefined (by decide)
    | with_reducible apply HoldsW.ok

theorem holds_wroteIf {a1 : Option State} (ha1 : HoldsO q f n a1) : HoldsW q f n (wroteIf a1) := by
  cases a1 with
  | none => exact HoldsW.error
  | some t => exact HoldsW.ok (ha1 t rfl)

theorem holds_onOne {s : Sys2Proof.Machine.State} {a2 : Nat} {a3 : Sys2Proof.Machine.State → Sys2Proof.Machine.State} (h : Holds q f n s) (ha3 : ∀ x0, Holds q f n x0 → Holds q f n (a3 x0)) :
    HoldsW q f n (Sys2Proof.Machine.onOne s a2 a3) := by
  unfold Sys2Proof.Machine.onOne
  repeat' first
    | with_reducible assumption
    | (with_reducible intro _)
    | with_reducible apply ha3
    | with_reducible apply holds_wrote
    | with_reducible apply HoldsR.next
    | exact HoldsR.undefined (by decide)
    | with_reducible apply HoldsW.ok
    | exact HoldsW.error
    | with_reducible apply holds_ite

theorem holds_State_storeSetting {s : Sys2Proof.Machine.State} {a2 : Sys2Proof.Machine.Family} {a3 : Nat} {a4 : Nat} (h : Holds q f n s) :
    Holds q f n (Sys2Proof.Machine.State.storeSetting s a2 a3 a4) := by
  unfold Sys2Proof.Machine.State.storeSetting
  repeat' first
    | with_reducible assumption
    | (with_reducible intro _)
    | with_reducible apply holds_State_put
    | with_reducible apply holds_ite
    | split
    | (dsimp only)
    | (with_reducible refine holds_mk ?_; with_reducible apply Holds.parts)

theorem holds_State_storeBytes {s : Sys2Proof.Machine.State} {a2 : Sys2Proof.Machine.Family} {a3 : Nat} {a4 : Nat} {a5 : List Sys2Proof.Byte} (h : Holds q f n s) :
    Holds q f n (Sys2Proof.Machine.State.storeBytes s a2 a3 a4 a5) := by
  unfold Sys2Proof.Machine.State.storeBytes
  repeat' first
    | with_reducible assumption
    | (with_reducible intro _)
    | with_reducible apply holds_State_putBytes
    | with_reducible apply holds_foldl
    | with_reducible apply holds_foldl_fst
    | with_reducible apply holds_ite
    | split
    | (dsimp only)
    | (with_reducible refine holds_mk ?_; with_reducible apply Holds.parts)

theorem holds_State_writeLife {s : Sys2Proof.Machine.State} {a2 : Nat} {a3 : Option Bool} (h : Holds q f n s) :
    HoldsW q f n (Sys2Proof.Machine.State.writeLife s a2 a3) := by
  unfold Sys2Proof.Machine.State.writeLife
  repeat' first
    | with_reducible assumption
    | (with_reducible intro _)
    | with_reducible apply holds_refuseValue
    | with_reducible apply holds_wrote
    | with_reducible apply holds_State_lifeRequest
    | with_reducible apply holds_State_free
    | with_reducible refine holds_snd_eq ‹_› ?_
    | with_reducible refine HoldsW.of_eq ‹_› ?_
    | with_reducible apply HoldsR.next
    | exact HoldsR.undefined (by decide)
    | with_reducible apply HoldsW.ok
    | exact HoldsW.error
    | with_reducible apply holds_ite_snd
    | with_reducible apply holds_ite
    | with_reducible apply HoldsW.ite
    | split

theorem holds_State_writeUpload {s : Sys2Proof.Machine.State} {a2 : Nat} (h : Holds q f n s) :
    HoldsW q f n (Sys2Proof.Machine.State.writeUpload s a2) := by
  unfold Sys2Proof.Machine.State.writeUpload
  repeat' first
    | with_reducible assumption
    | (with_reducible intro _)
    | with_reducible apply holds_refuseValue
    | with_reducible apply holds_wrote
    | with_reducible apply holds_State_upload
    | with_reducible apply HoldsR.next
    | exact HoldsR.undefined (by decide)
    | with_reducible apply HoldsW.ok
    | exact HoldsW.error
    | with_reducible apply holds_ite
    | with_reducible apply HoldsW.ite

theorem holds_State_writeReset {s : Sys2Proof.Machine.State} {a2 : Nat} (h : Holds q f n s) :
    Holds q f n (Sys2Proof.Machine.State.writeReset s a2) := by
  unfold Sys2Proof.Machine.State.writeReset
  repeat' first
    | with_reducible assumption
    | (with_reducible intro _)
    | with_reducible apply holds_State_warmCause
    | with_reducible apply holds_State_beginReset
    | with_reducible apply holds_ite

theorem holds_State_writeIdentity {s : Sys2Proof.Machine.State} {a2 : Sys2Proof.Machine.Family} {a3 : Nat} {a4 : Nat} {a5 : Option Bool} (h : Holds q f n s) :
    HoldsW q f n (Sys2Proof.Machine.State.writeIdentity s a2 a3 a4 a5) := by
  unfold Sys2Proof.Machine.State.writeIdentity
  repeat' first
    | with_reducible assumption
    | (with_reducible intro _)
    | with_reducible apply holds_State_writeLife
    | with_reducible apply holds_wrote
    | with_reducible apply holds_State_clearFlags
    | with_reducible apply holds_State_storeSetting
    | with_reducible apply holds_State_closeSessions
    | with_reducible apply holds_onOne
    | with_reducible apply holds_State_closeSession
    | with_reducible refine HoldsW.of_eq ‹_› ?_
    | with_reducible apply HoldsR.next
    | exact HoldsR.undefined (by decide)
    | with_reducible apply HoldsW.ok
    | exact HoldsW.error
    | with_reducible apply holds_ite
    | with_reducible apply HoldsW.ite

theorem holds_State_writeClocks {s : Sys2Proof.Machine.State} {a2 : Sys2Proof.Machine.Family} {a3 : Nat} {a4 : Nat} (h : Holds q f n s) :
    HoldsW q f n (Sys2Proof.Machine.State.writeClocks s a2 a3 a4) := by
  unfold Sys2Proof.Machine.State.writeClocks
  repeat' first
    | with_reducible assumption
    | (with_reducible intro _)
    | with_reducible apply holds_wrote
    | with_reducible apply holds_State_writeReset
    | with_reducible apply holds_State_writeUpload
    | with_reducible apply holds_State_clearFlags
    | with_reducible apply holds_State_ppsBase
    | with_reducible apply holds_State_storeSetting
    | with_reducible apply HoldsR.next
    | exact HoldsR.undefined (by decide)
    | with_reducible apply HoldsW.ok
    | exact HoldsW.error
    | with_reducible apply holds_ite
    | with_reducible apply HoldsW.ite
    | split
    | (dsimp only)
    | (with_reducible refine holds_mk ?_; with_reducible apply Holds.parts)

theorem holds_State_writeModes {s : Sys2Proof.Machine.State} {a2 : Sys2Proof.Machine.Family} {a3 : Nat} {a4 : Nat} (h : Holds q f n s) :
    HoldsW q f n (Sys2Proof.Machine.State.writeModes s a2 a3 a4) := by
  unfold Sys2Proof.Machine.State.writeModes
  repeat' first
    | with_reducible assumption
    | (with_reducible intro _)
    | with_reducible apply holds_State_requestFn
    | with_reducible apply holds_wrote
    | with_reducible apply holds_State_clearFlags
    | with_reducible apply holds_State_storeSetting
    | with_reducible apply holds_State_sleepOff
    | with_reducible apply HoldsR.next
    | exact HoldsR.undefined (by decide)
    | with_reducible apply HoldsW.ok
    | exact HoldsW.error
    | with_reducible apply holds_ite
    | with_reducible apply HoldsW.ite

theorem holds_State_writePort {s : Sys2Proof.Machine.State} {a2 : Sys2Proof.Machine.Family} {a3 : Nat} {a4 : Nat} (h : Holds q f n s) :
    HoldsW q f n (Sys2Proof.Machine.State.writePort s a2 a3 a4) := by
  unfold Sys2Proof.Machine.State.writePort
  repeat' first
    | with_reducible assumption
    | (with_reducible intro _)
    | with_reducible apply holds_onOne
    | with_reducible apply holds_State_underrunStepReset
    | with_reducible apply holds_wrote
    | with_reducible apply holds_State_clearFlags
    | with_reducible apply holds_State_statsClear
    | with_reducible apply holds_State_storeSetting
    | with_reducible refine HoldsW.of_eq ‹_› ?_
    | with_reducible apply HoldsR.next
    | exact HoldsR.undefined (by decide)
    | with_reducible apply HoldsW.ok
    | exact HoldsW.error
    | with_reducible apply holds_ite
    | with_reducible apply HoldsW.ite

theorem holds_State_selectGraph {s : Sys2Proof.Machine.State} {a2 : Nat} (h : Holds q f n s) :
    HoldsW q f n (Sys2Proof.Machine.State.selectGraph s a2) := by
  unfold Sys2Proof.Machine.State.selectGraph
  repeat' first
    | with_reducible assumption
    | (with_reducible intro _)
    | with_reducible apply holds_wrote
    | with_reducible apply holds_State_put
    | with_reducible apply HoldsR.next
    | exact HoldsR.undefined (by decide)
    | with_reducible apply HoldsW.ok
    | exact HoldsW.error
    | with_reducible apply holds_ite
    | with_reducible apply HoldsW.ite

theorem holds_State_loadStandard {s : Sys2Proof.Machine.State} {a2 : Nat} (h : Holds q f n s) :
    HoldsW q f n (Sys2Proof.Machine.State.loadStandard s a2) := by
  unfold Sys2Proof.Machine.State.loadStandard
  repeat' first
    | with_reducible assumption
    | (with_reducible intro _)
    | with_reducible apply holds_wrote
    | with_reducible apply holds_refuseValue
    | with_reducible apply holds_State_loadStandardGraph
    | with_reducible apply HoldsR.next
    | exact HoldsR.undefined (by decide)
    | with_reducible apply HoldsW.ok
    | exact HoldsW.error
    | with_reducible apply holds_ite
    | with_reducible apply HoldsW.ite

theorem holds_State_writeParser {s : Sys2Proof.Machine.State} {a2 : Sys2Proof.Machine.Family} {a3 : Nat} {a4 : Nat} (h : Holds q f n s) :
    HoldsW q f n (Sys2Proof.Machine.State.writeParser s a2 a3 a4) := by
  unfold Sys2Proof.Machine.State.writeParser
  repeat' first
    | with_reducible assumption
    | (with_reducible intro _)
    | with_reducible apply holds_wrote
    | with_reducible apply holds_State_clearFlags
    | with_reducible apply holds_State_selectGraph
    | with_reducible apply holds_State_loadStandard
    | with_reducible apply holds_State_storeSetting
    | with_reducible apply HoldsR.next
    | exact HoldsR.undefined (by decide)
    | with_reducible apply HoldsW.ok
    | exact HoldsW.error
    | with_reducible apply holds_ite
    | with_reducible apply HoldsW.ite

theorem holds_State_writeProbe {s : Sys2Proof.Machine.State} {a2 : Nat} {a3 : Nat} {a4 : Nat} (h : Holds q f n s) :
    HoldsW q f n (Sys2Proof.Machine.State.writeProbe s a2 a3 a4) := by
  unfold Sys2Proof.Machine.State.writeProbe
  repeat' first
    | with_reducible assumption
    | (with_reducible intro _)
    | with_reducible apply holds_refuseValue
    | with_reducible apply holds_wrote
    | with_reducible apply holds_State_put
    | with_reducible refine HoldsW.of_eq ‹_› ?_
    | with_reducible apply HoldsR.next
    | exact HoldsR.undefined (by decide)
    | with_reducible apply HoldsW.ok
    | exact HoldsW.error
    | with_reducible apply HoldsO.map
    | with_reducible apply holds_ite
    | with_reducible apply HoldsW.ite

theorem holds_State_writeSeed {s : Sys2Proof.Machine.State} {a2 : Nat} {a3 : Nat} (h : Holds q f n s) :
    HoldsW q f n (Sys2Proof.Machine.State.writeSeed s a2 a3) := by
  unfold Sys2Proof.Machine.State.writeSeed
  repeat' first
    | with_reducible assumption
    | (with_reducible intro _)
    | with_reducible apply holds_refuseValue
    | with_reducible apply holds_wrote
    | with_reducible apply holds_State_put
    | with_reducible refine HoldsW.of_eq ‹_› ?_
    | with_reducible apply HoldsR.next
    | exact HoldsR.undefined (by decide)
    | with_reducible apply HoldsW.ok
    | exact HoldsW.error
    | with_reducible apply holds_ite
    | with_reducible apply HoldsW.ite

theorem holds_State_writeTables {s : Sys2Proof.Machine.State} {a2 : Sys2Proof.Machine.Family} {a3 : Nat} {a4 : Nat} (h : Holds q f n s) :
    HoldsW q f n (Sys2Proof.Machine.State.writeTables s a2 a3 a4) := by
  unfold Sys2Proof.Machine.State.writeTables
  repeat' first
    | with_reducible assumption
    | (with_reducible intro _)
    | with_reducible apply holds_State_writeSeed
    | with_reducible apply holds_wrote
    | with_reducible apply holds_State_clearFlags
    | with_reducible apply holds_State_writeProbe
    | with_reducible apply holds_onOne
    | with_reducible apply holds_State_versionCancel
    | with_reducible apply holds_State_storeSetting
    | with_reducible apply HoldsR.next
    | exact HoldsR.undefined (by decide)
    | with_reducible apply HoldsW.ok
    | exact HoldsW.error
    | with_reducible apply holds_ite
    | with_reducible apply HoldsW.ite

theorem holds_State_writeRelief {s : Sys2Proof.Machine.State} {a2 : Sys2Proof.Machine.Family} {a3 : Nat} {a4 : Nat} (h : Holds q f n s) :
    HoldsW q f n (Sys2Proof.Machine.State.writeRelief s a2 a3 a4) := by
  unfold Sys2Proof.Machine.State.writeRelief
  repeat' first
    | with_reducible assumption
    | (with_reducible intro _)
    | with_reducible apply holds_wrote
    | with_reducible apply holds_State_clearFlags
    | with_reducible apply holds_State_storeSetting
    | with_reducible apply HoldsR.next
    | exact HoldsR.undefined (by decide)
    | with_reducible apply HoldsW.ok
    | exact HoldsW.error
    | with_reducible apply holds_ite
    | with_reducible apply HoldsW.ite

theorem holds_State_refitCapture {s : Sys2Proof.Machine.State} (h : Holds q f n s) :
    Holds q f n (Sys2Proof.Machine.State.refitCapture s) := by
  unfold Sys2Proof.Machine.State.refitCapture
  repeat' first
    | with_reducible assumption
    | (with_reducible intro _)
    | with_reducible apply holds_State_free
    | with_reducible apply holds_State_put
    | with_reducible refine holds_snd_eq ‹_› ?_
    | with_reducible apply holds_ite_snd
    | with_reducible apply holds_ite

theorem holds_State_writeCaptureSize {s : Sys2Proof.Machine.State} {a2 : Nat} (h : Holds q f n s) :
    HoldsW q f n (Sys2Proof.Machine.State.writeCaptureSize s a2) := by
  unfold Sys2Proof.Machine.State.writeCaptureSize
  repeat' first
    | with_reducible assumption
    | (with_reducible intro _)
    | with_reducible apply holds_State_put
    | with_reducible apply holds_refuseValue
    | with_reducible apply holds_wrote
    | with_reducible apply holds_State_refitCapture
    | with_reducible apply HoldsR.next
    | exact HoldsR.undefined (by decide)
    | with_reducible apply HoldsW.ok
    | exact HoldsW.error
    | with_reducible apply holds_ite
    | with_reducible apply HoldsW.ite

theorem holds_State_writeBuffers {s : Sys2Proof.Machine.State} {a2 : Sys2Proof.Machine.Family} {a3 : Nat} {a4 : Nat} (h : Holds q f n s) :
    HoldsW q f n (Sys2Proof.Machine.State.writeBuffers s a2 a3 a4) := by
  unfold Sys2Proof.Machine.State.writeBuffers
  repeat' first
    | with_reducible assumption
    | (with_reducible intro _)
    | with_reducible apply holds_wrote
    | with_reducible apply holds_State_clearFlags
    | with_reducible apply holds_refuseValue
    | with_reducible apply holds_State_restartPeak
    | with_reducible apply holds_State_writeCaptureSize
    | with_reducible apply holds_State_seedSamples
    | with_reducible apply holds_State_put
    | with_reducible apply holds_State_storeSetting
    | with_reducible apply HoldsR.next
    | exact HoldsR.undefined (by decide)
    | with_reducible apply HoldsW.ok
    | exact HoldsW.error
    | with_reducible apply holds_ite
    | with_reducible apply HoldsW.ite

theorem holds_State_writeErase {s : Sys2Proof.Machine.State} {a2 : Nat} (h : Holds q f n s) :
    HoldsW q f n (Sys2Proof.Machine.State.writeErase s a2) := by
  unfold Sys2Proof.Machine.State.writeErase
  repeat' first
    | with_reducible assumption
    | (with_reducible intro _)
    | with_reducible apply holds_refuseValue
    | with_reducible apply holds_wrote
    | with_reducible apply holds_State_raiseTrap
    | with_reducible apply holds_State_request
    | with_reducible apply holds_State_eraseKey
    | with_reducible apply HoldsR.next
    | exact HoldsR.undefined (by decide)
    | with_reducible apply HoldsW.ok
    | exact HoldsW.error
    | with_reducible apply holds_ite
    | with_reducible apply HoldsW.ite

theorem holds_State_writeCipher {s : Sys2Proof.Machine.State} {a2 : Sys2Proof.Machine.Family} {a3 : Nat} {a4 : Nat} (h : Holds q f n s) :
    HoldsW q f n (Sys2Proof.Machine.State.writeCipher s a2 a3 a4) := by
  unfold Sys2Proof.Machine.State.writeCipher
  repeat' first
    | with_reducible assumption
    | (with_reducible intro _)
    | with_reducible apply holds_wrote
    | with_reducible apply holds_State_storeSetting
    | with_reducible apply holds_refuseValue
    | with_reducible apply holds_State_writeErase
    | with_reducible apply holds_wroteIf
    | with_reducible apply holds_State_writeClearLoad
    | with_reducible apply holds_State_abortJob
    | with_reducible apply holds_State_clearFlags
    | with_reducible apply HoldsR.next
    | exact HoldsR.undefined (by decide)
    | exact HoldsO.none
    | with_reducible apply HoldsO.some
    | with_reducible apply HoldsW.ok
    | exact HoldsW.error
    | with_reducible apply HoldsO.ite
    | with_reducible apply holds_ite
    | with_reducible apply HoldsW.ite

theorem holds_State_writeAtelier {s : Sys2Proof.Machine.State} {a2 : Sys2Proof.Machine.Family} {a3 : Nat} {a4 : Nat} (h : Holds q f n s) :
    HoldsW q f n (Sys2Proof.Machine.State.writeAtelier s a2 a3 a4) := by
  unfold Sys2Proof.Machine.State.writeAtelier
  repeat' first
    | with_reducible assumption
    | (with_reducible intro _)
    | with_reducible apply holds_wroteIf
    | with_reducible apply holds_State_reloadStart
    | with_reducible apply holds_wrote
    | with_reducible apply holds_State_clearFlags
    | with_reducible apply holds_State_storeSetting
    | with_reducible apply HoldsR.next
    | exact HoldsR.undefined (by decide)
    | exact HoldsO.none
    | with_reducible apply HoldsO.some
    | with_reducible apply HoldsW.ok
    | exact HoldsW.error
    | with_reducible apply HoldsO.ite
    | with_reducible apply holds_ite
    | with_reducible apply HoldsW.ite

theorem holds_State_writeFence {s : Sys2Proof.Machine.State} {a2 : Nat} (h : Holds q f n s) :
    HoldsW q f n (Sys2Proof.Machine.State.writeFence s a2) := by
  unfold Sys2Proof.Machine.State.writeFence
  repeat' first
    | with_reducible assumption
    | (with_reducible intro _)
    | with_reducible apply holds_wroteIf
    | with_reducible apply holds_State_request
    | with_reducible apply holds_State_fenceRequest
    | with_reducible refine HoldsO.of_eq ‹_› ?_
    | with_reducible refine HoldsW.of_eq ‹_› ?_
    | with_reducible apply HoldsR.next
    | exact HoldsR.undefined (by decide)
    | exact HoldsO.none
    | with_reducible apply HoldsO.some
    | with_reducible apply HoldsW.ok
    | exact HoldsW.error
    | with_reducible apply HoldsO.map
    | with_reducible apply HoldsO.ite
    | with_reducible apply holds_ite

theorem holds_State_writeFaults {s : Sys2Proof.Machine.State} {a2 : Sys2Proof.Machine.Family} {a3 : Nat} {a4 : Nat} (h : Holds q f n s) :
    HoldsW q f n (Sys2Proof.Machine.State.writeFaults s a2 a3 a4) := by
  unfold Sys2Proof.Machine.State.writeFaults
  repeat' first
    | with_reducible assumption
    | (with_reducible intro _)
    | with_reducible apply holds_onOne
    | with_reducible apply holds_State_clearFirst
    | with_reducible apply holds_wroteIf
    | with_reducible apply holds_State_faultAck
    | with_reducible apply holds_wrote
    | with_reducible apply holds_State_clearFlags
    | with_reducible apply holds_State_writeFence
    | with_reducible apply holds_State_groupReturn
    | with_reducible apply holds_State_writeInject
    | with_reducible apply holds_State_sliceRequest
    | with_reducible apply holds_State_storeSetting
    | with_reducible apply HoldsR.next
    | exact HoldsR.undefined (by decide)
    | exact HoldsO.none
    | with_reducible apply HoldsO.some
    | with_reducible apply HoldsW.ok
    | exact HoldsW.error
    | with_reducible apply HoldsO.ite
    | with_reducible apply holds_ite
    | with_reducible apply HoldsW.ite

theorem holds_State_writeCounters {s : Sys2Proof.Machine.State} {a2 : Sys2Proof.Machine.Family} {a3 : Nat} {a4 : Nat} (h : Holds q f n s) :
    HoldsW q f n (Sys2Proof.Machine.State.writeCounters s a2 a3 a4) := by
  unfold Sys2Proof.Machine.State.writeCounters
  repeat' first
    | with_reducible assumption
    | (with_reducible intro _)
    | with_reducible apply holds_wrote
    | with_reducible apply holds_State_clearFlags
    | with_reducible apply holds_State_caliperFreeze
    | with_reducible apply holds_onOne
    | with_reducible apply holds_State_caliperClear
    | with_reducible apply holds_State_storeSetting
    | with_reducible apply HoldsR.next
    | exact HoldsR.undefined (by decide)
    | with_reducible apply HoldsW.ok
    | exact HoldsW.error
    | with_reducible apply holds_ite
    | with_reducible apply HoldsW.ite

theorem holds_State_writeHead {s : Sys2Proof.Machine.State} {a2 : Nat} {a3 : Nat} (h : Holds q f n s) :
    HoldsW q f n (Sys2Proof.Machine.State.writeHead s a2 a3) := by
  unfold Sys2Proof.Machine.State.writeHead
  repeat' first
    | with_reducible assumption
    | (with_reducible intro _)
    | with_reducible apply holds_State_put
    | with_reducible apply holds_wrote
    | with_reducible apply holds_State_request
    | with_reducible apply HoldsR.next
    | exact HoldsR.undefined (by decide)
    | with_reducible apply HoldsW.ok
    | exact HoldsW.error
    | with_reducible apply holds_ite
    | with_reducible apply HoldsW.ite

theorem holds_State_writeTail {s : Sys2Proof.Machine.State} {a2 : Nat} {a3 : Nat} (h : Holds q f n s) :
    HoldsW q f n (Sys2Proof.Machine.State.writeTail s a2 a3) := by
  unfold Sys2Proof.Machine.State.writeTail
  repeat' first
    | with_reducible assumption
    | (with_reducible intro _)
    | with_reducible apply holds_State_put
    | with_reducible apply holds_wrote
    | with_reducible apply holds_State_flushEnded
    | with_reducible apply HoldsR.next
    | exact HoldsR.undefined (by decide)
    | with_reducible apply HoldsW.ok
    | exact HoldsW.error
    | with_reducible apply holds_ite
    | with_reducible apply HoldsW.ite

theorem holds_State_writeRing {s : Sys2Proof.Machine.State} {a2 : Sys2Proof.Machine.Family} {a3 : Nat} {a4 : Nat} (h : Holds q f n s) :
    HoldsW q f n (Sys2Proof.Machine.State.writeRing s a2 a3 a4) := by
  unfold Sys2Proof.Machine.State.writeRing
  repeat' first
    | with_reducible assumption
    | (with_reducible intro _)
    | with_reducible apply holds_State_writeHead
    | with_reducible apply holds_State_writeTail
    | with_reducible apply holds_wrote
    | with_reducible apply holds_State_clearFlags
    | with_reducible apply holds_State_storeSetting
    | with_reducible apply HoldsR.next
    | exact HoldsR.undefined (by decide)
    | with_reducible apply HoldsW.ok
    | exact HoldsW.error
    | with_reducible apply holds_ite
    | with_reducible apply HoldsW.ite

theorem holds_State_writeFabric {s : Sys2Proof.Machine.State} {a2 : Sys2Proof.Machine.Family} {a3 : Nat} {a4 : Nat} (h : Holds q f n s) :
    HoldsW q f n (Sys2Proof.Machine.State.writeFabric s a2 a3 a4) := by
  unfold Sys2Proof.Machine.State.writeFabric
  repeat' first
    | with_reducible assumption
    | (with_reducible intro _)
    | with_reducible apply holds_wrote
    | with_reducible apply holds_State_clearFlags
    | with_reducible apply holds_State_storeSetting
    | with_reducible apply HoldsR.next
    | exact HoldsR.undefined (by decide)
    | with_reducible apply HoldsW.ok
    | exact HoldsW.error
    | with_reducible apply holds_ite
    | with_reducible apply HoldsW.ite

theorem holds_State_writeObject {s : Sys2Proof.Machine.State} {a2 : Sys2Proof.Machine.Family} {a3 : Nat} {a4 : Nat} {a5 : Option Bool} (h : Holds q f n s) :
    HoldsW q f n (Sys2Proof.Machine.State.writeObject s a2 a3 a4 a5) := by
  unfold Sys2Proof.Machine.State.writeObject
  repeat' first
    | with_reducible assumption
    | (with_reducible intro _)
    | with_reducible apply holds_State_writeIdentity
    | with_reducible apply holds_State_writeClocks
    | with_reducible apply holds_State_writeModes
    | with_reducible apply holds_State_writePort
    | with_reducible apply holds_State_writeParser
    | with_reducible apply holds_State_writeTables
    | with_reducible apply holds_State_writeRelief
    | with_reducible apply holds_State_writeBuffers
    | with_reducible apply holds_State_writeCipher
    | with_reducible apply holds_State_writeAtelier
    | with_reducible apply holds_State_writeFaults
    | with_reducible apply holds_State_writeCounters
    | with_reducible apply holds_State_writeRing
    | with_reducible apply holds_State_writeFabric
    | with_reducible refine HoldsW.of_eq ‹_› ?_
    | with_reducible apply HoldsR.next
    | exact HoldsR.undefined (by decide)
    | with_reducible apply HoldsW.ok
    | exact HoldsW.error
    | with_reducible apply holds_ite
    | with_reducible apply HoldsW.ite
    | split
end Sys2Proof.Laws
end

