-- ==== Sys2Proof/Laws/HoldsRegions.lean ====
section
/-! SUPPORT. What the operations of Machine/Regions.lean keep. -/

namespace Sys2Proof.Laws

open Sys2Proof.Machine Sys2Proof.Safety

variable {q : List Instr} {f n : Nat}

theorem holds_storeIn {s : Sys2Proof.Machine.State} {a2 : Sys2Proof.Machine.Family} {a3 : Nat} {a4 : Nat} {a5 : List Sys2Proof.Byte} (h : Holds q f n s) :
    HoldsW q f n (Sys2Proof.Machine.storeIn s a2 a3 a4 a5) := by
  unfold Sys2Proof.Machine.storeIn
  repeat' first
    | with_reducible assumption
    | (with_reducible intro _)
    | with_reducible apply holds_wrote
    | with_reducible apply holds_State_storeBytes

theorem holds_State_writeGraph {s : Sys2Proof.Machine.State} {a2 : Sys2Proof.Machine.Family} {a3 : Nat} {a4 : Nat} {a5 : List Sys2Proof.Byte} (h : Holds q f n s) :
    HoldsW q f n (Sys2Proof.Machine.State.writeGraph s a2 a3 a4 a5) := by
  unfold Sys2Proof.Machine.State.writeGraph
  repeat' first
    | with_reducible assumption
    | (with_reducible intro _)
    | with_reducible apply holds_refuseValue
    | with_reducible apply holds_storeIn
    | with_reducible apply HoldsR.next
    | exact HoldsR.undefined (by decide)
    | with_reducible apply HoldsW.ok
    | exact HoldsW.error
    | with_reducible apply holds_ite
    | with_reducible apply HoldsW.ite

theorem holds_State_writeDirect {s : Sys2Proof.Machine.State} {a2 : Sys2Proof.Machine.Family} {a3 : Nat} {a4 : Nat} {a5 : List Sys2Proof.Byte} (h : Holds q f n s) :
    HoldsW q f n (Sys2Proof.Machine.State.writeDirect s a2 a3 a4 a5) := by
  unfold Sys2Proof.Machine.State.writeDirect
  repeat' first
    | with_reducible assumption
    | (with_reducible intro _)
    | with_reducible apply holds_refuseValue
    | with_reducible apply holds_storeIn
    | with_reducible refine HoldsW.of_eq ‹_› ?_
    | with_reducible apply HoldsR.next
    | exact HoldsR.undefined (by decide)
    | with_reducible apply HoldsW.ok
    | exact HoldsW.error
    | with_reducible apply holds_ite
    | with_reducible apply HoldsW.ite

theorem holds_State_writeBanks {s : Sys2Proof.Machine.State} {a2 : Sys2Proof.Machine.Family} {a3 : Nat} {a4 : Nat} {a5 : List Sys2Proof.Byte} (h : Holds q f n s) :
    HoldsW q f n (Sys2Proof.Machine.State.writeBanks s a2 a3 a4 a5) := by
  unfold Sys2Proof.Machine.State.writeBanks
  repeat' first
    | with_reducible assumption
    | (with_reducible intro _)
    | with_reducible apply holds_storeIn
    | with_reducible apply holds_refuseValue
    | with_reducible refine HoldsW.of_eq ‹_› ?_
    | with_reducible apply HoldsR.next
    | exact HoldsR.undefined (by decide)
    | with_reducible apply HoldsW.ok
    | exact HoldsW.error
    | with_reducible apply HoldsO.map
    | with_reducible apply holds_getD
    | with_reducible apply holds_ite
    | with_reducible apply HoldsW.ite

theorem holds_State_writeSearches {s : Sys2Proof.Machine.State} {a2 : Sys2Proof.Machine.Family} {a3 : Nat} {a4 : Nat} {a5 : List Sys2Proof.Byte} (h : Holds q f n s) :
    HoldsW q f n (Sys2Proof.Machine.State.writeSearches s a2 a3 a4 a5) := by
  unfold Sys2Proof.Machine.State.writeSearches
  repeat' first
    | with_reducible assumption
    | (with_reducible intro _)
    | with_reducible apply holds_storeIn
    | with_reducible apply holds_refuseValue
    | with_reducible refine HoldsW.of_eq ‹_› ?_
    | with_reducible apply HoldsR.next
    | exact HoldsR.undefined (by decide)
    | with_reducible apply HoldsW.ok
    | exact HoldsW.error
    | with_reducible apply HoldsO.map
    | with_reducible apply holds_ite
    | with_reducible apply HoldsW.ite

theorem holds_State_writeStaging {s : Sys2Proof.Machine.State} {a2 : Sys2Proof.Machine.Family} {a3 : Nat} {a4 : Nat} {a5 : List Sys2Proof.Byte} (h : Holds q f n s) :
    HoldsW q f n (Sys2Proof.Machine.State.writeStaging s a2 a3 a4 a5) := by
  unfold Sys2Proof.Machine.State.writeStaging
  repeat' first
    | with_reducible assumption
    | (with_reducible intro _)
    | with_reducible apply holds_storeIn
    | with_reducible refine HoldsW.of_eq ‹_› ?_
    | with_reducible apply HoldsR.next
    | exact HoldsR.undefined (by decide)
    | with_reducible apply HoldsW.ok
    | exact HoldsW.error
    | with_reducible apply holds_ite
    | with_reducible apply HoldsW.ite

theorem holds_fitsStore {s : Sys2Proof.Machine.State} (h : Holds q f n s) :
    HoldsW q f n (Sys2Proof.Machine.fitsStore s) := by
  unfold Sys2Proof.Machine.fitsStore
  repeat' first
    | with_reducible assumption
    | (with_reducible intro _)
    | with_reducible apply holds_wrote
    | with_reducible apply holds_refuseValue
    | with_reducible apply HoldsR.next
    | exact HoldsR.undefined (by decide)
    | with_reducible apply HoldsW.ok
    | exact HoldsW.error
    | with_reducible apply holds_ite
    | with_reducible apply HoldsW.ite

theorem holds_State_writeProfiles {s : Sys2Proof.Machine.State} {a2 : Sys2Proof.Machine.Family} {a3 : Nat} {a4 : Nat} {a5 : List Sys2Proof.Byte} (h : Holds q f n s) :
    HoldsW q f n (Sys2Proof.Machine.State.writeProfiles s a2 a3 a4 a5) := by
  unfold Sys2Proof.Machine.State.writeProfiles
  repeat' first
    | with_reducible assumption
    | (with_reducible intro _)
    | with_reducible apply holds_refuseValue
    | with_reducible apply holds_fitsStore
    | with_reducible apply holds_State_storeBytes
    | with_reducible refine HoldsW.of_eq ‹_› ?_
    | with_reducible apply HoldsR.next
    | exact HoldsR.undefined (by decide)
    | with_reducible apply HoldsW.ok
    | exact HoldsW.error
    | with_reducible apply holds_ite
    | with_reducible apply HoldsW.ite

theorem holds_State_writeRates {s : Sys2Proof.Machine.State} {a2 : Sys2Proof.Machine.Family} {a3 : Nat} {a4 : Nat} {a5 : List Sys2Proof.Byte} (h : Holds q f n s) :
    HoldsW q f n (Sys2Proof.Machine.State.writeRates s a2 a3 a4 a5) := by
  unfold Sys2Proof.Machine.State.writeRates
  repeat' first
    | with_reducible assumption
    | (with_reducible intro _)
    | with_reducible apply holds_refuseValue
    | with_reducible apply holds_storeIn
    | with_reducible apply holds_fitsStore
    | with_reducible apply holds_State_storeBytes
    | with_reducible refine HoldsW.of_eq ‹_› ?_
    | with_reducible apply HoldsR.next
    | exact HoldsR.undefined (by decide)
    | with_reducible apply HoldsW.ok
    | exact HoldsW.error
    | with_reducible apply HoldsO.map
    | with_reducible apply holds_ite
    | with_reducible apply HoldsW.ite

theorem holds_State_writePolicers {s : Sys2Proof.Machine.State} {a2 : Sys2Proof.Machine.Family} {a3 : Nat} {a4 : Nat} {a5 : List Sys2Proof.Byte} (h : Holds q f n s) :
    HoldsW q f n (Sys2Proof.Machine.State.writePolicers s a2 a3 a4 a5) := by
  unfold Sys2Proof.Machine.State.writePolicers
  repeat' first
    | with_reducible assumption
    | (with_reducible intro _)
    | with_reducible apply holds_State_storeBytes
    | with_reducible apply holds_wrote
    | with_reducible apply holds_State_policerWritten
    | with_reducible refine HoldsW.of_eq ‹_› ?_
    | with_reducible apply HoldsR.next
    | exact HoldsR.undefined (by decide)
    | with_reducible apply HoldsW.ok
    | exact HoldsW.error
    | with_reducible apply holds_foldl

theorem holds_State_writeKey {s : Sys2Proof.Machine.State} {a2 : List Sys2Proof.Byte} (h : Holds q f n s) :
    HoldsW q f n (Sys2Proof.Machine.State.writeKey s a2) := by
  unfold Sys2Proof.Machine.State.writeKey
  repeat' first
    | with_reducible assumption
    | (with_reducible intro _)
    | with_reducible apply holds_wrote
    | with_reducible apply holds_State_request
    | with_reducible apply holds_State_startLoad
    | with_reducible apply HoldsR.next
    | exact HoldsR.undefined (by decide)
    | with_reducible apply HoldsW.ok
    | exact HoldsW.error
    | with_reducible apply holds_ite
    | with_reducible apply HoldsW.ite

theorem holds_State_writeJobBuffer {s : Sys2Proof.Machine.State} {a2 : Sys2Proof.Machine.Family} {a3 : Nat} {a4 : Nat} {a5 : List Sys2Proof.Byte} (h : Holds q f n s) :
    HoldsW q f n (Sys2Proof.Machine.State.writeJobBuffer s a2 a3 a4 a5) := by
  unfold Sys2Proof.Machine.State.writeJobBuffer
  repeat' first
    | with_reducible assumption
    | (with_reducible intro _)
    | with_reducible apply holds_storeIn
    | with_reducible apply HoldsR.next
    | exact HoldsR.undefined (by decide)
    | with_reducible apply HoldsW.ok
    | exact HoldsW.error
    | with_reducible apply holds_ite
    | with_reducible apply HoldsW.ite

theorem holds_State_writeReload {s : Sys2Proof.Machine.State} {a2 : Sys2Proof.Machine.Family} {a3 : Nat} {a4 : Nat} {a5 : List Sys2Proof.Byte} (h : Holds q f n s) :
    HoldsW q f n (Sys2Proof.Machine.State.writeReload s a2 a3 a4 a5) := by
  unfold Sys2Proof.Machine.State.writeReload
  repeat' first
    | with_reducible assumption
    | (with_reducible intro _)
    | with_reducible apply holds_refuseValue
    | with_reducible apply holds_storeIn
    | with_reducible apply HoldsR.next
    | exact HoldsR.undefined (by decide)
    | with_reducible apply HoldsW.ok
    | exact HoldsW.error
    | with_reducible apply holds_ite
    | with_reducible apply HoldsW.ite

theorem holds_State_writePair {s : Sys2Proof.Machine.State} {a2 : Nat} {a3 : Nat} {a4 : Nat} (h : Holds q f n s) :
    Holds q f n (Sys2Proof.Machine.State.writePair s a2 a3 a4) := by
  unfold Sys2Proof.Machine.State.writePair
  repeat' first
    | with_reducible assumption
    | (with_reducible intro _)
    | with_reducible apply holds_State_flowWrite
    | with_reducible apply holds_ite

theorem holds_State_writeFlow {s : Sys2Proof.Machine.State} {a2 : Nat} {a3 : List Sys2Proof.Byte} (h : Holds q f n s) :
    HoldsW q f n (Sys2Proof.Machine.State.writeFlow s a2 a3) := by
  unfold Sys2Proof.Machine.State.writeFlow
  repeat' first
    | with_reducible assumption
    | (with_reducible intro _)
    | with_reducible apply holds_wrote
    | with_reducible apply holds_State_writePair
    | with_reducible refine HoldsW.of_eq ‹_› ?_
    | with_reducible apply HoldsR.next
    | exact HoldsR.undefined (by decide)
    | with_reducible apply HoldsW.ok
    | exact HoldsW.error
    | with_reducible apply holds_foldl

theorem holds_State_writeNhMap {s : Sys2Proof.Machine.State} {a2 : Sys2Proof.Machine.Family} {a3 : Nat} {a4 : Nat} {a5 : List Sys2Proof.Byte} (h : Holds q f n s) :
    HoldsW q f n (Sys2Proof.Machine.State.writeNhMap s a2 a3 a4 a5) := by
  unfold Sys2Proof.Machine.State.writeNhMap
  repeat' first
    | with_reducible assumption
    | (with_reducible intro _)
    | with_reducible apply holds_storeIn
    | with_reducible apply HoldsR.next
    | exact HoldsR.undefined (by decide)
    | with_reducible apply HoldsW.ok
    | exact HoldsW.error
    | with_reducible apply holds_ite
    | with_reducible apply HoldsW.ite

theorem holds_State_writeEvents {s : Sys2Proof.Machine.State} {a2 : Sys2Proof.Machine.Family} {a3 : Nat} {a4 : Nat} {a5 : List Sys2Proof.Byte} (h : Holds q f n s) :
    HoldsW q f n (Sys2Proof.Machine.State.writeEvents s a2 a3 a4 a5) := by
  unfold Sys2Proof.Machine.State.writeEvents
  repeat' first
    | with_reducible assumption
    | (with_reducible intro _)
    | with_reducible apply holds_storeIn
    | with_reducible refine HoldsW.of_eq ‹_› ?_
    | with_reducible apply HoldsR.next
    | exact HoldsR.undefined (by decide)
    | with_reducible apply HoldsW.ok
    | exact HoldsW.error
    | with_reducible apply holds_ite
    | with_reducible apply HoldsW.ite

theorem holds_State_writeRecords {s : Sys2Proof.Machine.State} {a2 : Sys2Proof.Machine.Family} {a3 : Nat} {a4 : Nat} {a5 : List Sys2Proof.Byte} (h : Holds q f n s) :
    HoldsW q f n (Sys2Proof.Machine.State.writeRecords s a2 a3 a4 a5) := by
  unfold Sys2Proof.Machine.State.writeRecords
  repeat' first
    | with_reducible assumption
    | (with_reducible intro _)
    | with_reducible apply holds_storeIn
    | with_reducible refine HoldsW.of_eq ‹_› ?_
    | with_reducible apply HoldsR.next
    | exact HoldsR.undefined (by decide)
    | with_reducible apply HoldsW.ok
    | exact HoldsW.error
    | with_reducible apply holds_ite
    | with_reducible apply HoldsW.ite

theorem holds_State_writeBufferRegion {s : Sys2Proof.Machine.State} {a2 : Sys2Proof.Machine.Family} {a3 : Nat} {a4 : Nat} {a5 : List Sys2Proof.Byte} (h : Holds q f n s) :
    HoldsW q f n (Sys2Proof.Machine.State.writeBufferRegion s a2 a3 a4 a5) := by
  unfold Sys2Proof.Machine.State.writeBufferRegion
  repeat' first
    | with_reducible assumption
    | (with_reducible intro _)
    | with_reducible apply holds_State_writeProfiles
    | with_reducible apply holds_storeIn
    | with_reducible apply holds_fitsStore
    | with_reducible apply holds_State_storeBytes
    | with_reducible apply holds_State_writeRates
    | with_reducible apply holds_State_writePolicers
    | with_reducible apply holds_State_stopNaming
    | with_reducible apply HoldsR.next
    | exact HoldsR.undefined (by decide)
    | with_reducible apply HoldsW.ok
    | exact HoldsW.error
    | with_reducible apply holds_ite
    | with_reducible apply HoldsW.ite

theorem holds_State_writeOtherRegion {s : Sys2Proof.Machine.State} {a2 : Sys2Proof.Machine.Family} {a3 : Nat} {a4 : Nat} {a5 : List Sys2Proof.Byte} (h : Holds q f n s) :
    HoldsW q f n (Sys2Proof.Machine.State.writeOtherRegion s a2 a3 a4 a5) := by
  unfold Sys2Proof.Machine.State.writeOtherRegion
  repeat' first
    | with_reducible assumption
    | (with_reducible intro _)
    | with_reducible apply holds_storeIn
    | with_reducible apply holds_State_writeKey
    | with_reducible apply holds_State_writeJobBuffer
    | with_reducible apply holds_State_writeReload
    | with_reducible apply holds_State_writeFlow
    | with_reducible apply holds_State_writeNhMap
    | with_reducible apply holds_State_writeEvents
    | with_reducible apply holds_State_writeRecords
    | with_reducible apply HoldsR.next
    | exact HoldsR.undefined (by decide)
    | with_reducible apply HoldsW.ok
    | exact HoldsW.error
    | with_reducible apply holds_ite
    | with_reducible apply HoldsW.ite

theorem holds_State_writeRegion {s : Sys2Proof.Machine.State} {a2 : Sys2Proof.Machine.Family} {a3 : Nat} {a4 : Nat} {a5 : List Sys2Proof.Byte} (h : Holds q f n s) :
    HoldsW q f n (Sys2Proof.Machine.State.writeRegion s a2 a3 a4 a5) := by
  unfold Sys2Proof.Machine.State.writeRegion
  repeat' first
    | with_reducible assumption
    | (with_reducible intro _)
    | with_reducible apply holds_State_writeGraph
    | with_reducible apply holds_State_writeDirect
    | with_reducible apply holds_State_writeStaging
    | with_reducible apply holds_State_writeBanks
    | with_reducible apply holds_State_writeSearches
    | with_reducible apply holds_State_writeBufferRegion
    | with_reducible apply holds_storeIn
    | with_reducible apply holds_State_writeOtherRegion
    | with_reducible refine HoldsW.of_eq ‹_› ?_
    | with_reducible apply HoldsR.next
    | exact HoldsR.undefined (by decide)
    | with_reducible apply HoldsW.ok
    | exact HoldsW.error
    | with_reducible apply holds_ite
    | with_reducible apply HoldsW.ite
    | split

theorem holds_State_captureRead {s : Sys2Proof.Machine.State} {a2 : Nat} {a3 : Nat} (h : Holds q f n s) :
    Holds q f n (Sys2Proof.Machine.State.captureRead s a2 a3) := by
  unfold Sys2Proof.Machine.State.captureRead
  repeat' first
    | with_reducible assumption
    | (with_reducible intro _)
    | with_reducible apply holds_State_ddr5Read
    | with_reducible apply holds_foldl
    | with_reducible apply holds_foldl_fst
    | with_reducible apply holds_ite

theorem holds_State_readRegion {s : Sys2Proof.Machine.State} {a2 : Nat} {a3 : Nat} {a4 : Nat} (h : Holds q f n s) :
    Holds q f n (Sys2Proof.Machine.State.readRegion s a2 a3 a4).2 := by
  unfold Sys2Proof.Machine.State.readRegion
  repeat' first
    | with_reducible assumption
    | (with_reducible intro _)
    | with_reducible apply holds_State_flowReads
    | with_reducible apply holds_State_captureRead
    | with_reducible apply holds_ite_snd
    | with_reducible apply holds_ite
end Sys2Proof.Laws
end

