-- ==== Sys2Proof/Laws/HoldsAccess.lean ====
section
/-! SUPPORT. What the operations of Machine/Access.lean keep. -/

namespace Sys2Proof.Laws

open Sys2Proof.Machine Sys2Proof.Safety

variable {q : List Instr} {f n : Nat}

theorem holds_State_rejected {s : Sys2Proof.Machine.State} {a2 : Nat} (h : Holds q f n s) :
    HoldsR q f n (Sys2Proof.Machine.State.rejected s a2).outcome := by
  unfold Sys2Proof.Machine.State.rejected
  repeat' first
    | with_reducible assumption
    | (with_reducible intro _)
    | with_reducible apply HoldsR.next

theorem holds_State_outcomeOf {s : State} {a2 : Written} (h : Holds q f n s) (ha2 : HoldsW q f n a2) :
    HoldsR q f n (s.outcomeOf a2).outcome := by
  cases a2 with
  | error e => exact h
  | ok r => exact ha2 r rfl

theorem holds_State_wakeFor {s : Sys2Proof.Machine.State} {a2 : Nat} (h : Holds q f n s) :
    Holds q f n (Sys2Proof.Machine.State.wakeFor s a2) := by
  unfold Sys2Proof.Machine.State.wakeFor
  repeat' first
    | with_reducible assumption
    | (with_reducible intro _)
    | with_reducible apply holds_State_wakeTo
    | with_reducible apply holds_ite
    | split

theorem holds_State_serve {s : Sys2Proof.Machine.State} {a2 : Sys2Proof.Machine.Op} {a3 : Nat} {a4 : Nat} {a5 : Option Bool} (h : Holds q f n s) :
    HoldsR q f n (Sys2Proof.Machine.State.serve s a2 a3 a4 a5).outcome := by
  unfold Sys2Proof.Machine.State.serve
  repeat' first
    | with_reducible assumption
    | (with_reducible intro _)
    | with_reducible apply holds_State_rejected
    | with_reducible apply holds_State_wakeFor
    | with_reducible apply holds_State_outcomeOf
    | with_reducible apply holds_State_writeObject
    | with_reducible apply holds_State_readRegion
    | with_reducible apply holds_State_writeRegion
    | with_reducible refine holds_snd_eq ‹_› ?_
    | with_reducible refine HoldsW.of_eq ‹_› ?_
    | with_reducible apply HoldsR.next
    | exact HoldsR.undefined (by decide)
    | with_reducible apply HoldsW.ok
    | exact HoldsW.error
    | with_reducible apply holds_ite_snd
    | with_reducible apply holds_ite
    | with_reducible apply HoldsR.ite_outcome
    | with_reducible apply HoldsW.ite
    | split

theorem holds_State_noteBusy {s : Sys2Proof.Machine.State} (h : Holds q f n s) :
    Holds q f n (Sys2Proof.Machine.State.noteBusy s) := by
  unfold Sys2Proof.Machine.State.noteBusy
  repeat' first
    | with_reducible assumption
    | (with_reducible intro _)
    | with_reducible apply holds_State_flag
    | with_reducible apply holds_State_bump32

theorem holds_State_serveNow {s : Sys2Proof.Machine.State} {a2 : Sys2Proof.Machine.Op} {a3 : Nat} {a4 : Nat} {a5 : Option Bool} (h : Holds q f n s) :
    HoldsR q f n (Sys2Proof.Machine.State.serveNow s a2 a3 a4 a5).outcome := by
  unfold Sys2Proof.Machine.State.serveNow
  repeat' first
    | with_reducible assumption
    | (with_reducible intro _)
    | with_reducible apply holds_State_rejected
    | with_reducible apply holds_State_noteBusy
    | with_reducible apply holds_State_serve
    | with_reducible apply HoldsR.next
    | exact HoldsR.undefined (by decide)
    | with_reducible apply holds_ite
    | with_reducible apply HoldsR.ite_outcome
    | split

theorem holds_answering {a1 : Result} {a2 : Answer} (ha1 : HoldsR q f n a1) : HoldsR q f n (answering a1 a2) := by
  cases a1 with
  | next s => exact Holds.same ha1 rfl rfl rfl rfl rfl rfl rfl rfl rfl rfl rfl
  | fault x => exact ha1
  | refused x => exact ha1

theorem holds_State_hostWriteBytes {s : Sys2Proof.Machine.State} {a2 : Nat} {a3 : Nat} {a4 : List Sys2Proof.Byte} {a5 : Option Bool} (h : Holds q f n s) :
    HoldsR q f n (Sys2Proof.Machine.State.hostWriteBytes s a2 a3 a4 a5) := by
  unfold Sys2Proof.Machine.State.hostWriteBytes
  repeat' first
    | with_reducible assumption
    | (with_reducible intro _)
    | with_reducible apply holds_State_serveNow
    | with_reducible apply holds_answering
    | with_reducible apply HoldsR.next
    | exact HoldsR.undefined (by decide)
    | with_reducible apply HoldsR.ite

theorem holds_State_hostWrite {s : Sys2Proof.Machine.State} {a2 : Nat} {a3 : Nat} (h : Holds q f n s) :
    HoldsR q f n (Sys2Proof.Machine.State.hostWrite s a2 a3) := by
  unfold Sys2Proof.Machine.State.hostWrite
  repeat' first
    | with_reducible assumption
    | (with_reducible intro _)
    | with_reducible apply holds_State_hostWriteBytes
end Sys2Proof.Laws
end

