-- ==== Sys2Proof/Laws/HoldsControls.lean ====
section
/-! SUPPORT. What the operations of Machine/Controls.lean keep. -/

namespace Sys2Proof.Laws

open Sys2Proof.Machine Sys2Proof.Safety

variable {q : List Instr} {f n : Nat}

theorem holds_execObjectWrite {a1 : BitVec 16} {a2 : BitVec 8} {a3 : List Sys2Proof.Byte} {s : Sys2Proof.Machine.State} (h : Holds q f n s) :
    HoldsR q f n (Sys2Proof.Machine.execObjectWrite a1 a2 a3 s) := by
  unfold Sys2Proof.Machine.execObjectWrite
  repeat' first
    | with_reducible assumption
    | (with_reducible intro _)
    | with_reducible apply holds_State_hostWriteBytes

theorem holds_execResetRequestWarm {s : Sys2Proof.Machine.State} (h : Holds q f n s) :
    HoldsR q f n (Sys2Proof.Machine.execResetRequestWarm s) := by
  unfold Sys2Proof.Machine.execResetRequestWarm
  repeat' first
    | with_reducible assumption
    | (with_reducible intro _)
    | with_reducible apply holds_State_hostWrite

theorem holds_execResetRequestCold {s : Sys2Proof.Machine.State} (h : Holds q f n s) :
    HoldsR q f n (Sys2Proof.Machine.execResetRequestCold s) := by
  unfold Sys2Proof.Machine.execResetRequestCold
  repeat' first
    | with_reducible assumption
    | (with_reducible intro _)
    | with_reducible apply holds_State_hostWrite

theorem holds_execUploadStart {a1 : Bool} {s : Sys2Proof.Machine.State} (h : Holds q f n s) :
    HoldsR q f n (Sys2Proof.Machine.execUploadStart a1 s) := by
  unfold Sys2Proof.Machine.execUploadStart
  repeat' first
    | with_reducible assumption
    | (with_reducible intro _)
    | with_reducible apply holds_State_hostWrite

theorem holds_execLifeRequest {a1 : BitVec 32} {a2 : Bool} {s : Sys2Proof.Machine.State} (h : Holds q f n s) :
    HoldsR q f n (Sys2Proof.Machine.execLifeRequest a1 a2 s) := by
  unfold Sys2Proof.Machine.execLifeRequest
  repeat' first
    | with_reducible assumption
    | (with_reducible intro _)
    | with_reducible apply holds_State_hostWriteBytes

theorem holds_execSessionForceClose {a1 : Fin 8} {s : Sys2Proof.Machine.State} (h : Holds q f n s) :
    HoldsR q f n (Sys2Proof.Machine.execSessionForceClose a1 s) := by
  unfold Sys2Proof.Machine.execSessionForceClose
  repeat' first
    | with_reducible assumption
    | (with_reducible intro _)
    | with_reducible apply holds_State_hostWrite

theorem holds_execSopKeySlotWrite {a1 : BitVec 8} {s : Sys2Proof.Machine.State} (h : Holds q f n s) :
    HoldsR q f n (Sys2Proof.Machine.execSopKeySlotWrite a1 s) := by
  unfold Sys2Proof.Machine.execSopKeySlotWrite
  repeat' first
    | with_reducible assumption
    | (with_reducible intro _)
    | with_reducible apply holds_State_hostWrite

theorem holds_execSopAuthRequiredWrite {a1 : BitVec 8} {s : Sys2Proof.Machine.State} (h : Holds q f n s) :
    HoldsR q f n (Sys2Proof.Machine.execSopAuthRequiredWrite a1 s) := by
  unfold Sys2Proof.Machine.execSopAuthRequiredWrite
  repeat' first
    | with_reducible assumption
    | (with_reducible intro _)
    | with_reducible apply holds_State_hostWrite

theorem holds_execRingHead {a1 : Fin 256} {a2 : BitVec 32} {s : Sys2Proof.Machine.State} (h : Holds q f n s) :
    HoldsR q f n (Sys2Proof.Machine.execRingHead a1 a2 s) := by
  unfold Sys2Proof.Machine.execRingHead
  repeat' first
    | with_reducible assumption
    | (with_reducible intro _)
    | with_reducible apply holds_State_hostWrite

theorem holds_execRingTail {a1 : Fin 256} {a2 : BitVec 32} {s : Sys2Proof.Machine.State} (h : Holds q f n s) :
    HoldsR q f n (Sys2Proof.Machine.execRingTail a1 a2 s) := by
  unfold Sys2Proof.Machine.execRingTail
  repeat' first
    | with_reducible assumption
    | (with_reducible intro _)
    | with_reducible apply holds_State_hostWrite

theorem holds_execRingStatusClear {a1 : Fin 256} {a2 : BitVec 32} {s : Sys2Proof.Machine.State} (h : Holds q f n s) :
    HoldsR q f n (Sys2Proof.Machine.execRingStatusClear a1 a2 s) := by
  unfold Sys2Proof.Machine.execRingStatusClear
  repeat' first
    | with_reducible assumption
    | (with_reducible intro _)
    | with_reducible apply holds_State_hostWrite

theorem holds_execFunctionRequestHold {a1 : Sys2Proof.Fn} {s : Sys2Proof.Machine.State} (h : Holds q f n s) :
    HoldsR q f n (Sys2Proof.Machine.execFunctionRequestHold a1 s) := by
  unfold Sys2Proof.Machine.execFunctionRequestHold
  repeat' first
    | with_reducible assumption
    | (with_reducible intro _)
    | with_reducible apply holds_State_hostWrite

theorem holds_execFunctionRequestRun {a1 : Sys2Proof.Fn} {s : Sys2Proof.Machine.State} (h : Holds q f n s) :
    HoldsR q f n (Sys2Proof.Machine.execFunctionRequestRun a1 s) := by
  unfold Sys2Proof.Machine.execFunctionRequestRun
  repeat' first
    | with_reducible assumption
    | (with_reducible intro _)
    | with_reducible apply holds_State_hostWrite

theorem holds_execFunctionRequestOff {a1 : Sys2Proof.Fn} {s : Sys2Proof.Machine.State} (h : Holds q f n s) :
    HoldsR q f n (Sys2Proof.Machine.execFunctionRequestOff a1 s) := by
  unfold Sys2Proof.Machine.execFunctionRequestOff
  repeat' first
    | with_reducible assumption
    | (with_reducible intro _)
    | with_reducible apply holds_State_hostWrite

theorem holds_execFunctionRequestFence {a1 : Sys2Proof.Fn} {s : Sys2Proof.Machine.State} (h : Holds q f n s) :
    HoldsR q f n (Sys2Proof.Machine.execFunctionRequestFence a1 s) := by
  unfold Sys2Proof.Machine.execFunctionRequestFence
  repeat' first
    | with_reducible assumption
    | (with_reducible intro _)
    | with_reducible apply holds_State_hostWrite

theorem holds_execCommSummaryClear {a1 : BitVec 32} {s : Sys2Proof.Machine.State} (h : Holds q f n s) :
    HoldsR q f n (Sys2Proof.Machine.execCommSummaryClear a1 s) := by
  unfold Sys2Proof.Machine.execCommSummaryClear
  repeat' first
    | with_reducible assumption
    | (with_reducible intro _)
    | with_reducible apply holds_State_hostWrite

theorem holds_execModeSummaryClear {a1 : BitVec 32} {s : Sys2Proof.Machine.State} (h : Holds q f n s) :
    HoldsR q f n (Sys2Proof.Machine.execModeSummaryClear a1 s) := by
  unfold Sys2Proof.Machine.execModeSummaryClear
  repeat' first
    | with_reducible assumption
    | (with_reducible intro _)
    | with_reducible apply holds_State_hostWrite

theorem holds_execLifeSummaryClear {a1 : BitVec 32} {s : Sys2Proof.Machine.State} (h : Holds q f n s) :
    HoldsR q f n (Sys2Proof.Machine.execLifeSummaryClear a1 s) := by
  unfold Sys2Proof.Machine.execLifeSummaryClear
  repeat' first
    | with_reducible assumption
    | (with_reducible intro _)
    | with_reducible apply holds_State_hostWrite

theorem holds_execClockSummaryClear {a1 : BitVec 32} {s : Sys2Proof.Machine.State} (h : Holds q f n s) :
    HoldsR q f n (Sys2Proof.Machine.execClockSummaryClear a1 s) := by
  unfold Sys2Proof.Machine.execClockSummaryClear
  repeat' first
    | with_reducible assumption
    | (with_reducible intro _)
    | with_reducible apply holds_State_hostWrite

theorem holds_execUnderrunStepReset {a1 : Sys2Proof.Port} {s : Sys2Proof.Machine.State} (h : Holds q f n s) :
    HoldsR q f n (Sys2Proof.Machine.execUnderrunStepReset a1 s) := by
  unfold Sys2Proof.Machine.execUnderrunStepReset
  repeat' first
    | with_reducible assumption
    | (with_reducible intro _)
    | with_reducible apply holds_State_hostWrite

theorem holds_execStatsClearReceive {a1 : Sys2Proof.Port} {s : Sys2Proof.Machine.State} (h : Holds q f n s) :
    HoldsR q f n (Sys2Proof.Machine.execStatsClearReceive a1 s) := by
  unfold Sys2Proof.Machine.execStatsClearReceive
  repeat' first
    | with_reducible assumption
    | (with_reducible intro _)
    | with_reducible apply holds_State_hostWrite

theorem holds_execStatsClearTransmit {a1 : Sys2Proof.Port} {s : Sys2Proof.Machine.State} (h : Holds q f n s) :
    HoldsR q f n (Sys2Proof.Machine.execStatsClearTransmit a1 s) := by
  unfold Sys2Proof.Machine.execStatsClearTransmit
  repeat' first
    | with_reducible assumption
    | (with_reducible intro _)
    | with_reducible apply holds_State_hostWrite

theorem holds_execStatsClearBoth {a1 : Sys2Proof.Port} {s : Sys2Proof.Machine.State} (h : Holds q f n s) :
    HoldsR q f n (Sys2Proof.Machine.execStatsClearBoth a1 s) := by
  unfold Sys2Proof.Machine.execStatsClearBoth
  repeat' first
    | with_reducible assumption
    | (with_reducible intro _)
    | with_reducible apply holds_State_hostWrite

theorem holds_execPortFlagsClear {a1 : Sys2Proof.Port} {a2 : BitVec 32} {s : Sys2Proof.Machine.State} (h : Holds q f n s) :
    HoldsR q f n (Sys2Proof.Machine.execPortFlagsClear a1 a2 s) := by
  unfold Sys2Proof.Machine.execPortFlagsClear
  repeat' first
    | with_reducible assumption
    | (with_reducible intro _)
    | with_reducible apply holds_State_hostWrite

theorem holds_execStatsRxHalfClear {a1 : Sys2Proof.Port} {a2 : BitVec 32} {s : Sys2Proof.Machine.State} (h : Holds q f n s) :
    HoldsR q f n (Sys2Proof.Machine.execStatsRxHalfClear a1 a2 s) := by
  unfold Sys2Proof.Machine.execStatsRxHalfClear
  repeat' first
    | with_reducible assumption
    | (with_reducible intro _)
    | with_reducible apply holds_State_hostWrite

theorem holds_execStatsTxHalfClear {a1 : Sys2Proof.Port} {a2 : BitVec 32} {s : Sys2Proof.Machine.State} (h : Holds q f n s) :
    HoldsR q f n (Sys2Proof.Machine.execStatsTxHalfClear a1 a2 s) := by
  unfold Sys2Proof.Machine.execStatsTxHalfClear
  repeat' first
    | with_reducible assumption
    | (with_reducible intro _)
    | with_reducible apply holds_State_hostWrite

theorem holds_execParseGraphSelect {a1 : BitVec 8} {s : Sys2Proof.Machine.State} (h : Holds q f n s) :
    HoldsR q f n (Sys2Proof.Machine.execParseGraphSelect a1 s) := by
  unfold Sys2Proof.Machine.execParseGraphSelect
  repeat' first
    | with_reducible assumption
    | (with_reducible intro _)
    | with_reducible apply holds_State_hostWrite

theorem holds_execStandardGraphLoad {s : Sys2Proof.Machine.State} (h : Holds q f n s) :
    HoldsR q f n (Sys2Proof.Machine.execStandardGraphLoad s) := by
  unfold Sys2Proof.Machine.execStandardGraphLoad
  repeat' first
    | with_reducible assumption
    | (with_reducible intro _)
    | with_reducible apply holds_State_hostWrite

theorem holds_execPipeFlagsClear {a1 : Sys2Proof.Pipe} {a2 : BitVec 32} {s : Sys2Proof.Machine.State} (h : Holds q f n s) :
    HoldsR q f n (Sys2Proof.Machine.execPipeFlagsClear a1 a2 s) := by
  unfold Sys2Proof.Machine.execPipeFlagsClear
  repeat' first
    | with_reducible assumption
    | (with_reducible intro _)
    | with_reducible apply holds_State_hostWrite

theorem holds_execTableSummaryClear {a1 : BitVec 32} {s : Sys2Proof.Machine.State} (h : Holds q f n s) :
    HoldsR q f n (Sys2Proof.Machine.execTableSummaryClear a1 s) := by
  unfold Sys2Proof.Machine.execTableSummaryClear
  repeat' first
    | with_reducible assumption
    | (with_reducible intro _)
    | with_reducible apply holds_State_hostWrite

theorem holds_execReliefSummaryClear {a1 : BitVec 32} {s : Sys2Proof.Machine.State} (h : Holds q f n s) :
    HoldsR q f n (Sys2Proof.Machine.execReliefSummaryClear a1 s) := by
  unfold Sys2Proof.Machine.execReliefSummaryClear
  repeat' first
    | with_reducible assumption
    | (with_reducible intro _)
    | with_reducible apply holds_State_hostWrite

theorem holds_execVersionCancel {s : Sys2Proof.Machine.State} (h : Holds q f n s) :
    HoldsR q f n (Sys2Proof.Machine.execVersionCancel s) := by
  unfold Sys2Proof.Machine.execVersionCancel
  repeat' first
    | with_reducible assumption
    | (with_reducible intro _)
    | with_reducible apply holds_State_hostWrite

theorem holds_execSampleSeed {a1 : BitVec 32} {s : Sys2Proof.Machine.State} (h : Holds q f n s) :
    HoldsR q f n (Sys2Proof.Machine.execSampleSeed a1 s) := by
  unfold Sys2Proof.Machine.execSampleSeed
  repeat' first
    | with_reducible assumption
    | (with_reducible intro _)
    | with_reducible apply holds_State_hostWrite

theorem holds_execRecircDepthPeak {a1 : Sys2Proof.Pipe} {a2 : BitVec 16} {s : Sys2Proof.Machine.State} (h : Holds q f n s) :
    HoldsR q f n (Sys2Proof.Machine.execRecircDepthPeak a1 a2 s) := by
  unfold Sys2Proof.Machine.execRecircDepthPeak
  repeat' first
    | with_reducible assumption
    | (with_reducible intro _)
    | with_reducible apply holds_State_hostWrite

theorem holds_execQueueSummaryClear {a1 : BitVec 32} {s : Sys2Proof.Machine.State} (h : Holds q f n s) :
    HoldsR q f n (Sys2Proof.Machine.execQueueSummaryClear a1 s) := by
  unfold Sys2Proof.Machine.execQueueSummaryClear
  repeat' first
    | with_reducible assumption
    | (with_reducible intro _)
    | with_reducible apply holds_State_hostWrite

theorem holds_execFabricSummaryClear {a1 : BitVec 32} {s : Sys2Proof.Machine.State} (h : Holds q f n s) :
    HoldsR q f n (Sys2Proof.Machine.execFabricSummaryClear a1 s) := by
  unfold Sys2Proof.Machine.execFabricSummaryClear
  repeat' first
    | with_reducible assumption
    | (with_reducible intro _)
    | with_reducible apply holds_State_hostWrite

theorem holds_State_hostWriteRegion {s : Sys2Proof.Machine.State} {a2 : Nat} {a3 : Nat} {a4 : Nat} {a5 : List Sys2Proof.Byte} (h : Holds q f n s) :
    HoldsR q f n (Sys2Proof.Machine.State.hostWriteRegion s a2 a3 a4 a5) := by
  unfold Sys2Proof.Machine.State.hostWriteRegion
  repeat' first
    | with_reducible assumption
    | (with_reducible intro _)
    | with_reducible apply holds_State_serveNow
    | with_reducible apply holds_answering
    | with_reducible apply HoldsR.next
    | exact HoldsR.undefined (by decide)
    | with_reducible apply HoldsR.ite

theorem holds_execKeyLoad {a1 : List Sys2Proof.Byte} {s : Sys2Proof.Machine.State} (h : Holds q f n s) :
    HoldsR q f n (Sys2Proof.Machine.execKeyLoad a1 s) := by
  unfold Sys2Proof.Machine.execKeyLoad
  repeat' first
    | with_reducible assumption
    | (with_reducible intro _)
    | with_reducible apply holds_State_hostWriteRegion

theorem holds_execKeyErase {a1 : BitVec 16} {s : Sys2Proof.Machine.State} (h : Holds q f n s) :
    HoldsR q f n (Sys2Proof.Machine.execKeyErase a1 s) := by
  unfold Sys2Proof.Machine.execKeyErase
  repeat' first
    | with_reducible assumption
    | (with_reducible intro _)
    | with_reducible apply holds_State_hostWrite

theorem holds_execKeyClearLoad {a1 : BitVec 8} {s : Sys2Proof.Machine.State} (h : Holds q f n s) :
    HoldsR q f n (Sys2Proof.Machine.execKeyClearLoad a1 s) := by
  unfold Sys2Proof.Machine.execKeyClearLoad
  repeat' first
    | with_reducible assumption
    | (with_reducible intro _)
    | with_reducible apply holds_State_hostWrite

theorem holds_execJobAbort {a1 : BitVec 16} {s : Sys2Proof.Machine.State} (h : Holds q f n s) :
    HoldsR q f n (Sys2Proof.Machine.execJobAbort a1 s) := by
  unfold Sys2Proof.Machine.execJobAbort
  repeat' first
    | with_reducible assumption
    | (with_reducible intro _)
    | with_reducible apply holds_State_hostWrite

theorem holds_execCipherSummaryClear {a1 : BitVec 32} {s : Sys2Proof.Machine.State} (h : Holds q f n s) :
    HoldsR q f n (Sys2Proof.Machine.execCipherSummaryClear a1 s) := by
  unfold Sys2Proof.Machine.execCipherSummaryClear
  repeat' first
    | with_reducible assumption
    | (with_reducible intro _)
    | with_reducible apply holds_State_hostWrite

theorem holds_execFaultAck {a1 : BitVec 16} {s : Sys2Proof.Machine.State} (h : Holds q f n s) :
    HoldsR q f n (Sys2Proof.Machine.execFaultAck a1 s) := by
  unfold Sys2Proof.Machine.execFaultAck
  repeat' first
    | with_reducible assumption
    | (with_reducible intro _)
    | with_reducible apply holds_State_hostWrite

theorem holds_execFirstErrorClear {s : Sys2Proof.Machine.State} (h : Holds q f n s) :
    HoldsR q f n (Sys2Proof.Machine.execFirstErrorClear s) := by
  unfold Sys2Proof.Machine.execFirstErrorClear
  repeat' first
    | with_reducible assumption
    | (with_reducible intro _)
    | with_reducible apply holds_State_hostWrite

theorem holds_execHostFence {a1 : BitVec 12} {s : Sys2Proof.Machine.State} (h : Holds q f n s) :
    HoldsR q f n (Sys2Proof.Machine.execHostFence a1 s) := by
  unfold Sys2Proof.Machine.execHostFence
  repeat' first
    | with_reducible assumption
    | (with_reducible intro _)
    | with_reducible apply holds_State_hostWrite

theorem holds_execRelease {a1 : BitVec 12} {s : Sys2Proof.Machine.State} (h : Holds q f n s) :
    HoldsR q f n (Sys2Proof.Machine.execRelease a1 s) := by
  unfold Sys2Proof.Machine.execRelease
  repeat' first
    | with_reducible assumption
    | (with_reducible intro _)
    | with_reducible apply holds_State_hostWrite

theorem holds_execReleaseWithoutSlice {a1 : BitVec 12} {s : Sys2Proof.Machine.State} (h : Holds q f n s) :
    HoldsR q f n (Sys2Proof.Machine.execReleaseWithoutSlice a1 s) := by
  unfold Sys2Proof.Machine.execReleaseWithoutSlice
  repeat' first
    | with_reducible assumption
    | (with_reducible intro _)
    | with_reducible apply holds_State_hostWrite

theorem holds_execGroupReturn {a1 : Sys2Proof.Group} {s : Sys2Proof.Machine.State} (h : Holds q f n s) :
    HoldsR q f n (Sys2Proof.Machine.execGroupReturn a1 s) := by
  unfold Sys2Proof.Machine.execGroupReturn
  repeat' first
    | with_reducible assumption
    | (with_reducible intro _)
    | with_reducible apply holds_State_hostWrite

theorem holds_execInject {a1 : BitVec 32} {s : Sys2Proof.Machine.State} (h : Holds q f n s) :
    HoldsR q f n (Sys2Proof.Machine.execInject a1 s) := by
  unfold Sys2Proof.Machine.execInject
  repeat' first
    | with_reducible assumption
    | (with_reducible intro _)
    | with_reducible apply holds_State_hostWrite

theorem holds_execFaultSummaryClear {a1 : BitVec 32} {s : Sys2Proof.Machine.State} (h : Holds q f n s) :
    HoldsR q f n (Sys2Proof.Machine.execFaultSummaryClear a1 s) := by
  unfold Sys2Proof.Machine.execFaultSummaryClear
  repeat' first
    | with_reducible assumption
    | (with_reducible intro _)
    | with_reducible apply holds_State_hostWrite

theorem holds_execSliceRequest {a1 : BitVec 16} {s : Sys2Proof.Machine.State} (h : Holds q f n s) :
    HoldsR q f n (Sys2Proof.Machine.execSliceRequest a1 s) := by
  unfold Sys2Proof.Machine.execSliceRequest
  repeat' first
    | with_reducible assumption
    | (with_reducible intro _)
    | with_reducible apply holds_State_hostWrite

theorem holds_execFlowCounterRead {a1 : Fin 2097152} {a2 : Fin 89} {s : Sys2Proof.Machine.State} (h : Holds q f n s) :
    HoldsR q f n (Sys2Proof.Machine.execFlowCounterRead a1 a2 s) := by
  unfold Sys2Proof.Machine.execFlowCounterRead
  repeat' first
    | with_reducible assumption
    | (with_reducible intro _)
    | with_reducible apply holds_State_serveNow
    | with_reducible apply holds_answering
    | with_reducible apply HoldsR.next
    | exact HoldsR.undefined (by decide)
    | with_reducible apply HoldsR.ite
    | with_reducible apply holds_ite
    | with_reducible apply HoldsR.ite_outcome
    | split
    | (dsimp only)
    | (with_reducible refine holds_mk ?_; with_reducible apply Holds.parts)

theorem holds_execFlowCounterWrite {a1 : Fin 2097152} {a2 : BitVec 64} {a3 : BitVec 64} {s : Sys2Proof.Machine.State} (h : Holds q f n s) :
    HoldsR q f n (Sys2Proof.Machine.execFlowCounterWrite a1 a2 a3 s) := by
  unfold Sys2Proof.Machine.execFlowCounterWrite
  repeat' first
    | with_reducible assumption
    | (with_reducible intro _)
    | with_reducible apply holds_State_hostWriteRegion

theorem holds_execCaliperFreeze {s : Sys2Proof.Machine.State} (h : Holds q f n s) :
    HoldsR q f n (Sys2Proof.Machine.execCaliperFreeze s) := by
  unfold Sys2Proof.Machine.execCaliperFreeze
  repeat' first
    | with_reducible assumption
    | (with_reducible intro _)
    | with_reducible apply holds_State_hostWrite

theorem holds_execCaliperRestart {s : Sys2Proof.Machine.State} (h : Holds q f n s) :
    HoldsR q f n (Sys2Proof.Machine.execCaliperRestart s) := by
  unfold Sys2Proof.Machine.execCaliperRestart
  repeat' first
    | with_reducible assumption
    | (with_reducible intro _)
    | with_reducible apply holds_State_hostWrite

theorem holds_execCaliperClearAll {s : Sys2Proof.Machine.State} (h : Holds q f n s) :
    HoldsR q f n (Sys2Proof.Machine.execCaliperClearAll s) := by
  unfold Sys2Proof.Machine.execCaliperClearAll
  repeat' first
    | with_reducible assumption
    | (with_reducible intro _)
    | with_reducible apply holds_State_hostWrite

theorem holds_execCounterSummaryClear {a1 : BitVec 32} {s : Sys2Proof.Machine.State} (h : Holds q f n s) :
    HoldsR q f n (Sys2Proof.Machine.execCounterSummaryClear a1 s) := by
  unfold Sys2Proof.Machine.execCounterSummaryClear
  repeat' first
    | with_reducible assumption
    | (with_reducible intro _)
    | with_reducible apply holds_State_hostWrite

theorem holds_execReloadStartImage {s : Sys2Proof.Machine.State} (h : Holds q f n s) :
    HoldsR q f n (Sys2Proof.Machine.execReloadStartImage s) := by
  unfold Sys2Proof.Machine.execReloadStartImage
  repeat' first
    | with_reducible assumption
    | (with_reducible intro _)
    | with_reducible apply holds_State_hostWrite

theorem holds_execReloadStartHold {s : Sys2Proof.Machine.State} (h : Holds q f n s) :
    HoldsR q f n (Sys2Proof.Machine.execReloadStartHold s) := by
  unfold Sys2Proof.Machine.execReloadStartHold
  repeat' first
    | with_reducible assumption
    | (with_reducible intro _)
    | with_reducible apply holds_State_hostWrite

theorem holds_execAtelierSummaryClear {a1 : BitVec 32} {s : Sys2Proof.Machine.State} (h : Holds q f n s) :
    HoldsR q f n (Sys2Proof.Machine.execAtelierSummaryClear a1 s) := by
  unfold Sys2Proof.Machine.execAtelierSummaryClear
  repeat' first
    | with_reducible assumption
    | (with_reducible intro _)
    | with_reducible apply holds_State_hostWrite
end Sys2Proof.Laws
end

