-- ==== Sys2Proof/Laws/HoldsReceive.lean ====
section
/-! SUPPORT. What the operations of Machine/Receive.lean keep. -/

namespace Sys2Proof.Laws

open Sys2Proof.Machine Sys2Proof.Safety

variable {q : List Instr} {f n : Nat}

theorem holds_State_judgeMet {s : Sys2Proof.Machine.State} {a2 : Nat} {a3 : List Sys2Proof.Byte} {a4 : Option Nat} {a5 : Sys2Proof.RxError} (h : Holds q f n s) :
    Holds q f n (Sys2Proof.Machine.State.judgeMet s a2 a3 a4 a5).1 := by
  unfold Sys2Proof.Machine.State.judgeMet
  repeat' first
    | with_reducible assumption
    | (with_reducible intro _)
    | with_reducible apply holds_State_free
    | with_reducible refine holds_snd_eq ‹_› ?_
    | with_reducible apply holds_ite_fst
    | with_reducible apply holds_ite_snd
    | with_reducible apply holds_ite
    | split
    | (dsimp only)

theorem holds_State_judgeWhole {s : Sys2Proof.Machine.State} {a2 : Nat} {a3 : List Sys2Proof.Byte} {a4 : Option Nat} {a5 : Sys2Proof.RxError} (h : Holds q f n s) :
    Holds q f n (Sys2Proof.Machine.State.judgeWhole s a2 a3 a4 a5).1 := by
  unfold Sys2Proof.Machine.State.judgeWhole
  repeat' first
    | with_reducible assumption
    | (with_reducible intro _)
    | with_reducible apply holds_State_judgeMet
    | with_reducible refine holds_fst_eq ‹_› ?_
    | split

theorem holds_State_fecReport {s : Sys2Proof.Machine.State} {a2 : Nat} {a3 : Sys2Proof.RxError} (h : Holds q f n s) :
    Holds q f n (Sys2Proof.Machine.State.fecReport s a2 a3) := by
  unfold Sys2Proof.Machine.State.fecReport
  repeat' first
    | with_reducible assumption
    | (with_reducible intro _)
    | with_reducible apply holds_State_flag
    | with_reducible apply holds_State_rxStat
    | with_reducible apply holds_State_put
    | with_reducible apply holds_foldl
    | with_reducible apply holds_foldl_fst
    | with_reducible apply holds_getD
    | split

theorem holds_State_macStats {s : Sys2Proof.Machine.State} {a2 : Nat} {a3 : List Sys2Proof.Byte} (h : Holds q f n s) :
    Holds q f n (Sys2Proof.Machine.State.macStats s a2 a3) := by
  unfold Sys2Proof.Machine.State.macStats
  repeat' first
    | with_reducible assumption
    | (with_reducible intro _)
    | with_reducible apply holds_State_rxDelimited
    | with_reducible apply holds_State_rxStat
    | with_reducible apply holds_ite

theorem holds_State_control {s : Sys2Proof.Machine.State} {a2 : Nat} {a3 : List Sys2Proof.Byte} (h : Holds q f n s) :
    Holds q f n (Sys2Proof.Machine.State.control s a2 a3) := by
  unfold Sys2Proof.Machine.State.control
  repeat' first
    | with_reducible assumption
    | (with_reducible intro _)
    | with_reducible apply holds_State_code
    | with_reducible apply holds_State_rxStat
    | with_reducible apply holds_State_startTx
    | with_reducible apply holds_State_pauseFor
    | with_reducible apply holds_foldl
    | with_reducible apply holds_foldl_fst
    | with_reducible apply holds_ite

theorem holds_State_decipher {s : Sys2Proof.Machine.State} {a2 : Nat} {a3 : List Sys2Proof.Byte} {a4 : Bool} (h : Holds q f n s) :
    Holds q f n (Sys2Proof.Machine.State.decipher s a2 a3 a4).1 := by
  unfold Sys2Proof.Machine.State.decipher
  repeat' first
    | with_reducible assumption
    | (with_reducible intro _)
    | with_reducible apply holds_State_judgeSecure
    | with_reducible apply holds_State_free
    | with_reducible apply holds_State_secyCount
    | with_reducible refine holds_fst_eq ‹_› ?_
    | with_reducible refine holds_snd_eq ‹_› ?_
    | with_reducible apply holds_ite_fst
    | with_reducible apply holds_ite_snd
    | with_reducible apply holds_ite
    | split

theorem holds_State_checkIcv {s : Sys2Proof.Machine.State} {a2 : Nat} {a3 : Sys2Proof.Machine.Seal} {a4 : List Sys2Proof.Byte} (h : Holds q f n s) :
    Holds q f n (Sys2Proof.Machine.State.checkIcv s a2 a3 a4).1 := by
  unfold Sys2Proof.Machine.State.checkIcv
  repeat' first
    | with_reducible assumption
    | (with_reducible intro _)
    | with_reducible apply holds_State_icvChecked
    | with_reducible apply holds_State_lineBlocks

theorem holds_State_enterFifo {s : Sys2Proof.Machine.State} {a2 : Nat} {a3 : List Sys2Proof.Byte} {a4 : Bool} {a5 : Nat} {a6 : Sys2Proof.Machine.PortModes} (h : Holds q f n s) :
    Holds q f n (Sys2Proof.Machine.State.enterFifo s a2 a3 a4 a5 a6) := by
  unfold Sys2Proof.Machine.State.enterFifo
  repeat' first
    | with_reducible assumption
    | (with_reducible intro _)
    | with_reducible apply holds_State_addFrame

theorem holds_State_accept {s : Sys2Proof.Machine.State} {a2 : Nat} {a3 : List Sys2Proof.Byte} (h : Holds q f n s) :
    Holds q f n (Sys2Proof.Machine.State.accept s a2 a3) := by
  unfold Sys2Proof.Machine.State.accept
  repeat' first
    | with_reducible assumption
    | (with_reducible intro _)
    | with_reducible apply holds_State_rxGood

theorem holds_State_endAtArrival {s : Sys2Proof.Machine.State} {a2 : Nat} {a3 : Nat} (h : Holds q f n s) :
    Holds q f n (Sys2Proof.Machine.State.endAtArrival s a2 a3) := by
  unfold Sys2Proof.Machine.State.endAtArrival
  repeat' first
    | with_reducible assumption
    | (with_reducible intro _)
    | with_reducible apply holds_State_code
    | with_reducible apply holds_State_rxCode

theorem holds_State_takeWhole {s : Sys2Proof.Machine.State} {a2 : Nat} {a3 : List Sys2Proof.Byte} {a4 : Option Nat} {a5 : Nat} {a6 : Sys2Proof.Machine.PortModes} (h : Holds q f n s) :
    Holds q f n (Sys2Proof.Machine.State.takeWhole s a2 a3 a4 a5 a6) := by
  unfold Sys2Proof.Machine.State.takeWhole
  repeat' first
    | with_reducible assumption
    | (with_reducible intro _)
    | with_reducible apply holds_State_decipher
    | with_reducible apply holds_State_endAtArrival
    | with_reducible apply holds_State_checkIcv
    | with_reducible apply holds_State_enterFifo
    | with_reducible refine holds_fst_eq ‹_› ?_
    | with_reducible apply holds_getD
    | with_reducible apply holds_ite_fst
    | with_reducible apply holds_ite
    | split

theorem holds_State_receiveWhole {s : Sys2Proof.Machine.State} {a2 : Nat} {a3 : List Sys2Proof.Byte} {a4 : Option Nat} {a5 : Option Nat} {a6 : Nat} {a7 : Sys2Proof.Machine.PortModes} {a8 : Sys2Proof.RxError} (h : Holds q f n s) :
    Holds q f n (Sys2Proof.Machine.State.receiveWhole s a2 a3 a4 a5 a6 a7 a8) := by
  unfold Sys2Proof.Machine.State.receiveWhole
  repeat' first
    | with_reducible assumption
    | (with_reducible intro _)
    | with_reducible apply holds_State_macStats
    | with_reducible apply holds_State_endAtArrival
    | with_reducible apply holds_State_judgeWhole
    | with_reducible apply holds_State_accept
    | with_reducible apply holds_State_control
    | with_reducible apply holds_State_takeWhole
    | with_reducible refine holds_fst_eq ‹_› ?_
    | with_reducible apply holds_ite_fst
    | with_reducible apply holds_ite
    | split
    | (dsimp only)

theorem holds_State_receiveHead {s : Sys2Proof.Machine.State} {a2 : Nat} {a3 : List Sys2Proof.Byte} {a4 : Sys2Proof.RxError} (h : Holds q f n s) :
    Holds q f n (Sys2Proof.Machine.State.receiveHead s a2 a3 a4) := by
  unfold Sys2Proof.Machine.State.receiveHead
  repeat' first
    | with_reducible assumption
    | (with_reducible intro _)
    | with_reducible apply holds_State_judgeMet
    | with_reducible apply holds_State_setPort
    | with_reducible apply holds_State_decipher
    | with_reducible apply holds_State_enterFifo
    | with_reducible refine holds_fst_eq ‹_› ?_
    | with_reducible apply holds_ite_fst
    | with_reducible apply holds_ite
    | split

theorem holds_State_readyLearns {s : Sys2Proof.Machine.State} {a2 : Nat} (h : Holds q f n s) :
    Holds q f n (Sys2Proof.Machine.State.readyLearns s a2) := by
  unfold Sys2Proof.Machine.State.readyLearns
  repeat' first
    | with_reducible assumption
    | (with_reducible intro _)
    | with_reducible apply holds_ite
    | split
    | (dsimp only)
    | (with_reducible refine holds_mk ?_; with_reducible apply Holds.parts)

theorem holds_State_pushException {s : Sys2Proof.Machine.State} {a2 : Nat} {a3 : List Sys2Proof.Byte} (h : Holds q f n s) :
    Holds q f n (Sys2Proof.Machine.State.pushException s a2 a3).1 := by
  unfold Sys2Proof.Machine.State.pushException
  repeat' first
    | with_reducible assumption
    | (with_reducible intro _)
    | with_reducible apply holds_State_ringPush
    | with_reducible apply holds_State_bump64
    | with_reducible apply holds_getD
    | with_reducible apply holds_ite_fst

theorem holds_State_endAtTail {s : Sys2Proof.Machine.State} {a2 : Sys2Proof.Machine.Frame} {a3 : Nat} (h : Holds q f n s) :
    Holds q f n (Sys2Proof.Machine.State.endAtTail s a2 a3) := by
  unfold Sys2Proof.Machine.State.endAtTail
  repeat' first
    | with_reducible assumption
    | (with_reducible intro _)
    | with_reducible apply holds_State_endFrame
    | with_reducible apply holds_State_pushException
    | with_reducible refine holds_fst_eq ‹_› ?_
    | with_reducible apply holds_getD
    | split

theorem holds_State_takeTail {s : Sys2Proof.Machine.State} {a2 : Nat} {a3 : List Sys2Proof.Byte} (h : Holds q f n s) :
    Holds q f n (Sys2Proof.Machine.State.takeTail s a2 a3) := by
  unfold Sys2Proof.Machine.State.takeTail
  repeat' first
    | with_reducible assumption
    | (with_reducible intro _)
    | with_reducible apply holds_State_setFrame
    | with_reducible apply holds_State_growCells
    | with_reducible apply holds_State_loseFrame
    | with_reducible apply holds_State_endAtTail
    | with_reducible apply holds_State_payCredit
    | with_reducible apply holds_State_appendTail
    | with_reducible apply holds_State_completeFrame
    | with_reducible refine holds_fst_eq ‹_› ?_
    | with_reducible apply holds_foldl
    | with_reducible apply holds_foldl_fst
    | with_reducible apply holds_ite_fst
    | with_reducible apply holds_ite
    | split
    | (dsimp only)

theorem holds_State_finishFrame {s : Sys2Proof.Machine.State} {a2 : Nat} {a3 : List Sys2Proof.Byte} (h : Holds q f n s) :
    Holds q f n (Sys2Proof.Machine.State.finishFrame s a2 a3) := by
  unfold Sys2Proof.Machine.State.finishFrame
  repeat' first
    | with_reducible assumption
    | (with_reducible intro _)
    | with_reducible apply holds_State_readyLearns
    | with_reducible apply holds_State_setFrame
    | with_reducible apply holds_State_takeTail
    | with_reducible apply holds_ite

theorem holds_State_countConflict {s : Sys2Proof.Machine.State} {a2 : Nat} (h : Holds q f n s) :
    Holds q f n (Sys2Proof.Machine.State.countConflict s a2) := by
  unfold Sys2Proof.Machine.State.countConflict
  repeat' first
    | with_reducible assumption
    | (with_reducible intro _)
    | with_reducible apply holds_State_flag
    | with_reducible apply holds_State_bump64

theorem holds_State_checkTail {s : Sys2Proof.Machine.State} {a2 : Sys2Proof.Machine.Frame} {a3 : List Sys2Proof.Byte} (h : Holds q f n s) :
    Holds q f n (Sys2Proof.Machine.State.checkTail s a2 a3) := by
  unfold Sys2Proof.Machine.State.checkTail
  repeat' first
    | with_reducible assumption
    | (with_reducible intro _)
    | with_reducible apply holds_State_countConflict
    | with_reducible apply holds_State_setFrame
    | with_reducible apply holds_State_endAtTail
    | with_reducible apply holds_State_endFrame
    | with_reducible apply holds_State_loseFrame
    | with_reducible apply holds_State_takeTail
    | with_reducible apply holds_getD
    | with_reducible apply holds_ite

theorem holds_execLateLengthCheck {a1 : Nat} {s : Sys2Proof.Machine.State} (h : Holds q f n s) :
    HoldsR q f n (Sys2Proof.Machine.execLateLengthCheck a1 s) := by
  unfold Sys2Proof.Machine.execLateLengthCheck
  repeat' first
    | with_reducible assumption
    | (with_reducible intro _)
    | with_reducible apply holds_State_checkTail
    | with_reducible apply HoldsR.next
    | exact HoldsR.undefined (by decide)
    | split

theorem holds_State_finishReception {s : Sys2Proof.Machine.State} {a2 : Nat} {a3 : Nat} {a4 : List Sys2Proof.Byte} {a5 : Option Sys2Proof.Machine.Seal} {a6 : Sys2Proof.RxError} (h : Holds q f n s) :
    Holds q f n (Sys2Proof.Machine.State.finishReception s a2 a3 a4 a5 a6) := by
  unfold Sys2Proof.Machine.State.finishReception
  repeat' first
    | with_reducible assumption
    | (with_reducible intro _)
    | with_reducible apply holds_State_judgeWhole
    | with_reducible apply holds_State_loseFrame
    | with_reducible apply holds_State_rxCode
    | with_reducible apply holds_State_accept
    | with_reducible apply holds_State_finishFrame
    | with_reducible apply holds_State_secyCount
    | with_reducible apply holds_State_checkIcv
    | with_reducible refine holds_fst_eq ‹_› ?_
    | with_reducible apply holds_ite_fst
    | with_reducible apply holds_ite
    | split
    | (dsimp only)

theorem holds_State_receiveTail {s : Sys2Proof.Machine.State} {a2 : Nat} {a3 : List Sys2Proof.Byte} {a4 : Sys2Proof.RxError} (h : Holds q f n s) :
    Holds q f n (Sys2Proof.Machine.State.receiveTail s a2 a3 a4) := by
  unfold Sys2Proof.Machine.State.receiveTail
  repeat' first
    | with_reducible assumption
    | (with_reducible intro _)
    | with_reducible apply holds_State_setPort
    | with_reducible apply holds_State_finishReception
    | with_reducible apply holds_State_macStats
    | with_reducible apply holds_State_receiveWhole
    | with_reducible apply holds_ite
    | split
    | (dsimp only)

theorem holds_State_receive {s : Sys2Proof.Machine.State} {a2 : Nat} {a3 : Sys2Proof.RxPart} {a4 : List Sys2Proof.Byte} {a5 : Sys2Proof.RxError} (h : Holds q f n s) :
    Holds q f n (Sys2Proof.Machine.State.receive s a2 a3 a4 a5) := by
  unfold Sys2Proof.Machine.State.receive
  repeat' first
    | with_reducible assumption
    | (with_reducible intro _)
    | with_reducible apply holds_State_fecReport
    | with_reducible apply holds_State_receiveWhole
    | with_reducible apply holds_State_receiveHead
    | with_reducible apply holds_State_receiveTail
    | with_reducible apply holds_ite
    | split

theorem holds_execReceivedFrame {a1 : Sys2Proof.Port} {a2 : Sys2Proof.RxPart} {a3 : List Sys2Proof.Byte} {a4 : Sys2Proof.RxError} {s : Sys2Proof.Machine.State} (h : Holds q f n s) :
    HoldsR q f n (Sys2Proof.Machine.execReceivedFrame a1 a2 a3 a4 s) := by
  unfold Sys2Proof.Machine.execReceivedFrame
  repeat' first
    | with_reducible assumption
    | (with_reducible intro _)
    | with_reducible apply holds_State_receive
    | with_reducible apply HoldsR.next

theorem holds_execPauseFrame {a1 : Sys2Proof.Port} {a2 : List Sys2Proof.Byte} {s : Sys2Proof.Machine.State} (h : Holds q f n s) :
    HoldsR q f n (Sys2Proof.Machine.execPauseFrame a1 a2 s) := by
  unfold Sys2Proof.Machine.execPauseFrame
  repeat' first
    | with_reducible assumption
    | (with_reducible intro _)
    | with_reducible apply holds_State_receive
    | with_reducible apply HoldsR.next

theorem holds_execPfcFrame {a1 : Sys2Proof.Port} {a2 : List Sys2Proof.Byte} {s : Sys2Proof.Machine.State} (h : Holds q f n s) :
    HoldsR q f n (Sys2Proof.Machine.execPfcFrame a1 a2 s) := by
  unfold Sys2Proof.Machine.execPfcFrame
  repeat' first
    | with_reducible assumption
    | (with_reducible intro _)
    | with_reducible apply holds_State_receive
    | with_reducible apply HoldsR.next

theorem holds_execMacControlFrame {a1 : Sys2Proof.Port} {a2 : List Sys2Proof.Byte} {s : Sys2Proof.Machine.State} (h : Holds q f n s) :
    HoldsR q f n (Sys2Proof.Machine.execMacControlFrame a1 a2 s) := by
  unfold Sys2Proof.Machine.execMacControlFrame
  repeat' first
    | with_reducible assumption
    | (with_reducible intro _)
    | with_reducible apply holds_State_receive
    | with_reducible apply HoldsR.next

theorem holds_execHostInjection {a1 : Sys2Proof.Port} {a2 : List Sys2Proof.Byte} {s : Sys2Proof.Machine.State} (h : Holds q f n s) :
    HoldsR q f n (Sys2Proof.Machine.execHostInjection a1 a2 s) := by
  unfold Sys2Proof.Machine.execHostInjection
  repeat' first
    | with_reducible assumption
    | (with_reducible intro _)
    | with_reducible apply holds_State_addFrame
    | with_reducible apply HoldsR.next
    | exact HoldsR.undefined (by decide)
    | with_reducible apply HoldsR.ite

theorem holds_execCutThroughStart {a1 : Sys2Proof.Port} {s : Sys2Proof.Machine.State} (h : Holds q f n s) :
    HoldsR q f n (Sys2Proof.Machine.execCutThroughStart a1 s) := by
  unfold Sys2Proof.Machine.execCutThroughStart
  repeat' first
    | with_reducible assumption
    | (with_reducible intro _)
    | with_reducible apply holds_State_beginTx
    | with_reducible apply HoldsR.next
    | exact HoldsR.undefined (by decide)
    | with_reducible apply HoldsR.ite
    | with_reducible apply holds_ite
    | split

theorem holds_State_corrected {s : Sys2Proof.Machine.State} {a2 : Nat} {a3 : Nat} (h : Holds q f n s) :
    Holds q f n (Sys2Proof.Machine.State.corrected s a2 a3).2 := by
  unfold Sys2Proof.Machine.State.corrected
  repeat' first
    | with_reducible assumption
    | (with_reducible intro _)
    | with_reducible apply holds_State_free
    | with_reducible apply holds_ite_snd

theorem holds_State_ptpStep {s : Sys2Proof.Machine.State} {a2 : Nat} {a3 : Sys2Proof.Machine.Frame} {a4 : List Sys2Proof.Byte} {a5 : Sys2Proof.Machine.Tx} (h : Holds q f n s) :
    Holds q f n (Sys2Proof.Machine.State.ptpStep s a2 a3 a4 a5).1 := by
  unfold Sys2Proof.Machine.State.ptpStep
  repeat' first
    | with_reducible assumption
    | (with_reducible intro _)
    | with_reducible apply holds_State_corrected
    | with_reducible apply holds_State_wrap32
    | with_reducible apply holds_State_putBytes
    | with_reducible refine holds_snd_eq ‹_› ?_
    | with_reducible apply holds_ite_fst
    | with_reducible apply holds_ite_snd
    | with_reducible apply holds_ite
    | split
    | (dsimp only)

theorem holds_State_sendBlocks {s : Sys2Proof.Machine.State} {a2 : Nat} {a3 : Sys2Proof.Machine.Tx} {a4 : Nat} (h : Holds q f n s) :
    Holds q f n (Sys2Proof.Machine.State.sendBlocks s a2 a3 a4) := by
  unfold Sys2Proof.Machine.State.sendBlocks
  repeat' first
    | with_reducible assumption
    | (with_reducible intro _)
    | with_reducible apply holds_State_lineBlocks
    | split

theorem holds_State_endTransmit {s : Sys2Proof.Machine.State} {a2 : Nat} {a3 : Sys2Proof.Machine.Tx} {a4 : Sys2Proof.Machine.Copy} {a5 : Sys2Proof.Machine.Frame} (h : Holds q f n s) :
    Holds q f n (Sys2Proof.Machine.State.endTransmit s a2 a3 a4 a5) := by
  unfold Sys2Proof.Machine.State.endTransmit
  repeat' first
    | with_reducible assumption
    | (with_reducible intro _)
    | with_reducible apply holds_State_ptpStep
    | with_reducible apply holds_State_sendBlocks
    | with_reducible apply holds_State_stomp
    | with_reducible apply holds_State_secyCount
    | with_reducible apply holds_State_txGood
    | with_reducible apply holds_State_setPort
    | with_reducible apply holds_State_endAtPort
    | with_reducible refine holds_fst_eq ‹_› ?_
    | with_reducible apply holds_ite_fst
    | with_reducible apply holds_ite

theorem holds_execTransmitEnd {a1 : Sys2Proof.Port} {s : Sys2Proof.Machine.State} (h : Holds q f n s) :
    HoldsR q f n (Sys2Proof.Machine.execTransmitEnd a1 s) := by
  unfold Sys2Proof.Machine.execTransmitEnd
  repeat' first
    | with_reducible assumption
    | (with_reducible intro _)
    | with_reducible apply holds_State_startTx
    | with_reducible apply holds_State_endTransmit
    | with_reducible apply HoldsR.next
    | exact HoldsR.undefined (by decide)
    | with_reducible apply HoldsR.ite
    | with_reducible apply holds_ite
    | split
    | (dsimp only)

theorem holds_execGrantTimeout {a1 : Nat} {s : Sys2Proof.Machine.State} (h : Holds q f n s) :
    HoldsR q f n (Sys2Proof.Machine.execGrantTimeout a1 s) := by
  unfold Sys2Proof.Machine.execGrantTimeout
  repeat' first
    | with_reducible assumption
    | (with_reducible intro _)
    | with_reducible apply holds_State_loseFrame
    | with_reducible apply HoldsR.next
    | exact HoldsR.undefined (by decide)
    | with_reducible apply HoldsR.ite
    | with_reducible apply holds_ite
    | split
end Sys2Proof.Laws
end

