-- ==== Sys2Proof/Laws/HoldsLookup.lean ====
section
/-! SUPPORT. What the operations of Machine/Lookup.lean keep. -/

namespace Sys2Proof.Laws

open Sys2Proof.Machine Sys2Proof.Safety

variable {q : List Instr} {f n : Nat}

theorem holds_State_countHit {s : Sys2Proof.Machine.State} {a2 : Nat} {a3 : Option Sys2Proof.Machine.EmUnit} (h : Holds q f n s) :
    Holds q f n (Sys2Proof.Machine.State.countHit s a2 a3) := by
  unfold Sys2Proof.Machine.State.countHit
  repeat' first
    | with_reducible assumption
    | (with_reducible intro _)
    | with_reducible apply holds_State_countN
    | with_reducible apply holds_State_count
    | split

theorem holds_State_lostProbe {s : Sys2Proof.Machine.State} {a2 : Nat} (h : Holds q f n s) :
    Holds q f n (Sys2Proof.Machine.State.lostProbe s a2) := by
  unfold Sys2Proof.Machine.State.lostProbe
  repeat' first
    | with_reducible assumption
    | (with_reducible intro _)
    | with_reducible apply holds_State_flag
    | with_reducible apply holds_State_bump64

theorem holds_State_probeParity {s : Sys2Proof.Machine.State} {a2 : Nat} {a3 : Nat} {a4 : Nat} {a5 : Nat} {a6 : Nat} {a7 : Nat} {a8 : Sys2Proof.ParityEvent} {a9 : Sys2Proof.EmRead} (h : Holds q f n s) :
    Holds q f n (Sys2Proof.Machine.State.probeParity s a2 a3 a4 a5 a6 a7 a8 a9).1 := by
  unfold Sys2Proof.Machine.State.probeParity
  repeat' first
    | with_reducible assumption
    | (with_reducible intro _)
    | with_reducible apply holds_State_request
    | with_reducible apply holds_State_markCorrupt
    | with_reducible apply holds_State_count
    | with_reducible apply holds_State_bump64
    | with_reducible apply holds_State_judge
    | with_reducible apply holds_State_countHit
    | with_reducible apply holds_State_lostProbe
    | with_reducible apply holds_ite_fst
    | with_reducible apply holds_ite
    | split
    | (dsimp only)

theorem holds_State_probe {s : Sys2Proof.Machine.State} {a2 : Nat} {a3 : Nat} {a4 : Nat} {a5 : Nat} {a6 : Nat} {a7 : Sys2Proof.ParityEvent × Sys2Proof.EmRead} (h : Holds q f n s) :
    Holds q f n (Sys2Proof.Machine.State.probe s a2 a3 a4 a5 a6 a7).1 := by
  unfold Sys2Proof.Machine.State.probe
  repeat' first
    | with_reducible assumption
    | (with_reducible intro _)
    | with_reducible apply holds_State_count
    | with_reducible apply holds_State_lostProbe
    | with_reducible apply holds_State_countHit
    | with_reducible apply holds_State_probeParity
    | with_reducible refine holds_fst_eq ‹_› ?_
    | with_reducible apply holds_ite_fst
    | with_reducible apply holds_ite
    | split
    | (dsimp only)

theorem holds_State_filterParity {s : Sys2Proof.Machine.State} {a2 : Nat} {a3 : Nat} {a4 : Nat} {a5 : List Nat} (h : Holds q f n s) :
    Holds q f n (Sys2Proof.Machine.State.filterParity s a2 a3 a4 a5) := by
  unfold Sys2Proof.Machine.State.filterParity
  repeat' first
    | with_reducible assumption
    | (with_reducible intro _)
    | with_reducible apply holds_State_judge
    | with_reducible apply holds_State_request
    | with_reducible apply holds_foldl
    | with_reducible apply holds_foldl_fst
    | with_reducible apply holds_ite

theorem holds_State_prefixProbes {s : Sys2Proof.Machine.State} {a2 : Nat} {a3 : Nat} {a4 : Nat} {a5 : Nat} {a6 : Nat} {a7 : Sys2Proof.Machine.PrefixWork} {a8 : List (Sys2Proof.ParityEvent × Sys2Proof.EmRead)} {a9 : List Nat} {a10 : Nat} (h : Holds q f n s) :
    Holds q f n (Sys2Proof.Machine.State.prefixProbes s a2 a3 a4 a5 a6 a7 a8 a9 a10).1 := by
  induction a9 generalizing s a2 a3 a4 a5 a6 a7 a8 a10 with
  | nil =>
    unfold Sys2Proof.Machine.State.prefixProbes
    repeat' first
      | with_reducible assumption
  | cons x l ih =>
    unfold Sys2Proof.Machine.State.prefixProbes
    repeat' first
      | with_reducible assumption
      | (with_reducible intro _)
      | with_reducible apply ih
      | with_reducible apply holds_State_probe
      | with_reducible apply holds_State_count
      | with_reducible apply holds_State_bump64
      | with_reducible refine holds_fst_eq ‹_› ?_
      | with_reducible apply holds_ite_fst
      | with_reducible apply holds_ite
      | split

theorem holds_State_runPrefix {s : Sys2Proof.Machine.State} {a2 : Nat} {a3 : Nat} {a4 : Nat} {a5 : Nat} {a6 : Nat} {a7 : Sys2Proof.Machine.PrefixWork} {a8 : List (Sys2Proof.ParityEvent × Sys2Proof.EmRead)} (h : Holds q f n s) :
    Holds q f n (Sys2Proof.Machine.State.runPrefix s a2 a3 a4 a5 a6 a7 a8).1 := by
  unfold Sys2Proof.Machine.State.runPrefix
  repeat' first
    | with_reducible assumption
    | (with_reducible intro _)
    | with_reducible apply holds_State_prefixProbes

theorem holds_State_learn {s : Sys2Proof.Machine.State} {a2 : Sys2Proof.Machine.Frame} {a3 : Nat} {a4 : Nat} {a5 : Option Sys2Proof.Machine.EmUnit} (h : Holds q f n s) :
    Holds q f n (Sys2Proof.Machine.State.learn s a2 a3 a4 a5) := by
  unfold Sys2Proof.Machine.State.learn
  repeat' first
    | with_reducible assumption
    | (with_reducible intro _)
    | with_reducible apply holds_getD
    | with_reducible apply holds_ite
    | split
    | (dsimp only)
    | (with_reducible refine holds_mk ?_; with_reducible apply Holds.parts)

theorem holds_State_setHit {s : State} {a2 : Option EmUnit} (h : Holds q f n s) : Holds q f n (s.setHit a2) := by
  unfold State.setHit
  split
  · dsimp only
    exact holds_ite h (Holds.same h rfl rfl rfl rfl rfl rfl rfl rfl rfl rfl rfl)
  · exact h

theorem holds_probing_prefix {a : Probing} {v : PassView} {k t w : Nat} {b c : Bool} {x : Instance} (h : Holds q f n a.state) :
    Holds q f n (a.prefix v k t w b c x).state := by
  unfold Probing.prefix
  exact holds_State_runPrefix (holds_State_countN (holds_State_filterParity h))

theorem holds_probing_exact {a : Probing} {v : PassView} {k t d : Nat} {x : Instance} (h : Holds q f n a.state) :
    Holds q f n (a.exact v k t d x).state := by
  unfold Probing.exact
  exact holds_ite (holds_State_learn (holds_State_setHit (holds_State_probe h))) (holds_State_probe h)

theorem holds_probing_step {v : PassView} {w : Nat} {a : Probing} {kd : Nat × Nat} (h : Holds q f n a.state) :
    Holds q f n (Probing.step v w a kd).state := by
  unfold Probing.step
  dsimp only
  split
  · exact h
  · split
    · exact h
    · split
      · split
        · exact h
        · exact holds_probing_prefix h
      · exact holds_probing_exact h

theorem holds_probeFrom {s : State} {v : PassView} {env : GrantEnv} {g : LookupGain} {b : Bool} {i j : Nat} (h : Holds q f n s) :
    Holds q f n (s.probeFrom v env g b i j).state := by
  have : ∀ (l : List (Nat × Nat)) (g : Probing → Nat × Nat → Probing) (a : Probing),
      (∀ a x, Holds q f n a.state → Holds q f n (g a x).state) → Holds q f n a.state → Holds q f n (l.foldl g a).state := by
    intro l g
    induction l with
    | nil => exact fun a _ h => h
    | cons x l ih => exact fun a hg h => ih _ hg (hg a x h)
  unfold State.probeFrom
  exact this _ _ _ (fun _ _ h => holds_probing_step h) h

theorem holds_probeRest {s : State} {p c : Nat} {x : Frame} {w : PrefixWork} {env : GrantEnv} (h : Holds q f n s) :
    Holds q f n (s.probeRest p c x w env).state := by
  unfold State.probeRest
  exact holds_State_runPrefix h
end Sys2Proof.Laws
end

