-- ==== Sys2Proof/Laws/HoldsGrant.lean ====
section
/-! SUPPORT. What the operations of Machine/Grant.lean keep. -/

namespace Sys2Proof.Laws

open Sys2Proof.Machine Sys2Proof.Safety

variable {q : List Instr} {f n : Nat}

theorem holds_State_useSlot {s : Sys2Proof.Machine.State} {a2 : Nat} {a3 : Nat} (h : Holds q f n s) :
    Holds q f n (Sys2Proof.Machine.State.useSlot s a2 a3) := by
  unfold Sys2Proof.Machine.State.useSlot
  repeat' first
    | with_reducible assumption
    | (with_reducible intro _)
    | with_reducible apply holds_State_setPipe
    | with_reducible apply holds_State_count

theorem holds_State_spendSlots {s : Sys2Proof.Machine.State} {a2 : Nat} {a3 : Nat} (h : Holds q f n s) :
    Holds q f n (Sys2Proof.Machine.State.spendSlots s a2 a3) := by
  induction a3 generalizing s a2 with
  | zero =>
    unfold Sys2Proof.Machine.State.spendSlots
    repeat' first
      | with_reducible assumption
  | succ k ih =>
    unfold Sys2Proof.Machine.State.spendSlots
    repeat' first
      | with_reducible assumption
      | (with_reducible intro _)
      | with_reducible apply ih
      | with_reducible apply holds_State_useSlot

theorem holds_State_beginPass {s : Sys2Proof.Machine.State} {a2 : Sys2Proof.Machine.Frame} {a3 : Nat} (h : Holds q f n s) :
    Holds q f n (Sys2Proof.Machine.State.beginPass s a2 a3) := by
  unfold Sys2Proof.Machine.State.beginPass
  repeat' first
    | with_reducible assumption
    | (with_reducible intro _)
    | with_reducible apply holds_State_bump64
    | with_reducible apply holds_State_setFrame
    | with_reducible apply holds_State_stamp
    | with_reducible apply holds_State_setPipe
    | with_reducible apply holds_ite
    | split

theorem holds_State_toException {s : Sys2Proof.Machine.State} {a2 : Sys2Proof.Machine.Frame} {a3 : Nat} {a4 : Nat} {a5 : Sys2Proof.Machine.Cause} (h : Holds q f n s) :
    Holds q f n (Sys2Proof.Machine.State.toException s a2 a3 a4 a5).1 := by
  unfold Sys2Proof.Machine.State.toException
  repeat' first
    | with_reducible assumption
    | (with_reducible intro _)
    | with_reducible apply holds_State_pushException
    | with_reducible apply holds_State_setFrame
    | with_reducible refine holds_fst_eq ‹_› ?_
    | with_reducible apply holds_ite_fst

theorem holds_State_judgeSlot {s : Sys2Proof.Machine.State} {a2 : Nat} {a3 : Option Nat} (h : Holds q f n s) :
    Holds q f n (Sys2Proof.Machine.State.judgeSlot s a2 a3) := by
  unfold Sys2Proof.Machine.State.judgeSlot
  repeat' first
    | with_reducible assumption
    | (with_reducible intro _)
    | with_reducible apply holds_State_useSlot

theorem holds_State_endPass {s : Sys2Proof.Machine.State} {a2 : Nat} {a3 : Nat} {a4 : Nat} (h : Holds q f n s) :
    Holds q f n (Sys2Proof.Machine.State.endPass s a2 a3 a4) := by
  unfold Sys2Proof.Machine.State.endPass
  repeat' first
    | with_reducible assumption
    | (with_reducible intro _)
    | with_reducible apply holds_State_endIngress
    | with_reducible apply holds_State_judgeSlot
    | with_reducible apply holds_State_captureIngress
    | split

theorem holds_State_replayPass {s : Sys2Proof.Machine.State} {a2 : Sys2Proof.Machine.Frame} {a3 : Nat} {a4 : Nat} {a5 : Option Sys2Proof.Machine.Kept} (h : Holds q f n s) :
    Holds q f n (Sys2Proof.Machine.State.replayPass s a2 a3 a4 a5) := by
  unfold Sys2Proof.Machine.State.replayPass
  repeat' first
    | with_reducible assumption
    | (with_reducible intro _)
    | with_reducible apply holds_State_useSlot
    | with_reducible apply holds_State_moveFrame
    | with_reducible apply holds_State_setFrame

theorem holds_State_sendRound {s : Sys2Proof.Machine.State} {a2 : Sys2Proof.Machine.Frame} {a3 : Nat} {a4 : Sys2Proof.Machine.Resume} (h : Holds q f n s) :
    Holds q f n (Sys2Proof.Machine.State.sendRound s a2 a3 a4) := by
  unfold Sys2Proof.Machine.State.sendRound
  repeat' first
    | with_reducible assumption
    | (with_reducible intro _)
    | with_reducible apply holds_State_setFrame
    | with_reducible apply holds_State_enterRecirc
    | with_reducible apply holds_State_endPass
    | with_reducible apply holds_State_useSlot
    | with_reducible refine holds_fst_eq ‹_› ?_
    | split
    | (dsimp only)

theorem holds_State_enqueue {s : Sys2Proof.Machine.State} {a2 : Sys2Proof.Machine.Frame} {a3 : Sys2Proof.Machine.Writer} (h : Holds q f n s) :
    Holds q f n (Sys2Proof.Machine.State.enqueue s a2 a3).1 := by
  unfold Sys2Proof.Machine.State.enqueue
  repeat' first
    | with_reducible assumption
    | (with_reducible intro _)
    | with_reducible apply holds_State_offerRepl
    | with_reducible apply holds_State_offerVoq
    | with_reducible refine holds_fst_eq ‹_› ?_
    | with_reducible apply holds_ite_fst
    | with_reducible apply holds_ite
    | split

theorem holds_State_leaveIngress {s : Sys2Proof.Machine.State} {a2 : Sys2Proof.Machine.Frame} {a3 : Nat} {a4 : List (List (Fin 37))} (h : Holds q f n s) :
    Holds q f n (Sys2Proof.Machine.State.leaveIngress s a2 a3 a4) := by
  unfold Sys2Proof.Machine.State.leaveIngress
  repeat' first
    | with_reducible assumption
    | (with_reducible intro _)
    | with_reducible apply holds_State_captureIngress
    | with_reducible apply holds_State_setFrame
    | with_reducible apply holds_State_enqueue
    | with_reducible apply holds_State_endIngress
    | with_reducible apply holds_State_judgeSlot
    | with_reducible refine holds_fst_eq ‹_› ?_
    | split
    | (dsimp only)

theorem holds_State_meterFrame {s : Sys2Proof.Machine.State} {a2 : Sys2Proof.Machine.Frame} {a3 : Nat} {a4 : Sys2Proof.GrantEnv} (h : Holds q f n s) :
    Holds q f n (Sys2Proof.Machine.State.meterFrame s a2 a3 a4) := by
  unfold Sys2Proof.Machine.State.meterFrame
  repeat' first
    | with_reducible assumption
    | (with_reducible intro _)
    | with_reducible apply holds_State_leaveIngress
    | with_reducible apply holds_State_replayPass
    | with_reducible apply holds_State_flag
    | with_reducible apply holds_State_bump64
    | with_reducible apply holds_State_lengthOf
    | with_reducible apply holds_State_police
    | with_reducible apply holds_State_endPass
    | with_reducible apply holds_State_setFrame
    | with_reducible refine holds_fst_eq ‹_› ?_
    | with_reducible refine holds_snd_eq ‹_› ?_
    | with_reducible apply holds_ite_fst
    | with_reducible apply holds_ite_snd
    | with_reducible apply holds_ite
    | split

theorem holds_State_judgePass {s : Sys2Proof.Machine.State} {a2 : Sys2Proof.Machine.Frame} {a3 : Nat} {a4 : Nat} {a5 : Sys2Proof.GrantEnv} (h : Holds q f n s) :
    Holds q f n (Sys2Proof.Machine.State.judgePass s a2 a3 a4 a5) := by
  unfold Sys2Proof.Machine.State.judgePass
  repeat' first
    | with_reducible assumption
    | (with_reducible intro _)
    | with_reducible apply holds_State_setFrame
    | with_reducible apply holds_State_toException
    | with_reducible apply holds_State_endPass
    | with_reducible apply holds_State_meterFrame
    | with_reducible refine holds_fst_eq ‹_› ?_
    | with_reducible apply holds_ite_fst
    | with_reducible apply holds_ite
    | split

theorem holds_State_readoutParity {s : Sys2Proof.Machine.State} {a2 : Nat} {a3 : Sys2Proof.Machine.SetOut} {a4 : List Sys2Proof.ParityEvent} (h : Holds q f n s) :
    Holds q f n (Sys2Proof.Machine.State.readoutParity s a2 a3 a4).1 := by
  unfold Sys2Proof.Machine.State.readoutParity
  repeat' first
    | with_reducible assumption
    | (with_reducible intro _)
    | with_reducible apply holds_State_count
    | with_reducible apply holds_State_bump64
    | with_reducible apply holds_State_flag
    | with_reducible apply holds_State_judge
    | with_reducible apply holds_foldl
    | with_reducible apply holds_foldl_fst
    | with_reducible apply holds_ite_fst
    | with_reducible apply holds_ite
    | split

theorem holds_State_searchFrame {s : Sys2Proof.Machine.State} {a2 : Nat} {a3 : Nat} {a4 : Sys2Proof.Machine.Frame} {a5 : Sys2Proof.Machine.ParseInput} {a6 : List Sys2Proof.Machine.Instance} {a7 : Sys2Proof.Machine.LookupGain} {a8 : List Sys2Proof.ParityEvent} (h : Holds q f n s) :
    Holds q f n (Sys2Proof.Machine.State.searchFrame s a2 a3 a4 a5 a6 a7 a8).1 := by
  unfold Sys2Proof.Machine.State.searchFrame
  repeat' first
    | with_reducible assumption
    | (with_reducible intro _)
    | with_reducible apply holds_State_countSet
    | with_reducible apply holds_State_readoutParity
    | with_reducible refine holds_fst_eq ‹_› ?_
    | with_reducible apply holds_getD
    | with_reducible apply holds_ite_fst

theorem holds_State_closePass {s : Sys2Proof.Machine.State} {a2 : Sys2Proof.Machine.Frame} {a3 : Nat} {a4 : Nat} {a5 : Option Sys2Proof.Machine.Resume} {a6 : Sys2Proof.Machine.LookupGain} {a7 : Sys2Proof.GrantEnv} (h : Holds q f n s) :
    Holds q f n (Sys2Proof.Machine.State.closePass s a2 a3 a4 a5 a6 a7) := by
  unfold Sys2Proof.Machine.State.closePass
  repeat' first
    | with_reducible assumption
    | (with_reducible intro _)
    | with_reducible apply holds_State_sendRound
    | with_reducible apply holds_State_judgePass
    | split

theorem holds_State_stallPass {s : Sys2Proof.Machine.State} {a2 : Sys2Proof.Machine.Frame} {a3 : Nat} {a4 : Nat} {a5 : Sys2Proof.Machine.LookupGain} (h : Holds q f n s) :
    Holds q f n (Sys2Proof.Machine.State.stallPass s a2 a3 a4 a5) := by
  unfold Sys2Proof.Machine.State.stallPass
  repeat' first
    | with_reducible assumption
    | (with_reducible intro _)
    | with_reducible apply holds_State_setPipe
    | with_reducible apply holds_State_moveFrame
    | with_reducible apply holds_State_setFrame

theorem holds_State_searchPass {s : Sys2Proof.Machine.State} {a2 : Sys2Proof.Machine.Frame} {a3 : Sys2Proof.Machine.Frame} {a4 : Nat} {a5 : Sys2Proof.Machine.Parse} {a6 : Sys2Proof.Machine.ParseInput} {a7 : Sys2Proof.Machine.LookupGain} {a8 : Sys2Proof.GrantEnv} (h : Holds q f n s) :
    Holds q f n (Sys2Proof.Machine.State.searchPass s a2 a3 a4 a5 a6 a7 a8) := by
  unfold Sys2Proof.Machine.State.searchPass
  repeat' first
    | with_reducible assumption
    | (with_reducible intro _)
    | with_reducible apply holds_State_stallPass
    | with_reducible apply holds_State_replayPass
    | with_reducible apply holds_State_searchFrame
    | with_reducible apply holds_State_closePass
    | with_reducible apply holds_State_spendSlots
    | with_reducible refine holds_fst_eq ‹_› ?_
    | with_reducible apply holds_getD
    | with_reducible apply holds_ite_fst
    | with_reducible apply holds_ite

theorem holds_State_replayProbes {s : Sys2Proof.Machine.State} {a2 : Sys2Proof.Machine.Frame} {a3 : Nat} {a4 : Nat} {a5 : Option Sys2Proof.Machine.Kept} (h : Holds q f n s) :
    Holds q f n (Sys2Proof.Machine.State.replayProbes s a2 a3 a4 a5) := by
  unfold Sys2Proof.Machine.State.replayProbes
  repeat' first
    | with_reducible assumption
    | (with_reducible intro _)
    | with_reducible apply holds_State_replayPass
    | with_reducible apply holds_State_count
    | with_reducible apply holds_State_bump64

theorem holds_State_probePass {s : Sys2Proof.Machine.State} {a2 : Sys2Proof.Machine.Frame} {a3 : Sys2Proof.Machine.Frame} {a4 : Nat} {a5 : Sys2Proof.Machine.Parse} {a6 : Sys2Proof.Machine.ParseInput} {a7 : Sys2Proof.GrantEnv} {a8 : Sys2Proof.Machine.LookupGain} {a9 : Nat} {a10 : Bool} (h : Holds q f n s) :
    Holds q f n (Sys2Proof.Machine.State.probePass s a2 a3 a4 a5 a6 a7 a8 a9 a10) := by
  unfold Sys2Proof.Machine.State.probePass
  repeat' first
    | with_reducible assumption
    | (with_reducible intro _)
    | with_reducible apply holds_probeFrom
    | with_reducible apply holds_probeRest
    | with_reducible apply holds_State_spendSlots
    | with_reducible apply holds_State_replayProbes
    | with_reducible apply holds_State_searchPass
    | with_reducible apply holds_getD
    | with_reducible apply holds_ite

theorem holds_State_countFailure {s : Sys2Proof.Machine.State} {a2 : Nat} {a3 : Option Sys2Proof.Machine.Cause} (h : Holds q f n s) :
    Holds q f n (Sys2Proof.Machine.State.countFailure s a2 a3) := by
  unfold Sys2Proof.Machine.State.countFailure
  repeat' first
    | with_reducible assumption
    | (with_reducible intro _)
    | with_reducible apply holds_State_flag
    | with_reducible apply holds_State_bump64
    | with_reducible apply holds_ite

theorem holds_State_checkWhole {s : Sys2Proof.Machine.State} {a2 : Sys2Proof.Machine.Frame} {a3 : Nat} {a4 : Bool} (h : Holds q f n s) :
    Holds q f n (Sys2Proof.Machine.State.checkWhole s a2 a3 a4).1 := by
  unfold Sys2Proof.Machine.State.checkWhole
  repeat' first
    | with_reducible assumption
    | (with_reducible intro _)
    | with_reducible apply holds_State_countConflict
    | with_reducible apply holds_ite_fst
    | with_reducible apply holds_ite

theorem holds_State_parsedPass {s : Sys2Proof.Machine.State} {a2 : Sys2Proof.Machine.Frame} {a3 : Nat} {a4 : Sys2Proof.GrantEnv} (h : Holds q f n s) :
    Holds q f n (Sys2Proof.Machine.State.parsedPass s a2 a3 a4) := by
  unfold Sys2Proof.Machine.State.parsedPass
  repeat' first
    | with_reducible assumption
    | (with_reducible intro _)
    | with_reducible apply holds_State_countFailure
    | with_reducible apply holds_State_checkWhole
    | with_reducible apply holds_State_setFrame
    | with_reducible apply holds_State_endPass
    | with_reducible apply holds_State_toException
    | with_reducible apply holds_State_searchPass
    | with_reducible apply holds_State_probePass
    | with_reducible refine holds_fst_eq ‹_› ?_
    | with_reducible apply holds_ite_fst
    | with_reducible apply holds_ite
    | split
    | (dsimp only)

theorem holds_State_lookupPass {s : Sys2Proof.Machine.State} {a2 : Sys2Proof.Machine.Frame} {a3 : Nat} {a4 : Sys2Proof.Machine.PrefixWork} {a5 : Sys2Proof.GrantEnv} (h : Holds q f n s) :
    Holds q f n (Sys2Proof.Machine.State.lookupPass s a2 a3 a4 a5) := by
  unfold Sys2Proof.Machine.State.lookupPass
  repeat' first
    | with_reducible assumption
    | (with_reducible intro _)
    | with_reducible apply holds_probeFrom
    | with_reducible apply holds_probeRest
    | with_reducible apply holds_State_replayProbes
    | with_reducible apply holds_State_closePass
    | with_reducible apply holds_State_spendSlots
    | with_reducible apply holds_ite

theorem holds_State_endSearch {s : Sys2Proof.Machine.State} {a2 : Sys2Proof.Machine.Frame} (h : Holds q f n s) :
    Holds q f n (Sys2Proof.Machine.State.endSearch s a2) := by
  unfold Sys2Proof.Machine.State.endSearch
  repeat' first
    | with_reducible assumption
    | (with_reducible intro _)
    | with_reducible apply holds_State_setPipe
    | with_reducible apply holds_State_closePass
    | split

theorem holds_State_endSearches {s : Sys2Proof.Machine.State} {a2 : Nat} (h : Holds q f n s) :
    Holds q f n (Sys2Proof.Machine.State.endSearches s a2) := by
  unfold Sys2Proof.Machine.State.endSearches
  repeat' first
    | with_reducible assumption
    | (with_reducible intro _)
    | with_reducible apply holds_State_endSearch
    | with_reducible apply holds_foldl

theorem holds_execForcedDrain {a1 : Sys2Proof.Fn} {s : Sys2Proof.Machine.State} (h : Holds q f n s) :
    HoldsR q f n (Sys2Proof.Machine.execForcedDrain a1 s) := by
  unfold Sys2Proof.Machine.execForcedDrain
  repeat' first
    | with_reducible assumption
    | (with_reducible intro _)
    | with_reducible apply holds_State_endSearches
    | with_reducible apply holds_State_forceWork
    | with_reducible apply holds_State_flag
    | with_reducible apply holds_State_put
    | with_reducible apply holds_State_holdFromRun
    | with_reducible apply HoldsR.next
    | exact HoldsR.undefined (by decide)
    | with_reducible apply HoldsR.ite
    | with_reducible apply holds_ite

theorem holds_State_runPass {s : Sys2Proof.Machine.State} {a2 : Sys2Proof.Machine.Frame} {a3 : Nat} {a4 : Sys2Proof.GrantEnv} (h : Holds q f n s) :
    Holds q f n (Sys2Proof.Machine.State.runPass s a2 a3 a4) := by
  unfold Sys2Proof.Machine.State.runPass
  repeat' first
    | with_reducible assumption
    | (with_reducible intro _)
    | with_reducible apply holds_State_meterFrame
    | with_reducible apply holds_State_lookupPass
    | with_reducible apply holds_State_parsedPass
    | split

theorem holds_execIngressSlotGrant {a1 : Sys2Proof.Pipe} {a2 : Sys2Proof.GrantEnv} {s : Sys2Proof.Machine.State} (h : Holds q f n s) :
    HoldsR q f n (Sys2Proof.Machine.execIngressSlotGrant a1 a2 s) := by
  unfold Sys2Proof.Machine.execIngressSlotGrant
  repeat' first
    | with_reducible assumption
    | (with_reducible intro _)
    | with_reducible apply holds_State_beginPass
    | with_reducible apply holds_State_runPass
    | with_reducible apply HoldsR.next
    | exact HoldsR.undefined (by decide)
    | with_reducible apply HoldsR.ite
    | with_reducible apply holds_ite
    | split
    | (dsimp only)
end Sys2Proof.Laws
end

