-- ==== Sys2Proof/Laws/HoldsEgress.lean ====
section
/-! SUPPORT. What the operations of Machine/Egress.lean keep. -/

namespace Sys2Proof.Laws

open Sys2Proof.Machine Sys2Proof.Safety

variable {q : List Instr} {f n : Nat}

theorem holds_State_useEgressSlot {s : Sys2Proof.Machine.State} {a2 : Nat} {a3 : Nat} (h : Holds q f n s) :
    Holds q f n (Sys2Proof.Machine.State.useEgressSlot s a2 a3) := by
  unfold Sys2Proof.Machine.State.useEgressSlot
  repeat' first
    | with_reducible assumption
    | (with_reducible intro _)
    | with_reducible apply holds_State_setPipe
    | with_reducible apply holds_State_count

theorem holds_State_release {s : Sys2Proof.Machine.State} {a2 : Nat} {a3 : Nat} {a4 : Sys2Proof.Machine.Copy} {a5 : Sys2Proof.Machine.Frame} {a6 : List Sys2Proof.Byte} (h : Holds q f n s) :
    Holds q f n (Sys2Proof.Machine.State.release s a2 a3 a4 a5 a6) := by
  unfold Sys2Proof.Machine.State.release
  repeat' first
    | with_reducible assumption
    | (with_reducible intro _)
    | with_reducible apply holds_State_moveCopy
    | with_reducible apply holds_State_setCopy
    | with_reducible apply holds_State_countNextHop
    | with_reducible apply holds_State_captureEgress
    | with_reducible apply holds_State_startTx

theorem holds_State_dequeue {s : Sys2Proof.Machine.State} {a2 : Nat} {a3 : Nat} {a4 : List Sys2Proof.Machine.Pick} {a5 : Sys2Proof.Machine.Copy} {a6 : Sys2Proof.Machine.Frame} (h : Holds q f n s) :
    HoldsR q f n (Sys2Proof.Machine.State.dequeue s a2 a3 a4 a5 a6) := by
  unfold Sys2Proof.Machine.State.dequeue
  repeat' first
    | with_reducible assumption
    | (with_reducible intro _)
    | with_reducible apply holds_State_lengthOf
    | with_reducible apply holds_State_chargeWalk
    | with_reducible apply holds_State_useEgressSlot
    | with_reducible apply holds_State_release
    | with_reducible apply holds_State_endAtPort
    | with_reducible refine holds_snd_eq ‹_› ?_
    | with_reducible apply HoldsR.next
    | exact HoldsR.undefined (by decide)
    | split
    | (dsimp only)

theorem holds_State_transmitOn {s : Sys2Proof.Machine.State} {a2 : Nat} {a3 : Nat} (h : Holds q f n s) :
    HoldsR q f n (Sys2Proof.Machine.State.transmitOn s a2 a3) := by
  unfold Sys2Proof.Machine.State.transmitOn
  repeat' first
    | with_reducible assumption
    | (with_reducible intro _)
    | with_reducible apply holds_State_setPipe
    | with_reducible apply holds_State_walkTree
    | with_reducible apply holds_State_useEgressSlot
    | with_reducible apply holds_State_endCopy
    | with_reducible apply holds_State_dequeue
    | with_reducible refine holds_fst_eq ‹_› ?_
    | with_reducible refine HoldsR.of_eq ‹_› ?_
    | with_reducible apply HoldsR.next
    | exact HoldsR.undefined (by decide)
    | with_reducible apply holds_ite_fst
    | with_reducible apply HoldsR.ite
    | with_reducible apply holds_ite
    | split
    | (dsimp only)

theorem holds_execEgressDecision {a1 : Sys2Proof.Pipe} {s : Sys2Proof.Machine.State} (h : Holds q f n s) :
    HoldsR q f n (Sys2Proof.Machine.execEgressDecision a1 s) := by
  unfold Sys2Proof.Machine.execEgressDecision
  repeat' first
    | with_reducible assumption
    | (with_reducible intro _)
    | with_reducible apply holds_State_transmitOn
    | with_reducible apply holds_State_useEgressSlot
    | with_reducible refine HoldsR.of_eq ‹_› ?_
    | with_reducible apply HoldsR.next
    | exact HoldsR.undefined (by decide)
    | with_reducible apply HoldsR.ite
    | with_reducible apply holds_ite
    | split
end Sys2Proof.Laws
end

