-- ==== Sys2Proof/Laws/HoldsSop.lean ====
section
/-! SUPPORT. What the operations of Machine/Sop.lean keep. -/

namespace Sys2Proof.Laws

open Sys2Proof.Machine Sys2Proof.Safety

variable {q : List Instr} {f n : Nat}

theorem holds_nextOr {a1 : State} {r : Result} (h : Holds q f n a1) (hr : HoldsR q f n r) : Holds q f n (nextOr a1 r) := by
  cases r with
  | next t => exact hr
  | fault x => exact h
  | refused x => exact h

theorem holds_State_readItems {s : Sys2Proof.Machine.State} {a2 : Nat} {a3 : List (Nat × Nat)} (h : Holds q f n s) :
    Holds q f n (Sys2Proof.Machine.State.readItems s a2 a3).2 := by
  induction a3 generalizing s a2 with
  | nil =>
    unfold Sys2Proof.Machine.State.readItems
    repeat' first
      | with_reducible assumption
  | cons x l ih =>
    unfold Sys2Proof.Machine.State.readItems
    repeat' first
      | with_reducible assumption
      | (with_reducible intro _)
      | with_reducible apply ih
      | with_reducible apply holds_nextOr
      | with_reducible apply holds_State_serve
      | with_reducible apply holds_State_code
      | with_reducible apply holds_State_serve
      | with_reducible refine holds_snd_eq ‹_› ?_
      | with_reducible apply holds_ite_snd

theorem holds_State_openSession {s : Sys2Proof.Machine.State} {a2 : Sys2Proof.SopMessage} (h : Holds q f n s) :
    HoldsR q f n (Sys2Proof.Machine.State.openSession s a2).outcome := by
  unfold Sys2Proof.Machine.State.openSession
  repeat' first
    | with_reducible assumption
    | (with_reducible intro _)
    | with_reducible apply holds_State_rejected
    | with_reducible apply holds_State_setSession
    | with_reducible apply holds_State_put
    | with_reducible apply HoldsR.next
    | exact HoldsR.undefined (by decide)
    | with_reducible apply holds_ite
    | with_reducible apply HoldsR.ite_outcome
    | split

theorem holds_State_sopServe {s : Sys2Proof.Machine.State} {a2 : Nat} {a3 : Sys2Proof.SopMessage} (h : Holds q f n s) :
    HoldsR q f n (Sys2Proof.Machine.State.sopServe s a2 a3).outcome := by
  unfold Sys2Proof.Machine.State.sopServe
  repeat' first
    | with_reducible assumption
    | (with_reducible intro _)
    | with_reducible apply holds_State_rejected
    | with_reducible apply holds_State_readItems
    | with_reducible apply holds_State_openSession
    | with_reducible apply holds_State_closeSession
    | with_reducible apply holds_State_serve
    | with_reducible refine holds_snd_eq ‹_› ?_
    | with_reducible apply HoldsR.next
    | exact HoldsR.undefined (by decide)
    | with_reducible apply holds_ite_snd
    | with_reducible apply holds_ite
    | with_reducible apply HoldsR.ite_outcome
    | split

theorem holds_State_sopAdvance {s : Sys2Proof.Machine.State} {a2 : Nat} {a3 : Sys2Proof.SopMessage} (h : Holds q f n s) :
    Holds q f n (Sys2Proof.Machine.State.sopAdvance s a2 a3) := by
  unfold Sys2Proof.Machine.State.sopAdvance
  repeat' first
    | with_reducible assumption
    | (with_reducible intro _)
    | with_reducible apply holds_State_put
    | with_reducible apply holds_State_setSession
    | with_reducible apply holds_ite

theorem holds_State_sopStore {s : Sys2Proof.Machine.State} {a2 : Nat} {a3 : Sys2Proof.SopMessage} {a4 : Nat} {a5 : Option (List Sys2Proof.Byte)} (h : Holds q f n s) :
    Holds q f n (Sys2Proof.Machine.State.sopStore s a2 a3 a4 a5) := by
  unfold Sys2Proof.Machine.State.sopStore
  repeat' first
    | with_reducible assumption
    | (with_reducible intro _)
    | with_reducible apply holds_State_setSession
    | with_reducible apply holds_ite
    | split
    | (dsimp only)
    | (with_reducible refine holds_mk ?_; with_reducible apply Holds.parts)

theorem holds_State_deliver {s : Sys2Proof.Machine.State} {a2 : Sys2Proof.Carriage} {a3 : List Sys2Proof.Byte} (h : Holds q f n s) :
    Holds q f n (Sys2Proof.Machine.State.deliver s a2 a3) := by
  unfold Sys2Proof.Machine.State.deliver
  repeat' first
    | with_reducible assumption
    | (with_reducible intro _)
    | with_reducible refine Holds.withSop ?_ (Holds.sessions ‹_›)
    | with_reducible apply holds_State_putBytes
    | with_reducible apply holds_ite
    | split
    | (dsimp only)
    | (with_reducible refine holds_mk ?_; with_reducible apply Holds.parts)

theorem holds_State_discard {s : Sys2Proof.Machine.State} {a2 : Bool} (h : Holds q f n s) :
    Holds q f n (Sys2Proof.Machine.State.discard s a2) := by
  unfold Sys2Proof.Machine.State.discard
  repeat' first
    | with_reducible assumption
    | (with_reducible intro _)
    | with_reducible apply holds_ite
    | split
    | (dsimp only)
    | (with_reducible refine holds_mk ?_; with_reducible apply Holds.parts)

theorem holds_State_discardCounted {s : Sys2Proof.Machine.State} {a2 : Bool} {a3 : Nat} (h : Holds q f n s) :
    Holds q f n (Sys2Proof.Machine.State.discardCounted s a2 a3) := by
  unfold Sys2Proof.Machine.State.discardCounted
  repeat' first
    | with_reducible assumption
    | (with_reducible intro _)
    | with_reducible apply holds_State_discard
    | with_reducible apply holds_State_bump32
    | with_reducible apply holds_State_flag
    | with_reducible apply holds_ite

theorem holds_State_sopAnswer {s : Sys2Proof.Machine.State} {a2 : Nat} {a3 : Sys2Proof.SopMessage} {a4 : Option Sys2Proof.Machine.Key} {a5 : Nat} (h : Holds q f n s) :
    HoldsR q f n (Sys2Proof.Machine.State.sopAnswer s a2 a3 a4 a5) := by
  unfold Sys2Proof.Machine.State.sopAnswer
  repeat' first
    | with_reducible assumption
    | (with_reducible intro _)
    | with_reducible apply holds_State_sopServe
    | with_reducible apply holds_State_sopStore
    | with_reducible apply holds_State_deliver
    | with_reducible apply HoldsR.next
    | exact HoldsR.undefined (by decide)
    | with_reducible apply HoldsR.ite
    | with_reducible apply holds_ite

theorem holds_State_sopAccept {s : Sys2Proof.Machine.State} {a2 : Nat} {a3 : Sys2Proof.SopMessage} {a4 : Option Sys2Proof.Machine.Key} (h : Holds q f n s) :
    HoldsR q f n (Sys2Proof.Machine.State.sopAccept s a2 a3 a4) := by
  unfold Sys2Proof.Machine.State.sopAccept
  repeat' first
    | with_reducible assumption
    | (with_reducible intro _)
    | with_reducible apply holds_State_deliver
    | with_reducible apply holds_State_sopStore
    | with_reducible apply holds_State_sopAdvance
    | with_reducible apply holds_State_noteBusy
    | with_reducible apply holds_State_request
    | with_reducible apply holds_State_sopServe
    | with_reducible apply HoldsR.next
    | exact HoldsR.undefined (by decide)
    | with_reducible apply HoldsR.ite
    | with_reducible apply holds_ite
    | with_reducible apply HoldsR.ite_outcome
    | split
    | (dsimp only)
    | (with_reducible refine holds_mk ?_; with_reducible apply Holds.parts)

theorem holds_State_sopMessage {s : Sys2Proof.Machine.State} {a2 : Nat} {a3 : Sys2Proof.SopMessage} (h : Holds q f n s) :
    HoldsR q f n (Sys2Proof.Machine.State.sopMessage s a2 a3) := by
  unfold Sys2Proof.Machine.State.sopMessage
  repeat' first
    | with_reducible assumption
    | (with_reducible intro _)
    | with_reducible apply holds_State_deliver
    | with_reducible apply holds_State_discard
    | with_reducible apply holds_State_discardCounted
    | with_reducible apply holds_State_sopAccept
    | with_reducible refine HoldsR.of_eq ‹_› ?_
    | with_reducible apply HoldsR.next
    | exact HoldsR.undefined (by decide)
    | with_reducible apply HoldsR.ite
    | with_reducible apply holds_ite
    | split

theorem holds_State_recordAbort {s : Sys2Proof.Machine.State} {a2 : Nat} {a3 : Nat} {a4 : Nat} (h : Holds q f n s) :
    Holds q f n (Sys2Proof.Machine.State.recordAbort s a2 a3 a4) := by
  unfold Sys2Proof.Machine.State.recordAbort
  repeat' first
    | with_reducible assumption
    | (with_reducible intro _)
    | with_reducible apply holds_State_flag
    | with_reducible apply holds_State_bump32
    | with_reducible apply holds_State_put

theorem holds_State_mailboxStart {s : Sys2Proof.Machine.State} {a2 : Sys2Proof.Machine.State → Sys2Proof.Machine.Result} (h : Holds q f n s) (ha2 : ∀ x0, Holds q f n x0 → HoldsR q f n (a2 x0)) :
    HoldsR q f n (Sys2Proof.Machine.State.mailboxStart s a2) := by
  unfold Sys2Proof.Machine.State.mailboxStart
  repeat' first
    | with_reducible assumption
    | (with_reducible intro _)
    | with_reducible apply ha2
    | with_reducible apply holds_State_recordAbort
    | with_reducible apply HoldsR.next
    | exact HoldsR.undefined (by decide)
    | with_reducible apply HoldsR.ite
    | with_reducible apply holds_ite
    | split
    | (dsimp only)
    | (with_reducible refine holds_mk ?_; with_reducible apply Holds.parts)

theorem holds_State_receiveSop {s : Sys2Proof.Machine.State} {a2 : Nat} {a3 : Sys2Proof.SopMessage} (h : Holds q f n s) :
    HoldsR q f n (Sys2Proof.Machine.State.receiveSop s a2 a3) := by
  unfold Sys2Proof.Machine.State.receiveSop
  repeat' first
    | with_reducible assumption
    | (with_reducible intro _)
    | with_reducible apply holds_State_mailboxStart
    | with_reducible apply holds_State_sopMessage
    | with_reducible refine HoldsR.of_eq ‹_› ?_
    | with_reducible apply HoldsR.next
    | exact HoldsR.undefined (by decide)
    | with_reducible apply HoldsR.ite

theorem holds_State_doorbell {s : Sys2Proof.Machine.State} {a2 : Nat} (h : Holds q f n s) :
    HoldsR q f n (Sys2Proof.Machine.State.doorbell s a2) := by
  unfold Sys2Proof.Machine.State.doorbell
  repeat' first
    | with_reducible assumption
    | (with_reducible intro _)
    | with_reducible apply holds_State_mailboxStart
    | with_reducible apply holds_State_discardCounted
    | with_reducible apply holds_State_sopMessage
    | with_reducible refine HoldsR.of_eq ‹_› ?_
    | with_reducible apply HoldsR.next
    | exact HoldsR.undefined (by decide)
    | with_reducible apply HoldsR.ite

theorem holds_State_bar4Read {s : Sys2Proof.Machine.State} {a2 : Nat} {a3 : Nat} (h : Holds q f n s) :
    HoldsR q f n (Sys2Proof.Machine.State.bar4Read s a2 a3) := by
  unfold Sys2Proof.Machine.State.bar4Read
  repeat' first
    | with_reducible assumption
    | (with_reducible intro _)
    | with_reducible apply HoldsR.next
    | exact HoldsR.undefined (by decide)
    | with_reducible apply HoldsR.ite
    | with_reducible apply holds_ite
    | split
    | (dsimp only)
    | (with_reducible refine holds_mk ?_; with_reducible apply Holds.parts)

theorem holds_State_bar4Write {s : Sys2Proof.Machine.State} {a2 : Nat} {a3 : List Sys2Proof.Byte} (h : Holds q f n s) :
    HoldsR q f n (Sys2Proof.Machine.State.bar4Write s a2 a3) := by
  unfold Sys2Proof.Machine.State.bar4Write
  repeat' first
    | with_reducible assumption
    | (with_reducible intro _)
    | with_reducible apply holds_State_doorbell
    | with_reducible apply holds_State_putBytes
    | with_reducible apply HoldsR.next
    | exact HoldsR.undefined (by decide)
    | with_reducible apply HoldsR.ite
    | with_reducible apply holds_ite
    | split
    | (dsimp only)
    | (with_reducible refine holds_mk ?_; with_reducible apply Holds.parts)

theorem holds_State_pcieDone {s : Sys2Proof.Machine.State} {a2 : Sys2Proof.Machine.Served} {a3 : Nat} {a4 : Nat} {a5 : Sys2Proof.Machine.Answer} {a6 : Sys2Proof.Machine.Answer} (h : Holds q f n s) (ha2 : HoldsR q f n a2.outcome) :
    HoldsR q f n (Sys2Proof.Machine.State.pcieDone s a2 a3 a4 a5 a6) := by
  unfold Sys2Proof.Machine.State.pcieDone
  repeat' first
    | with_reducible assumption
    | (with_reducible intro _)
    | with_reducible apply ha2
    | with_reducible apply holds_answering
    | with_reducible apply holds_State_recordAbort
    | with_reducible apply holds_nextOr
    | with_reducible apply HoldsR.next
    | exact HoldsR.undefined (by decide)
    | with_reducible apply HoldsR.ite
    | with_reducible apply holds_ite
    | split
    | (dsimp only)
    | (with_reducible refine holds_mk ?_; with_reducible apply Holds.parts)

theorem holds_State_bar0Read {s : Sys2Proof.Machine.State} {a2 : Nat} {a3 : Nat} (h : Holds q f n s) :
    HoldsR q f n (Sys2Proof.Machine.State.bar0Read s a2 a3) := by
  unfold Sys2Proof.Machine.State.bar0Read
  repeat' first
    | with_reducible assumption
    | (with_reducible intro _)
    | with_reducible apply holds_State_serveNow
    | with_reducible apply holds_State_rejected
    | with_reducible apply holds_State_pcieDone
    | with_reducible apply HoldsR.next
    | exact HoldsR.undefined (by decide)
    | with_reducible apply HoldsR.ite
    | with_reducible apply holds_ite
    | with_reducible apply HoldsR.ite_outcome
    | split
    | (dsimp only)
    | (with_reducible refine holds_mk ?_; with_reducible apply Holds.parts)

theorem holds_State_bar0Write {s : Sys2Proof.Machine.State} {a2 : Nat} {a3 : List Sys2Proof.Byte} (h : Holds q f n s) :
    HoldsR q f n (Sys2Proof.Machine.State.bar0Write s a2 a3) := by
  unfold Sys2Proof.Machine.State.bar0Write
  repeat' first
    | with_reducible assumption
    | (with_reducible intro _)
    | with_reducible apply holds_State_rejected
    | with_reducible apply holds_State_serveNow
    | with_reducible apply holds_State_pcieDone
    | with_reducible apply HoldsR.next
    | exact HoldsR.undefined (by decide)
    | with_reducible apply HoldsR.ite
    | with_reducible apply holds_ite
    | with_reducible apply HoldsR.ite_outcome
    | split
    | (dsimp only)
    | (with_reducible refine holds_mk ?_; with_reducible apply Holds.parts)

theorem holds_State_bar2Read {s : Sys2Proof.Machine.State} {a2 : Nat} {a3 : Nat} (h : Holds q f n s) :
    HoldsR q f n (Sys2Proof.Machine.State.bar2Read s a2 a3) := by
  unfold Sys2Proof.Machine.State.bar2Read
  repeat' first
    | with_reducible assumption
    | (with_reducible intro _)
    | with_reducible apply holds_State_rejected
    | with_reducible apply holds_State_serveNow
    | with_reducible apply holds_State_pcieDone
    | with_reducible refine HoldsR.of_eq ‹_› ?_
    | with_reducible apply HoldsR.next
    | exact HoldsR.undefined (by decide)
    | with_reducible apply HoldsR.ite
    | with_reducible apply holds_ite
    | with_reducible apply HoldsR.ite_outcome
    | split
    | (dsimp only)
    | (with_reducible refine holds_mk ?_; with_reducible apply Holds.parts)

/-- A concurrent write is a case of the table Undefined cases. -/
theorem concurrentCase_named {index sub : Nat} {c : String} (h : concurrentCase index sub = some c) : c ∈ undefinedCases := by
  have (p : Prop) [Decidable p] (c d : String) (x : Option String) (e : (if p then some d else x) = some c) :
      d = c ∨ x = some c := by
    split at e
    · exact .inl (Option.some.inj e)
    · exact .inr e
  unfold concurrentCase at h
  dsimp only at h
  iterate 10
    obtain rfl | h := this _ _ _ _ h
    · decide
  cases h

theorem holds_State_windowWrite {s : State} {a2 a3 a4 : Nat} {a5 : List Byte} (h : Holds q f n s) :
    HoldsR q f n (s.windowWrite a2 a3 a4 a5).outcome := by
  unfold State.windowWrite
  split
  · split
    · exact HoldsR.undefined (concurrentCase_named ‹_›)
    · exact holds_State_serveNow h
  · exact holds_State_serveNow h

theorem holds_State_bar2Write {s : Sys2Proof.Machine.State} {a2 : Nat} {a3 : List Sys2Proof.Byte} (h : Holds q f n s) :
    HoldsR q f n (Sys2Proof.Machine.State.bar2Write s a2 a3) := by
  unfold Sys2Proof.Machine.State.bar2Write
  repeat' first
    | with_reducible assumption
    | (with_reducible intro _)
    | with_reducible apply holds_State_rejected
    | with_reducible apply holds_State_serveNow
    | with_reducible apply holds_State_windowWrite
    | with_reducible apply holds_State_pcieDone
    | with_reducible refine HoldsR.of_eq ‹_› ?_
    | with_reducible apply HoldsR.next
    | exact HoldsR.undefined (by decide)
    | with_reducible apply HoldsR.ite
    | with_reducible apply holds_ite
    | with_reducible apply HoldsR.ite_outcome
    | split
    | (dsimp only)
    | (with_reducible refine holds_mk ?_; with_reducible apply Holds.parts)

theorem holds_execRead {a1 : Sys2Proof.ReadAccess} {s : Sys2Proof.Machine.State} (h : Holds q f n s) :
    HoldsR q f n (Sys2Proof.Machine.execRead a1 s) := by
  unfold Sys2Proof.Machine.execRead
  repeat' first
    | with_reducible assumption
    | (with_reducible intro _)
    | with_reducible apply holds_State_receiveSop
    | with_reducible apply holds_State_bar0Read
    | with_reducible apply holds_State_bar4Read
    | with_reducible refine HoldsR.of_eq ‹_› ?_
    | with_reducible apply HoldsR.next
    | exact HoldsR.undefined (by decide)
    | split

theorem holds_execWrite {a1 : Sys2Proof.WriteAccess} {s : Sys2Proof.Machine.State} (h : Holds q f n s) :
    HoldsR q f n (Sys2Proof.Machine.execWrite a1 s) := by
  unfold Sys2Proof.Machine.execWrite
  repeat' first
    | with_reducible assumption
    | (with_reducible intro _)
    | with_reducible apply holds_State_receiveSop
    | with_reducible apply holds_State_bar0Write
    | with_reducible apply holds_State_bar4Write
    | with_reducible refine HoldsR.of_eq ‹_› ?_
    | with_reducible apply HoldsR.next
    | exact HoldsR.undefined (by decide)
    | split

theorem holds_execMultiRead {a1 : Sys2Proof.SopMessage} {s : Sys2Proof.Machine.State} (h : Holds q f n s) :
    HoldsR q f n (Sys2Proof.Machine.execMultiRead a1 s) := by
  unfold Sys2Proof.Machine.execMultiRead
  repeat' first
    | with_reducible assumption
    | (with_reducible intro _)
    | with_reducible apply holds_State_receiveSop

theorem holds_execDomainRead {a1 : Sys2Proof.DomainReadAccess} {s : Sys2Proof.Machine.State} (h : Holds q f n s) :
    HoldsR q f n (Sys2Proof.Machine.execDomainRead a1 s) := by
  unfold Sys2Proof.Machine.execDomainRead
  repeat' first
    | with_reducible assumption
    | (with_reducible intro _)
    | with_reducible apply holds_State_receiveSop
    | with_reducible apply holds_State_bar2Read
    | with_reducible refine HoldsR.of_eq ‹_› ?_
    | with_reducible apply HoldsR.next
    | exact HoldsR.undefined (by decide)
    | split

theorem holds_execDomainWrite {a1 : Sys2Proof.DomainWriteAccess} {s : Sys2Proof.Machine.State} (h : Holds q f n s) :
    HoldsR q f n (Sys2Proof.Machine.execDomainWrite a1 s) := by
  unfold Sys2Proof.Machine.execDomainWrite
  repeat' first
    | with_reducible assumption
    | (with_reducible intro _)
    | with_reducible apply holds_State_receiveSop
    | with_reducible apply holds_State_bar2Write
    | with_reducible refine HoldsR.of_eq ‹_› ?_
    | with_reducible apply HoldsR.next
    | exact HoldsR.undefined (by decide)
    | split

theorem holds_execSopOpen {a1 : Sys2Proof.SopMessage} {s : Sys2Proof.Machine.State} (h : Holds q f n s) :
    HoldsR q f n (Sys2Proof.Machine.execSopOpen a1 s) := by
  unfold Sys2Proof.Machine.execSopOpen
  repeat' first
    | with_reducible assumption
    | (with_reducible intro _)
    | with_reducible apply holds_State_receiveSop

theorem holds_execSopClose {a1 : Sys2Proof.SopMessage} {s : Sys2Proof.Machine.State} (h : Holds q f n s) :
    HoldsR q f n (Sys2Proof.Machine.execSopClose a1 s) := by
  unfold Sys2Proof.Machine.execSopClose
  repeat' first
    | with_reducible assumption
    | (with_reducible intro _)
    | with_reducible apply holds_State_receiveSop

theorem holds_execSopNop {a1 : Sys2Proof.SopMessage} {s : Sys2Proof.Machine.State} (h : Holds q f n s) :
    HoldsR q f n (Sys2Proof.Machine.execSopNop a1 s) := by
  unfold Sys2Proof.Machine.execSopNop
  repeat' first
    | with_reducible assumption
    | (with_reducible intro _)
    | with_reducible apply holds_State_receiveSop

theorem holds_State_resolve {s : Sys2Proof.Machine.State} {a2 : Nat} {a3 : List Sys2Proof.Byte} {a4 : List Sys2Proof.Byte} (h : Holds q f n s) :
    Holds q f n (Sys2Proof.Machine.State.resolve s a2 a3 a4) := by
  unfold Sys2Proof.Machine.State.resolve
  repeat' first
    | with_reducible assumption
    | (with_reducible intro _)
    | with_reducible apply holds_ite
    | split
    | (dsimp only)
    | (with_reducible refine holds_mk ?_; with_reducible apply Holds.parts)

theorem holds_execArpRequest {a1 : Fin 2} {a2 : List Sys2Proof.Byte} {s : Sys2Proof.Machine.State} (h : Holds q f n s) :
    HoldsR q f n (Sys2Proof.Machine.execArpRequest a1 a2 s) := by
  unfold Sys2Proof.Machine.execArpRequest
  repeat' first
    | with_reducible assumption
    | (with_reducible intro _)
    | with_reducible apply holds_State_resolve
    | with_reducible apply HoldsR.next

theorem holds_execNeighbourSolicitation {a1 : Fin 2} {a2 : List Sys2Proof.Byte} {s : Sys2Proof.Machine.State} (h : Holds q f n s) :
    HoldsR q f n (Sys2Proof.Machine.execNeighbourSolicitation a1 a2 s) := by
  unfold Sys2Proof.Machine.execNeighbourSolicitation
  repeat' first
    | with_reducible assumption
    | (with_reducible intro _)
    | with_reducible apply holds_State_resolve
    | with_reducible apply HoldsR.next

theorem holds_execSessionIdleTimeout {a1 : Fin 8} {s : Sys2Proof.Machine.State} (h : Holds q f n s) :
    HoldsR q f n (Sys2Proof.Machine.execSessionIdleTimeout a1 s) := by
  unfold Sys2Proof.Machine.execSessionIdleTimeout
  repeat' first
    | with_reducible assumption
    | (with_reducible intro _)
    | with_reducible apply holds_State_flag
    | with_reducible apply holds_State_closeSession
    | with_reducible apply HoldsR.next
    | exact HoldsR.undefined (by decide)
    | with_reducible apply holds_getD
    | with_reducible apply HoldsR.ite

theorem holds_execMboxDoorbell {a1 : BitVec 32} {s : Sys2Proof.Machine.State} (h : Holds q f n s) :
    HoldsR q f n (Sys2Proof.Machine.execMboxDoorbell a1 s) := by
  unfold Sys2Proof.Machine.execMboxDoorbell
  repeat' first
    | with_reducible assumption
    | (with_reducible intro _)
    | with_reducible apply holds_State_doorbell
    | with_reducible apply HoldsR.next
    | exact HoldsR.undefined (by decide)
    | with_reducible apply HoldsR.ite

theorem holds_execSlowRequestComplete {s : Sys2Proof.Machine.State} (h : Holds q f n s) :
    HoldsR q f n (Sys2Proof.Machine.execSlowRequestComplete s) := by
  unfold Sys2Proof.Machine.execSlowRequestComplete
  repeat' first
    | with_reducible assumption
    | (with_reducible intro _)
    | with_reducible apply holds_State_sopAnswer
    | with_reducible refine HoldsR.of_eq ‹_› ?_
    | with_reducible apply HoldsR.next
    | exact HoldsR.undefined (by decide)
    | split
    | (dsimp only)
    | (with_reducible refine holds_mk ?_; with_reducible apply Holds.parts)
end Sys2Proof.Laws
end

