-- ==== Sys2Proof/Laws/HoldsTick.lean ====
section
/-! SUPPORT. What the operations of Machine/Tick.lean keep. -/

namespace Sys2Proof.Laws

open Sys2Proof.Machine Sys2Proof.Safety

variable {q : List Instr} {f n : Nat}

theorem holds_State_accountSlots {s : Sys2Proof.Machine.State} {a2 : Nat} (h : Holds q f n s) :
    Holds q f n (Sys2Proof.Machine.State.accountSlots s a2) := by
  unfold Sys2Proof.Machine.State.accountSlots
  repeat' first
    | with_reducible assumption
    | (with_reducible intro _)
    | with_reducible apply holds_State_count
    | with_reducible apply holds_State_countN
    | with_reducible apply holds_State_setPipe
    | with_reducible apply holds_ite

theorem holds_tick {s : Sys2Proof.Machine.State} (h : Holds q f n s) :
    Holds q f n (Sys2Proof.Machine.tick s) := by
  unfold Sys2Proof.Machine.tick
  repeat' first
    | with_reducible assumption
    | (with_reducible intro _)
    | with_reducible apply holds_State_lanesSend
    | with_reducible apply holds_State_accountSlots
    | with_reducible apply holds_State_flowClock
    | with_reducible apply holds_State_noteAble
    | with_reducible apply holds_State_creditClock
    | with_reducible apply holds_State_armatureClock
    | with_reducible apply holds_State_writeNext
    | with_reducible apply holds_State_castClock
    | with_reducible apply holds_foldl
    | with_reducible apply holds_foldl_fst
    | with_reducible apply holds_ite
    | split
    | (dsimp only)
    | (with_reducible refine holds_mk ?_; with_reducible apply Holds.parts)
end Sys2Proof.Laws
end

