-- ==== Sys2Proof/Machine/Pins.lean ====
section
/-! DEFINITION. What the output pins show of a state: the columns of the table Pin states, the recovered clocks, PPS_OUT, the DDR5
reset outputs, the flash pins and the IDCODE register (R69, R469, R471, R473). Nothing here is kept; each is computed. -/

namespace Sys2Proof.Machine

/-- The pin groups of the table Pin states (R69). -/
inductive PinGroup where
  | laneTransmit | laneReceive | ddr5 | ddr5Reset | management | spi | smbus | jtag | timing
  deriving DecidableEq, Repr

/-- What the table Pin states gives a group: no drive (and no current, by the group, into or from the far end); high impedance;
electrical idle with the common mode held; high impedance with the termination off; driven low; active; by the state of its lane, its
training or its configuration; by the boundary register. -/
inductive PinDrive where
  | noDrive | highImpedance | electricalIdle | terminationOff | low | active | byState | byBoundary
  deriving DecidableEq, Repr

/-- The DDR5 reset outputs: high once training starts, and low while a warm sequence drives them so (R69, R79). -/
def State.ddr5ResetOut (s : State) : Bool := s.pinColumn == .running && s.boot.step != .ddr5Reset

/-- The flash pins are driven: in LOADING, and while a re-read of R441 runs (R69). -/
def State.spiActive (s : State) : Bool :=
  s.boot.powered && (s.obj? Obj.bootState == 2 || s.pinColumn == .running && s.atelier.flashRead)

/-- The table Pin states (R69): what drives a group. The JTAG pins do not follow the boundary register (R469). -/
def State.pinDrive (s : State) : PinGroup → PinDrive
  | .spi => match s.pinColumn with
    | .absent => .noDrive
    | .boundary => .byBoundary
    | _ => if s.spiActive then .active else .highImpedance
  | .jtag => if s.boot.powered then .active else .highImpedance
  | g => match s.pinColumn, g with
    | .boundary, _ => .byBoundary
    | .absent, .laneReceive => .highImpedance
    | .absent, .smbus => .highImpedance
    | .absent, _ => .noDrive
    | .held, .laneTransmit => .electricalIdle
    | .held, .laneReceive => .terminationOff
    | .held, .ddr5 => .noDrive
    | .held, .ddr5Reset => .low
    | .held, .timing => .low
    | .running, .laneTransmit => .byState
    | .running, .laneReceive => .byState
    | .running, .ddr5Reset => .byState
    | .running, .timing => .byState
    | _, _ => .active

/-- The level of PPS_OUT (R69, R471). -/
def State.ppsPin (s : State) : Bool := s.pinColumn == .running && s.timing.ppsOut

/-- The port that uses a front lane (R105). -/
def State.laneUser (s : State) (l : Nat) : Option Nat :=
  (groupPorts (l / 8)).find? fun p => s.fn p != 0 && (s.portLanes p).contains l

/-- A bit of a front lane between the lane's pins and its port's PCS: inverted by TX_POLARITY as it is sent, by RX_POLARITY as it is
received (R108). -/
def State.laneBit (s : State) (l : Nat) (sent b : Bool) : Bool :=
  match s.laneUser l with
  | some p => xor b (bit (s.inForce (if sent then Obj.txPolarity p else Obj.rxPolarity p)) (((s.portLanes p).findIdx? fun k => k == l).getD 0))
  | none => b

/-- RCLK_OUT[k] (R473): the lane whose clock it gives and the power of two that divides 156.25 MHz, or none while it is held low. -/
def State.rclkOut (s : State) (k : Fin 4) : Option (Nat × Nat) :=
  let v := s.obj? (Obj.rclkSource k.val)
  let lane := v % 128
  if s.pinColumn ≠ .running ∨ v / 2 ^ 15 % 2 = 0 then none
  else match s.laneUser lane with
    | some p => if s.link p = 5 then some (lane, v / 256 % 4) else none
    | none => none

/-- The IDCODE register (R469). -/
def idcode : BitVec 32 :=
  BitVec.ofNat 32 (Config.siliconStep.toNat % 16 * 2 ^ 28 + 0x2560 * 2 ^ 12 + Config.manufacturerCode.toNat * 2 + 1)

end Sys2Proof.Machine
end

