-- ==== Sys2Proof/WellFormed.lean ====
section
/-! DEFINITION. Which commands can reach the block: the bounds that the operands' types do not give. -/

namespace Sys2Proof

/-- The bytes that name a peer on a path: a MAC address, or an IPv4 or IPv6 address and a port; none for the mailbox
(R47). -/
def Path.nameLength (p : Path) (n : Nat) : Bool :=
  match p with
  | .mg0Eth => n == 6
  | .mg0Udp => n == 6 || n == 18
  | .mg1Eth => n == 6
  | .mg1Udp => n == 6 || n == 18
  | .mailbox => n == 0

/-- A carriage names its peer and its destination in the form of its path, and tags only an Ethernet frame (R38). -/
def Carriage.wf (c : Carriage) : Bool :=
  c.path.nameLength c.peer.length && c.peer.length == c.dest.length &&
    (c.tags.isEmpty || c.path == .mg0Eth || c.path == .mg1Eth)

/-- A message fits the largest frame payload: header, payload and trailer within 1,500 bytes (02, Carriage). -/
def SopMessage.wf (m : SopMessage) : Bool :=
  m.carriage.wf && m.payload.length + m.trailer.length + 16 ≤ 1500

/-- A PCIe read asks for at most 512 bytes (R50). -/
def readWidthWf (w : Nat) : Bool := 1 ≤ w && w ≤ 512

/-- A PCIe write carries at most 256 bytes (R50). -/
def writeBytesWf (b : List Byte) : Bool := 1 ≤ b.length && b.length ≤ 256

/-- The check of an access that reads. -/
def ReadAccess.wf : ReadAccess → Bool
  | .sop m => m.wf
  | .bar0 _ w => readWidthWf w
  | .bar4 _ w => readWidthWf w

/-- The check of an access that writes. -/
def WriteAccess.wf : WriteAccess → Bool
  | .sop m => m.wf
  | .bar0 _ b => writeBytesWf b
  | .bar4 _ b => writeBytesWf b

/-- The check of an access that reads a region. -/
def DomainReadAccess.wf : DomainReadAccess → Bool
  | .sop m => m.wf
  | .bar2 _ w => readWidthWf w

/-- The check of an access that writes a region. -/
def DomainWriteAccess.wf : DomainWriteAccess → Bool
  | .sop m => m.wf
  | .bar2 _ b => writeBytesWf b

/-- A frame has at least one byte, and no more than the MAC's field of 14 bits can count. -/
def frameWf (b : List Byte) : Bool := 1 ≤ b.length && b.length < 16384

/-- A fault comes from a checker of the table Units (R378) and an access of the table Access types. -/
def FaultEvent.wf (e : FaultEvent) : Bool :=
  Machine.Units.hasChecker e.unit.toNat e.checker.toNat && (Machine.Units.kind e.master.toNat).isSome &&
    e.access.toNat ≤ 13

/-- The check of a command. Every command it does not name is well formed. -/
def Instr.wf : Instr → Bool
  | .configBlockRead b => b.length == 16
  | .read a => a.wf
  | .write a => a.wf
  | .multiRead m => m.wf
  | .domainRead a => a.wf
  | .domainWrite a => a.wf
  | .sopOpen m => m.wf
  | .sopClose m => m.wf
  | .sopNop m => m.wf
  | .arpRequest _ t => t.length == 4
  | .neighbourSolicitation _ t => t.length == 16
  | .receivedFrame _ _ b _ => frameWf b
  | .ddr5Reread _ _ b => b.first.length == 16 && b.second.length == 16
  | .pauseFrame _ b => frameWf b
  | .pfcFrame _ b => frameWf b
  | .macControlFrame _ b => frameWf b
  | .hostInjection _ b => frameWf b
  | .dataCell _ c => c.length == 256
  | .controlCell _ c => c.length == 256
  | .keyLoad r => r.length == 64
  | .fault e => e.wf
  | .objectWrite _ _ v => 1 ≤ v.length && v.length ≤ 64
  | _ => true

end Sys2Proof
end

