-- ==== Sys2Proof/Tests/Slice0.lean ====
section
/-! SUPPORT. The model's own tests: the well-formedness smoke, values taken from the spec, and for every statement a witness of its
hypotheses. -/

namespace Sys2Proof.Tests

set_option maxRecDepth 20000
set_option synthInstance.maxSize 4000
set_option Elab.async false

open Sys2Proof Sys2Proof.Machine Sys2Proof.Safety Sys2Proof.Laws

/-! ### Helpers -/

/-- A command goes on to a state with a property. -/
def after (c : Instr) (s : State) (p : State → Bool) : Bool :=
  match exec c s with
  | .next t => p t
  | _ => false

/-- A command stops at a misuse. -/
def stops (c : Instr) (s : State) (identifier : String) : Bool :=
  match exec c s with
  | .fault (.unbounded i) => i == identifier
  | _ => false

/-- The device in READY, with every function OFF. -/
def live : State :=
  { (State.reset.put Obj.bootState 6) with boot := { State.reset.boot with step := .idle }, pins := { State.reset.pins with coldN := true } }

/-- The same with a function in a state. -/
def liveFn (n v : Nat) : State := live.setFn n v

/-- A state with a boot step. -/
def atStep (step : BootStep) : State := { State.reset with boot := { State.reset.boot with step := step } }

/-! ### Witnesses: the machine as a whole -/

theorem shape_live : Shape live :=
  ⟨by decide +kernel, by decide +kernel, by decide +kernel, by decide +kernel, by decide +kernel, by decide +kernel, by decide +kernel⟩

theorem slots_live : SlotsGood live.versions := by
  unfold SlotsGood
  decide +kernel

/-- IdleStepIsOneClock. -/
theorem witness_idle : live.pending = [] ∧ live.walks = [] ∧ live.em.writing = none ∧ live.ready = true ∧
    State.reset.pending = [] ∧ State.reset.ready = false := by decide +kernel

/-- StepKeepsShape, StepKeepsVersionSlots, OpenValuesAreTakenInOrder, CommandsLeaveTheQueue, StepStopsOnlyOnListedMisuse. -/
theorem witness_step : Shape live ∧ SlotsGood live.versions ∧ (∃ t, step live = .next t) ∧ ∃ t, exec .coldNLow live = .next t :=
  ⟨shape_live, slots_live, ⟨_, rfl⟩, ⟨_, rfl⟩⟩

/-- A blow in progress, to SCRAPPED. -/
def blowing : State := { live with boot := { live.boot with blowing := some 4 } }

/-- OnlyABlowChangesTheLifeState, and the first clause of UploadAndLifeRequests. -/
theorem witness_blow : Shape blowing ∧ SlotsGood blowing.versions ∧ blowing.boot.blowing = some 4 ∧ blowing.boot.fuses = 2 ∧
    after .fuseBlowEnd blowing (fun t => t.boot.fuses == 4) = true :=
  ⟨⟨by decide +kernel, by decide +kernel, by decide +kernel, by decide +kernel, by decide +kernel, by decide +kernel,
    by decide +kernel⟩, by unfold SlotsGood; decide +kernel, by decide +kernel, by decide +kernel, by decide +kernel⟩

/-- SettingAnObjectChangesItAlone: another object, and addresses just outside two bytes stored. -/
theorem witness_setting : live.dictWf = true ∧ Obj.bootState ≠ Obj.commSummary ∧
    Defaults.domAddr Obj.jobBuffer 7 < Defaults.domAddr Obj.jobBuffer 8 ∧
    Defaults.domAddr Obj.jobBuffer 8 + 2 ≤ Defaults.domAddr Obj.jobBuffer 10 := by decide +kernel

/-! ### Witnesses: power, resets and boot -/

/-- ResetsWipeAndKeep: an object at its default after a cold reset, and the ends of the objects kept. -/
theorem witness_resets : live.dictWf = true ∧ physicalKey Obj.captureEnable = false ∧ Obj.captureEnable ∉ resetWrites ∧
    0x1100 ≤ 0x110000 / 256 ∧ 0x110000 / 256 ≤ 0x11FF ∧ 0x1100 ≤ 0x11FFFF / 256 ∧ 0x11FFFF / 256 ≤ 0x11FF := by decide +kernel

/-- The rails in range, and the two reset pins as given. -/
def railed (kind : SeqKind) (fuses clocks : Nat) (cold warm : Bool) : State :=
  let s := (State.reset.put Obj.railStatus 0x7F).put Obj.clockStatus clocks
  { s with boot := { s.boot with kind := kind, fuses := fuses }, pins := { s.pins with coldN := cold, warmN := warm } }

/-- SequencesGoAsFarAsTheyMay: each place at which a sequence can wait, and each start. -/
theorem witness_sequences :
    State.reset.dictWf = true ∧ State.reset.railsIn = false ∧
    ((railed .cold 2 0 false true).dictWf = true ∧ (railed .cold 2 0 false true).railsIn = true ∧
      (railed .cold 2 0 false true).pins.coldN = false) ∧
    ((railed .warm 2 0 true false).railsIn = true ∧ (railed .warm 2 0 true false).pins.coldN = true ∧
      (railed .warm 2 0 true false).boot.kind = .warm ∧ (railed .warm 2 0 true false).pins.warmN = false) ∧
    ((railed .cold 0 0 true true).railsIn = true ∧ (railed .cold 0 0 true true).boot.kind ≠ .warm ∧
      (railed .cold 0 0 true true).boot.fuses = 0 ∧ (railed .cold 4 0 true true).boot.fuses = 4) ∧
    ((railed .warm 2 0 true true).boot.kind = .warm ∧ (railed .warm 2 0 true true).pins.warmN = true ∧
      (railed .warm 2 0 true true).refclk = false ∧ (railed .warm 2 7 true true).refclk = true) ∧
    ((railed .lifeChange 1 0 true true).boot.kind ≠ .warm ∧ (railed .lifeChange 1 0 true true).boot.fuses ≠ 0 ∧
      (railed .lifeChange 1 0 true true).boot.fuses ≠ 4 ∧ (railed .lifeChange 1 7 true true).refclk = true) ∧
    ((railed .warm 2 0 true false).warmHolds = true ∧ (railed .warm 2 7 true true).warmHolds = false ∧
      (railed .warm 2 7 true true).pllsIn = true ∧ (railed .warm 2 1 true true).refclk = true ∧
      (railed .warm 2 1 true true).pllsIn = false ∧ (railed .warm 2 3 true true).pllsIn = false) ∧
    Obj.clockStatus ≠ Obj.bootState := by decide +kernel

/-- PowerCommands. -/
theorem witness_power : bits (State.reset.obj? Obj.railStatus) 6 2 = 0 ∧ live.boot.blowing = none ∧ blowing.boot.blowing = some 4 ∧
    bits ((State.reset.put Obj.railStatus 4).obj? Obj.railStatus) 6 2 ≠ 0 := by decide +kernel

/-- ResetCauses. -/
theorem witness_causes : live.boot.powered = true ∧ live.dictWf = true ∧ (atStep .coldHeld).boot.step = .coldHeld ∧
    live.pins.coldN = true ∧ live.boot.step = .idle ∧ live.ready = true ∧ State.reset.ready = false ∧
    State.reset.boot.step ≠ .idle ∧ (atStep .warmHeld).boot.step = .warmHeld ∧ (atStep .readyHeld).boot.step = .readyHeld ∧
    (atStep .readyHeld).dictWf = true ∧ live.obj? Obj.bootState ∉ [7, 8, 10] ∧ live.ignoresWarm = false ∧
    ((live.put Obj.bootState 7).ignoresWarm = true ∧ plinthOpen (live.put Obj.bootState 7)) ∧ Obj.railStatus ≠ Obj.bootState ∧
      Obj.railStatus ≠ Obj.bootElapsed ∧ plinthOpen live := by
  unfold plinthOpen
  decide +kernel

/-- RailCommands. -/
theorem witness_rails : live.boot.powered = true ∧ live.dictWf = true ∧ live.boot.step ≠ .rails ∧
    State.reset.boot.step = .rails ∧ State.reset.boot.kind ≠ .railReturn ∧ State.reset.dictWf = true ∧
    ({ State.reset with boot := { State.reset.boot with kind := .railReturn } } : State).boot.kind = .railReturn := by decide +kernel

/-- ClockCommands. -/
theorem witness_clocks : (atStep .clocks).boot.step = .clocks ∧ (atStep .clocks).boot.powered = true ∧
    (atStep .clocks).boot.kind ≠ .warm ∧ (atStep .plls).boot.step = .plls ∧
    ({ live with boot := { live.boot with pllHold := true } } : State).boot.pllHold = true ∧ (atStep .training).dictWf = true ∧
    (atStep .training).boot.powered = true ∧
    (atStep .training).boot.step ∉ ([.idle, .rails, .coldHeld] : List BootStep) ∧
    (atStep .warmHeld).boot.step ∉ ([.idle, .rails, .coldHeld] : List BootStep) ∧
    (atStep .training).ready = false ∧ live.ready = true ∧ Obj.railStatus ≠ Obj.bootState ∧ Obj.railStatus ≠ Obj.clockStatus ∧
    Obj.railStatus ≠ Obj.clockSummary := by decide +kernel

/-- A board configuration block that keeps its field map: 25 MHz, 1 GiB a channel, no channel fitted. -/
def configBlock : List Byte :=
  let b := toBe 12 (0x45564243 * 2 ^ 64 + 25 * 2 ^ 48 + 2 ^ 8)
  b ++ toBe 4 (crc32c b)

/-- An image of one microword, of level 3, for the life-cycle state 2, its signature not shown. -/
def image : List Byte := toBe 16 (0x45564C52 * 2 ^ 96 + 3 * 2 ^ 64 + 2 ^ 48 + 2 ^ 29) ++ List.replicate 114 0

/-- An image read, at a boot step. -/
def imaged (step : BootStep) (b : List Byte) : State :=
  { State.reset with boot := { State.reset.boot with step := step, image := b } }

/-- Both wipes at a point. -/
def wiping (step : BootStep) (sram ddr5 : Bool) : State :=
  { State.reset with boot := { State.reset.boot with step := step, sramWiping := sram, ddr5Wiped := ddr5 } }

/-- BootSteps: a good block and a bad one, a good image and a bad one, an image that may not run here, and each place of the wipes. -/
theorem witness_boot : (atStep .config).boot.step = .config ∧ configDefect configBlock = 0 ∧ configDefect [] ≠ 0 ∧
    (atStep (.imageRead 1)).boot.step = .imageRead 1 ∧ imageDefect image = 0 ∧ (atStep (.imageRead 2)).boot.step = .imageRead 2 ∧
    imageDefect [] ≠ 0 ∧
    ((imaged (.imageCheck 1) image).dictWf = true ∧ (imaged (.imageCheck 1) image).boot.step = .imageCheck 1 ∧
      imageAllows image 2 = true ∧ imageAllows image 3 = false) ∧
    (atStep .idle).boot.ddr5Wiped = false ∧ ((wiping .idle true true).boot.ddr5Wiped = true ∧
      (wiping .idle true true).boot.sramWiping = true) ∧
    (atStep .training).boot.step = .training ∧ (atStep .ddr5Reset).boot.step = .ddr5Reset ∧
    (atStep .ddr5Reinit).boot.step = .ddr5Reinit ∧
    ((wiping .ddr5Wipe true false).boot.step = .ddr5Wipe ∧ (wiping .ddr5Wipe true false).boot.ddr5Wiped = false ∧
      (wiping .ddr5Wipe true false).boot.sramWiping = true ∧ (wiping .ddr5Wipe false false).boot.sramWiping = false) ∧
    (atStep .kiln).boot.step = .kiln ∧ (atStep .kiln).dictWf = true := by decide +kernel

/-- TheBootEndsInReady. -/
theorem witness_ready : ({ live with boot := { live.boot with kind := .warm } } : State).boot.kind = .warm ∧
    live.obj? Obj.warmKiln = 0 ∧ live.boot.kind ≠ .warm ∧ (live.put Obj.warmKiln 1).obj? Obj.warmKiln ≠ 0 ∧ live.dictWf = true ∧
    (railed .warm 2 0 true false).warmHolds = true ∧ live.warmHolds = false ∧ Obj.railStatus ≠ Obj.bootElapsed := by decide +kernel

/-- A device in life-cycle state 1 with the record that authorises state 2. -/
def authorised : State :=
  let s := { live with boot := { live.boot with fuses := 1 } }
  s.putBytes Obj.lifeAuthorisation 0 (toBe 8 (s.obj? Obj.deviceSerial) ++ [1, 2, 0, 0, 0, 0, 0, 0])

/-- UploadAndLifeRequests: the requests that need no authorisation, and those that are refused. -/
theorem witness_life : live.dictWf = true ∧ plinthOpen live ∧ live.obj? Obj.bootState ≠ 7 ∧
    (live.put Obj.bootState 7).obj? Obj.bootState = 7 ∧ plinthOpen (live.put Obj.bootState 7) ∧ (0x4C434503 : Nat) / 256 ≠ 0x4C4346 ∧
    4 < (0x4C434605 : Nat) % 256 ∧
    live.boot.blowing = none ∧ lifeTransition live.boot.fuses 3 = some false ∧ lifeTransition live.boot.fuses 1 = none := by
  unfold plinthOpen
  decide +kernel

/-- UploadAndLifeRequests: an authorised request, whatever serial number the part has. -/
theorem witness_authorised : authorised.dictWf = true ∧ plinthOpen authorised ∧ authorised.boot.blowing = none ∧
    lifeTransition authorised.boot.fuses 2 = some true ∧ authorised.lifeRecord 2 = true := by
  have wf : Sparse.wf Defaults.dom live.dom = true := by decide +kernel
  have two : authorised.dictWf = true := by
    simp only [State.dictWf, Bool.and_eq_true]
    exact ⟨by decide +kernel, sparse_setN_wf wf⟩
  refine ⟨two, ⟨rfl, by decide, by decide⟩, rfl, rfl, ?_⟩
  have read : authorised.bytes Obj.lifeAuthorisation 0 16 =
      toBe 8 (authorised.obj? Obj.deviceSerial) ++ [1, 2, 0, 0, 0, 0, 0, 0] := by
    have := sparse_getN_setN wf (Defaults.domAddr Obj.lifeAuthorisation 0)
      (toBe 8 (live.obj? Obj.deviceSerial) ++ [1, 2, 0, 0, 0, 0, 0, 0])
    simp only [List.length_append, toBe_length] at this
    exact this
  have serial : authorised.obj? Obj.deviceSerial < 256 ^ 8 := Config.deviceSerial.isLt
  simp only [State.lifeRecord, read, beAt, slice]
  generalize authorised.obj? Obj.deviceSerial = n at serial
  have len : (toBe 8 n).length = 8 := toBe_length 8 n
  have nine : List.drop 9 (toBe 8 n) = [] := List.drop_eq_nil_of_le (by omega)
  have ten : List.drop 10 (toBe 8 n) = [] := List.drop_eq_nil_of_le (by omega)
  simp [len, beNat_toBe serial, List.drop_append, nine, ten]
  decide +kernel


/-! ### Witnesses: host writes of one object -/

/-- SCRAPPED. -/
def scrapped : State := { live with boot := { live.boot with fuses := 4 } }

/-- RejectedWritesChangeNothing: each check, on an object that meets the ones before it. -/
theorem witness_rejects : live.boot.powered = true ∧ Dict.highest 0xFFFF = 0 ∧ Dict.highest 0x1000 ≠ 0 ∧ (1 : BitVec 8) ≠ 0 ∧
    Dict.find 0x1000 0xFF = none ∧ scrapped.lifeAllows 0x1110 = false ∧ live.lifeAllows 0x1000 = true ∧
    (Dict.find 0x1000 1).map Family.access = some .const ∧ live.lifeAllows 0x1110 = true ∧
    (Dict.find 0x1110 1).map (fun f => (f.access, f.ty, f.size)) = some (.rw, .u32, 4) ∧
    (Dict.find 0x7050 1).map Family.access = some .wo ∧ live.lifeAllows 0x7030 = true ∧
    (Dict.find 0x7030 5).map (fun f => (f.access, f.ty, f.size, f.check.takes (beNat [2]))) = some (.rw, .bool, 1, false) := by
  decide +kernel

/-- SettingsTakeTheirWrites. -/
theorem witness_settings : plinthOpen live ∧
    ((0x1112, 2, 8) : Nat × Nat × Nat) ∈ [(0x1100, 2, 6), (0x1100, 3, 6), (0x1100, 4, 4), (0x1100, 5, 16), (0x1100, 6, 2), (0x1110, 1, 4),
      (0x1111, 1, 4), (0x1112, 1, 4), (0x1113, 1, 4), (0x1110, 2, 8), (0x1111, 2, 8), (0x1112, 2, 8), (0x1113, 2, 8)] ∧
    ([1, 2, 3, 4, 5, 6, 7, 8] : List Byte).length = 8 := by
  unfold plinthOpen
  decide +kernel

/-- PlinthSummariesClear, FastSummariesClear and PortAndPipeClears: the widest value a summary takes, and the least it does not. -/
theorem witness_summaries : plinthOpen live ∧ fastOpen live ∧ live.fenced 0x5B6 = false ∧ live.fenced 0x5B7 = false ∧
    ∀ mask ∈ ([0x7, 0xF, 0x1F, 0xFFF, 0x3F, 0x7F, 0x1F1F, 0x1F7F, 0x1FFFFFFF, 0x1FFFF] : List Nat),
      clearBits mask mask = 0 ∧ clearBits (2 ^ 31) mask ≠ 0 := by
  unfold fastOpen plinthOpen
  decide +kernel

/-- PortAndPipeClears: the last port of the last group and the last pipe. -/
theorem witness_clears :
    (fastOpen (liveFn 127 1) ∧ (liveFn 127 1).fenced (0x040 + 127) = false ∧ (liveFn 127 1).groupPowered (127 / 8) = true) ∧
    (fastOpen (liveFn 0x210 1) ∧ (liveFn 0x210 1).fenced 16 = false ∧ (liveFn 0x210 1).fn (Fn.pipeNo 16) ≠ 0 ∧
      (liveFn 0x210 1).depth 16 ≠ 3) ∧ 9 ∈ rings ∧ 0 ∈ rings ∧ clearBits 7 7 = 0 := by
  unfold fastOpen plinthOpen
  decide +kernel

/-- RingPointersMove: a record produced, the pointer of a full ring and one beyond it, and the same on the host's side. -/
theorem witness_rings : plinthOpen live ∧
    (let cap := live.ringCapacity 8
     bits 1 30 0 < cap ∧ pointerSpan cap 1 (live.obj? (Obj.ringTail 8)) ≤ cap ∧
      pointerSpan cap (live.obj? (Obj.ringHead 8)) (live.obj? (Obj.ringTail 8)) ≤ pointerSpan cap 1 (live.obj? (Obj.ringTail 8)) ∧
      bits (2 ^ 31) 30 0 < cap ∧ pointerSpan cap (2 ^ 31) (live.obj? (Obj.ringTail 8)) ≤ cap ∧
      cap < pointerSpan cap (2 ^ 31 + 1) (live.obj? (Obj.ringTail 8))) ∧
    (let s := live.put (Obj.ringHead 0) 1
     let cap := s.ringCapacity 0
     plinthOpen s ∧ bits 1 30 0 < cap ∧
      pointerSpan cap 1 (s.obj? (Obj.ringTail 0)) ≤ pointerSpan cap (s.obj? (Obj.ringHead 0)) (s.obj? (Obj.ringTail 0)) ∧
      pointerSpan cap (s.obj? (Obj.ringHead 0)) (s.obj? (Obj.ringTail 0)) < pointerSpan cap 2 (s.obj? (Obj.ringTail 0))) ∧
    (let s := live.put (Obj.ringHead 4) 1
     let cap := s.ringCapacity 4
     plinthOpen s ∧ bits 1 30 0 < cap ∧
      pointerSpan cap 1 (s.obj? (Obj.ringTail 4)) ≤ pointerSpan cap (s.obj? (Obj.ringHead 4)) (s.obj? (Obj.ringTail 4))) := by
  unfold plinthOpen
  decide +kernel

/-- SessionSettings. -/
theorem witness_sessions : plinthOpen live ∧ live.sop.sessions.length = 8 ∧ (63 : BitVec 8).toNat ≤ 63 ∧ 63 < (64 : BitVec 8).toNat := by
  unfold plinthOpen
  decide +kernel

/-! ### Witnesses: functions, sleep and links -/

/-- FunctionRequests. -/
theorem witness_requests :
    (fastOpen live ∧ live.fn 0 = 0 ∧ live.mayStart 0 false = true ∧ (live.hostFence (Units.ofFunction 0)).isSome = true) ∧
    (fastOpen (liveFn 0 2) ∧ (liveFn 0 2).fn 0 = 2 ∧ (liveFn 0 2).mayStart 0 false = true) ∧
    (let s := live.put (Obj.portWidth 127) 3
     fastOpen s ∧ s.fn 127 = 0 ∧ s.mayStart 127 false = false) ∧
    (let s := ((live.setFn 0 1).setFn 1 1).put (Obj.portFirstLane 1) 0
     fastOpen s ∧ s.fn 0 = 1 ∧ s.mayStart 0 true = true ∧ 0 < 0x100 ∧ s.sharesLanes 0 = true) ∧
    (fastOpen (liveFn 0x400 1) ∧ (liveFn 0x400 1).fn 0x400 = 1 ∧ (liveFn 0x400 1).mayStart 0x400 true = true ∧
      ¬ (0x400 < 0x100 ∧ (liveFn 0x400 1).sharesLanes 0x400 = true) ∧ (liveFn 0x400 1).mayStop 0x400 = true) ∧
    (fastOpen (liveFn 0x200 3) ∧ (liveFn 0x200 3).fn 0x200 = 3 ∧ (liveFn 0x200 3).liftable 0x200 = true ∧
      (liveFn 0x200 3).mayStop 0x200 = true ∧ ((liveFn 0x200 3).hostFence (Units.ofFunction 0x200)).isNone = true) ∧
    (fastOpen (liveFn 0x200 2) ∧ (liveFn 0x200 2).fn 0x200 ≠ 1 ∧ (liveFn 0x200 2).fn 0x200 ≠ 3) := by
  unfold fastOpen plinthOpen
  decide +kernel

/-- A passage of a function. -/
def passing (n v : Nat) (g : FnGoal) : State := live.passFn n v g

/-- FunctionPassages. -/
theorem witness_passages : (Shape live ∧ SlotsGood live.versions) ∧
    (live.fn 0 ≠ 4 ∧ live.fn 0 ≠ 5) ∧ ((passing 0 4 .hold).fn 0 = 4 ∧ (passing 0 4 .hold).drained 0 = true) ∧
    (let s := { passing 0 4 .hold with ports := { PortSt.reset with rxActive := true } :: List.replicate 127 .reset }
     s.fn 0 = 4 ∧ s.drained 0 = false) ∧
    ((passing 0x400 4 .hold).fn 0x400 = 4 ∧ (passing 0x400 4 .hold).drained 0x400 = true) ∧
    ((passing 0x101 5 .run).fn 0x101 = 5 ∧ (passing 0x101 5 .run).goal 0x101 = some .run) ∧
    ((passing 0x101 5 .hold).fn 0x101 = 5 ∧ (passing 0x101 5 .hold).goal 0x101 = some .hold) :=
  ⟨⟨shape_live, slots_live⟩, by decide +kernel⟩

/-- A pipe whose function reads RUN, at a depth. -/
def sleeping (p depth : Nat) : State := (live.setFn (0x200 + p) 2).put (Obj.sleepDepth p) depth

/-- PipesSleepAndWake. -/
theorem witness_sleep :
    ((sleeping 0 0).ready = true ∧ (sleeping 0 0).depth 0 = 0 ∧ ((sleeping 0 0).pipe 0).waking = none ∧ (sleeping 0 0).pipeOn 0 = true ∧
      (sleeping 0 0).pipeIdle 0 = true) ∧
    (let s := ((sleeping 0 1).put (Obj.sleepEnable 0) 1).put (Obj.sleepPolicy 0) 2
     s.ready = true ∧ (s.pipe 0).waking = none ∧ s.pipeOn 0 = true ∧ s.pipeIdle 0 = true ∧ s.mayDeepen 0 = true ∧ s.depth 0 = 1 ∧
      s.sleepOn 0 = true ∧ 1 ≤ s.obj? (Obj.sleepPolicy 0) ∧ s.depth 0 ≠ 3 ∧ s.obj? (Obj.sleepPolicy 0) = 2 ∧
      ∀ q ∈ s.pipePorts 0, (s.fn q = 0 ∨ s.fn q = 3) ∧ s.egressCopies q = []) ∧
    ((sleeping 16 1).ready = true ∧ (sleeping 16 1).groupsOf 16 = [] ∧ (sleeping 16 1).depth 16 ≤ 1 ∧
      ((sleeping 16 1).pipe 16).waking = none ∧ (sleeping 16 1).pipeOn 16 = true ∧ (sleeping 16 1).pipeIdle 16 = true ∧
      (sleeping 16 1).mayDeepen 16 = true) ∧
    (let s := ((sleeping 16 1).put (Obj.groupPipe 0) 16).put (Obj.sleepEnable 0) 1
     s.ready = true ∧ s.groupsOf 16 ≠ [] ∧ s.depth 16 = 1 ∧ s.sleepOn 16 = true ∧ (s.pipe 16).waking = none ∧ s.pipeOn 16 = true ∧
      s.pipeIdle 16 = true ∧ s.mayDeepen 16 = true) ∧
    ((sleeping 3 2).depth 3 < 3 ∧ 1 < (sleeping 3 2).depth 3 ∧ ((sleeping 3 2).pipe 3).waking = none ∧ (sleeping 3 3).depth 3 = 3) ∧
    (((sleeping 3 2).setPipe 3 fun x => { x with waking := some 1 }).pipe 3).waking = some 1 := by decide +kernel

/-- A port whose function reads RUN, with its pipe and scheduler, and a link state. -/
def linked (p st : Nat) : State :=
  (((live.setFn p 2).setFn (0x200 + p / 8) 2).setFn (0x100 + p / 8) 2).put (Obj.linkState p) st

/-- The parts of LinksComeUp: pages with a row in common and without one, and the ends of the parallel-detect rates. -/
theorem witness_links :
    ((linked 0 1).ready = true ∧ (linked 0 1).link 0 = 1 ∧ commonRow ((linked 0 1).offeredRows 0) (bitList 20 0xFFFFF) = some 14 ∧
      commonRow ((linked 0 1).offeredRows 0) (bitList 20 0) = none) ∧
    ((linked 127 2).ready = true ∧ (linked 127 2).link 127 = 2 ∧ (linked 127 2).nextRate 127 (0 + 1) = some 1 ∧
      (linked 127 2).nextRate 127 (2 + 1) = none) ∧
    (let s := (linked 0 1).setPort 0 fun x => { x with exchanged := true }
     s.link 0 = 1 ∧ (s.port 0).exchanged = true) ∧
    (((linked 0 1).port 0).exchanged = false ∧ (linked 0 1).inForce (Obj.portWidth 0) = 1 ∧ (linked 0 1).nextRate 0 0 = some 0) ∧
    ((linked 0 3).link 0 = 3 ∧ (linked 0 3).dictWf = true ∧ (linked 0 3).inForce (Obj.anEnable 0) = 1) ∧
    (let s := (linked 0 3).put (Obj.anEnable 0) 0
     s.dictWf = true ∧ s.link 0 = 3 ∧ s.inForce (Obj.anEnable 0) ≠ 1) := by decide +kernel

/-- LinksGoUpAndDown. -/
theorem witness_loss : (linked 0 4).link 0 = 4 ∧ (linked 0 6).link 0 = 6 ∧ (linked 0 5).link 0 = 5 ∧ live.link 0 = 0 ∧
    (linked 0 6).link 0 ≠ 5 ∧ (linked 0 6).link 0 ≠ 0 ∧
    (((linked 0 6).setPort 0 fun x => { x with holdRunning := true }).port 0).holdRunning = true ∧
    ((linked 0 6).setPort 0 fun x => { x with holdRunning := true }).runs 0 = true := by decide +kernel


/-! ### Witnesses: frames at the MAC -/

/-- A broadcast frame of 64 bytes with an EtherType, or its first bytes, and a good FCS. -/
def wire (etherType : Nat) (rest : List Byte) : List Byte :=
  let b := padTo 60 (toBe 6 (2 ^ 48 - 1) ++ toBe 6 0x020000000001 ++ toBe 2 etherType ++ rest)
  b ++ fcs b

/-- A frame held by the engine, from port 0, held whole, its copies elsewhere. -/
def held (id : Nat) : Frame := { fabricFrame 0 0 0 0 (wire 0x800 []) true with id := id, source := .front, forward := none, crossed := none }

/-- WholeFramesReceived: a good frame, a good control frame, a frame for a port that does not run, one a byte too short, one too long,
an error reported, and a full ingress FIFO. -/
theorem witness_receive :
    ((linked 0 5).ready = true ∧ (linked 0 5).link 0 = 5 ∧ ((linked 0 5).port 0).rxActive = false) ∧
    ((linked 0 5).headCode 0 (wire 0x800 []) = none ∧ (wire 0x800 []).length ≤ ((linked 0 5).macStats 0 (wire 0x800 [])).maxFrame 0 ∧
      tailCode (wire 0x800 []) = none ∧ isControl (wire 0x800 []) = false ∧
      ((linked 0 5).macStats 0 (wire 0x800 [])).fifoCode 0 (wire 0x800 []) true = none) ∧
    ((linked 0 5).headCode 0 (wire 0x8808 [0, 1]) = none ∧
      (wire 0x8808 [0, 1]).length ≤ ((linked 0 5).macStats 0 (wire 0x8808 [0, 1])).maxFrame 0 ∧
      tailCode (wire 0x8808 [0, 1]) = none ∧ isControl (wire 0x8808 [0, 1]) = true) ∧
    ((live.put (Obj.linkState 0) 5).ready = true ∧ (live.put (Obj.linkState 0) 5).link 0 = 5 ∧
      ((live.put (Obj.linkState 0) 5).fecReport 0 .none).headCode 0 (wire 0x800 []) = some 0x07) ∧
    tailCode ((wire 0x800 []).take 63) = some 0x01 ∧ errorCode .none = none ∧ errorCode .pcs = some 0x05 ∧
    (let s := (linked 0 5).fecReport 0 .none
     s.headCode 0 ((wire 0x800 []).take 63) = none ∧
      ((s.macStats 0 ((wire 0x800 []).take 63)).judgeWhole 0 ((wire 0x800 []).take 63)
        ((s.macStats 0 ((wire 0x800 []).take 63)).fifoCode 0 ((wire 0x800 []).take 63) true) .none).2 = some 0x01) ∧
    ((linked 0 5).maxFrame 0 < 20000) ∧
    ((linked 0 5).portPipe 0 ≠ 0xFF ∧ (linked 0 5).fenced ((linked 0 5).portPipe 0) = false ∧
      (linked 0 5).runs (Fn.pipeNo ((linked 0 5).portPipe 0)) = true) := by decide +kernel

/-- PausesBeginAndEnd: the last class paused, and each kind of control frame under each setting. -/
theorem witness_pauses :
    (let s := (linked 0 5).setPause 0 7 fun x => { x with paused := true, ignoring := true }
     (s.pause 0 7).paused = true ∧ (s.put (Obj.pauseWatchdogMs 0 7) 1).obj? (Obj.pauseWatchdogMs 0 7) ≠ 0 ∧
      (s.pause 0 7).ignoring = true ∧ (s.pause 0 6).ignoring = false) ∧
    (linked 0 5).ports.length = 128 ∧ ((linked 0 5).port 127).pauses.length = 8 ∧
    beAt (wire 0x8808 [0, 1]) 14 2 = 0x0001 ∧ beAt (wire 0x8808 [1, 1]) 14 2 = 0x0101 ∧ beAt (wire 0x8808 []) 14 2 ≠ 0x0001 ∧
    beAt (wire 0x8808 []) 14 2 ≠ 0x0101 ∧ ((linked 0 5).put (Obj.rxFlowControl 0) 1).obj? (Obj.rxFlowControl 0) = 1 ∧
    ((linked 0 5).put (Obj.rxFlowControl 0) 2).obj? (Obj.rxFlowControl 0) = 2 ∧
    (linked 0 5).obj? (Obj.rxFlowControl 0) ≠ 1 ∧ (linked 0 5).obj? (Obj.rxFlowControl 0) ≠ 2 := by decide +kernel

/-- A frame with a version stamp held. -/
def stamped (stamp : Option Nat) : State := { live with frames := [{ held 5 with stamp := stamp }], nextId := 6 }

/-- EndedFramesLeave: the greatest code, a stamped frame and one without a stamp. -/
theorem witness_ends : (stamped (some 2)).dictWf = true ∧ (255 : Nat) < 256 ∧
  (stamped (some 2)).frame? 5 = some { held 5 with stamp := some 2 } ∧
    (stamped (some 2)).obj? Obj.caliperFreeze ≠ 1 ∧ 2 < (stamped (some 2)).versions.slots.length ∧ (0 : Nat) ≠ 2 ∧
    (stamped none).frame? 5 = some { held 5 with stamp := none } := by decide +kernel

/-- A copy of frame 5 at a place of port 0; its frame whole or not, and long enough to start by cut-through. -/
def sending (loc : CopyLoc) (whole : Bool) : State :=
  { (linked 0 5).put (Obj.cutEnable 0) 1 with
    frames := [{ held 5 with complete := whole, bytes := List.replicate 1024 0,
                             modes := { cut := true, learn := false, time := false } }],
    copies := [{ plainCopy 5 0 loc with id := 6 }], nextId := 7 }

/-- The same with the copy in transmission. -/
def onWire (cut whole : Bool) : State :=
  (sending (.transmit 0) whole).setPort 0 fun x => { x with tx := some { copy := 6, cut := cut, protect := none, stamp := 0, timed := false } }

/-- TransmitSide: a copy that may start before its tail, one whose frame is whole, one that runs dry, and CLEAN_FRAMES on both sides of
its limit. -/
theorem witness_transmit :
    ((sending (.selected 0) false).mayTransmit 0 = true ∧ ((sending (.selected 0) false).port 0).tx = none ∧
      ∃ c f, (sending (.selected 0) false).nextToStart 0 = some c ∧ (sending (.selected 0) false).frame? c.frame = some f ∧
        f.complete = false ∧ (sending (.selected 0) false).mayCut 0 c f = true) ∧
    (∃ x c f, ((onWire true true).port 0).tx = some x ∧ (onWire true true).copy? x.copy = some c ∧
      (onWire true true).frame? c.frame = some f ∧ f.complete = true) ∧
    (∃ x c f, ((onWire true false).port 0).tx = some x ∧ (onWire true false).copy? x.copy = some c ∧
      (onWire true false).frame? c.frame = some f ∧ x.cut = true ∧ f.complete = false) ∧
    (live.put (Obj.cleanFrames 0) (2 ^ 20 - 1)).obj? (Obj.cleanFrames 0) < 2 ^ 20 ∧
    2 ^ 20 ≤ (live.put (Obj.cleanFrames 0) (2 ^ 20)).obj? (Obj.cleanFrames 0) :=
  ⟨⟨by decide +kernel, by decide +kernel, _, _, rfl, rfl, rfl, by decide +kernel⟩, ⟨_, _, _, rfl, rfl, rfl, rfl⟩,
    ⟨_, _, _, rfl, rfl, rfl, rfl, rfl⟩, by decide +kernel, by decide +kernel⟩


/-! ### Witnesses: the Object Protocol and PCIe -/

/-- A message of an opcode on a path, with the CRC-32C trailer of an unauthenticated one. -/
def message (opcode : Nat) (session seq index sub : Nat) (payload : List Byte) (tags : List (BitVec 16)) (path : Path) : SopMessage :=
  let m : SopMessage :=
    { carriage := { mailboxCarriage with path := path, tags := tags }, ver := 1, rsp := false, auth := false, rsvdHigh := 0,
      session := BitVec.ofNat 16 session, seq := BitVec.ofNat 32 seq, length := BitVec.ofNat 16 payload.length,
      index := BitVec.ofNat 16 index, sub := BitVec.ofNat 8 sub, status := 0, rsvdLow := 0, payload := payload, trailer := [] }
  { m with trailer := sopTrailer none 0 0 0 0 (sopSigned m opcode) }

/-- A message by the mailbox. -/
def boxMessage (opcode session seq index sub : Nat) (payload : List Byte) : SopMessage :=
  message opcode session seq index sub payload [] .mailbox

/-- READY with session 1 open for the mailbox, expecting SEQ 2, its last response stored, and direct PCIe access on. -/
def open1 : State :=
  let s := live.put Obj.pcieDirectEnable 1
  { s with sop := { s.sop with sessions := { (s.sop.sessions.headD .free) with
      isOpen := true, path := .mailbox, nextSeq := 2, epoch := 1, stored := some [1] } :: s.sop.sessions.drop 1 } }

/-- The same with SEQ exhausted and no response stored. -/
def exhausted : State := { open1 with sop := { open1.sop with sessions := open1.sop.sessions.map fun x =>
  { x with nextSeq := 0xFFFFFFFF, stored := none } } }

/-- MessagesAreChecked: one message for each of steps 1 to 6. -/
theorem witness_checks :
    (sopHeard open1 (boxMessage 1 1 2 0x1000 1 []) ∧ (Instr.read (.sop (boxMessage 1 1 2 0x1000 1 [])), 1) ∈
      sopCommands (boxMessage 1 1 2 0x1000 1 [])) ∧
    (let m := message 1 0 0 0x1000 1 [] [0, 0] .mg0Eth
     sopHeard open1 m ∧ (boxed open1 m).carriageGood m.carriage = false) ∧
    (let m := { boxMessage 1 1 2 0x1000 1 [] with rsp := true }
     (boxed open1 m).carriageGood m.carriage = true ∧ sopShaped m = false) ∧
    (let m := { boxMessage 1 1 2 0x1000 1 [] with trailer := [0, 0, 0, 0] }
     sopShaped m = true ∧ (boxed open1 m).sopAuthentic 1 m = false) ∧
    (let m := boxMessage 1 1 2 0x1000 1 []
     (boxed open1 m).carriageGood m.carriage = true ∧ sopShaped m = true ∧ (boxed open1 m).sopAuthentic 1 m = true ∧
      (boxed open1 m).sopRefuses 1 m = none) ∧
    (let m : SopMessage := { boxMessage 1 1 2 0x1000 1 [] with ver := 2 }
     let m := { m with trailer := sopTrailer none 0 0 0 0 (sopSigned m 1) }
     sopShaped m = true ∧ (boxed open1 m).sopAuthentic 1 m = true ∧ m.ver ≠ 1) ∧
    (let m := boxMessage 1 9 2 0x1000 1 []
     (boxed open1 m).sopAuthentic 1 m = true ∧ m.ver = 1 ∧ m.session ≠ 0 ∧ (boxed open1 m).sopOpen m = false ∧
      (boxed open1 m).sopRefuses 1 m = some 5) := by
  unfold sopHeard
  decide +kernel

/-- MessagesAreChecked: each verdict of step 7, at both ends of SEQ, and an opcode that step 8 turns away. -/
theorem witness_sequence :
    (let m := boxMessage 0x12 1 2 0 0 []
     sopSessionless m 0x12 = false ∧ m.seq.toNat = (boxed open1 m).sopExpected m ∧ m.seq.toNat ≠ 0xFFFFFFFF ∧
      m.session.toNat = 0 + 1 ∧ 0 < (boxed open1 m).sop.sessions.length) ∧
    (let m := boxMessage 0x12 1 0xFFFFFFFF 0 0 []
     sopSessionless m 0x12 = false ∧ m.seq.toNat = (boxed exhausted m).sopExpected m ∧ (boxed exhausted m).sopSeq 0x12 m = .refuse 7) ∧
    (let m := boxMessage 0x12 1 1 0 0 []
     m.seq.toNat + 1 = (boxed open1 m).sopExpected m ∧ (boxed open1 m).sopStored m = some [1] ∧
      (boxed open1 m).sopSeq 0x12 m = .replay [1]) ∧
    (let m := boxMessage 0x12 1 0xFFFFFFFE 0 0 []
     m.seq.toNat + 1 = (boxed exhausted m).sopExpected m ∧ (boxed exhausted m).sopStored m = none) ∧
    (let m := boxMessage 0x12 1 0 0 0 []
     m.seq.toNat ≠ (boxed open1 m).sopExpected m ∧ m.seq.toNat + 1 ≠ (boxed open1 m).sopExpected m) ∧
    (let m := boxMessage 0x10 1 2 0 0 []
     (boxed open1 m).sopSeq 0x10 m = .serve ∧ sopAllowed 0x10 m = false ∧ (boxed open1 m).sopRefuses 0x10 m = none ∧
      (boxed open1 m).sopAuthentic 0x10 m = true) ∧
    (let m := boxMessage 0x10 0 0 0 0 [0, 0, 0, 0]
     sopSessionless m 0x10 = false ∧ m.session = 0 ∧ m.session.toNat = 0 ∧ (boxed open1 m).sopExhausted = false ∧
      (boxed (open1.put Obj.commEpoch 0xFFFFFFFF) m).sopExhausted = true) := by decide +kernel

/-- A message of a session passes the checks. -/
def passes (s : State) (opcode : Nat) (m : SopMessage) : Bool :=
  let u := boxed s m
  u.carriageGood m.carriage && sopShaped m && u.sopAuthentic opcode m && (u.sopRefuses opcode m == none) &&
    (u.sopSeq opcode m == .serve) && sopAllowed opcode m

theorem passes_spec {s : State} {opcode : Nat} {m : SopMessage} (h : passes s opcode m = true) :
    SopPasses (boxed s m) opcode m := by
  simp only [passes, Bool.and_eq_true, beq_iff_eq] at h
  obtain ⟨⟨⟨⟨⟨a, b⟩, c⟩, d⟩, e⟩, f⟩ := h
  exact ⟨a, b, c, d, e, f⟩

/-- Every session open. -/
def full : State := { open1 with sop := { open1.sop with sessions := open1.sop.sessions.map fun x => { x with isOpen := true } } }

/-- The same before READY, where the Plinth serves what it holds by itself. -/
def early : State := open1.put Obj.bootState 7

/-- MessagesAreServed: a message of every opcode that passes, READ of a constant and of an unmapped one, MULTI_READ of 1 and of 64
entries, DOMAIN_READ of 1 and of 1,408 bytes, and OPEN with a session free and with none. -/
theorem witness_served :
    (open1.dictWf = true ∧ sopHeard open1 (boxMessage 1 1 2 0x1000 1 []) ∧ SopPasses (boxed open1 (boxMessage 1 1 2 0x1000 1 [])) 1
      (boxMessage 1 1 2 0x1000 1 [])) ∧
    (((boxed open1 (boxMessage 1 1 2 0x1000 1 [])).admits .read 0x1000 1).toOption.isSome = true ∧
      (boxed open1 (boxMessage 1 1 2 0x1000 1 [])).slowAccess .read 0x1000 1 = false ∧
      (boxed open1 (boxMessage 1 1 2 0x1000 1 [])).sopBehind 1 (boxMessage 1 1 2 0x1000 1 []) = false) ∧
    SopPasses (boxed open1 (boxMessage 2 1 2 0x1112 2 (toBe 8 5))) 2 (boxMessage 2 1 2 0x1112 2 (toBe 8 5)) ∧
    (open1.boot.fuses ≠ 0 ∧ open1.boot.fuses ≠ 4 ∧
      (boxed open1 (boxMessage 2 1 2 0x1112 2 (toBe 8 5))).sopBehind 2 (boxMessage 2 1 2 0x1112 2 (toBe 8 5)) = false ∧
        (boxMessage 2 1 2 0x1112 2 (toBe 8 5)).index.toNat = 0x1112 ∧
      (boxMessage 2 1 2 0x1112 2 (toBe 8 5)).sub.toNat = 2 ∧ (boxMessage 2 1 2 0x1112 2 (toBe 8 5)).payload.length = 8) ∧
    (∀ n ∈ [1, 64], let m := boxMessage 3 1 2 0 0 ((List.range n).flatMap fun _ => [0x10, 0x00, 1, 0])
      SopPasses (boxed open1 m) 3 m ∧ (boxed open1 m).sopBehind 3 m = false ∧ m.payload.length = 4 * n ∧ 1 ≤ n ∧ n ≤ 64 ∧
        ∀ x ∈ sopItems m, (boxed open1 m).waits .read x.1 x.2 = false) ∧
    (∀ n ∈ [32, 1408], let m := boxMessage 4 1 2 0xB050 1 (toBe 8 0 ++ toBe 2 n ++ [0, 0])
      SopPasses (boxed early m) 4 m ∧ m.payload.length = 12 ∧ beAt m.payload 0 8 = 0 ∧ beAt m.payload 8 2 = n ∧ 1 ≤ n ∧ n ≤ 1408 ∧
        sopHeard early m ∧ ((boxed early m).admits (.domainRead 0 n) 0xB050 1).toOption.isSome = true ∧
        (boxed early m).slowAccess (.domainRead 0 n) 0xB050 1 = false ∧ (boxed early m).sopBehind 4 m = false) ∧
    SopPasses (boxed open1 (boxMessage 0x11 1 2 0 0 [])) 0x11 (boxMessage 0x11 1 2 0 0 []) ∧
    SopPasses (boxed open1 (boxMessage 0x12 1 2 0 0 [])) 0x12 (boxMessage 0x12 1 2 0 0 []) ∧
    (let m := boxMessage 0x10 0 1 0 0 (toBe 4 0)
     SopPasses (boxed open1 m) 0x10 m ∧ m.payload.length = 4 ∧ (boxed open1 m).obj? Obj.commEpoch ≠ 0xFFFFFFFF ∧
      ((boxed open1 m).sop.sessions.findIdx? fun x => !x.isOpen) = some 1) ∧
    (let m := boxMessage 0x10 0 1 0 0 (toBe 4 0)
     sopHeard full m ∧ SopPasses (boxed full m) 0x10 m ∧ ((boxed full m).sop.sessions.findIdx? fun x => !x.isOpen) = none) := by
  refine ⟨⟨by decide +kernel, by unfold sopHeard; decide +kernel, passes_spec (by decide +kernel)⟩, by decide +kernel,
    passes_spec (by decide +kernel), by decide +kernel, ?_, ?_, passes_spec (by decide +kernel), passes_spec (by decide +kernel),
    ⟨passes_spec (by decide +kernel), by decide +kernel⟩, by unfold sopHeard; decide +kernel, passes_spec (by decide +kernel),
    by decide +kernel⟩
  · intro n h
    simp only [List.mem_cons, List.not_mem_nil, or_false] at h
    rcases h with rfl | rfl <;> exact ⟨passes_spec (by decide +kernel), by decide +kernel⟩
  · intro n h
    simp only [List.mem_cons, List.not_mem_nil, or_false] at h
    rcases h with rfl | rfl <;> exact ⟨passes_spec (by decide +kernel), by unfold sopHeard; decide +kernel⟩

/-- A request for SAMPLE_SEED, which the Atelier serves. -/
def slowRead : SopMessage := boxMessage 1 1 2 0x6843 2 []

/-- Requests that wait. -/
def waiting (n : Nat) : State :=
  let r : SlowRequest := { atelier := true, opcode := 1, message := slowRead, key := none, epoch := 1 }
  { open1 with sop := { open1.sop with slow := List.replicate n r } }

/-- A DOMAIN_READ that waits, and a DOMAIN_WRITE of the flow counters. -/
def waitingRegion (opcode index : Nat) (payload : List Byte) : State :=
  let x : SlowRequest :=
    { atelier := true, opcode := opcode, message := boxMessage opcode 1 2 index 1 payload, key := none, epoch := 1 }
  { open1 with sop := { open1.sop with slow := [x] } }

/-- WaitingMessagesAndSessions: the queue with a place left and full, a message behind one that waits, a request of each kind to serve,
a session, and an address. -/
theorem witness_waiting :
    (sopHeard (waiting 31) slowRead ∧ SopPasses (boxed (waiting 31) slowRead) 1 slowRead ∧
      (boxed (waiting 31) slowRead).sopSlow 1 slowRead = true ∧ (boxed (waiting 31) slowRead).slowFull = false) ∧
    (sopHeard (waiting 32) slowRead ∧ SopPasses (boxed (waiting 32) slowRead) 1 slowRead ∧
      (boxed (waiting 32) slowRead).sopSlow 1 slowRead = true ∧ (boxed (waiting 32) slowRead).slowFull = true) ∧
    (let m := boxMessage 1 1 2 0x1000 1 []
     sopHeard (waiting 1) m ∧ SopPasses (boxed (waiting 1) m) 1 m ∧ (boxed (waiting 1) m).sopSlow 1 m = false ∧
      (boxed (waiting 1) m).sopBehind 1 m = true) ∧
    open1.sop.slow = [] ∧
    (let payload := toBe 8 0 ++ toBe 2 32 ++ [0, 0]
     let s := waitingRegion 4 0xB050 payload
     let m := boxMessage 4 1 2 0xB050 1 payload
     s.sop.slow.map (fun x => (x.opcode, x.message)) = [(4, m)] ∧ m.payload.length = 12 ∧ beAt m.payload 0 8 = 0 ∧
      beAt m.payload 8 2 = 32 ∧ sopAllowed 4 m = true ∧
      (open1.admits (.domainRead 0 32) m.index.toNat m.sub.toNat).toOption.isSome = true) ∧
    ((waiting 1).sop.slow = [{ atelier := true, opcode := 1, message := slowRead, key := none, epoch := 1 }] ∧ slowRead.payload = [] ∧
      sopAllowed 1 slowRead = true ∧ (open1.admits .read slowRead.index.toNat slowRead.sub.toNat).toOption.isSome = true) ∧
    (open1.sop.sessions.getD (0 : Fin 8).val .free).isOpen = true ∧
    (let s := live.put Obj.sopIpv4Address 0x0A000001
     s.boot.powered = true ∧ s.fenced (0x5B3 + 1) = false ∧ beNat (toBe 4 (s.obj? Obj.sopIpv4Address)) ≠ 0 ∧
      [0, 0, 0, 0] ≠ toBe 4 (s.obj? Obj.sopIpv4Address)) ∧
    (let s := live.put Obj.sopIpv6Address 1
     beNat (toBe 16 (s.obj? Obj.sopIpv6Address)) ≠ 0 ∧ [] ≠ toBe 16 (s.obj? Obj.sopIpv6Address)) := by
  refine ⟨⟨by unfold sopHeard; decide +kernel, passes_spec (by decide +kernel), by decide +kernel⟩,
    ⟨by unfold sopHeard; decide +kernel, passes_spec (by decide +kernel), by decide +kernel⟩,
    ⟨by unfold sopHeard; decide +kernel, passes_spec (by decide +kernel), by decide +kernel⟩, ?_⟩
  decide +kernel

/-- A window placed on the first byte of a region. -/
def windowed (index : Nat) : State := open1.put (Obj.windowObject 0) (index * 256 + 1)

/-- PcieWindows: BAR0 with direct access on and off, an object that is not there, and the last slot of a Plinth register. -/
theorem witness_bar0 :
    (open1.pcieReached = true ∧ (0 : BitVec 27).toNat % 8 = 0 ∧ 8 ∈ [1, 2, 4, 8] ∧ open1.directOn = true ∧
      (open1.admits .read 0x1000 1).toOption.isSome = true ∧ open1.slowAccess .read 0x1000 1 = false ∧ open1.slowFull = false) ∧
    ((open1.admits .read 0xFFFF 0xFF).toOption.isNone = true ∧ (live.put Obj.pcieDirectEnable 0).pcieReached = true ∧
      (live.put Obj.pcieDirectEnable 0).obj? Obj.pcieDirectEnable = 0) ∧
    (plinthOpen open1 ∧ ((0x1113, 2, 8) : Nat × Nat × Nat) ∈ [(0x1100, 4, 4), (0x1100, 6, 2), (0x1110, 1, 4), (0x1111, 1, 4),
      (0x1112, 1, 4), (0x1113, 1, 4), (0x1110, 2, 8), (0x1111, 2, 8), (0x1112, 2, 8), (0x1113, 2, 8)] ∧ (toBe 8 0).length = 8) := by
  unfold plinthOpen
  decide +kernel

/-- PcieWindows: BAR2 on a region of the Plinth, on one that is not there, and on the two rings the host writes. -/
theorem witness_bar2 :
    ((windowed 0xB050).pcieReached = true ∧ (windowed 0xB050).window 0 = (0xB050, 1, 0) ∧ windowOctets 0xB050 1 = none ∧
      (windowed 0xB050).directOn = true ∧ ((windowed 0xB050).admits (.domainRead 0 32) 0xB050 1).toOption.isSome = true ∧
      (windowed 0xB050).slowFull = false) ∧
    ((windowed 0xFFFE).window 0 = (0xFFFE, 1, 0) ∧ windowOctets 0xFFFE 1 = none ∧
      ((windowed 0xFFFE).admits (.domainRead 0 32) 0xFFFE 1).toOption.isNone = true) ∧
    (fastOpen (windowed 0xB080) ∧ (windowed 0xB080).window 64 = (0xB080, 1, 64) ∧ 64 + 32 ≤ (windowed 0xB080).regionSize 0xB080 1 ∧
      64 % 32 = 0 ∧ 32 % 32 = 0 ∧ (windowed 0xB080).ringHolds 8 (64 / 32) = false ∧
      ((windowed 0xB080).put (Obj.ringHead 8) 3).ringHolds 8 (64 / 32) = true) ∧
    (let s := (waitingRegion 5 0xA000 (toBe 8 0 ++ toBe 2 16 ++ [0, 0] ++ toBe 16 0)).put (Obj.windowObject 0) (0xA000 * 256 + 1)
     s.pcieReached = true ∧ s.window 0 = (0xA000, 1, 0) ∧ windowOctets 0xA000 1 = none ∧ s.directOn = true ∧
      (s.admits (.domainWrite 0 (toBe 16 5)) 0xA000 1).toOption.isSome = true ∧ s.domainWriteWaits 0xA000 1 = true ∧
      concurrentCase 0xA000 1 = some "UB-CNT-1") ∧
    (fastOpen (windowed 0xB090) ∧ (windowed 0xB090).window 0 = (0xB090, 1, 0) ∧ 0 + 64 ≤ (windowed 0xB090).regionSize 0xB090 1 ∧
      0 % 64 = 0 ∧ 64 % 64 = 0) := by
  unfold fastOpen plinthOpen
  decide +kernel

/-- A NOP placed in MBOX_REQUEST. -/
def boxedNop : State :=
  open1.putBytes mailboxKey 0 (sopSigned (boxMessage 0x12 1 2 0 0 []) 0x12 ++ (boxMessage 0x12 1 2 0 0 []).trailer)

/-- PcieWindows: the mailbox with a message of 20 bytes, lengths at both ends, and a busy mailbox. -/
theorem witness_mailbox :
    (boxedNop.pcieReached = true ∧ boxedNop.sop.mboxBusy = false ∧ 16 ≤ 20 ∧ 20 ≤ 0x800 ∧
      beAt (boxedNop.bytes mailboxKey 0 20) 1 1 = 0x12 ∧ (parseSop (boxedNop.bytes mailboxKey 0 20)).payload = []) ∧
    SopPasses (boxed boxedNop (parseSop (boxedNop.bytes mailboxKey 0 20))) 0x12 (parseSop (boxedNop.bytes mailboxKey 0 20)) ∧
    ((15 : BitVec 32).toNat % 65536 < 16 ∧ 0x800 < (0x801 : BitVec 32).toNat % 65536) ∧
    (let s := { open1 with sop := { open1.sop with mboxBusy := true } }
     s.pcieReached = true ∧ s.sop.mboxBusy = true) ∧ (0x7FF : BitVec 13).toNat < 0x800 :=
  ⟨by decide +kernel, passes_spec (by decide +kernel), by decide +kernel, by decide +kernel, by decide +kernel⟩


/-! ### Witnesses: the ingress half -/

/-- A frame that waits for injection into pipe 0, which runs, at a place of its window. -/
def injected (window : Nat) : State :=
  { (linked 0 5).setPipe 0 (fun x => { x with window := window }) with frames := [{ held 5 with source := .host, loc := .inject 0 }], nextId := 6 }


/-- A command record at TAIL of ring 8. -/
def ringed (s : State) (r : Nat) : State := (s.put (Obj.ringHead 8) 1).putBytes (Obj.ringRecords 8) 0 (toBe 32 r)

/-- The exact-match command record of a MAC key: its opcode, VERSIONED and RESULT. -/
def emRecord (op versioned result : Nat) : Nat := op * 2 ^ 248 + versioned * 2 ^ 247 + 5 * 2 ^ 219 + 7 * 2 ^ 40 + result

/-- The unit of that key in copy 0, visible in slots. -/
def emUnit (visible : Nat) : EmUnit := { copy := 0, n := 0, visible := visible, keyType := 5, key := 7, result := 9 }

/-- With that unit. -/
def withUnit (visible : Nat) : State := { live with em := { live.em with units := [emUnit visible] } }

/-- With slot 1 BUILDING. -/
def building : State :=
  { live with versions := { live.versions with
      slots := live.versions.slots.set 1 { SlotSt.free with state := .building, number := 2 } } }


/-- SlotsAreGranted: a pipe that may not grant, one that offers nothing, and a frame whose walk fails with FAILURE_ACTION 0. -/
theorem witness_grants : live.grants 0 = false ∧ ((injected 15).grants 0 = true ∧ ((injected 15).pipe 0).slotsIn < 2) ∧
    2 ≤ (((injected 15).setPipe 0 fun x => { x with slotsIn := 2 }).pipe 0).slotsIn ∧ (linked 0 5).slotFrame 0 = none ∧
    slotPreference ((injected 15).pipe 0).window = [.injection, .atelier, .front, .recirculation] ∧
    (injected 15).dictWf = true ∧
    (match (injected 15).slotFrame 0 with
     | some f => match ((injected 15).beginPass f 0).frame? f.id with
       | some g => decide (g.replayed = false ∧ g.kept = none ∧ g.resume = none ∧ g.latched.failureAction = 0) &&
          (match g.failure (((injected 15).beginPass f 0).parseFrame g) with
            | some c => c.code == 0x20
            | none => false)
       | none => false
     | none => false) = true := by decide +kernel

/-- Copy B of the graph with a template whose transitions end at 513, or 512. -/
def overrun (count : Nat) : State := live.putBytes Obj.templatesB 0 (toBe 16 (2 ^ 127 + 511 * 2 ^ 42 + count * 2 ^ 38))

/-- Copy B of the graph with one template: a terminal one of Ethernet's class, of a fixed length. -/
def shaped (fixed : Nat) : State := live.putBytes Obj.templatesB 0 (toBe 16 (2 ^ 127 + 2 ^ 123 + 2 ^ 121 + fixed * 2 ^ 110))

/-- Frame 5 with its tail, a region end, and a place. -/
def late (action : Nat) (region : Nat) (loc : FrameLoc) (code : Option Nat) : State :=
  { live with nextId := 6, frames := [{ held 5 with
      loc := loc, late := code, lateRegion := some region, tail := some (wire 0x800 []),
      latched := { (held 5).latched with failureAction := action } }] }

/-- GraphAndTailCommands: transitions that end at the table's end and one past it; a frame that just reaches and just misses its region's
end, under each FAILURE_ACTION; a frame with and without cells. -/
theorem witness_graph :
    (fastOpen live ∧ (1 : BitVec 8).toNat ≤ 1 ∧ live.graphOverruns true = false ∧ (overrun 1).graphOverruns true = false ∧
      live.graphMisfits true = false ∧ (shaped 14).graphMisfits true = false ∧
      fastOpen (shaped 15) ∧ (shaped 15).graphOverruns true = false ∧ (shaped 15).graphMisfits true = true ∧
      fastOpen (overrun 2) ∧ (overrun 2).graphOverruns true = true ∧ 1 < (2 : BitVec 8).toNat) ∧
    (live.graphBusy true = false ∧
      (({ live with frames := [{ held 5 with graphB := true, loc := .recirc 0 }] } : State).graphBusy true = true ∧
        fastOpen { live with frames := [{ held 5 with graphB := true, loc := .recirc 0 }] })) ∧
    live.frame? 5 = none ∧
    (((late 0 60 .copies none).frame? 5).map (fun f => (f.tail.isSome, f.fallsShort 64)) = some (true, false) ∧
      ((late 2 61 .copies none).frame? 5).map (fun f => (f.fallsShort 64, f.latched.failureAction)) = some (true, 2) ∧
      ((late 1 61 .copies none).frame? 5).map (fun f => (f.fallsShort 64, f.latched.failureAction, decide (f.loc ≠ .ending))) =
        some (true, 1, true) ∧
      ((late 0 61 .ending (some 0x40)).frame? 5).map (fun f => (f.fallsShort 64, f.latched.failureAction, f.loc, f.late.getD 0)) =
        some (true, 0, .ending, 0x40)) ∧
    ((stamped none).frame? 5).map (fun f => (f.tail, f.complete, f.cells)) = some (none, true, []) ∧
    ((({ live with frames := [{ held 5 with complete := false, cells := [3] }] } : State).frame? 5).map fun f =>
      (f.complete, f.cells)) = some (false, [3]) := by
  unfold fastOpen plinthOpen
  decide +kernel

/-! ### Witnesses: tables and versions -/

/-- With an immediate INSERT of that key under way, as yet to write the copies given, copy 0 at a place. -/
def writing (s : State) (copies : List Nat) (place : Nat) : State :=
  let c := tableCommand (emRecord 1 0 3)
  let w : EmWriting := { command := c, slot := 0, copies := copies, places := [(0, place)], moves := 0, logged := false }
  { s with em := { s.em with writing := some w } }

/-- RingsAreServed: a ring with room and a full one, ring 8 empty, stopped, with a known opcode and with an unknown one. -/
theorem witness_records : live.ringFull 0 = false ∧ live.dictWf = true ∧ 255 < 256 ∧
    ((live.put (Obj.ringHead 0) (2 ^ 31)).ringFull 0 = true ∧ (live.put (Obj.ringHead 0) (2 ^ 31)).dictWf = true) ∧
    live.ringEmpty 8 = true ∧ ({ live with versions := { live.versions with aborting := some 3 } } : State).ring8Stopped = true ∧
    (writing live [1] 0).em.writing.isSome = true ∧
    (let s := ringed live (emRecord 1 0 0)
     s.ready = true ∧ s.ringEmpty 8 = false ∧ s.ringFull 3 = false ∧ s.ring8Stopped = false ∧ s.em.writing = none ∧ s.dictWf = true ∧
      tableOpcode (bits (beNat (s.ringFront 8)) 255 248) = true ∧ bits (beNat (s.ringFront 8)) 255 248 ≠ 2) ∧
    tableOpcode (bits (beNat ((ringed live 0).ringFront 8)) 255 248) = false ∧ Obj.ringHead 8 ≠ Obj.ringTail 8 := by decide +kernel

/-- With slot 1 BUILDING and that unit. -/
def both (visible : Nat) : State := { building with em := (withUnit visible).em }

/-- The error of an outcome. -/
def errorOf (e : Except Nat Nat) : Option Nat :=
  match e with
  | .error c => some c
  | .ok _ => none

/-- A record at ring 8's TAIL reaches its command. -/
def serves (s : State) (r : Nat) : Bool := (ringed s r).tableRecord == some r

/-- ExactMatchCommands: a refused record, a key that is there and one that is not, immediate and versioned; a command that writes its
last copy, and one that has another to write. -/
theorem witness_em :
    (serves live (emRecord 1 0 (2 ^ 37)) = true ∧
      errorOf (((ringed live (emRecord 1 0 (2 ^ 37))).ringTake 8).checkWrite (tableCommand (emRecord 1 0 (2 ^ 37)))) = some 4) ∧
    (let c := tableCommand (emRecord 1 0 3)
     let u := (ringed (withUnit 7) (emRecord 1 0 3)).ringTake 8
     serves (withUnit 7) (emRecord 1 0 3) = true ∧ bits (emRecord 1 0 3) 255 248 = 1 ∧ (u.checkWrite c).toOption = some 0 ∧
     u.keyVisible c 0 = true) ∧
    (let c := tableCommand (emRecord 1 0 3)
     let u := (ringed live (emRecord 1 0 3)).ringTake 8
     (u.checkWrite c).toOption = some 0 ∧ u.keyVisible c 0 = false ∧ (u.logFor c 0).isSome = true ∧
      (u.emPlaces c.keyType c.key [0, 1, 2, 3]).2.1.isSome = true) ∧
    (∀ op ∈ [2, 3], let c := tableCommand (emRecord op 0 3)
      let u := (ringed (withUnit 7) (emRecord op 0 3)).ringTake 8
      serves (withUnit 7) (emRecord op 0 3) = true ∧ bits (emRecord op 0 3) 255 248 = op ∧ (u.checkWrite c).toOption = some 0 ∧
        u.keyVisible c 0 = true ∧ c.versioned = false) ∧
    (∀ op ∈ [2, 3], let c := tableCommand (emRecord op 0 3)
      let u := (ringed live (emRecord op 0 3)).ringTake 8
      (u.checkWrite c).toOption = some 0 ∧ u.keyVisible c 0 = false) ∧
    (∀ op ∈ [5, 6], ∀ s ∈ [live, withUnit 7], let c := tableCommand (emRecord op 0 0)
      let u := (ringed s (emRecord op 0 0)).ringTake 8
      serves s (emRecord op 0 0) = true ∧ bits (emRecord op 0 0) 255 248 = op ∧ u.keyGood c.keyType c.key = true ∧
        (u.targetSlot c).toOption = some 0) ∧
    (let c := tableCommand (emRecord 2 1 3)
      let u := (ringed (both 7) (emRecord 2 1 3)).ringTake 8
      serves (both 7) (emRecord 2 1 3) = true ∧ (u.checkWrite c).toOption = some 1 ∧ u.keyVisible c 1 = true ∧
        ([0, 1, 2, 3].filter fun q => (u.copyUnits q c.keyType c.key).any (c.succeeds 1)) = [0]) ∧
    (∀ v ∈ [2, 7], let c := tableCommand (emRecord 3 1 3)
      let u := (ringed (both v) (emRecord 3 1 3)).ringTake 8
      serves (both v) (emRecord 3 1 3) = true ∧ (u.checkWrite c).toOption = some 1 ∧ u.keyVisible c 1 = true ∧
      (u.logFor c 1).isSome = true) ∧
    (∀ copies ∈ [[0], [0, 1]], let s := writing live copies 0
      (s.em.writing.map fun w => (w.copies, (s.writeCopy w 0).2.1)) = some (copies, true)) ∧
    ((live.keyUnits 5 7 = [] ∧ (List.range 4).filterMap (fun q => live.emFind q 0 5 7) = []) ∧ (withUnit 7).keyUnits 5 7 ≠ [] ∧
      (List.range 4).filterMap (fun q => (withUnit 7).emFind q 0 5 7) = [emUnit 7]) := by decide +kernel

/-- The log of the building version, full, beside that unit. -/
def logFull : State :=
  { both 7 with versions := { building.versions with
      slots := building.versions.slots.set 1 { SlotSt.free with
        state := .building, number := 2, log := List.replicate 1048576 (.rule 0 0) } } }

/-- ExactMatchCommands: a versioned command finds the log full. -/
theorem witness_log : ∀ op ∈ [1, 2, 3], logFull.logFor (tableCommand (emRecord op 1 3)) 1 = none ∧
    (both 7).keyVisible (tableCommand (emRecord op 1 3)) 1 = true ∧ logFull.em = (both 7).em := by
  intro op hop
  refine ⟨?_, by revert op; decide +kernel, rfl⟩
  have slot : (logFull.slot 1).log = List.replicate 1048576 (.rule 0 0) := rfl
  have absent : (List.replicate 1048576 (LogKey.rule 0 0)).contains (.unit 5 7) = false := by
    rw [List.contains_replicate]; decide
  simp only [State.logFor, State.logChange, slot]
  have fields : ∀ op ∈ [1, 2, 3], (tableCommand (emRecord op 1 3)).keyType = 5 ∧ (tableCommand (emRecord op 1 3)).key = 7 ∧
      (tableCommand (emRecord op 1 3)).versioned = true := by decide +kernel
  obtain ⟨type, key, versioned⟩ := fields op hop
  rw [type, key, versioned, absent, List.length_replicate]
  rfl

/-- Four quadrants with bank 0 BINARY, and a rule in it visible as given. -/
def binary (visible : Nat) : State :=
  let s := [0, 1, 2, 3].foldl (fun (s : State) q => s.putBytes (Obj.bankConfig q) 0 (toBe 32 0)) live
  let r : Rule := { bank := 0, position := 5, visible := visible, key := 0, care := 0, result := 1, homeBank := 0, homeIndex := 5,
                    member := 0 }
  if visible = 0 then s else { s with relief := { s.relief with table := [r], shadows := [(0, r)], arrays := [(0, r)] } }

/-- A Relief command record for bank 0 and position 5. -/
def ruleRecord (op : Nat) : Nat := op * 2 ^ 248 + 5 * 2 ^ 209

/-- Quadrant 0 with every bank BINARY, and bank 0 re-homed with no guest. -/
def roomless : State := ((binary 0).putBytes (Obj.bankConfig 0) 0 (List.replicate 1024 0)).putBank 0 0 { state := 2, guests := [], taken := none }

/-- RuleAndVersionCommands: rules written, refused, deleted and read. -/
theorem witness_rules :
    (∀ op ∈ [0x10, 0x11, 0x12], serves live (ruleRecord op) = true ∧ bits (ruleRecord op) 255 248 = op ∧
      ((ringed live (ruleRecord op)).ringTake 8).ruleGroup (ruleCommand (ruleRecord op)) = none) ∧
    (∀ s ∈ [binary 0, roomless], let c := ruleCommand (ruleRecord 0x10)
      let u := (ringed s (ruleRecord 0x10)).ringTake 8
      serves s (ruleRecord 0x10) = true ∧ u.ruleGroup c = some 1 ∧ u.imagesGood c 1 = true ∧ (u.ruleWriteVisible c).toOption = some 7 ∧
        c.versioned = false) ∧
    (let x : Rule := { bank := 0, position := 5, visible := 7, key := 0, care := 0, result := 0, homeBank := 0, homeIndex := 5, member := 0 }
     ((binary 0).writeRule [x]).isSome = true ∧ (roomless.writeRule [x]).isNone = true) ∧
    (∀ v ∈ [7, 1], let c := ruleCommand (ruleRecord 0x11)
      let u := (ringed (binary v) (ruleRecord 0x11)).ringTake 8
      serves (binary v) (ruleRecord 0x11) = true ∧ u.ruleGroup c = some 1 ∧ (u.ruleAt c.bank c.index).map Rule.visible = some v ∧
        c.versioned = false ∧ bit v u.currentSlot = true) ∧
    (let c := ruleCommand (ruleRecord 0x12)
     let u := (ringed (binary 7) (ruleRecord 0x12)).ringTake 8
     serves (binary 7) (ruleRecord 0x12) = true ∧ u.ruleGroup c = some 1 ∧ u.ruleSlot c = some 0 ∧
      (u.ruleAt c.bank c.index).map (fun x => bit x.visible 0) = some true) := by decide +kernel

/-- A record of a version command: with no flag, with NOWAIT, and one that breaks its field map. -/
def versionRecord (op noWait : Nat) : Nat := op * 2 ^ 248 + noWait * 2 ^ 223

/-- Slots with states as given. -/
def slotted (a b c : SlotState) (commit : Commit) (aborting : Option Nat) : State :=
  { live with versions :=
      { slots := [{ SlotSt.free with state := a }, { SlotSt.free with state := b }, { SlotSt.free with state := c }], commit := commit,
        aborting := aborting } }

/-- RuleAndVersionCommands: the version commands, from each set of slot states. -/
theorem witness_versions :
    (∀ op ∈ [0x20, 0x21, 0x22], serves live (versionRecord op 0 + 1) = true ∧ versionRecordGood (versionRecord op 0 + 1) = false) ∧
    (∀ op ∈ [0x20, 0x21, 0x22], ∀ s ∈ [live, building, slotted .current .building .draining .none none, slotted .current .draining .retiring .none none],
      serves s (versionRecord op 0) = true ∧ bits (versionRecord op 0) 255 248 = op ∧ versionRecordGood (versionRecord op 0) = true) ∧
    (live.buildingSlot = none ∧ live.slotIn .free = some 1 ∧ building.buildingSlot = some 1 ∧ building.slotIn .free = some 2) ∧
    ((slotted .current .draining .retiring .none none).buildingSlot = none ∧
      (slotted .current .draining .retiring .none none).slotIn .free = none) ∧
    ((slotted .current .building .draining .none none).buildingSlot = some 1 ∧
      (slotted .current .building .draining .none none).slotIn .free = none) ∧
    bit (versionRecord 0x21 1) 223 = true ∧ bit (versionRecord 0x21 0) 223 = false ∧ versionRecordGood (versionRecord 0x21 1) = true := by
  decide +kernel

/-- A slot that drains with a count, at an age in core clocks, and its frames. -/
def draining (count age : Nat) (frames : List Frame) : State :=
  { slotted .draining .current .free .none none with
    clock := age, frames := frames,
    versions := { slots := [{ SlotSt.free with state := .draining, inFlight := count }, { SlotSt.free with state := .current }, .free],
                  commit := .none, aborting := none } }

/-- VersionsPassOn. -/
theorem witness_passing :
    (let s := slotted .current .building .free .none (some 3)
     s.versions.aborting = some 3 ∧ s.buildingSlot = some 1) ∧
    (let s := slotted .current .building .free (.pending 3) none
     s.versions.commit = .pending 3 ∧ s.slotIn .free = some 2 ∧ fastOpen s ∧ s.fenced 0x5B9 = false) ∧
    (let s := slotted .current .building .priming (.priming 3) none
     s.versions.slots.length = 3 ∧ s.versions.commit = .priming 3 ∧ s.buildingSlot = some 1 ∧ s.slotIn .priming = some 2 ∧
      s.currentSlot = 0 ∧ (1 : Nat) ≠ 2 ∧ 0 ≠ 1 ∧ 0 ≠ 2 ∧ 2 < 3 ∧ s.dictWf = true ∧ fastOpen s) ∧
    live.versions.commit = .none ∧
    (((draining 0 0 []).slot 0).state = .draining ∧ ((draining 0 0 []).slot 0).inFlight = 0 ∧ ((draining 1 0 []).slot 0).inFlight ≠ 0) ∧
    ((slotted .retiring .current .free .none none).slot 0).state = .retiring := by
  unfold fastOpen plinthOpen
  decide +kernel

/-- VersionsPassOn: a slot just young enough for SLOT_AUDIT and one just too old, whose frame is found, and whose is not. -/
theorem witness_audit :
    (let limit := (live.obj? Obj.staleAgeMs + 2) * 1000000 * 8 / 5
     let young := draining 1 limit []
     let old := draining 1 (limit + 2) []
     let found := draining 1 (limit + 2) [{ held 5 with stamp := some 0, loc := .recirc 0 }]
     ((young.clock - (young.slot 0).entered) * 5 / 8 ≤ (young.obj? Obj.staleAgeMs + 2) * 1000000) ∧
      ((old.slot 0).state = .draining ∧ (old.obj? Obj.staleAgeMs + 2) * 1000000 < (old.clock - (old.slot 0).entered) * 5 / 8 ∧
        (old.slot 0).inFlight ≠ 0 ∧ ((old.auditSlot 0).slot 0).inFlight ≠ 0) ∧
      ((found.slot 0).inFlight ≠ 0 ∧ ((found.auditSlot 0).slot 0).inFlight = 0)) ∧ live.ready = true := by
  decide +kernel

/-- A place of copy 3 that is corrupt, the last bucket. -/
def corrupt (lost : Bool) : State :=
  let place := 3 * 2 ^ 22 + 63 * 32768 + 8191 * 4
  { live with em := { live.em with corrupt := [place], imageLost := if lost then [place] else [] } }

/-- No stripe is lost, wherever the image lies. -/
theorem stripe_kept (s : State) (h : s.boot.striped = 0) (n : Nat) : s.stripeLost n = false := by
  simp [State.stripeLost, h, bit]

/-- TablesAreKeptUp: the image of every place can be read. -/
theorem witness_image (n : Nat) : (corrupt false).imageLost 3 n = false := by
  simp only [State.imageLost, stripe_kept (corrupt false) rfl, Bool.or_false]; rfl

/-- Quadrant 0 with bank 0 lost. -/
def lostBank : State := (binary 7).putBank 0 0 { state := 1, guests := [], taken := none }

/-- A learn event ready, and an entry of the cache for its address. -/
def learning (port : Nat) (cached : Bool) : State :=
  let l : Learn := { frame := 5, pipe := 0, miss := true, port := port, entryPort := 0, bd := 1, mac := 2, vlan := none, slot := 0,
                     time := 0, ready := some 0 }
  let index := live.hash1 0 5 (field 64 1 + 2) % 1024
  let cache := if cached then [Dedupe.mk index 0 1 2 9 0] else []
  { live with em := { live.em with learns := [l], dedupe := cache } }

/-- The live entry of the cache for a ready learn event. -/
def cachedFor (s : State) : Option Nat :=
  (nextLearn s.em.learns).bind fun l =>
    ((s.em.dedupe.find? fun e => e.set == s.hash1 0 5 (field 64 l.bd + l.mac) % 1024 && e.bd == l.bd && e.mac == l.mac && s.dedupeLive e).map
      fun e => e.port)

/-- TablesAreKeptUp: the entry of the cache is found, whatever the seed. -/
theorem witness_cached (p : Nat) : cachedFor (learning p true) = some 9 := by
  have lives : decide ((0 : Nat) * 5 / 8 < 0 + live.obj? Obj.learnDedupeUs * 1000) = true := by decide +kernel
  have us : (learning p true).obj? Obj.learnDedupeUs = live.obj? Obj.learnDedupeUs := rfl
  have clock : (learning p true).clock = 0 := rfl
  have index : (learning p true).hash1 0 5 (field 64 1 + 2) % 1024 = live.hash1 0 5 (field 64 1 + 2) % 1024 := rfl
  have learns : nextLearn (learning p true).em.learns =
    some (Learn.mk 5 0 true p 0 1 2 none 0 0 (some 0)) := rfl
  have cache : (learning p true).em.dedupe = [Dedupe.mk (live.hash1 0 5 (field 64 1 + 2) % 1024) 0 1 2 9 0] := rfl
  simp only [cachedFor, learns, Option.bind_some, cache, index, List.find?_cons, State.dedupeLive, us, clock, lives, beq_self_eq_true,
    Bool.and_self, Option.map_some]

/-- TablesAreKeptUp. -/
theorem witness_upkeep :
    (live.ready = true ∧ (corrupt false).ready = true ∧ emPlaceKey (.bucket 63 8191) = 63 * 32768 + 8191 * 4 ∧
      (corrupt false).emCorrupt 3 (63 * 32768 + 8191 * 4) = true ∧ (corrupt false).em.imageLost = [] ∧
      (corrupt true).imageLost 3 (63 * 32768 + 8191 * 4) = true ∧ live.emCorrupt 3 0 = false) ∧
    (lostBank.bankLost 0 0 = true ∧ live.bankLost 3 31 = false ∧ lostBank.dictWf = true ∧
      (lostBank.guestPlan 0 (bankLead (lostBank.bankInForce 0 0) 0) (lostBank.shadowEntries 0 (bankLead (lostBank.bankInForce 0 0) 0))
        true).isSome = true) ∧
    (State.reset.ready = false ∧ live.relief.suspended.contains (32 * 3 + 31) = false ∧
      ({ live with relief := { live.relief with suspended := [127] } } : State).relief.suspended.contains (32 * 3 + 31) = true) ∧
    nextLearn live.em.learns = none ∧
    (nextLearn (learning 9 true).em.learns).map Learn.port = some 9 ∧
    ((nextLearn (learning 8 true).em.learns).map Learn.port = some 8 ∧
      ((learning 8 true).put (Obj.ringHead 0) (2 ^ 31)).ringFull 0 = true) ∧
    (cachedFor (learning 8 false) = none ∧ (learning 8 false).ringFull 0 = false) := by decide +kernel


/-- A wide unit of copy 0 in the overflow store. -/
def overflowUnit (j : Nat) : EmUnit := { copy := 0, n := overflowBase + 2 * j, visible := 7, keyType := 2, key := j, result := 0 }

/-- Copy 0 with every bank fenced. -/
def fencedCopy (s : State) : State :=
  let fence : UnitSt := { fenced := true, pendingC := false, pendingU := false, cause := 0, faults := 1, shadowUntil := 0 }
  { s with faults := { s.faults with units := (List.range 64).map fun b => (0x280 + b, fence) } }

/-- The same with the overflow store full, by units of another key type. -/
def fullCopy (s : State) : State :=
  fencedCopy { s with em := { s.em with units := (List.range 8192).map overflowUnit ++ s.em.units } }

/-- No place is found where none is free. -/
theorem fitFrom_none (us : List EmUnit) (q w n k : Nat) (h : ∀ j, j < k → freeAt us q (n + w * j) = false) :
    fitFrom us q w n k = none := by
  induction k generalizing n with
  | zero => rfl
  | succ k ih =>
    have here := h 0 (by omega)
    rw [fitFrom, if_neg (by simp at here; simp [here])]
    exact ih (n + w) fun j hj => by simpa [Nat.mul_add, Nat.add_assoc, Nat.add_comm w] using h (j + 1) (by omega)

/-- The overflow store of copy 0 is full. -/
theorem full_overflow (u : State) (h : ∀ j, j < 8192 → overflowUnit j ∈ u.em.units) : u.overflowRoom 0 1 = none := by
  apply fitFrom_none
  intro j hj
  have bound : j < 16384 := by have := Nat.min_le_left (16384 / 1) (u.overflowInUse 0 + 1); omega
  rw [freeAt, List.all_eq_false]
  refine ⟨overflowUnit (j / 2), h _ (by omega), ?_⟩
  have width : (overflowUnit (j / 2)).width = 2 := rfl
  have low : (overflowUnit (j / 2)).n = overflowBase + 2 * (j / 2) := rfl
  simp only [EmUnit.fills, width, low, Bool.not_eq_true, Bool.not_eq_false', Bool.and_eq_true, decide_eq_true_eq]
  exact ⟨⟨rfl, by omega⟩, by omega⟩

/-- A unit of the full overflow store. -/
theorem full_unit (s : State) (j : Nat) (h : j < 8192) : overflowUnit j ∈ (fullCopy s).em.units :=
  List.mem_append_left _ (List.mem_map.2 ⟨j, List.mem_range.2 h, rfl⟩)

/-- Every bank of copy 0 is fenced, so no bucket has room. -/
theorem fenced_bank (u : State) (h : u.faults.units = (fencedCopy live).faults.units) (b : Nat) (hb : b < 64 * 32768) :
    u.emBankFenced 0 b = true := by
  have all : (List.range 64).all (fun k => match Sparse.find? (fencedCopy live).faults.units (0x280 + k) with
    | some x => x.fenced
    | none => false) = true := by decide +kernel
  have := List.all_eq_true.1 all (b / 32768) (List.mem_range.2 (by omega))
  rw [State.emBankFenced, State.fenced, h]
  exact this

/-- A search from no bucket finds no chain. -/
theorem none_searched (u : State) (q depth fuel budget : Nat) : u.searchChain q depth fuel budget [] = none := by
  cases fuel <;> rfl

/-- A narrow key goes to the overflow store there. -/
theorem fenced_place (u : State) (h : u.faults.units = (fencedCopy live).faults.units) (key : Nat) :
    u.emPlace 0 5 key = (u, u.overflowRoom 0 1, 0) := by
  have low : u.bucket1 0 5 key < 64 * 32768 := by simp only [State.bucket1, bits]; omega
  have high : u.bucket2 0 5 key < 64 * 32768 := by simp only [State.bucket2, bits]; omega
  have one := fenced_bank _ h _ low
  have two := fenced_bank _ h _ high
  simp only [State.emPlace, State.directPlace, State.bucketRoom, State.roomAmong, one, two, if_true, List.append_nil, none_searched]
  rfl

/-- ExactMatchCommands: an INSERT finds the copy full. -/
theorem witness_full :
    let c := tableCommand (emRecord 1 0 3)
    let s := fullCopy (ringed live (emRecord 1 0 3))
    let u := s.ringTake 8
    s.tableRecord = some (emRecord 1 0 3) ∧ bits (emRecord 1 0 3) 255 248 = 1 ∧ u.checkWrite c = .ok 0 ∧ u.keyVisible c 0 = false ∧
      u.logFor c 0 = some u ∧ u.emPlaces c.keyType c.key [0, 1, 2, 3] = (u, none, 0) := by
  intro c s u
  have record : s.tableRecord = (ringed live (emRecord 1 0 3)).tableRecord := rfl
  have type : c.keyType = 5 := by decide +kernel
  have units : u.em.units = (List.range 8192).map overflowUnit := List.append_nil _
  have none : ∀ key, u.keyUnits 5 key = [] := by
    intro key
    rw [State.keyUnits, units, List.filter_eq_nil_iff]
    intro x hx
    obtain ⟨j, -, rfl⟩ := List.mem_map.1 hx
    simp [overflowUnit]
  have good : u.keyGood = ((ringed live (emRecord 1 0 3)).ringTake 8).keyGood := rfl
  have slot : u.targetSlot = ((ringed live (emRecord 1 0 3)).ringTake 8).targetSlot := rfl
  have plain : c.versioned = false := by decide +kernel
  refine ⟨?_, by decide +kernel, ?_, ?_, ?_, ?_⟩
  · rw [record]; decide +kernel
  · have passes : (!((ringed live (emRecord 1 0 3)).ringTake 8).keyGood c.keyType c.key ||
        (c.op < 3 && 1 < bits c.result 39 36)) = false := by decide +kernel
    have target : ((ringed live (emRecord 1 0 3)).ringTake 8).targetSlot c = .ok 0 := by
      rw [State.targetSlot, plain, if_neg (by decide), show ((ringed live (emRecord 1 0 3)).ringTake 8).currentSlot = 0 by decide +kernel]
    rw [State.checkWrite, good, slot, passes, target, type, none, if_neg (by decide)]
    rfl
  · simp only [State.keyVisible, type, none]; rfl
  · rw [State.logFor, plain, if_neg (by decide)]
  · rw [type, State.emPlaces, fenced_place u rfl, full_overflow u (full_unit _)]

/-- A versioned MODIFY of that unit at ring 8's TAIL, once it is taken and logged. -/
def modifying : State :=
  let c := tableCommand (emRecord 2 1 3)
  (((ringed (both 7) (emRecord 2 1 3)).ringTake 8).logFor c 1).getD live

/-- ExactMatchCommands: a versioned MODIFY finds room in the overflow store, or the copy full; a copy that is written finds no place. -/
theorem witness_places :
    ((fencedCopy modifying).emPlaces 5 7 [0] = (fencedCopy modifying, some [(0, overflowBase)], 0)) ∧
    ((fullCopy modifying).emPlaces 5 7 [0] = (fullCopy modifying, none, 0)) ∧
    (let s := fullCopy (writing live [0] overflowBase)
      ∀ w, s.em.writing = some w → s.writeCopy w 0 = (s, false, 0)) := by
  have room : (fencedCopy modifying).overflowRoom 0 1 = some overflowBase := by decide +kernel
  refine ⟨?_, ?_, ?_⟩
  · rw [State.emPlaces, fenced_place (fencedCopy modifying) rfl, room]; rfl
  · rw [State.emPlaces, fenced_place (fullCopy modifying) rfl, full_overflow (fullCopy modifying) (full_unit _)]
  · intro s w h
    obtain rfl : _ = w := Option.some.inj h
    have type : (tableCommand (emRecord 1 0 3)).keyType = 5 := by decide +kernel
    have taken : s.placeHolds 0 overflowBase 1 = false := by
      have here : freeAt s.em.units 0 overflowBase = false := List.all_eq_false.2 ⟨overflowUnit 0, full_unit _ 0 (by decide), by decide⟩
      simp [State.placeHolds, here]
    have wide : (if wideKey 5 = true then 2 else 1) = 1 := rfl
    simp only [State.writeCopy, List.lookup, beq_self_eq_true, State.replan, type, wide, taken, Bool.false_eq_true, if_false,
      fenced_place s rfl, full_overflow s (full_unit _)]

/-! ### Witnesses: replication, spill, queues -/

/-- A copy of frame 5 in a place, for a group. -/
def copyAt (loc : CopyLoc) : Copy :=
  { id := 1, frame := 5, loc := loc, cls := 0, nextHop := none, group := some 0, voq := none, port := 0, returned := false, cast := false,
    edited := [], rewrite := none }

/-- Frame 5 with one copy in a place, at a clock. -/
def placed (loc : CopyLoc) (clock : Nat) : State := { live with clock := clock, nextId := 6, frames := [held 5], copies := [copyAt loc] }

/-- The same with group 0 as given, and one entry of the list. -/
def grouped (group entry : Nat) (clock : Nat) : State :=
  ((placed (.repl 0) clock).putBytes Obj.groupTable 0 (toBe 8 group)).putBytes Obj.replicationList 0 (toBe 8 entry)

/-- A group whose list is the store's last 4,096 entries, and one that goes one beyond its end. -/
def lastGroup (excess : Nat) : Nat := 2 ^ 63 + (1048576 - 4096 + excess) * 2 ^ 42 + 4096 * 2 ^ 29

/-- Frame 5 in a walk of group 3, of 9 entries, of which as many as given are read. -/
def walked (read : Nat) (copied : Bool) : State :=
  { live with frames := [{ held 5 with loc := .walking (3 * 2 ^ 64 + (2 ^ 63 + 9 * 2 ^ 29)) read, copied := copied }] }

/-- FramesAreReplicated. -/
theorem witness_cast :
    (live.ready = true ∧ live.castHead = none ∧ State.reset.ready = false) ∧
    (∀ e ∈ [(grouped (lastGroup 0) 0 0, false, true), (grouped (lastGroup 1) 0 0, false, false),
        (grouped (2 ^ 63 + 2 ^ 29) 0 0, false, true), (grouped (2 ^ 63) 0 0, false, false),
        (grouped 0 0 (2 * 10 ^ 9), true, false)],
      e.1.ready = true ∧ (e.1.castHead.map fun c => (c.id, c.group.getD 0, e.1.copyStale c)) = some (1, 0, e.2.1) ∧
        groupValid (e.1.groupEntry 0) = e.2.2) ∧
    (let entry := fun e => (grouped 0 e 0).record Obj.replicationList 8 0
     (live.frame? 5 = none ∧ (held 5).isRemote = false ∧ (held 5).isFront = true ∧ (held 5).port = 0 ∧
      ({ held 5 with source := .fabric 3 } : Frame).isRemote = true) ∧
      bit (entry 0) 63 = false ∧ (bit (entry (2 ^ 63 + 2 ^ 62)) 63 = true ∧ bit (entry (2 ^ 63 + 2 ^ 62)) 62 = true) ∧
      (bit (entry (2 ^ 63 + 2 ^ 41)) 63 = true ∧ bit (entry (2 ^ 63 + 2 ^ 41)) 62 = false ∧ bits (entry (2 ^ 63 + 2 ^ 41)) 47 41 = 1 ∧
        bits (entry (2 ^ 63)) 47 41 = 0)) ∧
    (live.walks = [] ∧ (∀ n ∈ [0, 8], (walked n false).walks = [{ frame := 5, group := 3, entry := 2 ^ 63 + 9 * 2 ^ 29, read := n }])) ∧
    ((walked 8 false).frames.find? (fun f => f.walk.any fun w => w.left == 0) = none ∧
      (∀ copied ∈ [true, false],
        (((walked 9 copied).frames.find? fun f => f.walk.any fun w => w.left == 0).map Frame.copied) = some copied)) ∧
    fastOpen live := by
  unfold fastOpen plinthOpen
  decide +kernel

/-- The first VOQ in the spill state, with a bin of one copy, open or not, of a channel. -/
def spilled (isOpen : Bool) : State :=
  let s := placed (.bin 0 0) 0
  { s with arm := { s.arm with spilled := [0], bins := [{ bin := 0, voq := 0, filled := 124, isOpen := isOpen, copies := [1] }] } }

/-- Units fenced. -/
def fencedUnits (first count : Nat) (s : State) : State :=
  { s with faults := { s.faults with units := (List.range count).map fun i =>
      (first + i, { fenced := true, pendingC := false, pendingU := false, cause := 0, faults := 1, shadowUntil := 0 }) } }

/-- With DDR5 channel 0 in use, of 16 GiB. -/
def withDdr5 (s : State) : State :=
  ({ s with boot := { s.boot with striped := 1, config := toBe 16 (16 * 2 ^ 40) } } : State).put Obj.ddr5ChannelsInUse 1

/-- SpillAndDdr5. -/
theorem witness_spill :
    (let staged := fun (s : State) => s.copies.find? Copy.isStaged
     staged live = none ∧
      (let s : State := { placed (.staged 0) 0 with frames := [{ held 5 with complete := false }] }
       staged s = some (copyAt (.staged 0)) ∧ (s.frame? 5).map Frame.complete = some false) ∧
      staged (placed (.staged 131071) 0) = some (copyAt (.staged 131071)) ∧ ((placed (.staged 131071) 0).frame? 5).isSome = true ∧
      ((placed (.staged 131071) 0).packBin 131071 1 8 (64 + (held 5).stored)).isSome = false ∧
      ((withDdr5 (placed (.staged 131071) 0)).packBin 131071 1 8 (64 + (held 5).stored)).isSome = true) ∧
    ((live.voqBins 131071).find? (fun b => b.isOpen) = none ∧
      ((spilled true).voqBins 0).find? (fun b => b.isOpen) =
        some { bin := 0, voq := 0, filled := 124, isOpen := true, copies := [1] }) ∧
    (live.arm.spilled.findSome? live.returnable = none ∧ ((spilled false).arm.spilled.findSome? (spilled false).returnable).isSome = true ∧
      (let b := { bin := 0, voq := 0, filled := 124, isOpen := false, copies := [1] }
       ((spilled false).returnCopies b ((spilled false).endingIn b)).2 = [] ∧
        ((fencedUnits 0x400 32 (spilled false)).returnCopies b ((fencedUnits 0x400 32 (spilled false)).endingIn b)).2 = [1] ∧
        ((spilled false).returnCopy b 1).2 = true ∧ ((fencedUnits 0x400 32 (spilled false)).returnCopy b 1).2 = false) ∧
      ((fencedUnits 0x400 32 (spilled false)).arm.spilled.findSome? (fencedUnits 0x400 32 (spilled false)).returnable).isSome = true) ∧
    (burstMatches 64 [0x0102030400 + (beatCheck 64 0x01020304 : Nat)] = true ∧
      burstMatches 64 [0x0102030400 + (beatCheck 128 0x01020304 : Nat)] = false) ∧
    (live.ready = true ∧ live.channelInUse 15 = false ∧ (live.put Obj.ddr5ChannelsInUse 0x8000).channelInUse 15 = true ∧
      (live.put Obj.ddr5ChannelsInUse 0x8000).ready = true ∧ State.reset.ready = false) ∧ live.boot.powered = true := by decide +kernel

/-- A map that gives system port 0 an egress port of this device, and system port 16383 one of device 9. -/
def mapped (s : State) : State :=
  let base := (s.setFn Fn.fabricNo 2).put Obj.fabricEnable 1
  (base.putBytes Obj.systemPortMap 0 (toBe 4 (2 ^ 31 + 5 * 2 ^ 12))).putBytes Obj.systemPortMap (4 * 16383)
    (toBe 4 (2 ^ 31 + 9 * 2 ^ 19))

/-- CreditMovesFrames: a head whose credit is spent, one too old, and one for each kind of system port. -/
theorem witness_pass :
    (live.ableVoqs.head? = none ∧ live.ready = true) ∧
    (let v := 131071
     let s := mapped (placed (.voq v) 0)
     (s.voqCopies v).head? = some (copyAt (.voq v)) ∧ (s.frame? 5).isSome = true ∧ 0 < s.credit v ∧ s.ready = true ∧
      (s.voqHead v).isSome = true ∧ s.ableVoqs.head? = some v ∧ s.mayPass v = true ∧
      ((s.frame? 5).map s.stale) = some false ∧ s.systemPort (v / 8) = .remote 9 0 ∧ (s.putCredit v 0).credit v ≤ 0 ∧
      (s.putCredit v 0).ableVoqs.head? ≠ some v ∧ (s.putCredit v 1).credit v = 1 ∧ (s.putCredit v 1).ableVoqs.head? = some v ∧
      (placed (.voq v) 0).systemPort (v / 8) = .unassigned ∧ ((placed (.voq v) 0).voqHead v).isSome = true ∧
      (placed (.voq v) 0).ableVoqs.head? ≠ some v ∧ s.voqEmpty v = false ∧ live.voqEmpty v = true) ∧
    (let s := placed (.voq 1023) (2 * 10 ^ 9)
     (s.voqCopies 1023).head? = some (copyAt (.voq 1023)) ∧ ((s.frame? 5).map s.stale) = some true ∧ s.ableVoqs.head? = some 1023 ∧
      (placed (.voq 1023) 0).systemPort (1023 / 8) = .local 127 ∧ (placed (.voq 1023) 0).mayPass 1023 = true) ∧
    (let s : State := { placed (.voq 1023) 0 with copies := [copyAt (.voq 7), { copyAt (.voq 1023) with id := 2 }] }
     s.ableVoqs = [7, 1023] ∧ ({ s with queues := { s.queues with able := [1023] } } : State).ableVoqs = [1023, 7]) ∧
    (Sparse.wf (fun _ => (4096 : Int)) live.queues.credit = true ∧ Sparse.wf (fun _ => 4096) live.queues.granted = true) := by
  decide +kernel

/-- A port that may grant, with a local VOQ whose credit is spent, or a request of another device. -/
def requesting (own : Bool) : State :=
  if own then (linked 0 5).putCredit 3 0
  else { mapped (linked 5 5) with queues := { live.queues with requests := [5 * 2 ^ 15 + 7 * 2 ^ 12 + 9] } }

/-- CreditMovesFrames: CREDIT_GRANT with nobody to grant, to a local VOQ and to another device. -/
theorem witness_credit :
    (Sparse.find? ({ live with queues := { live.queues with grantFrom := [(0, 1)] } } : State).queues.grantFrom 0 = some 1 ∧
      live.clock < 1) ∧
    (live.mayGrant 0 = false ∧ (linked 0 5).mayGrant 0 = true ∧ (linked 0 5).grantClass 0 = none) ∧
    (let s := requesting true
     s.mayGrant 0 = true ∧ s.grantClass 0 = some 3 ∧ Sparse.find? s.queues.lastSource (8 * 0 + 3) = none ∧
      (s.requesters 0 3).head? = some s.deviceId ∧ s.localRequests 0 3 = [3]) ∧
    (let s := requesting false
     s.mayGrant 5 = true ∧ s.grantClass 5 = some 7 ∧ Sparse.find? s.queues.lastSource (8 * 5 + 7) = none ∧
      (s.requesters 5 7).head? = some 9 ∧ 9 ≠ s.deviceId) := by decide +kernel

/-- Frame 5 at the head of queue 0 of port 0, for next hop 0 or for none, at a clock. -/
def egressQueued (nextHop : Option Nat) (clock : Nat) : State :=
  { linked 0 5 with clock := clock, nextId := 6, frames := [held 5], copies := [{ copyAt (.egress 0) with nextHop := nextHop }] }

/-- What the scheduler finds for port 0. -/
def found (s : State) (p : State → Frame → List Nat → Bool) : Bool :=
  match (s.setPipe 0 fun x => { x with lastPort := 0 }).walkTree 0 0 with
  | (t, [a, b, q]) => match (t.copiesAt (.egress (q.child - 648))).head? with
    | some c => match t.frame? c.frame with
      | some f => p ((t.chargeWalk 0 0 [a, b, q] (t.shapedBytes 0 f.stored)).useEgressSlot 0 0) f [a.child, b.child, q.child]
      | none => false
    | none => false
  | _ => false

/-- Next hop 0 as given, and the control word of encapsulation entry 0. -/
def hops (entry control : Nat) (s : State) : State :=
  (s.putBytes Obj.nextHopTable 0 (toBe 16 entry)).putBytes Obj.encapTable 0 (toBe 16 control)

/-- PortsAreServed. -/
theorem witness_ports :
    (live.decides 15 = false ∧ (linked 0 5).decides 0 = true ∧ (linked 0 5).eligiblePorts 0 = [] ∧
      2 ≤ (((linked 0 5).setPipe 0 fun x => { x with slotsOut := 2 }).pipe 0).slotsOut) ∧
    (let s := egressQueued none 0
     s.decides 0 = true ∧ (s.pipe 0).slotsOut < 2 ∧ s.eligiblePorts 0 ≠ [] ∧
      afterPlace ((s.eligiblePorts 0).filter s.portReady) (s.pipe 0).lastPort = some 0 ∧
      (found s fun u f picks => picks == [8, 136, 648] && !u.stale f && f.complete &&
        (match u.chisel f none with
          | .bytes b => b == f.bytes.take 60
          | _ => false)) = true) ∧
    (let s := { egressQueued none 0 with copies := [copyAt (.egress 0), { plainCopy 5 0 (.selected 0) with id := 6 }],
                                         frames := [{ held 5 with bytes := List.replicate 16384 0 }] }
     s.eligiblePorts 0 ≠ [] ∧ afterPlace ((s.eligiblePorts 0).filter s.portReady) (s.pipe 0).lastPort = none) ∧
    (found (egressQueued none (2 * 10 ^ 9)) fun u f _ => u.stale f) = true ∧
    (found (hops (2 ^ 127) 0 (egressQueued (some 0) 0)) fun u f _ => decide (u.chisel f (some 0) = .ends 0x65)) = true ∧
    (found (hops 0 (2 ^ 108) (egressQueued (some 0) 0)) fun u f _ => decide (u.chisel f (some 0) = .misuse)) = true ∧
    stops (.egressDecision 0) (hops 0 (2 ^ 108) (egressQueued (some 0) 0)) "UB-RW-1" = true := by decide +kernel

/-! ### Witnesses: the fabric, keys and jobs -/

/-- The fabric in RUN with lane 159 in a state, to elements or to devices. -/
def laneAt (st : LaneState) (elements : Bool) : State :=
  ((live.setFn Fn.fabricNo 2).put Obj.fabricTopology (if elements then 1 else 0)).setLane 159 fun x =>
    { x with state := st, credit := 1, initial := 5 }

/-- A HELLO word. -/
def helloWord (peer lane : Nat) (role : Bool) : Nat := 5 * 2 ^ 60 + peer * 2 ^ 48 + lane * 2 ^ 40 + b2n role * 2 ^ 39 + 65535 * 2 ^ 23

/-- A word that returns credit. -/
def creditWord (n : Nat) : Nat := 3 * 2 ^ 60 + n * 2 ^ 44

/-- Lane 159 in UP with a data cell queued and some credit. -/
def queuedLane (credit : Nat) : State := (laneAt .up true).setLane 159 fun x =>
  { x with queue := [{ device := 9, cell := [], copies := [1], ends := [] }], credit := credit }

/-- FabricLanesPassOn. -/
theorem witness_lanes :
    (∀ st ∈ [LaneState.training, .hello, .up], (laneAt st true).fabric.lanes.length = 160 ∧ ((laneAt st true).lane 159).state = st ∧
      (laneAt st true).sliceOn (0x180 + 159) = false ∧ (laneAt st true).dictWf = true) ∧
    ({ live with kiln := { live.kiln with running := [{ slice := 0x180, part := 0, requested := true }] } } : State).sliceOn 0x180 = true ∧
    (bits (helloWord 9 3 true) 63 60 = 5 ∧ (laneAt .hello true).helloGood (helloWord 9 3 true) = true ∧
      (laneAt .hello true).helloGood (helloWord 9 3 false) = false ∧ (laneAt .hello false).helloGood (helloWord 9 3 false) = true ∧
      (laneAt .hello false).helloGood (helloWord (laneAt .hello false).deviceId 3 false) = false) ∧
    (let x := (laneAt .up true).lane 159
     (x.peerDevice = bits (helloWord 0 0 false) 59 48 ∧ x.peerLane = bits (helloWord 0 0 false) 47 40 ∧
      x.peerRole = bit (helloWord 0 0 false) 39) ∧ x.peerLane ≠ bits (helloWord 0 1 false) 47 40) ∧
    ((laneAt .up true).elements = true ∧ (laneAt .up false).elements = false ∧ bits (4 * 2 ^ 60 + 85 * 2 ^ 52) 59 52 < 86 ∧
      86 ≤ bits (4 * 2 ^ 60 + 86 * 2 ^ 52) 59 52) ∧
    (let x := (laneAt .up true).lane 159
     bits (creditWord 4) 63 60 = 3 ∧ x.credit + bits (creditWord 4) 59 44 ≤ x.initial ∧
     x.initial < x.credit + bits (creditWord 5) 59 44) ∧
    (∀ credit ∈ [0, 1], ((queuedLane credit).lane 159).queue = [{ device := 9, cell := [], copies := [1], ends := [] }] ∧
      ((queuedLane credit).lane 159).state = .up ∧ ((queuedLane credit).lane 159).credit = credit) := by
  decide +kernel

/-- A cell for device 9 that waits. -/
def waitingCell : WaitingCell := { device := 9, cell := [], copies := [1], ends := [1] }

/-- Lane 159 in HELLO with as many control cells of identical HELLO words seen. -/
def greeted (hellos : Nat) : State := (laneAt .hello true).setLane 159 fun x => { x with hellos := hellos }

/-- A control cell of one word, and of 31 identical ones. -/
def oneWord (w : Nat) : List Byte := controlCell [BitVec.ofNat 64 w]
def helloCell : List Byte := controlCell (List.replicate 31 (BitVec.ofNat 64 (helloWord 9 3 true)))

/-- FabricWordsAndCells: cells in HELLO, and the credit that a cell's words return. -/
theorem witness_cells :
    (let words := controlWords helloCell
     helloCell.length = 256 ∧ beAt helloCell 0 8 = 0 ∧ bits (words.headD 0) 63 60 = 5 ∧ words.all (fun v => v == words.headD 0) = true ∧
      (controlWords (oneWord (helloWord 9 3 true))).all (fun v => v == helloWord 9 3 true) = false ∧
      ((greeted 2).lane 159).state = .hello ∧ min 4 (((greeted 2).lane 159).hellos + 1) < 4 ∧
        min 4 (((greeted 3).lane 159).hellos + 1) = 4) ∧
    (((laneAt .training true).lane 159).state ≠ .up ∧ ((laneAt .training true).lane 159).state ≠ .hello) ∧
    (let s := laneAt .up true
     s.overCredits 159 (actingWords (oneWord (creditWord 5))) = true ∧ s.overCredits 159 (actingWords (oneWord (creditWord 4))) = false ∧
      s.overCredits 159 (actingWords (padTo 256 [128])) = false ∧ s.overCredits 159 (actingWords (padTo 256 [1])) = false ∧
      s.overCredits 159 (actingWords []) = false) := by decide +kernel

/-- FabricWordsAndCells. -/
theorem witness_words :
    (let s := mapped live
     s.fabricHeld = false ∧ live.fabricHeld = true ∧ bits (2 ^ 60) 59 48 = s.deviceId ∧ bits (2 ^ 60) 63 60 = 1 ∧
      bits (2 ^ 60 + 9 * 2 ^ 48) 59 48 ≠ s.deviceId ∧ s.systemPort (bits (2 ^ 60) 35 22) = .local 5 ∧ bits (2 * 2 ^ 60) 63 60 = 2 ∧
      s.expectedSeq 9 = 0 ∧ (∀ n ∈ [0, 1, 32767, 32768], ((n + 65536 - s.expectedSeq 9) % 65536 = n))) ∧
    (let cell := fun first => padTo 256 [BitVec.ofNat 8 first]
     ((laneAt .up true).lane 159).state = .up ∧ ((laneAt .hello true).lane 159).state ≠ .up ∧ (cell 128).length = 256 ∧
      bit (beNat ((cell 128).take 1)) 7 = true ∧ bit (beNat ((cell 0).take 1)) 7 = false ∧
      bits (beNat ((cell 0).take 16)) 126 64 = 0 ∧ bits (beNat ((cell 1).take 16)) 126 64 ≠ 0) ∧
    ((mapped live).fabric.reorder.length < 16384 ∧ live.openCellOf (32 * 4095 + 16) = none ∧
      (({ live with fabric := { live.fabric with streams := [(32 * 4095 + 16, OpenCell.fresh 0)] } } : State).openCellOf
        (32 * 4095 + 16)).isSome = true) ∧
    (let s : State := { (laneAt .up false).setLane 159 (fun x => { x with peerDevice := 9 }) with
        fabric := { ((laneAt .up false).setLane 159 fun x => { x with peerDevice := 9 }).fabric with waiting := [waitingCell] } }
     (s.fabric.waiting.find? fun c => c.device == 9) = some waitingCell ∧ s.nextLane 9 = some 159 ∧ s.fabricHeld = false ∧
      s.cellsWait 9 = true ∧ s.reachable 9 = true ∧ s.cellsWait 8 = false ∧
      ({ live with fabric := { live.fabric with waiting := [waitingCell] } } : State).reachable 9 = false ∧
      ({ live with fabric := { live.fabric with waiting := [waitingCell] } } : State).cellsWait 9 = true ∧
      (∀ e ∈ s.fabric.reorder, e.1 ≠ 9)) := by decide +kernel

/-- A load in progress: of job slot 0, in the clear, with the key given by its first byte and the rest 0; of a link slot in the clear. -/
def loading (job : Nat) : State :=
  { live with cipher := { live.cipher with load := some (toBe 64 (job * 2 ^ 511 + 0xFE * 2 ^ 490)) } }

/-- KeysAreLoadedAndErased. -/
theorem witness_keys :
    (fastOpen live ∧ live.fenced 0x5B0 = false ∧ live.cipher.load = none ∧ (loading 1).cipher.load.isSome = true ∧ fastOpen (loading 1) ∧
      (loading 1).fenced 0x5B0 = false) ∧
    (bit (0 : BitVec 16).toNat 12 = false ∧ bit (0x103F : BitVec 16).toNat 12 = true ∧ bits (0x103F : BitVec 16).toNat 11 0 < 64 ∧
      64 ≤ bits (0x1040 : BitVec 16).toNat 11 0) ∧
    (Sparse.wf (fun _ => none) (live.cipher.keys.map fun e => (e.1, some e.2)) = true ∧
      4096 + live.obj? Obj.sopKeySlot = 4096 + live.obj? Obj.sopKeySlot) ∧
    (((loading 1).judgeLoad (toBe 64 (2 ^ 511 + 0xFE * 2 ^ 490))).toOption.isSome = true ∧
      ((loading 0).judgeLoad (toBe 64 (0xFE * 2 ^ 490))).toOption.isSome = false) := by
  unfold fastOpen plinthOpen
  decide +kernel

/-- A CMAC descriptor over `n` bytes under job slot 0, or another opcode's. -/
def descriptor (op n : Nat) : Nat := op * 2 ^ 504 + 7 * 2 ^ 488 + n * 2 ^ 272

/-- A descriptor at TAIL of ring 9, with a key in job slot 0. -/
def described (r : Nat) (aborted : List Nat) : State :=
  let s := (live.put (Obj.ringHead 9) 1).putBytes (Obj.ringRecords 9) 0 (toBe 64 r)
  { s with cipher := { s.cipher with keys := [(4096, { is256 := false, bytes := List.replicate 16 1 })], aborted := aborted } }

/-- A job of it, suspended or not. -/
def job (r : Nat) (suspended : Bool) : Job :=
  { id := 3, record := toBe 64 r, key := { is256 := false, bytes := List.replicate 16 1 }, pipe := 0, contexts := 1, suspended := suspended,
    suspensions := 0, since := 0, doom := none }

/-- With jobs. -/
def withJobs (js : List Job) : State := { live with cipher := { live.cipher with jobs := js } }

/-- CipherJobs. -/
theorem witness_jobs :
    (live.ready = true ∧ State.reset.ready = false ∧ live.ringEmpty 9 = true ∧
      64 ≤ (withJobs (List.replicate 64 (job 0 true))).cipher.jobs.length ∧
      63 < 64) ∧
    (∀ op ∈ [1, 2, 3, 4, 5, 6],
      let s := described (descriptor op 24) []
      s.ready = true ∧ s.ringEmpty 9 = false ∧ s.cipher.jobs.length < 64 ∧ jobOp (beNat (s.ringFront 9)) = op) ∧
    (let s := described (descriptor 3 24) []
     let r := beNat (s.ringFront 9)
     s.cipher.aborted.contains (jobTag r) = false ∧ s.jobDefect r = none ∧ (s.keyAt (jobSlot r)).isSome = true ∧ s.jobOverlaps r = true) ∧
    (let s := described (descriptor 3 24 + 24 * 2 ^ 232) []
     let r := beNat (s.ringFront 9)
     s.jobDefect r = none ∧ s.jobOverlaps r = false ∧ s.jobPipe.isSome = true ∧
      (fencedUnits 0 17 s).jobPipe = none ∧ (fencedUnits 0 17 s).jobDefect r = none ∧ (fencedUnits 0 17 s).jobOverlaps r = false) ∧
    (let s := described (descriptor 4 15) [7]
     let r := beNat (s.ringFront 9)
     s.cipher.aborted.contains (jobTag r) = true ∧ s.jobDefect r = some 6 ∧
      (described (descriptor 2 24) [7]).jobDefect (descriptor 2 24) = none) ∧
    (let s := described (descriptor 6 0) []
     let r := beNat (s.ringFront 9)
     jobOp r = 6 ∧ s.jobDefect r = none ∧ (s.keyAt (jobSlot r)).isSome = true ∧ s.jobOverlaps r = false) ∧
    (jobOp (descriptor 0 0) = 0 ∧ 6 < jobOp (descriptor 7 0)) := by decide +kernel

/-- A suspended job of pipe 0, whose contexts another job holds. -/
def crowded : State :=
  withJobs [job (descriptor 3 24) true, { job (descriptor 1 24) false with id := 4, contexts := live.freeContexts 0 }]

/-- CipherJobs: jobs in progress. -/
theorem witness_progress :
    ((live.cipher.jobs.find? fun j => j.id == 3) = none) ∧
    (∀ b ∈ [true, false], ((withJobs [job (descriptor 3 24) b]).cipher.jobs.find? fun j => j.id == 3) = some (job (descriptor 3 24) b) ∧
      (job (descriptor 3 24) b).doom = none ∧ (job (descriptor 3 24) b).suspended = b) ∧
    (jobOp (beNat (job (descriptor 3 24) false).record) = 3 ∧ jobOp (beNat (job (descriptor 4 24) false).record) = 4) ∧
    (let j := job (descriptor 2 0) false
     let r := beNat j.record
     jobOp r = 2 ∧ Aes.gcmTag j.key.bytes (slice j.record 8 12) (live.jobBytes (jobAad r)) (live.jobBytes (jobIn r)) ≠
       live.jobBytes (bits r 251 232, 16)) ∧
    (let s := withJobs [job (descriptor 3 24) true]
     (s.cipher.jobs.find? fun j => j.id == 3 && j.suspended).isSome = true ∧ s.runsJobs 0 = true ∧ s.jobsMayRun 0 = true ∧
      s.freeContexts 0 ≠ 0 ∧ (fencedUnits 0 1 s).runsJobs 0 = false ∧ (fencedUnits 0 1 s).jobPipe.isSome = true ∧
      ((s.setFn (Fn.cipherNo 15) 1).jobsMayRun 15 = false ∧ (s.setFn (Fn.cipherNo 15) 1).runsJobs 15 = true)) ∧
    (∀ clock ∈ [1599, 1600], let s : State := { crowded with clock := clock }
      (s.cipher.jobs.find? fun j => j.id == 3 && j.suspended).isSome = true ∧ s.runsJobs 0 = true ∧ s.jobsMayRun 0 = true ∧
        s.freeContexts 0 = 0 ∧ s.jobPipe.isSome = true ∧ (s.clock < 0 + 1600 ↔ clock = 1599)) := by decide +kernel

/-! ### Witnesses: faults, fences and slices -/

/-- A fault of a unit's checker, said to be injected or not. -/
def event (unit : BitVec 12) (checker : BitVec 4) (injected : Bool) : FaultEvent :=
  { unit := unit, checker := checker, syndrome := .parity, master := unit, access := 0, address := 0, injected := injected, frame := none }

/-- An injection that is armed for a checker of the first pipe. -/
def armed : State := ({ live with faults := { live.faults with inject := some (0, 0, 5, true) } } : State).put Obj.injectPending 127

/-- A unit with its pending bits. -/
def pendingUnit (c u : Bool) : State :=
  live.setUnit 0 fun x => { x with pendingC := c, pendingU := u }

/-- FaultsAreJudged. -/
theorem witness_faults :
    (live.boot.powered = true ∧ Units.hasChecker (0 : BitVec 12).toNat (0 : BitVec 4).toNat = true ∧
      Units.hasChecker (0xFFF : BitVec 12).toNat (0 : BitVec 4).toNat = false ∧ (event 0 0 false).injected = false ∧
      (event 0 0 true).injected = true ∧ armed.faults.inject = some ((event 0 0 true).unit.toNat, (event 0 0 true).checker.toNat, 5, true) ∧
      armed.obj? Obj.injectPending ≠ 0 ∧ live.faults.inject = none ∧ live.obj? Obj.injectPending = 0) ∧
    ((∀ e ∈ [event 0 0 false, event 0 0 true], live.faultSeen e = true) ∧
      live.faultSeen { event 0 0 false with syndrome := .badPointer 0, address := 786432 * 2 ^ 8 } = true ∧
      live.faultSeen { event 0 0 false with syndrome := .badPointer 0, address := 1 } = true ∧
      live.faultSeen { event 0 0 false with syndrome := .badPointer 0, address := 786431 * 2 ^ 8 } = false ∧
      Units.check 0 0 = some .secded ∧ injectedSyndrome .secded 5 .parity = some .doubleBit ∧
      injectedSyndrome .secded 0 .parity = none) ∧
    (∀ c ∈ [true, false], ∀ u ∈ [true, false], (pendingUnit c u).consequential 0 0 = false ∧ ((pendingUnit c u).unitSt 0).pendingC = c ∧
      ((pendingUnit c u).unitSt 0).pendingU = u) ∧
    (((live.setUnit 0 fun x => { x with fenced := true }).consequential 0 0) = true) ∧
    (live.dictWf = true ∧ live.faults.release = none ∧ (2 : Nat) ≤ 2 ∧ live.obj? Obj.firstErrorUnit = 0xFFFF ∧
      (live.put Obj.firstErrorUnit 3).obj? Obj.firstErrorUnit ≠ 0xFFFF ∧ (live.put Obj.firstErrorUnit 3).dictWf = true) ∧
    (live.obj? Obj.correctedAutoAckMs ≠ (live.put Obj.correctedAutoAckMs 0).obj? Obj.correctedAutoAckMs) ∧
    ((live.put Obj.correctedAutoAckMs 0).obj? Obj.correctedAutoAckMs = 0) ∧
    (plinthOpen live ∧ (Units.kind (0 : BitVec 16).toNat).isSome = true ∧ Units.kind (0xFFFE : BitVec 16).toNat = none) ∧
    (let v : BitVec 32 := 1
     Units.hasChecker (bits v.toNat 31 20) (bits v.toNat 19 16) = true ∧
     Units.noInjection (bits v.toNat 31 20) (bits v.toNat 19 16) = false ∧
      bits v.toNat 6 0 ≠ 0) ∧
    (let v : BitVec 32 := 0x10010001
     Units.hasChecker (bits v.toNat 31 20) (bits v.toNat 19 16) = true ∧
      Units.noInjection (bits v.toNat 31 20) (bits v.toNat 19 16) = true) ∧ bits (0 : BitVec 32).toNat 6 0 = 0 ∧
    live.faults.below.length = 4 := by
  unfold plinthOpen
  decide +kernel

/-- A fenced unit. -/
def fencedAt (u : Nat) (s : State) : State := s.setUnit u fun x => { x with fenced := true }

/-- Group 0 on pipe 16, with its home pipe's function OFF, HOLD (1) or RUN, and a return in progress or not. -/
def moved (fn : Nat) (returning : Bool) : State :=
  let s := (live.setFn 0x200 fn).put (Obj.groupPipe 0) 16
  if returning then { s with faults := { s.faults with returns := [0] } } else s

/-- FencesAndReleases. -/
theorem witness_fences :
    (plinthOpen live ∧ (live.hostFence 0x000).isSome = true ∧ (live.hostFence 0x5B0).isSome = false) ∧
    ((0x400 ≠ 0x5B0 ∧ 0x400 ≠ 0x5B1 ∧ (Units.kind 0x400).isSome = true ∧ live.faults.release = none ∧ live.fenced 0x400 = false ∧
        (fencedAt 0x400 live).fenced 0x400 = true) ∧ Units.kind 0xFFF = none ∧
      ({ live with faults := { live.faults with release := some (0x400, true) } } : State).faults.release.isSome = true) ∧
    (Units.kind 0x41F = some (.bitmapBank 31) ∧ (fencedAt 0x41F live).fenced 0x41F = true ∧ Units.kind 16 = some (.pipe 16) ∧
      (fencedAt 16 live).fenced 16 = true) ∧
    (live.faults.takeovers = [] ∧
      (live.put (Obj.groupPipe 0) 0).groupPipe 0 = 0) ∧
    (plinthOpen (moved 1 false) ∧ (moved 1 false).groupPipe 0 = 16 ∧ (moved 1 false).fn (Fn.pipeNo 0) = 1 ∧
      (moved 1 false).fenced 0 = false ∧
      (moved 1 false).faults.returns.contains 0 = false ∧ (moved 1 true).faults.returns.contains 0 = true ∧
      (moved 1 false).faults.takeovers = [] ∧ (moved 1 true).faults.takeovers = []) ∧
    (live.groupPipe 15 = 15 ∧ (live.put (Obj.groupPipe 0) 0xFF).groupPipe 0 = 0xFF ∧ (moved 2 false).fn (Fn.pipeNo 0) ≠ 1 ∧
      (fencedAt 0 (moved 1 false)).fenced 0 = true ∧
      (let t : Takeover := { group := 0, pipe := 16, started := 0, neighbour := false }
       ({ moved 1 false with faults := { live.faults with takeovers := [t] } } : State).faults.takeovers.any (fun x => x.group == 0) = true)) ∧
    ((moved 1 true).groupDrained 0 = true ∧
      ({ moved 1 true with frames := [{ held 5 with loc := .inject 16 }] } : State).groupDrained 0 = false) := by
  unfold plinthOpen
  decide +kernel

/-- FencesAndReleases: a takeover and a release in progress. -/
theorem witness_takeover :
    (({ live with faults := { live.faults with takeovers := [{ group := 3, pipe := 16, started := 0, neighbour := false }] } } : State).faults.takeovers =
      [{ group := 3, pipe := 16, started := 0, neighbour := false }]) ∧
    (∀ b ∈ [true, false], ({ live with faults := { live.faults with release := some (0x400, b) } } : State).faults.release = some (0x400, b)) := by
  decide +kernel

/-- A slice that runs. -/
def slicing (slice : Nat) (requested : Bool) : State :=
  { live with kiln := { live.kiln with running := [{ slice := slice, part := 0, requested := requested }] } }

/-- The mode SLICE on, and a request queued or not. -/
def ticking (queued : Option Nat) : State :=
  let s := live.put Obj.sliceEnable 1
  { s with kiln := { s.kiln with queued := queued } }

/-- With DDR5 channel 0 in use and striped over, and a line of pair 0. -/
def flowing (s : State) : State := { withDdr5 s with flow := [(0, { packets := 3, octets := 400 })] }

/-- Pair 7's bank with as many other pairs served in this clock, and increments of the pair waiting or not. -/
def busyBank (served : Nat) (waits : Bool) : State :=
  { flowing live with flowServed := (List.range served).map fun i => 32 * (i + 1) + 7,
                      flowWaiting := if waits then [{ pair := 7, packets := 1, octets := 64, came := 0 }] else [] }

/-- SlicesAndCounters: a bank that accepts an increment, and one that queues it. -/
theorem witness_flow :
    ((busyBank 3 false).flowServed.contains 7 = false ∧ (busyBank 3 false).flowMayAccept 7 = true ∧ (busyBank 3 false).flowQueue 7 = []) ∧
    ((busyBank 4 false).flowServed.contains 7 = false ∧ (busyBank 4 false).flowMayAccept 7 = false) ∧
    ((busyBank 3 true).flowServed.contains 7 = false ∧ (busyBank 3 true).flowQueue 7 ≠ []) ∧
    (busyBank 4 false).flowServed.contains 39 = true ∧ live.flowLost 7 = true := by decide +kernel

/-- SlicesAndCounters. -/
theorem witness_slices :
    ((live.put Obj.sliceEnable 0).tickHeld = true ∧ (ticking none).tickHeld = false ∧ ((ticking none).request 6).kiln.queued = none ∧
      (ticking (some 0x8000)).tickHeld = false ∧ ((ticking (some 0x85B2)).request 6).kiln.queued = some 0x85B2) ∧
    (live.skips { kind := 8, unit := 0x5B2, part := 0 } = false ∧ live.skips { kind := 11, unit := 0x280, part := 0 } = true) ∧
    (live.kiln.running[1]? = none ∧ (slicing 0x85B2 true).kiln.running[0]? = some { slice := 0x85B2, part := 0, requested := true } ∧
      0x85B2 / 4096 = 8 ∧ 0xB280 / 4096 ≠ 8 ∧ misr [] = 0xFFFFFFFF ∧
      ((slicing 0xB280 false).golden { kind := 11, unit := 0x280, part := 0 }).getD 0 ≠ misr [] ∧
      ((slicing 0xB280 false).golden { kind := 11, unit := 0x280, part := 0 }).getD 0 = misr [0xFFBFFFF9]) ∧
    (plinthOpen live ∧ (kindUnits (0x1010 / 4096)).1 ≤ 0x010 ∧ 0x010 < (kindUnits 1).1 + (kindUnits 1).2 ∧
      (kindUnits 1).1 + (kindUnits 1).2 ≤ 0x011 ∧ 0x01F < (kindUnits 2).1 ∧ live.kiln.queued = none ∧
      (∀ r ∈ live.kiln.running, r.requested = false) ∧ (ticking (some 0x85B2)).kiln.queued.isSome = true ∧
      (∃ r ∈ (slicing 0x85B2 true).kiln.running, r.requested = true)) ∧
    ((flowing live).ready = true ∧ (Sparse.find? (flowing live).flow 0).isSome = true ∧ (flowing live).flowLost 0 = false ∧
      (flowing live).flowLost 2097151 = false ∧ live.flowLost 0 = true ∧ Sparse.find? live.flow 0 = none ∧ State.reset.ready = false ∧
      fastOpen (flowing live) ∧ (flowing live).obj? Obj.flowReadClear ≠ 1 ∧
      ((flowing live).put Obj.flowReadClear 1).obj? Obj.flowReadClear = 1) ∧
    (live.obj? Obj.caliperFreeze ≠ 1 ∧ (live.put Obj.caliperFreeze 1).obj? Obj.caliperFreeze = 1 ∧ live.dictWf = true) := by
  unfold fastOpen plinthOpen
  decide +kernel

/-! ### Witnesses: the Atelier, the pins and the board -/

/-- Sequencer 7 at a word with a sequence code, target and condition, in a routine of its own kind. -/
def atCode (code : Nat) : State :=
  live.setSeq 7 fun q => { q with running := some 7, store := [BitVec.ofNat 144 (code * 2 ^ 138), 0] }

/-- A trap frame of a sequencer as it stands. -/
def frameOf (s : State) : TrapFrame := (s.seq 7).saved (s.seq 7).pc

/-- Sequencer 7 in a trap of level 1. -/
def inTrap : State := (atCode 9).setSeq 7 fun q => { q with level := 1, frames := [some (frameOf (atCode 9)), none] }

/-- SequencersWork: a word of each sequence code, and the cases of CHECKPOINT, END and the traps. -/
theorem witness_words_run :
    (∀ code ∈ [0, 1, 2, 3, 4, 5, 6, 7, 8, 9], (atCode code).atWord 7 code = true ∧ live.atWord 7 code = false) ∧
    ((atCode 6).seq 7).waiting = false ∧
    (live.atelier.seqs.length = 8 ∧ ((atCode 0).goto 7 0).atelier.seqs.length = 8 ∧ 0 < ((atCode 0).seq 7).store.length ∧
      ((atCode 0).seq 7).store.length ≤ 2 ∧ (2 : Nat) < 16384 ∧ (2 : Nat) ^ 64 - 1 < 2 ^ 64) ∧
    (let s := live.setSeq 3 fun q => { q with queue := [none] }
     s.ready = true ∧ s.inService 3 = true ∧ (s.seq 3).running = none ∧ (s.seq 3).level = 0 ∧ (s.seq 3).nextTrap = none ∧
      s.dispatchQueue 3 = some 3 ∧ live.dispatchQueue 3 = none) ∧
    (let t := ((atCode 7).runOps 7 ((atCode 7).seqWord 7)).goto 7 ((atCode 7).pcNext 7)
     (t.seq 7).running = some 7 ∧ (t.seq 7).level = 0 ∧ t.servedQueues 7 = [7]) ∧
    (let s := (atCode 7).setSeq 7 fun q => { q with level := 1 }
     s.atWord 7 7 = true ∧ (((s.runOps 7 (s.seqWord 7)).goto 7 (s.pcNext 7)).seq 7).level ≠ 0) ∧
    (let s := live.setSeq 7 fun q => { q with traps := [{ level := 2, cause := 7 }] }
     s.ready = true ∧ s.seqWorks 7 = true ∧ (s.seq 7).nextTrap = some { level := 2, cause := 7 } ∧ (live.seq 7).nextTrap = none) ∧
    (inTrap.atWord 7 9 = true ∧ ((inTrap.runOps 7 (inTrap.seqWord 7)).seq 7).level ≠ 0 ∧
      ((inTrap.runOps 7 (inTrap.seqWord 7)).seq 7).frames.getD (((inTrap.runOps 7 (inTrap.seqWord 7)).seq 7).level - 1) none =
        some (frameOf (atCode 9))) := by decide +kernel

/-- A reload in progress: its status, and whether the image is read from flash. -/
def reloading (status : Nat) (flash : Bool) : State :=
  ({ live with atelier := { live.atelier with reloading := true, flashRead := flash } } : State).put Obj.reloadStatus status

/-- SequencersWork: the steps of a reload. -/
theorem witness_reload :
    (fastOpen live ∧ live.mayReload = true ∧ (reloading 1 false).mayReload = false ∧ fastOpen (reloading 1 false)) ∧
    (live.verifying = false ∧ (reloading 1 true).atelier.flashRead = true ∧ (reloading 1 true).verifying = true ∧
      (reloading 1 false).verifying = true ∧ (reloading 1 false).atelier.flashRead = false ∧ (reloading 1 false).kiln.retry = false ∧
      (reloading 1 false).reloadVerdict (reloading 1 false).atelier.staging true ≠ 2) ∧
    (let s := live.setSeq 2 fun q => { q with service := .releasing }
     ((List.range 8).find? fun i => (s.seq i).service == .releasing) = some 2 ∧ (s.seq 2).atCheckpoint = true) ∧
    (let s := live.setSeq 2 fun q => { q with service := .loading }
     ((List.range 8).find? fun i => (s.seq i).service == .loading) = some 2) := by
  unfold fastOpen plinthOpen
  decide +kernel

/-- At a clock, with PPS_OUT enabled, and its last pulse and base as given. -/
def pulsing (clock : Nat) (last : Option Int) (base : Int) : State :=
  ({ live with clock := clock, timing := { live.timing with lastPulse := last, base := base } } : State).put Obj.ppsOutEnable 1

/-- A good time-of-day message. -/
def todGood : List Byte := let m := toBe 2 0x5A56 ++ List.replicate 13 0; m ++ toBe 1 (crc8 m)

/-- PinsAndBoard. -/
theorem witness_pins :
    live.boot.powered = true ∧ (100000 * 8 ≤ (160000 - 0) * 5 ∧ (159999 - 0) * 5 < 100000 * 8 ∧ live.timing.lastIn = none) ∧
    (let second := fun (s : State) => (s.timebaseNow - toInt 32 (s.obj? Obj.ppsOutOffsetNs)) / 1000000000
     live.pinColumn = .running ∧ State.reset.pinColumn ≠ .running ∧ (pulsing 1600000000 none 0).obj? Obj.ppsOutEnable = 1 ∧
     second (pulsing 1600000000 none 0) = 1 ∧
      second (pulsing 1599999999 none 0) = 0 ∧ (pulsing 1600000000 (some 0) 0).timing.lastPulse = some 0 ∧
      (pulsing 1600000000 (some 1) 0).timing.lastPulse = some 1 ∧ live.obj? Obj.ppsOutEnable ≠ 1) ∧
    (live.timing.todDue = false ∧ ({ live with timing := { live.timing with todDue := true } } : State).timing.todDue = true ∧
      live.obj? Obj.todTxEnable ≠ 1 ∧ (live.put Obj.todTxEnable 1).obj? Obj.todTxEnable = 1) ∧
    (todGood.length = 16 ∧ beAt todGood 0 2 = 0x5A56 ∧ beAt todGood 15 1 = crc8 (todGood.take 15) ∧ todGood.tail.length ≠ 16) ∧
    (live.boot.fuses ≠ 0 ∧ live.boot.fuses ≠ 4) ∧
    (let right : Byte := BitVec.ofNat 8 (live.smbusWritePec 17 (toLe 4 100))
     right.toNat = live.smbusWritePec 17 (toLe 4 100) ∧ (~~~right).toNat ≠ live.smbusWritePec 17 (toLe 4 100)) ∧
    ((∀ n ∈ Fn.numbers, live.fn n = 0) ∧ (∃ n ∈ Fn.numbers, (liveFn 127 1).fn n ≠ 0) ∧ live.dictWf = true) := by decide +kernel

/-! ### Well-formed commands -/

/-- A SOP message from a MAC address. -/
def framed (payload : Nat) : SopMessage :=
  { carriage := { path := .mg0Eth, peer := List.replicate 6 0, dest := List.replicate 6 0, tags := [], ipOptions := false, fragment := false,
                  zeroChecksum := false },
    ver := 1, rsp := false, auth := false, rsvdHigh := 0, session := 0, seq := 0, length := 0, index := 0, sub := 0, status := 0, rsvdLow := 0,
    payload := List.replicate payload 0, trailer := List.replicate 4 0 }

/-- Each check refuses an ill-formed term and takes a well-formed one: lengths, widths, carriages and checkers. -/
theorem test_wf :
    (Instr.configBlockRead (List.replicate 15 0)).wf = false ∧ (Instr.keyLoad (List.replicate 63 0)).wf = false ∧
    (Instr.read (.bar0 0 0)).wf = false ∧ (Instr.read (.bar0 0 512)).wf = true ∧ (Instr.read (.bar4 0 513)).wf = false ∧
    (Instr.write (.bar0 0 [])).wf = false ∧ (Instr.write (.bar4 0 (List.replicate 257 0))).wf = false ∧
    (Instr.domainRead (.bar2 0 513)).wf = false ∧ (Instr.domainWrite (.bar2 0 [])).wf = false ∧
    (Instr.objectWrite 0 0 []).wf = false ∧ (Instr.arpRequest 0 [0, 0, 0]).wf = false ∧ (Instr.neighbourSolicitation 0 [0]).wf = false ∧
    (Instr.hostInjection 0 []).wf = false ∧ (Instr.pauseFrame 0 []).wf = false ∧ (Instr.pfcFrame 0 []).wf = false ∧
    (Instr.macControlFrame 0 []).wf = false ∧ (Instr.dataCell 0 [0]).wf = false ∧ (Instr.controlCell 0 [0]).wf = false ∧
    (Instr.fault (event 0xFFF 0 false)).wf = false ∧ (Instr.fault (event 0 0 false)).wf = true ∧
    (Instr.fault { event 0 0 false with access := 14 }).wf = false := by decide +kernel

/-- The same for messages: too long, a peer's name of the wrong length, a tag on a datagram. -/
theorem test_wf_messages :
    (Instr.sopNop (framed 1480)).wf = true ∧ (Instr.sopNop (framed 1481)).wf = false ∧ (Instr.multiRead (framed 1481)).wf = false ∧
    (Instr.sopOpen { framed 0 with carriage := { (framed 0).carriage with peer := [0] } }).wf = false ∧
    (Instr.sopClose { framed 0 with carriage := { (framed 0).carriage with path := .mg0Udp, tags := [1] } }).wf = false ∧
    (Instr.read (.sop { framed 0 with carriage := { (framed 0).carriage with dest := [] } })).wf = false := by decide +kernel

/-! ### Values that the spec gives -/

/-- The ASCII string "123456789". -/
def digits : List Byte := [0x31, 0x32, 0x33, 0x34, 0x35, 0x36, 0x37, 0x38, 0x39]

/-- The check values of CRC-32C (R42), CRC-32 (R120) and CRC-8 (R292). -/
theorem test_check_values : crc32c digits = 0xE3069283 ∧ crc32 digits = 0xCBF43926 ∧ crc8 digits = 0xF4 := by decide +kernel

/-- The numbers that relate to port 37 (the worked example of Scope and conventions). -/
theorem test_port37 : Obj.portDataRate 37 / 4096 = 0x225 ∧ Units.kind 0x065 = some (.mac 37) ∧ Units.kind 0x004 = some (.pipe 4) ∧
    Units.kind 0x490 = some (.cipherUnit 4 0) ∧ Units.kind 0x4A3 = some (.cipherUnit 4 19) ∧ Units.kind 0x2C5 = some (.emBank 1 5) ∧
    live.portPipe 37 = 4 := by decide +kernel

/-- The policer of the worked example of R313: CIR, CBS, PIR and PBS, mode 2, with its actions and length adjustment. -/
def legacyPolicer : Nat :=
  2 * 2 ^ 254 + 2 * 2 ^ 248 + 20 * 2 ^ 234 + 8000000 * 2 ^ 160 + 3000 * 2 ^ 136 + 16000000 * 2 ^ 96 + 6000 * 2 ^ 72

/-- A device whose policer 77 was just written. -/
def metered (ns : Nat) (s : State) : State × Option Nat × Colour :=
  match ({ s with clock := ns * 8 / 5 } : State).police 77 1500 5 .green with
  | (t, .ok cls, colour) => (t, some cls, colour)
  | (t, .error _, colour) => (t, none, colour)

/-- Six frames metered at the times of the worked example. -/
def meteredAll : List Nat → State → List (Option Nat × Colour × Int × Int)
  | [], _ => []
  | t :: ts, s =>
    let r := metered t s
    let p := r.1.policer 77
    (r.2.1, r.2.2, p.tc / 65536, p.te / 65536) :: meteredAll ts r.1

/-- The table of the worked example of 12: colours and buckets, and the class kept or the frame dropped. -/
theorem test_policer :
    meteredAll [0, 100, 200, 300, 400, 1500] ((live.putBytes Obj.policers (32 * 77) (toBe 32 legacyPolicer)).policerWritten 77 0) =
      [(some 5, .green, 1480, 4480), (some 5, .green, 60, 3160), (some 5, .yellow, 160, 1840), (some 5, .yellow, 260, 520),
       (none, .red, 360, 720), (some 5, .yellow, 1460, 1400)] := by decide +kernel

/-- The frame of the worked example of 10: 1,000 bytes with its FCS, from a device, with an Ethernet header recorded. -/
def bridged : Frame := { held 5 with bytes := List.replicate 1000 0, headers := [(1, 0, 14)] }

/-- Its encapsulation: 36 bytes of image that keep the inner L2 part, two lengths, a checksum and an entropy field. -/
def vxlan : Nat :=
  36 * 2 ^ 110 + 2 ^ 109 + 2 ^ 108 + 2 * 2 ^ 101 + 2 ^ 93 + 24 * 2 ^ 86 + 20 * 2 ^ 79 + 2 ^ 78 + 2 ^ 70 + 20 * 2 ^ 63 + 0x0800 * 2 ^ 47

/-- What Chisel makes of it: 1,046 bytes before the FCS, an IPv4 total length of 1,032 and a UDP length of 1,012. -/
theorem test_chisel :
    (match bridged.edit { entry := 2 ^ 4, control := vxlan, stack := [], image := 0x45 :: List.replicate 95 0, smac := List.replicate 6 0 } with
     | .bytes b => (b.length, beAt b 12 2, beAt b (14 + 2) 2, beAt b (14 + 24) 2, foldSum (((List.range 10).map fun i => beAt b (14 + 2 * i) 2).sum))
     | _ => (0, 0, 0, 0, 0)) = (1046, 0x0800, 1032, 1012, 0xFFFF) := by decide +kernel

/-- A frame of 1,230 bytes is 5 cells (the worked example of 11), and one of 256 bytes is one. -/
theorem test_cells : cellsFor 1230 = 5 ∧ cellsFor 256 = 1 ∧ cellsFor 257 = 2 := by decide +kernel

/-- No template of the standard graph breaks UB-PAR-2 (R155, R159). -/
theorem test_standard_graph : ((List.range 64).any fun n => tplMisfits (Defaults.standardTemplates.getD n 0)) = false := by decide +kernel

/-- Version numbers go past 0 (R220), and the MISR starts at ones (R402). -/
theorem test_versions : nextVersion 1 = 2 ∧ nextVersion (2 ^ 32 - 1) = 1 ∧ misr [] = 0xFFFFFFFF := by decide +kernel

/-! ### Values that the cited standards give -/

/-- AES-128 (FIPS 197, appendix C.1). -/
theorem test_aes : Aes.encrypt (toBe 16 0x000102030405060708090A0B0C0D0E0F) (toBe 16 0x00112233445566778899AABBCCDDEEFF) =
    toBe 16 0x69C4E0D86A7B0430D8CDB78070B4C55A := by decide +kernel

/-- AES-CMAC of the empty message (RFC 4493, example 1), and the GCM tag of nothing under a zero key (test case 1). -/
theorem test_macs : Aes.cmac (toBe 16 0x2B7E151628AED2A6ABF7158809CF4F3C) [] = toBe 16 0xBB1D6929E95937287FA37D129B756746 ∧
    Aes.gcmTag (toBe 16 0) (toBe 12 0) [] [] = toBe 16 0x58E2FCCEFA7E3061367F1D57A4E7455A := by decide +kernel

/-- With group 1 alone in range the pins are held and no recovered clock is given (table Pin states). -/
theorem test_pins_held : State.reset.pinColumn = .held ∧ State.reset.rclkOut 0 = none ∧ State.reset.ddr5ResetOut = false := by
  decide +kernel

end Sys2Proof.Tests
end

/-! PROOFS. What every command and every step keeps: each command by its own lemma, the step by the command at the front of the queue
or the core clock. -/

namespace Sys2Proof.Proofs

open Sys2Proof.Machine Sys2Proof.Safety Sys2Proof.Laws

variable {q : List Instr} {f n : Nat} {c : Instr} {s t : State}

/-- The commands that may bring a blow of the life-cycle fuses to its end (R82). -/
def EndsBlow (c : Instr) : Prop := c = .fuseBlowEnd ∨ ∃ every, c = .powerRemoval every

/-- A command that ends no blow keeps all that `Holds` says, the life-cycle code included. -/
theorem holds_exec_of_not_endsBlow (hb : ¬ EndsBlow c) (h : Holds q f n s) : HoldsR q f n (exec c s) := by
  cases c with
  | powerOn _ => exact holds_execPowerOn h
  | railLoss _ => exact holds_execRailLoss h
  | railReturn => exact holds_execRailReturn h
  | coldNLow => exact holds_execColdNLow h
  | coldNRise => exact holds_execColdNRise h
  | warmNLow => exact holds_execWarmNLow h
  | warmNRise => exact holds_execWarmNRise h
  | resetRequestWarm => exact holds_execResetRequestWarm h
  | resetRequestCold => exact holds_execResetRequestCold h
  | pllLossOfLock _ => exact holds_execPllLossOfLock h
  | pllLockRestored => exact holds_execPllLockRestored h
  | clockLossBeforeReady _ => exact holds_execClockLossBeforeReady h
  | clocksStable => exact holds_execClocksStable h
  | pllsLocked => exact holds_execPllsLocked h
  | configBlockRead _ => exact holds_execConfigBlockRead h
  | imageReadEnd _ => exact holds_execImageReadEnd h
  | imageVerified _ => exact holds_execImageVerified h
  | sramWipeEnd => exact holds_execSramWipeEnd h
  | ddr5TrainingEnd _ => exact holds_execDdr5TrainingEnd h
  | ddr5ResetRelease => exact holds_execDdr5ResetRelease h
  | ddr5ReinitEnd => exact holds_execDdr5ReinitEnd h
  | ddr5WipeEnd => exact holds_execDdr5WipeEnd h
  | powerOnKilnPassEnd _ => exact holds_execPowerOnKilnPassEnd h
  | uploadStart _ => exact holds_execUploadStart h
  | lifeRequest _ _ => exact holds_execLifeRequest h
  | fuseBlowEnd => exact absurd (.inl rfl) hb
  | pipeGatedEntry _ => exact holds_execPipeGatedEntry h
  | pipeRetainEntry _ => exact holds_execPipeRetainEntry h
  | pipeOffEntry _ => exact holds_execPipeOffEntry h
  | pipeWake _ _ => exact holds_execPipeWake h
  | pipeWakeEnd _ => exact holds_execPipeWakeEnd h
  | read _ => exact holds_execRead h
  | write _ => exact holds_execWrite h
  | multiRead _ => exact holds_execMultiRead h
  | domainRead _ => exact holds_execDomainRead h
  | domainWrite _ => exact holds_execDomainWrite h
  | sopOpen _ => exact holds_execSopOpen h
  | sopClose _ => exact holds_execSopClose h
  | sopNop _ => exact holds_execSopNop h
  | arpRequest _ _ => exact holds_execArpRequest h
  | neighbourSolicitation _ _ => exact holds_execNeighbourSolicitation h
  | sessionIdleTimeout _ => exact holds_execSessionIdleTimeout h
  | sessionForceClose _ => exact holds_execSessionForceClose h
  | sopKeySlotWrite _ => exact holds_execSopKeySlotWrite h
  | sopAuthRequiredWrite _ => exact holds_execSopAuthRequiredWrite h
  | mboxDoorbell _ => exact holds_execMboxDoorbell h
  | slowRequestComplete => exact holds_execSlowRequestComplete h
  | objectWrite _ _ _ => exact holds_execObjectWrite h
  | ringHead _ _ => exact holds_execRingHead h
  | ringTail _ _ => exact holds_execRingTail h
  | ringStatusClear _ _ => exact holds_execRingStatusClear h
  | commSummaryClear _ => exact holds_execCommSummaryClear h
  | functionRequestHold _ => exact holds_execFunctionRequestHold h
  | functionRequestRun _ => exact holds_execFunctionRequestRun h
  | functionRequestOff _ => exact holds_execFunctionRequestOff h
  | functionRequestFence _ => exact holds_execFunctionRequestFence h
  | drainComplete _ => exact holds_execDrainComplete h
  | forcedDrain _ => exact holds_execForcedDrain h
  | startComplete _ => exact holds_execStartComplete h
  | modeSummaryClear _ => exact holds_execModeSummaryClear h
  | lifeSummaryClear _ => exact holds_execLifeSummaryClear h
  | clockSummaryClear _ => exact holds_execClockSummaryClear h
  | pagesReceived _ _ => exact holds_execPagesReceived h
  | anWaitExpiry _ => exact holds_execAnWaitExpiry h
  | pdDwellExpiry _ => exact holds_execPdDwellExpiry h
  | rateDetected _ => exact holds_execRateDetected h
  | trainingComplete _ => exact holds_execTrainingComplete h
  | trainingLimitExpiry _ => exact holds_execTrainingLimitExpiry h
  | linkUp _ => exact holds_execLinkUp h
  | linkLoss _ _ => exact holds_execLinkLoss h
  | holdTimeExpiry _ => exact holds_execHoldTimeExpiry h
  | receivedFrame _ _ _ _ => exact holds_execReceivedFrame h
  | pauseFrame _ _ => exact holds_execPauseFrame h
  | pfcFrame _ _ => exact holds_execPfcFrame h
  | macControlFrame _ _ => exact holds_execMacControlFrame h
  | pauseTimerExpiry _ _ => exact holds_execPauseTimerExpiry h
  | pauseWatchdogExpiry _ _ => exact holds_execPauseWatchdogExpiry h
  | pauseWatchdogIgnoreEnd _ _ => exact holds_execPauseWatchdogIgnoreEnd h
  | cutThroughStart _ => exact holds_execCutThroughStart h
  | transmitUnderrun _ => exact holds_execTransmitUnderrun h
  | transmitEnd _ => exact holds_execTransmitEnd h
  | cleanFramesLimit _ => exact holds_execCleanFramesLimit h
  | underrunStepReset _ => exact holds_execUnderrunStepReset h
  | statsClearReceive _ => exact holds_execStatsClearReceive h
  | statsClearTransmit _ => exact holds_execStatsClearTransmit h
  | statsClearBoth _ => exact holds_execStatsClearBoth h
  | portFlagsClear _ _ => exact holds_execPortFlagsClear h
  | statsRxHalfClear _ _ => exact holds_execStatsRxHalfClear h
  | statsTxHalfClear _ _ => exact holds_execStatsTxHalfClear h
  | ingressSlotGrant _ _ => exact holds_execIngressSlotGrant h
  | lateLengthCheck _ => exact holds_execLateLengthCheck h
  | parseGraphSelect _ => exact holds_execParseGraphSelect h
  | standardGraphLoad => exact holds_execStandardGraphLoad h
  | pipeFlagsClear _ _ => exact holds_execPipeFlagsClear h
  | insert => exact holds_execInsert h
  | modify => exact holds_execModify h
  | delete => exact holds_execDelete h
  | lookup => exact holds_execLookup h
  | hitTest => exact holds_execHitTest h
  | learnEvent => exact holds_execLearnEvent h
  | bucketRestore _ _ => exact holds_execBucketRestore h
  | scrub _ _ => exact holds_execScrub h
  | bucketRebuild _ _ _ => exact holds_execBucketRebuild h
  | tableSummaryClear _ => exact holds_execTableSummaryClear h
  | ruleWrite => exact holds_execRuleWrite h
  | ruleDelete => exact holds_execRuleDelete h
  | ruleRead => exact holds_execRuleRead h
  | shadowMismatch _ _ _ => exact holds_execShadowMismatch h
  | shadowRebuild _ _ => exact holds_execShadowRebuild h
  | rehomingSwitch _ _ => exact holds_execRehomingSwitch h
  | reliefSummaryClear _ => exact holds_execReliefSummaryClear h
  | versionOpen => exact holds_execVersionOpen h
  | commit => exact holds_execCommit h
  | versionAbort => exact holds_execVersionAbort h
  | abortComplete => exact holds_execAbortComplete h
  | primingStart => exact holds_execPrimingStart h
  | commitSwitch => exact holds_execCommitSwitch h
  | slotRetire _ => exact holds_execSlotRetire h
  | cleanupComplete _ => exact holds_execCleanupComplete h
  | versionCancel => exact holds_execVersionCancel h
  | staleSweep _ => exact holds_execStaleSweep h
  | slotAudit _ => exact holds_execSlotAudit h
  | castWalk => exact holds_execCastWalk h
  | castWalkEnd => exact holds_execCastWalkEnd h
  | sampleSeed _ => exact holds_execSampleSeed h
  | recircDepthPeak _ _ => exact holds_execRecircDepthPeak h
  | grantTimeout _ => exact holds_execGrantTimeout h
  | spillWrite => exact holds_execSpillWrite h
  | binFlush _ => exact holds_execBinFlush h
  | spillReturn => exact holds_execSpillReturn h
  | ddr5Reread _ _ _ => exact holds_execDdr5Reread h
  | queueSummaryClear _ => exact holds_execQueueSummaryClear h
  | voqPass _ => exact holds_execVoqPass h
  | creditGrant _ => exact holds_execCreditGrant h
  | egressDecision _ => exact holds_execEgressDecision h
  | shaperRefill _ _ => exact holds_execShaperRefill h
  | fabricLaneTrained _ => exact holds_execFabricLaneTrained h
  | hello _ _ => exact holds_execHello h
  | fabricLaneLoss _ => exact holds_execFabricLaneLoss h
  | dataCell _ _ => exact holds_execDataCell h
  | controlCell _ _ => exact holds_execControlCell h
  | request _ => exact holds_execRequest h
  | grant _ => exact holds_execGrant h
  | linkCredit _ _ => exact holds_execLinkCredit h
  | reach _ _ => exact holds_execReach h
  | cellFillTimeout _ _ => exact holds_execCellFillTimeout h
  | cellPlacement _ => exact holds_execCellPlacement h
  | unreachableHoldExpiry _ => exact holds_execUnreachableHoldExpiry h
  | staleCellDiscard _ => exact holds_execStaleCellDiscard h
  | reachBlockExpiry _ _ => exact holds_execReachBlockExpiry h
  | reorderTimeout _ => exact holds_execReorderTimeout h
  | requestRefresh _ => exact holds_execRequestRefresh h
  | requestFlagExpiry _ _ _ => exact holds_execRequestFlagExpiry h
  | fabricSummaryClear _ => exact holds_execFabricSummaryClear h
  | gcmEncrypt => exact holds_execGcmEncrypt h
  | gcmDecrypt => exact holds_execGcmDecrypt h
  | cmac => exact holds_execCmac h
  | wrap => exact holds_execWrap h
  | unwrap => exact holds_execUnwrap h
  | exportKey => exact holds_execExportKey h
  | jobEnd _ => exact holds_execJobEnd h
  | jobResume _ => exact holds_execJobResume h
  | keyLoad _ => exact holds_execKeyLoad h
  | keyLoadEnd => exact holds_execKeyLoadEnd h
  | keyErase _ => exact holds_execKeyErase h
  | keyClearLoad _ => exact holds_execKeyClearLoad h
  | jobAbort _ => exact holds_execJobAbort h
  | cipherSummaryClear _ => exact holds_execCipherSummaryClear h
  | fault _ => exact holds_execFault h
  | faultAck _ => exact holds_execFaultAck h
  | correctedAutoAck _ => exact holds_execCorrectedAutoAck h
  | firstErrorClear => exact holds_execFirstErrorClear h
  | hostFence _ => exact holds_execHostFence h
  | release _ => exact holds_execRelease h
  | releaseWithoutSlice _ => exact holds_execReleaseWithoutSlice h
  | releaseEnd _ => exact holds_execReleaseEnd h
  | fenceSweep _ => exact holds_execFenceSweep h
  | takeover => exact holds_execTakeover h
  | groupReturn _ => exact holds_execGroupReturn h
  | groupReturnEnd _ => exact holds_execGroupReturnEnd h
  | inject _ => exact holds_execInject h
  | timingMargin _ _ => exact holds_execTimingMargin h
  | faultSummaryClear _ => exact holds_execFaultSummaryClear h
  | kilnTick => exact holds_execKilnTick h
  | sliceEnd _ _ => exact holds_execSliceEnd h
  | sliceTimeout _ => exact holds_execSliceTimeout h
  | sliceRequest _ => exact holds_execSliceRequest h
  | flowFlush _ => exact holds_execFlowFlush h
  | flowCounterRead _ _ => exact holds_execFlowCounterRead h
  | flowCounterWrite _ _ _ => exact holds_execFlowCounterWrite h
  | caliperFreeze => exact holds_execCaliperFreeze h
  | caliperRestart => exact holds_execCaliperRestart h
  | caliperClearAll => exact holds_execCaliperClearAll h
  | counterSummaryClear _ => exact holds_execCounterSummaryClear h
  | routineDispatch _ => exact holds_execRoutineDispatch h
  | continueWord _ => exact holds_execContinueWord h
  | jumpWord _ => exact holds_execJumpWord h
  | branchSet _ => exact holds_execBranchSet h
  | branchClear _ => exact holds_execBranchClear h
  | callWord _ => exact holds_execCallWord h
  | returnWord _ => exact holds_execReturnWord h
  | waitWord _ => exact holds_execWaitWord h
  | checkpoint _ => exact holds_execCheckpoint h
  | endRoutine _ => exact holds_execEndRoutine h
  | trapReturn _ => exact holds_execTrapReturn h
  | microTrap _ => exact holds_execMicroTrap h
  | reloadStartImage => exact holds_execReloadStartImage h
  | reloadStartHold => exact holds_execReloadStartHold h
  | reloadVerified _ => exact holds_execReloadVerified h
  | sequencerRelease => exact holds_execSequencerRelease h
  | sequencerLoaded _ => exact holds_execSequencerLoaded h
  | atelierSummaryClear _ => exact holds_execAtelierSummaryClear h
  | ppsInEdge => exact holds_execPpsInEdge h
  | ppsOutEdge => exact holds_execPpsOutEdge h
  | ppsOutWidthExpiry => exact holds_execPpsOutWidthExpiry h
  | todTxStart => exact holds_execTodTxStart h
  | todMessageReceived _ => exact holds_execTodMessageReceived h
  | perstNLow => exact holds_execPerstNLow h
  | perstNRise => exact holds_execPerstNRise h
  | ddr5Alert _ => exact holds_execDdr5Alert h
  | trstNLow => exact holds_execTrstNLow h
  | extestPulse => exact holds_execExtestPulse h
  | extestTrain => exact holds_execExtestTrain h
  | smbusReadBootState => exact holds_execSmbusReadBootState h
  | smbusReadLifeState => exact holds_execSmbusReadLifeState h
  | smbusReadDieTemp => exact holds_execSmbusReadDieTemp h
  | smbusReadTempAlarm => exact holds_execSmbusReadTempAlarm h
  | smbusWriteTempAlarm _ _ => exact holds_execSmbusWriteTempAlarm h
  | smbusReadRailStatus => exact holds_execSmbusReadRailStatus h
  | smbusReadRailVoltage _ _ => exact holds_execSmbusReadRailVoltage h
  | powerRemoval every => exact absurd (.inr ⟨every, rfl⟩) hb
  | sdRefclkLoss _ => exact holds_execSdRefclkLoss h
  | sdRefclkReturn _ => exact holds_execSdRefclkReturn h
  | timebaseStep _ => exact holds_execTimebaseStep h
  | hostInjection _ _ => exact holds_execHostInjection h
  | flashRereadEnd _ _ => exact holds_execFlashRereadEnd h
  | dieTempUpdate _ => exact holds_execDieTempUpdate h

/-- Any command keeps all that `Holds` says, but for a life-cycle code that becomes the target of the blow in progress. -/
theorem holds_exec (c : Instr) (h : Holds q f n s) :
    ∃ f', (f' = f ∨ EndsBlow c ∧ s.boot.blowing = some f') ∧ HoldsR q f' n (exec c s) := by
  by_cases hb : EndsBlow c
  · obtain rfl | ⟨every, rfl⟩ := hb
    · refine ⟨s.boot.blowing.getD f, ?_, holds_execFuseBlowEnd h⟩
      cases s.boot.blowing with
      | none => exact .inl rfl
      | some target => exact .inr ⟨.inl rfl, rfl⟩
    · obtain ⟨f', hf, hr⟩ := holds_execPowerRemoval (a1 := every) h
      exact ⟨f', hf.imp_right (⟨.inr ⟨every, rfl⟩, ·⟩), hr⟩
  · exact ⟨f, .inl rfl, holds_exec_of_not_endsBlow hb h⟩

/-- A state of the block's shape is of the kind, with the queue, the life-cycle code and the free values that it has itself. -/
theorem holds_of_shape (hs : Shape s) (hv : SlotsGood s.versions) : Holds s.pending s.boot.fuses s.freeIx s := by
  obtain ⟨hobj, hdom⟩ := Bool.and_eq_true_iff.mp hs.dict
  exact ⟨hobj, hdom, hs.ports, hs.pipes, hs.sessions, hv, hs.lanes, hs.seqs, rfl, rfl, Nat.le_refl _⟩

theorem shape_of_holds (h : Holds q f n s) : Shape s :=
  ⟨Bool.and_eq_true_iff.mpr ⟨h.obj, h.dom⟩, h.ports, h.pipes, h.sessions, h.versions.1, h.lanes, h.seqs⟩

/-- What a step makes of a state of the kind: a command takes itself off the queue, a core clock leaves the queue empty. -/
theorem holds_step (h : Holds q f n s) : ∃ f', HoldsR q.tail f' n (step s) := by
  obtain rfl := h.pending
  unfold step
  cases e : s.pending with
  | nil =>
    rw [e] at h
    exact ⟨f, HoldsR.next (holds_tick h)⟩
  | cons c rest =>
    obtain ⟨f', -, hr⟩ := holds_exec c (s := { s with pending := rest }) { h with pending := rfl }
    exact ⟨f', hr⟩

/-- Settles O5: `Holds`, of which the shape is a part, is kept by the command at the front of the queue and by a core clock. -/
theorem stepKeepsShape : Obligations.StepKeepsShape := by
  intro s t hs hv e
  obtain ⟨f', hr⟩ := holds_step (holds_of_shape hs hv)
  exact shape_of_holds (HoldsR.of_eq e hr)

end Sys2Proof.Proofs

/-! PROOFS. The end of a frame (R23, R232, R424), the ingress slots (R13, R137, R152), and a core clock of Cast on a frame that holds no
reference (R262). -/

namespace Sys2Proof.Proofs

open Sys2Proof.Machine Sys2Proof.Laws

variable {s t u : State} {id code p k v n : Nat} {f g : Frame}

/-! ### The dictionary's two maps -/

theorem dictWf_iff : s.dictWf = true ↔ Sparse.wf Dict.reset s.obj = true ∧ Sparse.wf Defaults.dom s.dom = true :=
  Bool.and_eq_true_iff

theorem dictWf_put (h : s.dictWf = true) : (s.put k v).dictWf = true :=
  dictWf_iff.mpr ⟨put_wf (dictWf_iff.mp h).1, (dictWf_iff.mp h).2⟩

theorem dictWf_bump64 (h : s.dictWf = true) : (s.bump64 k).dictWf = true := dictWf_put h

/-- A record reads as it was set, where its bytes hold the value. -/
theorem record_putRecord {i : Nat} (h : Sparse.wf Defaults.dom s.dom = true) (hv : v < 256 ^ n) :
    (s.putRecord k n i v).record k n i = v := by
  have hb := sparse_getN_setN h (Defaults.domAddr k (n * i)) (toBe n v)
  rw [toBe_length] at hb
  exact (congrArg beNat hb).trans (beNat_toBe hv)

/-! ### What is counted and what is set in objects -/

/-- `t` is `s` but for the dictionary. -/
def DictApart (s t : State) : Prop := ∃ o d, t = { s with obj := o, dom := d }

/-- `t` is `s` but for objects of the dictionary. -/
def ObjectsApart (s t : State) : Prop := ∃ o, t = { s with obj := o }

theorem ObjectsApart.refl : ObjectsApart s s := ⟨s.obj, rfl⟩

theorem ObjectsApart.flag (h : ObjectsApart s t) : ObjectsApart s (t.flag k n) := by
  obtain ⟨o, rfl⟩ := h
  exact ⟨_, rfl⟩

theorem ObjectsApart.bump64 (h : ObjectsApart s t) : ObjectsApart s (t.bump64 k) := by
  obtain ⟨o, rfl⟩ := h
  exact ⟨_, rfl⟩

theorem ObjectsApart.ite {c : Prop} [Decidable c] (ht : ObjectsApart s t) (hu : ObjectsApart s u) :
    ObjectsApart s (if c then t else u) := by
  split <;> assumption

theorem ObjectsApart.dom (h : ObjectsApart s t) : t.dom = s.dom := by
  obtain ⟨o, rfl⟩ := h
  rfl

theorem DictApart.objects (h : DictApart s t) (h' : ObjectsApart t u) : DictApart s u := by
  obtain ⟨o, d, rfl⟩ := h
  obtain ⟨o', rfl⟩ := h'
  exact ⟨o', d, rfl⟩

theorem ObjectsApart.dict (h : ObjectsApart s t) : DictApart s t := DictApart.objects ⟨s.obj, s.dom, rfl⟩ h

theorem DictApart.frames (h : DictApart s t) : t.frames = s.frames := by
  obtain ⟨o, d, rfl⟩ := h
  rfl

theorem DictApart.copies (h : DictApart s t) : t.copies = s.copies := by
  obtain ⟨o, d, rfl⟩ := h
  rfl

theorem DictApart.queues (h : DictApart s t) : t.queues = s.queues := by
  obtain ⟨o, d, rfl⟩ := h
  rfl

theorem DictApart.versions (h : DictApart s t) : t.versions = s.versions := by
  obtain ⟨o, d, rfl⟩ := h
  rfl

theorem DictApart.ports (h : DictApart s t) : t.ports = s.ports := by
  obtain ⟨o, d, rfl⟩ := h
  rfl

theorem DictApart.sop (h : DictApart s t) : t.sop = s.sop := by
  obtain ⟨o, d, rfl⟩ := h
  rfl

theorem DictApart.boot (h : DictApart s t) : t.boot = s.boot := by
  obtain ⟨o, d, rfl⟩ := h
  rfl

/-- A code sets nothing but objects beside its event of the Caliper. -/
theorem objectsApart_code : ObjectsApart (s.count (0x200 + code)) (s.code p code) := by
  unfold State.code
  repeat' first
    | with_reducible exact ObjectsApart.refl
    | with_reducible apply ObjectsApart.ite
    | with_reducible apply ObjectsApart.flag
    | with_reducible apply ObjectsApart.bump64

/-- An event counted changes the dictionary alone. -/
theorem dictApart_countN {e : Nat} : DictApart s (s.countN e n) := by
  unfold State.countN
  split
  · exact ObjectsApart.refl.dict
  · exact DictApart.objects ⟨s.obj, _, rfl⟩ (ObjectsApart.refl.flag.ite .refl)

theorem dictApart_code : DictApart s (s.code p code) := dictApart_countN.objects objectsApart_code

theorem record_congr {i : Nat} (h : t.dom = s.dom) : t.record k n i = s.record k n i := by
  unfold State.record State.bytes
  rw [h]

theorem satAdd_lt (w v n : Nat) : satAdd w v n < 2 ^ w := by
  have := Nat.two_pow_pos w
  unfold satAdd
  omega

/-- A Caliper record gives back the count that it was made of. -/
theorem bits_caliperRecord {c : Nat} (h : c < 2 ^ 48) : caliperRecord c < 256 ^ 8 ∧ bits (caliperRecord c) 47 0 = c := by
  have hb : b2n (c == 2 ^ 48 - 1) ≤ 1 := by unfold b2n; split <;> omega
  unfold caliperRecord field bits
  omega

/-- An event is counted by one unless the Caliper is frozen (R424). -/
theorem count_caliper {e : Nat} (hw : s.dictWf = true) (hf : s.obj? Obj.caliperFreeze ≠ 1) :
    bits ((s.count e).record Obj.caliperEvents 8 e) 47 0 = satAdd 48 (bits (s.record Obj.caliperEvents 8 e) 47 0) 1 := by
  obtain ⟨hlt, hbits⟩ := bits_caliperRecord (satAdd_lt 48 (bits (s.record Obj.caliperEvents 8 e) 47 0) 1)
  have hr := record_putRecord (k := Obj.caliperEvents) (i := e) (dictWf_iff.mp hw).2 hlt
  rw [← hbits, ← hr]
  unfold State.count State.countN
  rw [if_neg (by simp [hf])]
  dsimp only
  split
  · exact congrArg (bits · 47 0) (record_congr flag_dom)
  · rfl

/-! ### Frames and version slots -/

theorem frame?_congr (h : t.frames = s.frames) : t.frame? id = s.frame? id := by
  unfold State.frame?
  rw [h]

/-- A frame changed in all but its number leaves the frames of the other numbers. -/
theorem frame?_setFrame_ne {j : Nat} {m : Frame → Frame} (hj : j ≠ id) (hm : ∀ x : Frame, x.id = id → (m x).id = id) :
    (s.setFrame id m).frame? j = s.frame? j := by
  have hl : ∀ l : List Frame,
      (l.map fun x => if x.id = id then m x else x).find? (fun x => x.id == j) = l.find? fun x => x.id == j := by
    intro l
    induction l with
    | nil => rfl
    | cons x l ih =>
      by_cases hx : x.id = id
      · have hn : (id == j) = false := beq_false_of_ne hj.symm
        rw [List.map_cons, if_pos hx, List.find?_cons, List.find?_cons, hm x hx, hx, hn, ih]
      · rw [List.map_cons, if_neg hx, List.find?_cons, List.find?_cons, ih]
  exact hl s.frames

/-- The frames of the other numbers stand as they stood when a frame has changed in all but its number. -/
theorem filter_setFrame {m : Frame → Frame} (hm : ∀ x : Frame, x.id = id → (m x).id = id) :
    (s.setFrame id m).frames.filter (fun g => g.id != id) = s.frames.filter fun g => g.id != id := by
  unfold State.setFrame
  induction s.frames with
  | nil => rfl
  | cons x l ih =>
    by_cases hx : x.id = id
    · simpa [hx, hm x hx] using ih
    · simpa [hx] using ih

/-! ### The end of a frame (R232, R262) -/

/-- A pointer returned changes the Armature alone. -/
theorem returnPointer_arm : ∃ a, s.returnPointer id p = { s with arm := a } := by
  unfold State.returnPointer
  split <;> exact ⟨_, rfl⟩

/-- The pointers of a frame's cells returned change the Armature alone. -/
theorem returnCells_arm (l : List Nat) (s : State) :
    ∃ a, l.foldl (fun s c => s.returnPointer id (s.pointerOf id c)) s = { s with arm := a } := by
  induction l generalizing s with
  | nil => exact ⟨s.arm, rfl⟩
  | cons c l ih =>
    obtain ⟨a, ha⟩ := returnPointer_arm (s := s) (id := id) (p := s.pointerOf id c)
    rw [List.foldl_cons, ha]
    exact ih _

theorem freeCells_eq (hf : s.frame? id = some f) :
    ∃ a, s.freeCells id = ({ s with arm := a } : State).setFrame id fun x => { x with cells := [] } := by
  obtain ⟨a, ha⟩ := returnCells_arm (id := id) f.cells s
  exact ⟨a, by rw [State.freeCells, hf, ← ha]⟩

/-- The versions after a frame with a stamp has left: its slot's in-flight count has fallen by one (R232). -/
def versionsLeft (v : Versions) : Option Nat → Versions
  | some i => { v with slots := modifyAt v.slots i fun x => { x with inFlight := x.inFlight - 1 } }
  | none => v

/-- A frame that leaves changes the Armature, the learn events, its slot and the frames of its number. -/
theorem retire_eq (hf : s.frame? id = some f) :
    ∃ a e, s.retire id = { s with arm := a, em := e, versions := versionsLeft s.versions f.stamp,
                                  frames := s.frames.filter fun g => g.id != id } := by
  obtain ⟨a, ha⟩ := freeCells_eq hf
  have hfr := filter_setFrame (s := s) (id := id) (m := fun x => { x with cells := [] }) fun _ h => h
  rw [State.retire, hf, ← hfr]
  dsimp only
  rw [ha]
  cases f.stamp <;> exact ⟨a, _, rfl⟩

/-- The end of a frame is the count of its code, and its leaving. -/
theorem endFrame_eq (hf : s.frame? id = some f) : s.endFrame id code = (s.code (s.framePipe f) code).retire id := by
  rw [State.endFrame, hf]

/-- Settles O35: the code is counted before the frame leaves, and what its leaving changes is not what the count is kept in. -/
theorem endedFramesLeave : Obligations.EndedFramesLeave := by
  intro s id code f hw _ hf t
  have h : DictApart s (s.code (s.framePipe f) code) := dictApart_code
  obtain ⟨a, e, he⟩ := retire_eq ((frame?_congr h.frames).trans hf)
  have ht : t = _ := (endFrame_eq hf).trans he
  have hv : t.versions = versionsLeft s.versions f.stamp := by rw [ht, h.versions]
  have hdom : t.dom = (s.count (0x200 + code)).dom := by rw [ht, objectsApart_code.dom]
  refine ⟨fun hc => ?_, by rw [ht, h.frames], by rw [ht, h.copies], by rw [ht, h.ports], by rw [ht, h.sop], by rw [ht, h.boot],
    fun i hi hlt => ?_, fun i j hi hj => ?_, fun hn => ?_⟩
  · rw [record_congr hdom, count_caliper hw hc]
  · rw [State.slot, hv, hi]
    simp [versionsLeft, modifyAt, State.slot, hlt]
  · rw [State.slot, hv, hi]
    simp [versionsLeft, modifyAt, State.slot, hj.symm]
  · rw [hv, hn]
    rfl

/-! ### Ingress slots (R13, R137) -/

/-- A pipe that may not grant, or that has spent the clock's slots, is left as it is. -/
theorem grant_closed {pipe : Pipe} {env : GrantEnv} (h : s.grants pipe.val = false ∨ 2 ≤ (s.pipe pipe.val).slotsIn) :
    exec (.ingressSlotGrant pipe env) s = .next s := by
  change execIngressSlotGrant pipe env s = _
  unfold execIngressSlotGrant
  exact if_pos (by simpa using h)

/-- In a pipe that may grant, the frame offered runs its pass; where none is offered nothing changes. -/
theorem grant_open {pipe : Pipe} {env : GrantEnv} (h : s.grants pipe.val = true) (hs : (s.pipe pipe.val).slotsIn < 2) :
    (s.slotFrame pipe.val = none → exec (.ingressSlotGrant pipe env) s = .next s) ∧
    ∀ f g, s.slotFrame pipe.val = some f → (s.beginPass f pipe.val).frame? f.id = some g →
      exec (.ingressSlotGrant pipe env) s = .next ((s.beginPass f pipe.val).runPass g pipe.val env) := by
  have hn : ¬ ((!s.grants pipe.val || decide (2 ≤ (s.pipe pipe.val).slotsIn)) = true) := by simp [h, hs]
  change (_ → execIngressSlotGrant pipe env s = _) ∧ ∀ f g, _ → _ → execIngressSlotGrant pipe env s = _
  unfold execIngressSlotGrant
  refine ⟨fun hf => ?_, fun f g hf hg => ?_⟩
  · simp only [if_neg hn, hf]
  · simp only [if_neg hn, hf, hg]

/-- The slot goes to the first class of four that offers a frame. -/
theorem slotFrame_of_preference {a b c d : SlotClass} (h : slotPreference (s.pipe n).window = [a, b, c, d]) :
    s.slotFrame n = ((s.slotOffer n a).orElse fun _ => (s.slotOffer n b).orElse fun _ => (s.slotOffer n c).orElse fun _ =>
      s.slotOffer n d) := by
  unfold State.slotFrame
  rw [h]
  simp only [List.findSome?_cons, List.findSome?_nil]
  cases s.slotOffer n a with
  | some x => rfl
  | none =>
    cases s.slotOffer n b with
    | some x => rfl
    | none =>
      cases s.slotOffer n c with
      | some x => rfl
      | none => cases s.slotOffer n d <;> rfl

/-- A frame that leaves its queue for a pass leaves copies and queues, and the dictionary in its canonical form. -/
theorem beginPass_keeps (hw : s.dictWf = true) :
    (s.beginPass f n).copies = s.copies ∧ (s.beginPass f n).queues = s.queues ∧ (s.beginPass f n).dictWf = true := by
  unfold State.beginPass
  split
  case h_1 => exact ⟨rfl, rfl, hw⟩
  case h_2 =>
    dsimp only
    split <;> exact ⟨rfl, rfl, dictWf_put (dictWf_put (by exact hw))⟩
  case h_3 =>
    dsimp only
    split <;> exact ⟨rfl, rfl, dictWf_put (by exact hw)⟩

/-! ### A walk that fails (R146, R152) -/

/-- The state in which a frame ends whose walk failed with a cause: the failure is counted, and the frame holds what the walk found. -/
def failedWalk (s : State) (g : Frame) (n : Nat) (c : Cause) : State :=
  let u := s.countFailure n (some c)
  let x := u.checkWhole (u.parsed g (s.parseFrame g) (s.parseView g)) n true
  x.1.setFrame g.id fun _ => x.2.1

/-- A first pass whose walk fails with FAILURE_ACTION 0 ends its frame with the failure's code (R152). -/
theorem runPass_of_failure {env : GrantEnv} {c : Cause} (hr : g.replayed = false) (hk : g.kept = none) (he : g.resume = none)
    (hc : g.failure (s.parseFrame g) = some c) (ha : g.latched.failureAction = 0) :
    s.runPass g n env = (failedWalk s g n c).endPass g.id n c.code := by
  simp only [State.runPass, hk, he, State.parsedPass, hr, hc, ha, failedWalk]
  rfl

theorem checkWhole_state {b : Bool} : (s.checkWhole g n b).1 = s ∨ (s.checkWhole g n b).1 = s.countConflict n := by
  unfold State.checkWhole
  split
  · exact .inl rfl
  · dsimp only
    split
    · exact .inr rfl
    · exact .inl rfl

theorem checkWhole_id {b : Bool} : (s.checkWhole g n b).2.1.id = g.id := by
  unfold State.checkWhole
  split <;> rfl

theorem parsed_id {q : Parse} {i : ParseInput} : (s.parsed g q i).id = g.id := by
  unfold State.parsed
  dsimp only
  split <;> rfl

theorem bit_setBit_of_lt {m : Nat} (h : n < m) : bit (setBit v m) n = bit v n := by
  unfold setBit
  split
  · rfl
  · obtain ⟨d, rfl⟩ : ∃ d, m = n + 1 + d := ⟨m - (n + 1), by omega⟩
    have e : 2 ^ (n + 1 + d) = 2 ^ n * (2 * 2 ^ d) := by rw [Nat.pow_add, Nat.pow_succ, Nat.mul_assoc]
    rw [bit, bit, e, Nat.add_mul_div_left _ _ (Nat.two_pow_pos n), Nat.add_mul_mod_self_left]

/-- A failure of a walk is counted, and PIPE_FLAGS [0] is set (R152). -/
theorem countFailure_flag {c : Cause} (hw : s.dictWf = true) :
    ObjectsApart s (s.countFailure n (some c)) ∧ bit ((s.countFailure n (some c)).obj? (Obj.pipeFlags n)) 0 = true ∧
    (s.countFailure n (some c)).dictWf = true := by
  have hw' := dictWf_bump64 (k := Obj.parseFailures n) hw
  refine ⟨ObjectsApart.refl.bump64.flag, ?_, dictWf_put hw'⟩
  rw [State.countFailure, Option.isSome_some, if_pos rfl, obj?_flag (dictWf_iff.mp hw').1, if_pos rfl, bit_setBit]

/-- A region end that a whole frame falls short of sets PIPE_FLAGS [1], and leaves [0] as it was (R146). -/
theorem checkWhole_flag {b : Bool} (hw : s.dictWf = true) :
    ObjectsApart s (s.checkWhole g n b).1 ∧ bit ((s.checkWhole g n b).1.obj? (Obj.pipeFlags n)) 0 = bit (s.obj? (Obj.pipeFlags n)) 0 := by
  obtain h | h := checkWhole_state (s := s) (g := g) (n := n) (b := b) <;> rw [h]
  · exact ⟨.refl, rfl⟩
  · have hne : Obj.pipeFlags n ≠ Obj.lateConflicts n := by simp [Obj.pipeFlags, Obj.lateConflicts, Dict.key]
    refine ⟨ObjectsApart.refl.bump64.flag, ?_⟩
    have hw' := dictWf_bump64 (k := Obj.lateConflicts n) hw
    rw [State.countConflict, obj?_flag (dictWf_iff.mp hw').1, if_pos rfl, bit_setBit_of_lt Nat.one_pos]
    exact congrArg (bit · 0) (obj?_put_ne (dictWf_iff.mp hw).1 hne)

/-- What a failed walk sets and leaves: PIPE_FLAGS [0] is set, and copies, queues and the other frames stand as they stood. -/
theorem failedWalk_keeps {c : Cause} (hw : s.dictWf = true) :
    (failedWalk s g n c).copies = s.copies ∧ (failedWalk s g n c).queues = s.queues ∧
    bit ((failedWalk s g n c).obj? (Obj.pipeFlags n)) 0 = true ∧
    ∀ j, j ≠ g.id → (failedWalk s g n c).frame? j = s.frame? j := by
  obtain ⟨h, hbit, hwf⟩ := countFailure_flag (n := n) (c := c) hw
  obtain ⟨h', hbit'⟩ := checkWhole_flag (n := n) (b := true)
    (g := (s.countFailure n (some c)).parsed g (s.parseFrame g) (s.parseView g)) hwf
  have hs := h.dict.objects h'
  refine ⟨hs.copies, hs.queues, hbit'.trans hbit, fun j hj => ?_⟩
  exact (frame?_setFrame_ne hj fun _ _ => checkWhole_id.trans parsed_id).trans (frame?_congr hs.frames)

/-- Settles O41: the slot's class and frame by the order of the window, and the failed walk by what counting it and judging its region
end leave. -/
theorem slotsAreGranted : Obligations.SlotsAreGranted := by
  intro s pipe env n
  refine ⟨grant_closed, fun a b c d h => slotFrame_of_preference h, rfl, rfl, rfl, fun hg hs => ?_⟩
  obtain ⟨hnone, hsome⟩ := grant_open (env := env) hg hs
  refine ⟨hnone, fun f g hf hfr => ⟨hsome f g hf hfr, fun c hw hr hk he hc ha => ?_⟩⟩
  obtain ⟨hcopies, hqueues, hwf⟩ := beginPass_keeps (f := f) (n := n) hw
  obtain ⟨hc', hq', hb, hframes⟩ := failedWalk_keeps (g := g) (n := n) (c := c) hwf
  exact ⟨failedWalk (s.beginPass f n) g n c, (hsome f g hf hfr).trans (congrArg _ (runPass_of_failure hr hk he hc ha)),
    hc'.trans hcopies, hq'.trans hqueues, hb, hframes⟩

/-! ### A core clock of Cast (R260, R262) -/

/-- A frame of slot 0 on a walk of one list entry, with no reference: CAST_WALK starts the count at 1, the walk's own (R262). -/
def unheldFrame : Frame :=
  { arrivingFrame .front 0 (.walking (2 ^ 29) 0) [] true 0 .off with stamp := some 0 }

/-- The device in READY with that frame alone, which slot 0 counts. List entry 0 names front port 0, and the port has been flushed, so
that it refuses the copy (R127). -/
def unheldWalk : State :=
  let s := (State.reset.put Obj.bootState 6).putRecord Obj.replicationList 8 0 (2 ^ 63)
  let s := (s.setPort 0 fun x => { x with flushed := true }).setSlot 0 fun x => { x with inFlight := 1 }
  { s with frames := [unheldFrame], nextId := 1 }

/-- In a core clock the walk's copy takes the frame's one reference and is refused: the frame leaves with it, and slot 0 counts it no
more. -/
theorem slot_tick_unheldWalk : ((tick unheldWalk).slot 0).inFlight = 0 := by decide +kernel

/-- Refutes O2: with no table command being written, the versions change all the same where a core clock of Cast ends the last reference
of a frame. The statement leaves out neither walks nor a walk without a reference of its own. -/
theorem not_idleStepIsOneClock : ¬ Obligations.IdleStepIsOneClock := by
  intro h
  obtain ⟨t, ht, -, -, -, -, hem, -⟩ := h unheldWalk rfl
  obtain rfl : tick unheldWalk = t := Host.Outcome.next.inj ht
  have hv : (tick unheldWalk).versions = unheldWalk.versions := (hem (.inl rfl)).2
  have hs : (tick unheldWalk).slot 0 = unheldWalk.slot 0 := by rw [State.slot, hv, State.slot]
  have h1 : (unheldWalk.slot 0).inFlight = 1 := rfl
  rw [← hs, slot_tick_unheldWalk] at h1
  exact absurd h1 (by decide)

end Sys2Proof.Proofs

/-! PROOFS. Objects and host writes (02): one object set, the checks of an access in their order, and the settings, clears, ring pointers
and session settings that the Plinth and the fast domains take. -/

namespace Sys2Proof.Proofs

open Sys2Proof.Machine Sys2Proof.Safety Sys2Proof.Laws

variable {s t : State} {f : Family} {i j k v mask n : Nat} {b : List Byte} {sig : Option Bool}

/-! ### One object, and the bytes of one region -/

theorem dictWf_putBytes {off : Nat} (h : s.dictWf = true) : (s.putBytes k off b).dictWf = true :=
  dictWf_iff.mpr ⟨(dictWf_iff.mp h).1, sparse_setN_wf (dictWf_iff.mp h).2⟩

/-- Settles O11: both maps of the dictionary are canonical, and read after a set as a sparse map does. -/
theorem settingAnObjectChangesItAlone : Obligations.SettingAnObjectChangesItAlone := by
  intro s k v hw
  obtain ⟨hobj, hdom⟩ := dictWf_iff.mp hw
  refine ⟨obj?_put_self hobj, fun j hj => obj?_put_ne hobj hj, rfl, dictWf_put hw, fun off b => ⟨?_, ?_, rfl, dictWf_putBytes hw⟩⟩
  · exact sparse_getN_setN hdom _ _
  · exact (sparse_get_setN hdom 0 _ b).1

/-! ### The first check that rejects an access (R46, steps 9 to 12) -/

theorem admits_of_object?_error {op : Op} {e : Nat} (h : object? i j = .error e) : s.admits op i j = .error e := by
  simp [State.admits, h]

theorem admits_of_lifeRefuses {op : Op} (h : object? i j = .ok f) (hl : s.lifeAllows i = false) : s.admits op i j = .error 0x1C := by
  simp [State.admits, h, hl]

theorem admits_of_kindRefuses {op : Op} {e : Nat} (h : object? i j = .ok f) (hl : s.lifeAllows i = true)
    (hk : s.kindRefuses f (Dict.key i j) op = some e) : s.admits op i j = .error e := by
  simp [State.admits, h, hl, hk]

theorem admits_of_shapeRefuses {op : Op} {e : Nat} (h : object? i j = .ok f) (hl : s.lifeAllows i = true)
    (hk : s.kindRefuses f (Dict.key i j) op = none) (hs : s.shapeRefuses f i j op = some e) : s.admits op i j = .error e := by
  simp [State.admits, h, hl, hk, hs]

theorem admits_of_valueRefuses {op : Op} {e : Nat} (h : object? i j = .ok f) (hl : s.lifeAllows i = true)
    (hk : s.kindRefuses f (Dict.key i j) op = none) (hs : s.shapeRefuses f i j op = none) (hv : valueRefuses f op = some e) :
    s.admits op i j = .error e := by
  simp [State.admits, h, hl, hk, hs, hv]

/-- A constant or an object that the host only reads takes no write (R28). -/
theorem kindRefuses_write_readOnly (h : f.access = .const ∨ f.access = .ro) : s.kindRefuses f k (.write b) = some 0x12 := by
  rcases h with h | h <;> simp [State.kindRefuses, h, Op.writes, Abort.readOnly]

theorem kindRefuses_write_writable (h : f.access = .rw ∨ f.access = .wo) : s.kindRefuses f k (.write b) = none := by
  rcases h with h | h <;> simp [State.kindRefuses, h, Op.writes]

theorem shapeRefuses_write_none (ht : f.ty ≠ .domain) (hb : b.length = f.size) : s.shapeRefuses f i j (.write b) = none := by
  simp [State.shapeRefuses, ht, hb]

/-- A value of the right length that its object does not take is VALUE_RANGE, wherever the object is held (R27). -/
theorem admits_of_valueRange (h : object? i j = .ok f) (hl : s.lifeAllows i = true) (ha : f.access = .rw ∨ f.access = .wo)
    (ht : f.ty ≠ .domain) (hb : b.length = f.size) (hc : f.check.takes (beNat b) = false) :
    s.admits (.write b) i j = .error 0x16 :=
  admits_of_valueRefuses h hl (kindRefuses_write_writable ha) (shapeRefuses_write_none ht hb)
    (by simp [valueRefuses, hc, Abort.valueRange])

/-- A write that a check rejects is answered with the check's code, and changes nothing else (R28). -/
theorem hostWriteBytes_of_error {e : Nat} (hp : s.boot.powered = true) (h : s.admits (.write b) i j = .error e) :
    s.hostWriteBytes i j b sig = .next { s with answer := .code e } := by
  simp [State.hostWriteBytes, hp, State.serveNow, State.serve, h, writesCopyView, State.rejected, answering]

/-- Settles O21: each check is met by an access that the ones before it let through. -/
theorem rejectedWritesChangeNothing : Obligations.RejectedWritesChangeNothing := by
  intro s i j b hp answers
  have hrej : ∀ {code}, s.admits (.write b) i.toNat j.toNat = .error code → answers code := hostWriteBytes_of_error hp
  have hsub : j ≠ 0 → j.toNat ≠ 0 := fun hj h => hj (BitVec.eq_of_toNat_eq h)
  refine ⟨fun h => hrej (admits_of_object?_error (by simp [object?, h])),
    fun h hj hf => hrej (admits_of_object?_error (by simp [object?, h, hsub hj, hf])), fun f hj h hf => ?_⟩
  have ho := object?_of_find hf h (hsub hj)
  refine ⟨fun hl => hrej (admits_of_lifeRefuses ho hl), fun hl => ⟨fun ha => ?_, fun ha hb => ?_, fun ha ht hb hc => ?_⟩⟩
  · exact hrej (admits_of_kindRefuses ho hl (kindRefuses_write_readOnly ha))
  · exact hrej (admits_of_shapeRefuses ho hl (kindRefuses_write_writable ha) (if_pos hb))
  · exact hrej (admits_of_valueRange ho hl ha ht hb hc)
/-! ### Host writes of an object -/

/-- An object that takes a host write, beside the domain that holds it: its family, and that it takes writes of a value. -/
abbrev Writable (i j : Nat) (f : Family) : Prop :=
  Dict.find i j = some f ∧ Dict.highest i ≠ 0 ∧ (0 < j ∧ j < 256) ∧ (f.access = .rw ∨ f.access = .wo) ∧ f.ty ≠ .domain

/-- A writable object that the Plinth holds in every state, and no FUNCTION_REQUEST. -/
abbrev PlinthWritable (i j : Nat) (f : Family) : Prop :=
  Writable i j f ∧ plinthHolds i j = true ∧ isRequest i = false ∧ pipeOfIndex i = none

theorem object?_of_writable (h : Writable i j f) : object? i j = .ok f := by
  obtain ⟨hf, h1, hj, -, -⟩ := h
  exact object?_of_find hf h1 (by omega)

theorem lifeAllows_of_plinthOpen (h : plinthOpen s) : s.lifeAllows i = true := by
  obtain ⟨-, h0, h4⟩ := h
  simp [State.lifeAllows, h0, h4]

/-- What the Plinth holds in every state, and no FUNCTION_REQUEST, is served at once, whatever else runs (R35, R37). -/
theorem slowAccess_write_plinth (h : PlinthWritable i j f) : s.slowAccess (.write b) i j = false := by
  obtain ⟨hw, hp, hr, -⟩ := h
  simp [State.slowAccess, Op.regional, object?_of_writable hw, State.inPlinth, hp, hr]

theorem admits_write_plinth (hs : plinthOpen s) (h : PlinthWritable i j f) (hb : b.length = f.size)
    (hc : f.check.takes (beNat b) = true) : s.admits (.write b) i j = .ok f := by
  obtain ⟨hw, hp, hr, -⟩ := h
  obtain ⟨-, -, -, ha, ht⟩ := id hw
  simp [State.admits, object?_of_writable hw, lifeAllows_of_plinthOpen hs, kindRefuses_write_writable ha,
    shapeRefuses_write_none ht hb, valueRefuses, hc, State.placeRefuses, State.inPlinth, hp, hr]

/-- A write of an object that the Plinth holds, served: what its rule makes of the value. -/
theorem serve_write_plinth {r : Result} (hs : plinthOpen s) (h : PlinthWritable i j f) (hb : b.length = f.size)
    (hc : f.check.takes (beNat b) = true) (hw : s.writeObject f (Dict.key i j) (beNat b) sig = .ok r) :
    s.serve (.write b) i j sig = { code := 0, data := [], outcome := r } := by
  have ha := admits_write_plinth hs h hb hc
  obtain ⟨-, -, -, hi⟩ := h
  simp [State.serve, writesCopyView, ha, State.wakeFor, hi, hw, State.outcomeOf]

theorem hostWriteBytes_plinth {r : Result} (hs : plinthOpen s) (h : PlinthWritable i j f) (hb : b.length = f.size)
    (hc : f.check.takes (beNat b) = true) (hw : s.writeObject f (Dict.key i j) (beNat b) sig = .ok r) :
    s.hostWriteBytes i j b sig = answering r (.code 0) := by
  simp [State.hostWriteBytes, hs.1, State.serveNow, admits_write_plinth hs h hb hc, slowAccess_write_plinth h,
    serve_write_plinth hs h hb hc hw]

/-- A host write of a value is one of its object's bytes. -/
theorem hostWrite_eq_bytes (h : Writable i j f) : s.hostWrite (Dict.key i j) v = s.hostWriteBytes i j (toBe f.size v) none := by
  obtain ⟨hf, -, hj, -, -⟩ := h
  have e1 : Dict.key i j / 256 = i := by rw [Dict.key]; omega
  have e2 : Dict.key i j % 256 = j := by rw [Dict.key]; omega
  rw [State.hostWrite, e1, e2, hf]
  rfl

/-- A value written to an object that the Plinth holds: what its rule makes of it, be it a next state or a misuse. -/
theorem hostWrite_plinthObject {r : Result} (hs : plinthOpen s) (h : PlinthWritable i j f) (hv : v < 256 ^ f.size)
    (hc : f.check.takes v = true) (hw : s.writeObject f (Dict.key i j) v none = .ok r) :
    s.hostWrite (Dict.key i j) v = answering r (.code 0) := by
  rw [hostWrite_eq_bytes h.1]
  refine hostWriteBytes_plinth hs h (toBe_length ..) ?_ ?_ <;> rwa [beNat_toBe hv]

/-- A value that its object does not take is answered VALUE_RANGE. -/
theorem hostWrite_valueRange (hs : plinthOpen s) (h : Writable i j f) (hv : v < 256 ^ f.size) (hc : f.check.takes v = false) :
    s.hostWrite (Dict.key i j) v = .next { s with answer := .code 0x16 } := by
  obtain ⟨-, -, -, ha, ht⟩ := id h
  rw [hostWrite_eq_bytes h]
  refine hostWriteBytes_of_error hs.1 ?_
  exact admits_of_valueRange (object?_of_writable h) (lifeAllows_of_plinthOpen hs) ha ht (toBe_length ..) (by rwa [beNat_toBe hv])

/-! ### Settings of the Plinth -/

/-- No setting but RWH ones and the mode settings of ports and groups is held back (R94, R99). -/
theorem storeSetting_eq_put (h : frozenKind f = false) : s.storeSetting f k v = s.put k v := by
  simp [State.storeSetting, State.holdsBack, h]

/-- The objects of 0x1000-0x11FF whose write does more than store. -/
def identityRules : List Nat :=
  [Obj.lifeRequest, Obj.lifeSummaryClear, Obj.commSummaryClear, Obj.sopAuthRequired, Obj.sopKeySlot]

/-- An object of 0x1000-0x11FF that is a plain setting: no function holds it back, and no rule of its own acts on a write. -/
abbrev PlainIdentity (k : Nat) (f : Family) : Prop :=
  f.index / 4096 = 1 ∧ f.index < 0x1200 ∧ ¬ (0x1108 ≤ f.index ∧ f.index < 0x1110) ∧ frozenKind f = false ∧ k ∉ identityRules

theorem writeObject_plainIdentity (h : PlainIdentity k f) : s.writeObject f k v sig = .ok (.next (s.put k v)) := by
  obtain ⟨h1, hi, hn, hf, hk⟩ := h
  simp only [identityRules, List.mem_cons, List.not_mem_nil, or_false, not_or] at hk
  obtain ⟨k1, k2, k3, k4, k5⟩ := hk
  simp only [State.writeObject, h1, hi, if_true, State.writeIdentity, k1, k2, k3, k4, k5, hn, if_false, storeSetting_eq_put hf, wrote]

/-- The addresses of the SOP and the BAR2 windows, with their sizes. -/
def addressSettings : List (Nat × Nat × Nat) :=
  [(0x1100, 2, 6), (0x1100, 3, 6), (0x1100, 4, 4), (0x1100, 5, 16), (0x1100, 6, 2), (0x1110, 1, 4), (0x1111, 1, 4), (0x1112, 1, 4),
    (0x1113, 1, 4), (0x1110, 2, 8), (0x1111, 2, 8), (0x1112, 2, 8), (0x1113, 2, 8)]

/-- Each of them is a plain setting of the Plinth that takes any value of its size. -/
theorem addressSettings_plain {e : Nat × Nat × Nat} (he : e ∈ addressSettings) :
    ∃ f, PlinthWritable e.1 e.2.1 f ∧ PlainIdentity (Dict.key e.1 e.2.1) f ∧ f.size = e.2.2 ∧ f.check = .any := by
  have h : ∀ e ∈ addressSettings, (Dict.find e.1 e.2.1).any (fun f => decide
      (PlinthWritable e.1 e.2.1 f ∧ PlainIdentity (Dict.key e.1 e.2.1) f ∧ f.size = e.2.2 ∧ f.check = .any)) = true := by
    decide +kernel
  obtain ⟨f, -, hf⟩ := Option.any_eq_true .. |>.mp (h e he)
  exact ⟨f, of_decide_eq_true hf⟩

/-- Settles O22: a write of a plain setting stores its value. -/
theorem settingsTakeTheirWrites : Obligations.SettingsTakeTheirWrites := by
  intro s b e hs he hb
  obtain ⟨f, hf, hplain, hsize, hc⟩ := addressSettings_plain he
  have hi : (BitVec.ofNat 16 e.1).toNat = e.1 ∧ (BitVec.ofNat 8 e.2.1).toNat = e.2.1 := by
    have h : ∀ e ∈ addressSettings, (BitVec.ofNat 16 e.1).toNat = e.1 ∧ (BitVec.ofNat 8 e.2.1).toNat = e.2.1 := by decide
    exact h e he
  change s.hostWriteBytes (BitVec.ofNat 16 e.1).toNat (BitVec.ofNat 8 e.2.1).toNat b none = _
  rw [hi.1, hi.2]
  exact hostWriteBytes_plinth hs hf (hb.trans hsize.symm) (by rw [hc]; rfl) (writeObject_plainIdentity hplain)

/-! ### Summaries and their clears (R57, R58) -/

/-- The row of the companion object that clears a summary: a write-only value of 32 bits that takes the summary's bits (R58). -/
def clearRow (i j mask : Nat) : Family := ⟨i, 1, 1, j, 1, .bits32, 4, .wo, 0, .bits mask, 0⟩

/-- A clear whose write is taken clears the flags, and one with a bit outside its summary is VALUE_RANGE. -/
theorem hostWrite_clear {v : BitVec 32} (hs : plinthOpen s) (h : Writable i j (clearRow i j mask))
    (hgo : v.toNat < 256 ^ 4 → (clearRow i j mask).check.takes v.toNat = true →
      s.hostWrite (Dict.key i j) v.toNat = .next { s.clearFlags k v.toNat with answer := .code 0 }) :
    (clearBits v.toNat mask = 0 → s.hostWrite (Dict.key i j) v.toNat = .next { s.clearFlags k v.toNat with answer := .code 0 }) ∧
    (clearBits v.toNat mask ≠ 0 → s.hostWrite (Dict.key i j) v.toNat = .next { s with answer := .code 0x16 }) :=
  ⟨fun h0 => hgo v.isLt (decide_eq_true h0), fun h0 => hostWrite_valueRange hs h v.isLt (decide_eq_false h0)⟩

theorem hostWrite_clear_plinth {v : BitVec 32} (hs : plinthOpen s) (h : PlinthWritable i j (clearRow i j mask))
    (hw : s.writeObject (clearRow i j mask) (Dict.key i j) v.toNat none = .ok (.next (s.clearFlags k v.toNat))) :
    (clearBits v.toNat mask = 0 → s.hostWrite (Dict.key i j) v.toNat = .next { s.clearFlags k v.toNat with answer := .code 0 }) ∧
    (clearBits v.toNat mask ≠ 0 → s.hostWrite (Dict.key i j) v.toNat = .next { s with answer := .code 0x16 }) :=
  hostWrite_clear hs h.1 fun hv hc => hostWrite_plinthObject hs h hv hc hw

/-- An index of a fast domain that names no pipe and no port: no block of it is off, and none wakes at an access. -/
abbrev OutsideBlocks (i : Nat) : Prop := isRequest i = false ∧ pipeOfIndex i = none ∧ portOfIndex i = none

theorem hostWrite_clear_fast {v : BitVec 32} (hs : fastOpen s) (h : Writable i j (clearRow i j mask) ∧ OutsideBlocks i)
    (hu : ∀ b, s.holderFenced i j (.write b) = false)
    (hw : s.writeObject (clearRow i j mask) (Dict.key i j) v.toNat none = .ok (.next (s.clearFlags k v.toNat))) :
    (clearBits v.toNat mask = 0 → s.hostWrite (Dict.key i j) v.toNat = .next { s.clearFlags k v.toNat with answer := .code 0 }) ∧
    (clearBits v.toNat mask ≠ 0 → s.hostWrite (Dict.key i j) v.toNat = .next { s with answer := .code 0x16 }) := by
  obtain ⟨hwr, hr, hp, hq⟩ := h
  refine hostWrite_clear hs.1 hwr fun hv hc => ?_
  obtain ⟨hf, h1, hj, ha, ht⟩ := hwr
  exact hostWrite_fast hs rfl hj hf h1 ha ht hr hu (by simp [State.blockOff, hp, hq]) hv hc (by simpa [State.wakeFor, hp] using hw)

/-- Settles O23: each companion object, and the summary that its write clears. -/
theorem plinthSummariesClear : Obligations.PlinthSummariesClear := by
  intro s v hs
  simp only [List.forall_mem_cons]
  refine ⟨?_, ?_, ?_, ?_, ?_, List.forall_mem_nil _⟩ <;> exact hostWrite_clear_plinth hs (by decide +kernel) rfl

/-- Settles O24: each companion object, the summary that its write clears, and the unit that holds it, where one does. -/
theorem fastSummariesClear : Obligations.FastSummariesClear := by
  intro s v hs hfabric hbuffers
  simp only [List.forall_mem_cons]
  refine ⟨?table, ?relief, ?queue, ?fabric, ?cipher, ?counter, ?atelier, List.forall_mem_nil _⟩
  case queue => exact hostWrite_clear_fast hs (by decide +kernel) (fun _ => hbuffers) rfl
  case fabric => exact hostWrite_clear_fast hs (by decide +kernel) (fun _ => hfabric) rfl
  all_goals exact hostWrite_clear_fast hs (by decide +kernel) (fun _ => rfl) rfl

/-! ### Pointers of rings (R60-R63) -/

theorem writeHead_within (hg : bits v 30 0 < s.ringCapacity n)
    (hc : pointerSpan (s.ringCapacity n) v (s.obj? (Obj.ringTail n)) ≤ s.ringCapacity n)
    (hh : pointerSpan (s.ringCapacity n) (s.obj? (Obj.ringHead n)) (s.obj? (Obj.ringTail n)) ≤
      pointerSpan (s.ringCapacity n) v (s.obj? (Obj.ringTail n))) :
    s.writeHead n v = .ok (.next (if n = 8 ∧ v ≠ s.obj? (Obj.ringHead n) then (s.put (Obj.ringHead n) v).request 0
      else s.put (Obj.ringHead n) v)) := by
  have hgood : pointerGood (s.ringCapacity n) v = true := decide_eq_true hg
  have hroom := decide_eq_false (Nat.not_lt.mpr hc)
  have hforth := decide_eq_false (Nat.not_lt.mpr hh)
  simp only [State.writeHead, hgood, hroom, hforth, Bool.not_true, Bool.or_false, Bool.false_eq_true, if_false, wrote]

theorem writeHead_beyond (hc : s.ringCapacity n < pointerSpan (s.ringCapacity n) v (s.obj? (Obj.ringTail n))) :
    s.writeHead n v = .ok (undefinedCase "UB-DIC-2") := by
  simp only [State.writeHead, decide_eq_true hc, Bool.or_true, Bool.true_or, if_true]

theorem writeTail_within (hg : bits v 30 0 < s.ringCapacity n)
    (hh : pointerSpan (s.ringCapacity n) v (s.obj? (Obj.ringTail n)) ≤
      pointerSpan (s.ringCapacity n) (s.obj? (Obj.ringHead n)) (s.obj? (Obj.ringTail n))) :
    s.writeTail n v = .ok (.next (if n = 4 then (s.put (Obj.ringTail n) v).flushEnded s.cipher.ended.length
      else s.put (Obj.ringTail n) v)) := by
  have hgood : pointerGood (s.ringCapacity n) v = true := decide_eq_true hg
  have hspan := decide_eq_false (Nat.not_lt.mpr hh)
  simp only [State.writeTail, hgood, hspan, Bool.not_true, Bool.or_false, Bool.false_eq_true, if_false, wrote, put_cipher]

theorem writeTail_beyond (hh : pointerSpan (s.ringCapacity n) (s.obj? (Obj.ringHead n)) (s.obj? (Obj.ringTail n)) <
      pointerSpan (s.ringCapacity n) v (s.obj? (Obj.ringTail n))) :
    s.writeTail n v = .ok (undefinedCase "UB-DIC-1") := by
  simp only [State.writeTail, decide_eq_true hh, Bool.or_true, if_true]

/-- The row of a ring's HEAD, or TAIL, that the host writes. -/
def pointerRow (i j : Nat) : Family := ⟨i, 1, 1, j, 1, .u32, 4, .rw, 0, .any, 0⟩

/-- The ring that a key of 0xB000-0xBFFF names. -/
theorem ring_of_key (hj : j < 256) : (Dict.key (0xB000 + 16 * n) j / 256 - 0xB000) / 16 = n := by
  rw [Dict.key]
  omega

theorem writeObject_ringHead (hn : n < 256) :
    s.writeObject (pointerRow (0xB000 + 16 * n) 4) (Obj.ringHead n) v none = s.writeHead n v := by
  have h : (0xB000 + 16 * n) / 4096 = 11 := by omega
  have hr : (Obj.ringHead n / 256 - 0xB000) / 16 = n := ring_of_key (by omega)
  simp only [State.writeObject, pointerRow, h, State.writeRing, hr, if_true]

theorem writeObject_ringTail (hn : n < 256) :
    s.writeObject (pointerRow (0xB000 + 16 * n) 5) (Obj.ringTail n) v none = s.writeTail n v := by
  have h : (0xB000 + 16 * n) / 4096 = 11 := by omega
  have hr : (Obj.ringTail n / 256 - 0xB000) / 16 = n := ring_of_key (by omega)
  have hne : Obj.ringTail n ≠ Obj.ringHead n := by simp [Obj.ringTail, Obj.ringHead, Dict.key]
  simp only [State.writeObject, pointerRow, h, State.writeRing, hr, hne, if_true, if_false]

/-- A host write of HEAD of a ring that the host fills comes to what the ring's rule makes of it. -/
theorem hostWrite_ringHead {r : Result} {v : BitVec 32} (hs : plinthOpen s) (hn : n ∈ [8, 9])
    (hw : s.writeHead n v.toNat = .ok r) : s.hostWrite (Obj.ringHead n) v.toNat = answering r (.code 0) := by
  have hrow : ∀ n ∈ [8, 9], n < 256 ∧ PlinthWritable (0xB000 + 16 * n) 4 (pointerRow (0xB000 + 16 * n) 4) := by decide +kernel
  obtain ⟨hlt, hp⟩ := hrow n hn
  exact hostWrite_plinthObject hs hp v.isLt rfl ((writeObject_ringHead hlt).trans hw)

/-- A host write of TAIL of a ring that the device fills comes to what the ring's rule makes of it. -/
theorem hostWrite_ringTail {r : Result} {v : BitVec 32} (hs : plinthOpen s) (hn : n ∈ [0, 1, 2, 3, 4, 5])
    (hw : s.writeTail n v.toNat = .ok r) : s.hostWrite (Obj.ringTail n) v.toNat = answering r (.code 0) := by
  have hrow : ∀ n ∈ [0, 1, 2, 3, 4, 5], n < 256 ∧ PlinthWritable (0xB000 + 16 * n) 5 (pointerRow (0xB000 + 16 * n) 5) := by
    decide +kernel
  obtain ⟨hlt, hp⟩ := hrow n hn
  exact hostWrite_plinthObject hs hp v.isLt rfl ((writeObject_ringTail hlt).trans hw)

/-- Settles O26: what the rules of HEAD and TAIL make of a pointer within its ring, and of one beyond it. -/
theorem ringPointersMove : Obligations.RingPointersMove := by
  intro s r v hs cap head tail
  refine ⟨fun hr => ?head, fun hr => ?tail, fun hr hg hh => ?jobs⟩
  case head =>
    have hr' : r.val ∈ [8, 9] := by simpa using hr
    exact ⟨fun hg hc hh => hostWrite_ringHead hs hr' (writeHead_within hg hc hh),
      fun hc => hostWrite_ringHead hs hr' (writeHead_beyond hc)⟩
  case tail =>
    have hr' : r.val ∈ [0, 1, 2, 3, 4, 5] ∧ r.val ≠ 4 := by
      have h : ∀ n ∈ [0, 1, 2, 3, 5], n ∈ [0, 1, 2, 3, 4, 5] ∧ n ≠ 4 := by decide
      exact h _ hr
    refine ⟨fun hg hh => ?_, fun hh => hostWrite_ringTail hs hr'.1 (writeTail_beyond hh)⟩
    exact hostWrite_ringTail hs hr'.1 ((writeTail_within hg hh).trans (by rw [if_neg hr'.2]))
  case jobs =>
    have hw := writeTail_within (n := r.val) hg hh
    rw [if_pos hr] at hw
    refine (hostWrite_ringTail hs (by simp [hr]) hw).trans ?_
    rw [hr]
    rfl

/-! ### Settings of sessions (R43, R47, R48) -/

/-- A session closed is open no more. -/
theorem isOpen_closeSession {m : Nat} (h : m < s.sop.sessions.length) :
    ((s.closeSession (m + 1)).sop.sessions.getD m .free).isOpen = false := by
  simp [State.closeSession, State.setSession, modifyAt, List.getD, h, Session.free]

/-- The row of SESSION_FORCE_CLOSE. -/
def forceCloseRow : Family := ⟨0x1108, 8, 1, 7, 1, .bool, 1, .wo, 0, .range 0 1, 0⟩

/-- The row of SOP_AUTH_REQUIRED. -/
def authRequiredRow : Family := ⟨0x1100, 1, 1, 9, 1, .bool, 1, .rw, 0, .range 0 1, 0⟩

/-- The row of SOP_KEY_SLOT. -/
def keySlotRow : Family := ⟨0x1100, 1, 1, 10, 1, .u8, 1, .rw, 0, .range 0 63, 0⟩

theorem writeObject_forceClose {m : Fin 8} :
    s.writeObject forceCloseRow (Obj.sessionForceClose m.val) 1 none = .ok (.next (s.closeSession (m.val + 1))) := by
  have hk : ∀ m : Fin 8, Obj.sessionForceClose m.val ∉ identityRules ∧ Obj.sessionForceClose m.val / 256 - 0x1107 = m.val + 1 := by
    decide
  obtain ⟨hn, hm⟩ := hk m
  simp only [identityRules, List.mem_cons, List.not_mem_nil, or_false, not_or] at hn
  obtain ⟨k1, k2, k3, k4, k5⟩ := hn
  simp [State.writeObject, forceCloseRow, State.writeIdentity, k1, k2, k3, k4, k5, onOne, wrote, hm]

theorem writeObject_keySlot :
    s.writeObject keySlotRow Obj.sopKeySlot v none = .ok (.next ((s.put Obj.sopKeySlot v).closeSessions fun x => x.auth)) := by
  rw [← storeSetting_eq_put (f := keySlotRow) rfl]
  rfl

theorem writeObject_authRequired : s.writeObject authRequiredRow Obj.sopAuthRequired v none =
    .ok (.next (if v = 1 then (s.put Obj.sopAuthRequired v).closeSessions fun x => !x.auth else s.put Obj.sopAuthRequired v)) := by
  rw [← storeSetting_eq_put (f := authRequiredRow) rfl]
  rfl

/-- Settles O27: what the rule of each setting does beside storing it. -/
theorem sessionSettings : Obligations.SessionSettings := by
  intro s hs
  have hclose : ∀ n : Fin 8, PlinthWritable (0x1108 + n.val) 7 forceCloseRow := by decide +kernel
  have hkey : PlinthWritable 0x1100 10 keySlotRow := by decide +kernel
  have hauth : PlinthWritable 0x1100 9 authRequiredRow := by decide +kernel
  refine ⟨fun n => ⟨?_, fun h => isOpen_closeSession (by omega)⟩, fun v hv => ?_, fun v hv => ?_, ?_, ?_⟩
  · exact hostWrite_plinthObject hs (hclose n) (by decide) rfl writeObject_forceClose
  · exact hostWrite_plinthObject hs hkey v.isLt (by simp [keySlotRow, Check.takes, hv]) writeObject_keySlot
  · exact hostWrite_valueRange hs hkey.1 v.isLt (by simp [keySlotRow, Check.takes, hv])
  · exact hostWrite_plinthObject hs hauth (by decide) rfl writeObject_authRequired
  · exact hostWrite_plinthObject hs hauth (by decide) rfl writeObject_authRequired

end Sys2Proof.Proofs

/-! PROOFS. Messages of the Sirro Object Protocol (02): what is judged on which state, what a response leaves of the device, and what a
message that is served, that waits, or that is served in its turn comes to. -/

namespace Sys2Proof.Proofs

open Sys2Proof.Machine Sys2Proof.Safety Sys2Proof.Laws

variable {s t u : State} {f : Family} {i j k n o : Nat} {b : List Byte} {m : SopMessage} {e : Instr × Nat} {op : Op}

/-! ### A command and the message it receives -/

/-- The command of an opcode receives the message with that opcode. -/
theorem exec_sopCommand (he : e ∈ sopCommands m) : exec e.1 s = s.receiveSop e.2 m := by
  simp only [sopCommands, List.mem_cons, List.not_mem_nil, or_false] at he
  rcases he with rfl | rfl | rfl | rfl | rfl | rfl | rfl | rfl <;> rfl

/-- A message that the device hears is judged on the state in which the mailbox, where it comes by it, has started on it (R55). -/
theorem receiveSop_of_heard (h : sopHeard s m) : s.receiveSop o m = (boxed s m).sopMessage o m := by
  obtain ⟨hp, hm⟩ := h
  by_cases hb : m.carriage.path = .mailbox
  · obtain ⟨hr, hbusy⟩ := hm hb
    simp [State.receiveSop, hp, byMailbox, hb, hr, State.mailboxStart, hbusy, boxed]
  · simp [State.receiveSop, hp, byMailbox, hb, boxed]

theorem exec_of_heard (h : sopHeard s m) (he : e ∈ sopCommands m) : exec e.1 s = (boxed s m).sopMessage e.2 m :=
  (exec_sopCommand he).trans (receiveSop_of_heard h)

/-- A message that steps 1 to 7 let through, whatever step 8 says of its opcode (R46). -/
theorem sopMessage_of_serve (hc : s.carriageGood m.carriage = true) (hs : sopShaped m = true) (ha : s.sopAuthentic o m = true)
    (hr : s.sopRefuses o m = none) (hq : s.sopSeq o m = .serve) : s.sopMessage o m = s.sopAccept o m (sopKeyOf s m) := by
  simp [State.sopMessage, hc, hs, ha, hr, hq, sopKeyOf]

theorem exec_of_passes (h : sopHeard s m) (he : e ∈ sopCommands m) (hp : SopPasses (boxed s m) e.2 m) :
    exec e.1 s = (boxed s m).sopAccept e.2 m (sopKeyOf (boxed s m) m) := by
  obtain ⟨hc, hs, ha, hr, hq, -⟩ := hp
  exact (exec_of_heard h he).trans (sopMessage_of_serve hc hs ha hr hq)

/-! ### What becomes of a message that steps 1 to 7 let through -/

/-- A message for the Atelier, or behind one of its path, joins those that wait (R32, R37). -/
theorem sopAccept_waits {atelier : Bool} (hs : s.sopSlow o m = atelier) (hw : atelier = true ∨ s.sopBehind o m = true)
    (hf : atelier = true → s.slowFull = false) :
    s.sopAccept o m (sopKeyOf s m) =
      (let t := (s.sopAdvance o m).sopStore o m (s.sopEpoch m) none
       let t := if atelier then t.request 5 else t
       .next { t with answer := .queued, sop := { t.sop with slow := t.sop.slow ++
         [{ atelier := atelier, opcode := o, message := m, key := sopKeyOf s m, epoch := s.sopEpoch m }] } }) := by
  cases atelier with
  | false => simp [State.sopAccept, hs, hw.resolve_left (by simp)]
  | true => simp [State.sopAccept, hs, hf rfl]

/-- Where 32 wait for the Atelier, a message for it is answered BUSY (R432). -/
theorem sopAccept_busy (hs : s.sopSlow o m = true) (hf : s.slowFull = true) :
    s.sopAccept o m (sopKeyOf s m) =
      .next ((((s.noteBusy.sopAdvance o m).sopStore o m (s.sopEpoch m) (some (sopReply s o m 0x1B []))).deliver m.carriage
        (sopReply s o m 0x1B []))) := by
  simp [State.sopAccept, hs, hf, sopReply]

/-- A message served at once: its response is stored and sent, and then what it does to the device follows (R48, R49). -/
theorem sopAccept_served (hs : s.sopSlow o m = false) (hb : s.sopBehind o m = false) :
    s.sopAccept o m (sopKeyOf s m) = ((sopReplied s o m (s.sopServe o m).code
      (if (s.sopServe o m).code = 0 then (s.sopServe o m).data else [])).sopServe o m).outcome := by
  simp [State.sopAccept, hs, hb, sopReplied, sopReply]
/-! ### What a response leaves of the device -/

/-- `t` serves accesses as `s` does: they differ in SESSION0_NEXT_SEQ, and beside the objects in nothing that a check reads. -/
structure ServesAlike (s t : State) : Prop where
  obj : ∀ k, k ≠ Obj.session0NextSeq → t.obj? k = s.obj? k
  boot : t.boot = s.boot
  faults : t.faults = s.faults
  kiln : t.kiln = s.kiln

theorem ServesAlike.of_obj (ho : t.obj = s.obj) (hb : t.boot = s.boot) (hf : t.faults = s.faults) (hk : t.kiln = s.kiln) :
    ServesAlike s t := ⟨fun _ _ => obj?_congr ho _, hb, hf, hk⟩

theorem ServesAlike.trans (h : ServesAlike s t) (h' : ServesAlike t u) : ServesAlike s u :=
  ⟨fun k hk => (h'.obj k hk).trans (h.obj k hk), h'.boot.trans h.boot, h'.faults.trans h.faults, h'.kiln.trans h.kiln⟩

theorem servesAlike_sopAdvance (hw : s.dictWf = true) : ServesAlike s (s.sopAdvance o m) := by
  unfold State.sopAdvance
  split
  · exact .of_obj rfl rfl rfl rfl
  · split
    · exact ⟨fun k hk => obj?_put_ne (dictWf_iff.mp hw).1 hk, rfl, rfl, rfl⟩
    · exact .of_obj rfl rfl rfl rfl

/-- A response stored changes the SOP engine alone. -/
theorem sopStore_sop {epoch : Nat} {r : Option (List Byte)} : ∃ x, s.sopStore o m epoch r = { s with sop := x } := by
  unfold State.sopStore
  split
  · exact ⟨_, rfl⟩
  · split <;> exact ⟨_, rfl⟩

theorem servesAlike_sopStore {epoch : Nat} {r : Option (List Byte)} : ServesAlike s (s.sopStore o m epoch r) := by
  obtain ⟨x, hx⟩ := sopStore_sop (s := s) (o := o) (m := m) (epoch := epoch) (r := r)
  rw [hx]
  exact .of_obj rfl rfl rfl rfl

/-- A response sent sets the answer, and on the mailbox's path MBOX_RESPONSE and the mailbox's status. -/
theorem deliver_eq {c : Carriage} : ∃ x d, s.deliver c b =
    { s with answer := .sop c.path (s.ownAddress c) c.peer c.tags b, sop := x, dom := d } := by
  unfold State.deliver
  dsimp only
  split <;> exact ⟨_, _, rfl⟩

theorem servesAlike_deliver {c : Carriage} : ServesAlike s (s.deliver c b) := by
  obtain ⟨x, d, h⟩ := deliver_eq (s := s) (c := c) (b := b)
  rw [h]
  exact .of_obj rfl rfl rfl rfl

theorem servesAlike_sopReplied {code : Nat} (hw : s.dictWf = true) : ServesAlike s (sopReplied s o m code b) :=
  ((servesAlike_sopAdvance hw).trans servesAlike_sopStore).trans servesAlike_deliver

/-! ### States that serve alike judge alike -/

theorem ServesAlike.fn (h : ServesAlike s t) : t.fn n = s.fn n := by
  refine h.obj _ ?_
  unfold fnStateKey
  repeat' split
  all_goals simp only [Obj.functionStatePort, Obj.functionStateSched, Obj.functionStateCipher, Obj.functionStatePipe,
    Obj.functionStateRelief, Obj.functionStateFabric, Obj.session0NextSeq, Dict.key]; omega

theorem ServesAlike.depth (h : ServesAlike s t) : t.depth n = s.depth n := by
  refine h.obj _ ?_
  simp only [Obj.sleepDepth, Obj.session0NextSeq, Dict.key]
  omega

theorem ServesAlike.ready (h : ServesAlike s t) : t.ready = s.ready := by
  rw [State.ready, State.ready, h.obj _ (by decide)]

theorem ServesAlike.fenced (h : ServesAlike s t) : t.fenced = s.fenced := by
  funext u
  rw [State.fenced, State.fenced, h.faults]

theorem ServesAlike.blockOff (h : ServesAlike s t) : t.blockOff = s.blockOff := by
  funext i
  simp only [State.blockOff, State.groupPowered, State.sliceOn, h.fn, h.depth, h.kiln]

theorem ServesAlike.inPlinth (h : ServesAlike s t) : t.inPlinth f i j = s.inPlinth f i j := by
  rw [State.inPlinth, State.inPlinth, h.blockOff]

theorem ServesAlike.regionSize (h : ServesAlike s t) : t.regionSize i j = s.regionSize i j := by
  simp only [State.regionSize, State.ringCapacity, if_true, h.obj Obj.captureRingMib (by decide)]

theorem ServesAlike.holderFenced (h : ServesAlike s t) : t.holderFenced i j op = s.holderFenced i j op := by
  simp only [State.holderFenced, State.viewFenced, State.rulesUnread, State.channelInUse, State.stripeChannel, h.fenced, h.boot,
    h.obj Obj.ddr5ChannelsInUse (by decide)]

theorem ServesAlike.lifeAllows (h : ServesAlike s t) : t.lifeAllows i = s.lifeAllows i := by
  rw [State.lifeAllows, State.lifeAllows, h.boot]

theorem ServesAlike.kindRefuses (h : ServesAlike s t) : t.kindRefuses f k op = s.kindRefuses f k op := by
  simp only [State.kindRefuses, h.fn]

theorem ServesAlike.shapeRefuses (h : ServesAlike s t) : t.shapeRefuses f i j op = s.shapeRefuses f i j op := by
  cases op <;> simp only [State.shapeRefuses, h.regionSize]

theorem ServesAlike.placeRefuses (h : ServesAlike s t) : t.placeRefuses f i j op = s.placeRefuses f i j op := by
  simp only [State.placeRefuses, h.inPlinth, h.ready, h.boot, h.blockOff, h.holderFenced]

/-- What no check reads does not change what an access comes to. -/
theorem ServesAlike.admits (h : ServesAlike s t) : t.admits op i j = s.admits op i j := by
  simp only [State.admits, h.lifeAllows, h.kindRefuses, h.shapeRefuses, h.placeRefuses]
/-! ### Accesses served -/

theorem wakeFor_of_noPipe (h : pipeOfIndex i = none) : s.wakeFor i = s := by
  simp [State.wakeFor, h]

theorem regionSize_wakeFor : (s.wakeFor i).regionSize i j = s.regionSize i j := by
  cases hp : pipeOfIndex i with
  | none => rw [wakeFor_of_noPipe hp]
  | some p =>
    have hi : i ≠ 0xB020 := by
      rintro rfl
      cases hp
    simp [State.regionSize, hi]

/-- What a READ returns: the size of a region, or a value in its object's bytes (R479). -/
def readData (s : State) (f : Family) (i j : Nat) : List Byte :=
  if f.ty = .domain then toBe 8 (s.regionSize i j) else toBe f.size ((s.wakeFor i).value i j)

theorem serve_read {sig : Option Bool} (h : s.admits .read i j = .ok f) :
    s.serve .read i j sig = { code := 0, data := readData s f i j, outcome := .next (s.wakeFor i) } := by
  simp [State.serve, writesCopyView, h, regionSize_wakeFor, readData]

theorem serve_domainRead {off : Nat} {sig : Option Bool} (h : s.admits (.domainRead off n) i j = .ok f) :
    s.serve (.domainRead off n) i j sig =
      { code := 0, data := ((s.wakeFor i).readRegion (Dict.key i j) off n).1,
        outcome := .next ((s.wakeFor i).readRegion (Dict.key i j) off n).2 } := by
  simp [State.serve, writesCopyView, h]

/-- A message of one access is served as that access. -/
theorem sopServe_access (ha : sopAllowed o m = true) (ho : o ∈ [1, 2, 4, 5]) (hop : sopOp m o = some op) :
    s.sopServe o m = s.serve op m.index.toNat m.sub.toNat none := by
  simp only [List.mem_cons, List.not_mem_nil, or_false] at ho
  rcases ho with rfl | rfl | rfl | rfl <;> simp [State.sopServe, ha, hop]

/-- A message of one access is the Atelier's where that access is. -/
theorem sopSlow_access (ha : sopAllowed o m = true) (ho : o ∈ [1, 2, 4, 5]) (hop : sopOp m o = some op) :
    s.sopSlow o m = s.waits op m.index.toNat m.sub.toNat := by
  simp only [List.mem_cons, List.not_mem_nil, or_false] at ho
  rcases ho with rfl | rfl | rfl | rfl <;> simp [State.sopSlow, ha, hop]

theorem waits_of_admits (h : s.admits op i j = .ok f) : s.waits op i j = s.slowAccess op i j := by
  simp [State.waits, h]

theorem sopOp_read (h : m.payload = []) : sopOp m 1 = some .read := by simp [sopOp, h]

theorem sopOp_domainRead (h : m.payload.length = 12) (h1 : 1 ≤ beAt m.payload 8 2) (h2 : beAt m.payload 8 2 ≤ 1408) :
    sopOp m 4 = some (.domainRead (beAt m.payload 0 8) (beAt m.payload 8 2)) := by
  simp [sopOp, h, h1, h2]

theorem sopServe_multiRead (ha : sopAllowed 3 m = true) (hl : m.payload.length = 4 * n) (h1 : 1 ≤ n) (h2 : n ≤ 64) :
    s.sopServe 3 m = { code := 0, data := (s.readItems 0 (sopItems m)).1, outcome := .next (s.readItems 0 (sopItems m)).2 } := by
  have hn : ¬ (n = 0 ∨ 64 < n) := by omega
  simp [State.sopServe, ha, hl, hn]

theorem sopServe_close (ha : sopAllowed 0x11 m = true) (hl : m.payload = []) :
    s.sopServe 0x11 m = { code := 0, data := [], outcome := .next (s.closeSession m.session.toNat) } := by
  simp [State.sopServe, ha, hl]

theorem sopServe_nop (ha : sopAllowed 0x12 m = true) (hl : m.payload = []) :
    s.sopServe 0x12 m = { code := 0, data := [], outcome := .next s } := by
  simp [State.sopServe, ha, hl, State.rejected]

theorem sopServe_open (ha : sopAllowed 0x10 m = true) : s.sopServe 0x10 m = s.openSession m := by
  simp [State.sopServe, ha]

/-- A message that passes, served at once: its response is stored and sent, and then what it does to the device follows. -/
theorem exec_served {code : Nat} {d : List Byte} {r : Result} (h : sopHeard s m) (he : e ∈ sopCommands m)
    (hp : SopPasses (boxed s m) e.2 m) (hs : (boxed s m).sopSlow e.2 m = false) (hb : (boxed s m).sopBehind e.2 m = false)
    (hv : (boxed s m).sopServe e.2 m = { code := code, data := d, outcome := r }) (hd : code ≠ 0 → d = []) :
    exec e.1 s = ((sopReplied (boxed s m) e.2 m code d).sopServe e.2 m).outcome := by
  have hd' : (if code = 0 then d else []) = d := by
    split
    · rfl
    · exact (hd ‹_›).symm
  rw [exec_of_passes h he hp, sopAccept_served hs hb, hv, hd']

/-! ### OPEN (R44, R47) -/

/-- The session that an OPEN opens: the message's path and peer, with the next epoch. -/
def openedSession (s : State) (m : SopMessage) : Session :=
  { isOpen := true, path := m.carriage.path, peer := m.carriage.peer, nextSeq := 1, epoch := s.obj? Obj.commEpoch + 1, auth := m.auth,
    idleMs := if beNat m.payload = 0 then s.obj? Obj.sessionIdleTimeout else beNat m.payload, stored := none }

theorem openSession_of_free (hl : m.payload.length = 4) (hf : (s.sop.sessions.findIdx? fun x => !x.isOpen) = some i) :
    s.openSession m =
      { code := 0, data := toBe 2 (i + 1) ++ toBe 2 0 ++ toBe 4 (s.obj? Obj.commEpoch + 1),
        outcome := .next ((s.put Obj.commEpoch (s.obj? Obj.commEpoch + 1)).setSession (i + 1) fun _ => openedSession s m) } := by
  simp [State.openSession, hl, hf, openedSession]

theorem openSession_of_full (hl : m.payload.length = 4) (hf : (s.sop.sessions.findIdx? fun x => !x.isOpen) = none) :
    s.openSession m = { code := 9, data := [], outcome := .next s } := by
  simp only [State.openSession, hl, hf, State.rejected]
  rfl

theorem session_of_open (ha : sopAllowed 0x10 m = true) : m.session.toNat = 0 := by
  cases Nat.decEq m.session.toNat 0 with
  | isTrue h => exact h
  | isFalse h => simp [sopAllowed, h] at ha

theorem sessions_deliver {c : Carriage} : (s.deliver c b).sop.sessions = s.sop.sessions := by
  unfold State.deliver
  dsimp only
  split <;> rfl

/-- A response on session 0 leaves the other sessions. -/
theorem sessions_sopReplied {code : Nat} (h : m.session.toNat = 0) : (sopReplied s o m code b).sop.sessions = s.sop.sessions := by
  rw [sopReplied, sessions_deliver]
  simp only [State.sopStore, State.sopAdvance, h, if_true]
  split <;> rfl

/-! ### Messages that are served (R40, R41, R47-R49) -/

theorem dictWf_boxed (h : s.dictWf = true) : (boxed s m).dictWf = true := by
  unfold boxed
  split <;> exact h

theorem boot_boxed : (boxed s m).boot = s.boot := by
  unfold boxed
  split <;> rfl

theorem read_served (hw : s.dictWf = true) (h : sopHeard s m) (hp : SopPasses (boxed s m) 1 m) (hl : m.payload = [])
    (ha : (boxed s m).admits .read m.index.toNat m.sub.toNat = .ok f)
    (hs : (boxed s m).slowAccess .read m.index.toNat m.sub.toNat = false) (hb : (boxed s m).sopBehind 1 m = false) :
    exec (.read (.sop m)) s = .next ((sopReplied (boxed s m) 1 m 0 (readData (boxed s m) f m.index.toNat m.sub.toNat)).wakeFor
      m.index.toNat) := by
  have hop := sopOp_read hl
  have ho : 1 ∈ [1, 2, 4, 5] := by decide
  have hslow := (sopSlow_access hp.allowed ho hop).trans ((waits_of_admits ha).trans hs)
  have hv := (sopServe_access hp.allowed ho hop).trans (serve_read ha)
  have ht := (servesAlike_sopReplied (o := 1) (m := m) (code := 0) (b := readData (boxed s m) f m.index.toNat m.sub.toNat)
    (dictWf_boxed hw)).admits.trans ha
  rw [exec_served (e := (.read (.sop m), 1)) h (by simp [sopCommands]) hp hslow hb hv (absurd rfl),
    sopServe_access hp.allowed ho hop, serve_read ht]

theorem domainRead_served (hw : s.dictWf = true) (h : sopHeard s m) (hp : SopPasses (boxed s m) 4 m) (hl : m.payload.length = 12)
    (h1 : 1 ≤ beAt m.payload 8 2) (h2 : beAt m.payload 8 2 ≤ 1408)
    (ha : (boxed s m).admits (.domainRead (beAt m.payload 0 8) (beAt m.payload 8 2)) m.index.toNat m.sub.toNat = .ok f)
    (hs : (boxed s m).slowAccess (.domainRead (beAt m.payload 0 8) (beAt m.payload 8 2)) m.index.toNat m.sub.toNat = false)
    (hb : (boxed s m).sopBehind 4 m = false) :
    exec (.domainRead (.sop m)) s = .next (((sopReplied (boxed s m) 4 m 0 (((boxed s m).wakeFor m.index.toNat).readRegion
      (Dict.key m.index.toNat m.sub.toNat) (beAt m.payload 0 8) (beAt m.payload 8 2)).1).wakeFor m.index.toNat).readRegion
      (Dict.key m.index.toNat m.sub.toNat) (beAt m.payload 0 8) (beAt m.payload 8 2)).2 := by
  have hop := sopOp_domainRead hl h1 h2
  have ho : 4 ∈ [1, 2, 4, 5] := by decide
  have hslow := (sopSlow_access hp.allowed ho hop).trans ((waits_of_admits ha).trans hs)
  have hv := (sopServe_access hp.allowed ho hop).trans (serve_domainRead ha)
  have ht := (servesAlike_sopReplied (o := 4) (m := m) (code := 0) (b := (((boxed s m).wakeFor m.index.toNat).readRegion
    (Dict.key m.index.toNat m.sub.toNat) (beAt m.payload 0 8) (beAt m.payload 8 2)).1) (dictWf_boxed hw)).admits.trans ha
  rw [exec_served (e := (.domainRead (.sop m), 4)) h (by simp [sopCommands]) hp hslow hb hv (absurd rfl),
    sopServe_access hp.allowed ho hop, serve_domainRead ht]

/-- A WRITE of one of the plain settings stores it (R34). -/
theorem write_served {a : Nat × Nat × Nat} (hw : s.dictWf = true) (h : sopHeard s m) (hs : plinthOpen s)
    (hp : SopPasses (boxed s m) 2 m) (hb : (boxed s m).sopBehind 2 m = false) (ha : a ∈ addressSettings)
    (hi : m.index.toNat = a.1) (hj : m.sub.toNat = a.2.1) (hl : m.payload.length = a.2.2) :
    exec (.write (.sop m)) s =
      .next ((sopReplied (boxed s m) 2 m 0 []).put (Dict.key m.index.toNat m.sub.toNat) (beNat m.payload)) := by
  obtain ⟨f, hf, hplain, hsize, hc⟩ := addressSettings_plain ha
  rw [← hi, ← hj] at hf hplain
  have hlen : m.payload.length = f.size := hl.trans hsize.symm
  have htakes : f.check.takes (beNat m.payload) = true := by rw [hc]; rfl
  have hserve : ∀ {t : State}, t.boot = s.boot → t.serve (.write m.payload) m.index.toNat m.sub.toNat none =
      { code := 0, data := [], outcome := .next (t.put (Dict.key m.index.toNat m.sub.toNat) (beNat m.payload)) } := by
    intro t ht
    have hopen : plinthOpen t := by rwa [plinthOpen, ht]
    exact serve_write_plinth hopen hf hlen htakes (writeObject_plainIdentity hplain)
  have hop : sopOp m 2 = some (.write m.payload) := rfl
  have ho : 2 ∈ [1, 2, 4, 5] := by decide
  have hopen : plinthOpen (boxed s m) := by rwa [plinthOpen, boot_boxed]
  have hslow := (sopSlow_access hp.allowed ho hop).trans
    ((waits_of_admits (admits_write_plinth hopen hf hlen htakes)).trans (slowAccess_write_plinth hf))
  rw [exec_served (e := (.write (.sop m), 2)) h (by simp [sopCommands]) hp hslow hb
    ((sopServe_access hp.allowed ho hop).trans (hserve boot_boxed)) (absurd rfl), sopServe_access hp.allowed ho hop,
    hserve ((servesAlike_sopReplied (dictWf_boxed hw)).boot.trans boot_boxed)]

theorem multiRead_served (h : sopHeard s m) (hp : SopPasses (boxed s m) 3 m) (hb : (boxed s m).sopBehind 3 m = false)
    (hl : m.payload.length = 4 * n) (h1 : 1 ≤ n) (h2 : n ≤ 64) (hi : ∀ x ∈ sopItems m, (boxed s m).waits .read x.1 x.2 = false) :
    exec (.multiRead m) s = .next ((sopReplied (boxed s m) 3 m 0 ((boxed s m).readItems 0 (sopItems m)).1).readItems 0
      (sopItems m)).2 := by
  have hslow : (boxed s m).sopSlow 3 m = false := by
    have hany : ((sopItems m).any fun x => (boxed s m).waits .read x.1 x.2) = false := by simpa using hi
    simp [State.sopSlow, hany]
  rw [exec_served (e := (.multiRead m, 3)) h (by simp [sopCommands]) hp hslow hb (sopServe_multiRead hp.allowed hl h1 h2) (absurd rfl),
    sopServe_multiRead hp.allowed hl h1 h2]

/-- OPEN, CLOSE and NOP ask nothing of the Atelier, and wait behind nothing. -/
theorem atOnce_of_session (ho : o ∈ [0x10, 0x11, 0x12]) : s.sopSlow o m = false ∧ s.sopBehind o m = false := by
  simp only [List.mem_cons, List.not_mem_nil, or_false] at ho
  rcases ho with rfl | rfl | rfl <;> simp [State.sopSlow, State.sopBehind]

theorem close_served (h : sopHeard s m) (hp : SopPasses (boxed s m) 0x11 m) (hl : m.payload = []) :
    exec (.sopClose m) s = .next ((sopReplied (boxed s m) 0x11 m 0 []).closeSession m.session.toNat) := by
  obtain ⟨hs, hb⟩ := atOnce_of_session (s := boxed s m) (m := m) (o := 0x11) (by decide)
  rw [exec_served (e := (.sopClose m, 0x11)) h (by simp [sopCommands]) hp hs hb (sopServe_close hp.allowed hl) (absurd rfl),
    sopServe_close hp.allowed hl]

theorem nop_served (h : sopHeard s m) (hp : SopPasses (boxed s m) 0x12 m) (hl : m.payload = []) :
    exec (.sopNop m) s = .next (sopReplied (boxed s m) 0x12 m 0 []) := by
  obtain ⟨hs, hb⟩ := atOnce_of_session (s := boxed s m) (m := m) (o := 0x12) (by decide)
  rw [exec_served (e := (.sopNop m, 0x12)) h (by simp [sopCommands]) hp hs hb (sopServe_nop hp.allowed hl) (absurd rfl),
    sopServe_nop hp.allowed hl]

/-- An OPEN takes the first free session; where none is free it is answered NO_SESSION_FREE (R47). -/
theorem open_served (hw : s.dictWf = true) (h : sopHeard s m) (hp : SopPasses (boxed s m) 0x10 m) (hl : m.payload.length = 4) :
    (∀ i, ((boxed s m).sop.sessions.findIdx? fun x => !x.isOpen) = some i → exec (.sopOpen m) s =
      .next (((sopReplied (boxed s m) 0x10 m 0 (toBe 2 (i + 1) ++ toBe 2 0 ++ toBe 4 ((boxed s m).obj? Obj.commEpoch + 1))).put
        Obj.commEpoch ((boxed s m).obj? Obj.commEpoch + 1)).setSession (i + 1) fun _ => openedSession (boxed s m) m)) ∧
    (((boxed s m).sop.sessions.findIdx? fun x => !x.isOpen) = none →
      exec (.sopOpen m) s = .next (sopReplied (boxed s m) 0x10 m 9 [])) := by
  obtain ⟨hs, hb⟩ := atOnce_of_session (s := boxed s m) (m := m) (o := 0x10) (by decide)
  have hsess : ∀ {code d}, (sopReplied (boxed s m) 0x10 m code d).sop.sessions = (boxed s m).sop.sessions :=
    sessions_sopReplied (session_of_open hp.allowed)
  have halike : ∀ {code d}, ServesAlike (boxed s m) (sopReplied (boxed s m) 0x10 m code d) := servesAlike_sopReplied (dictWf_boxed hw)
  have hepoch : ∀ {code d}, (sopReplied (boxed s m) 0x10 m code d).obj? Obj.commEpoch = (boxed s m).obj? Obj.commEpoch :=
    halike.obj _ (by decide)
  have hopened : ∀ {code d}, openedSession (sopReplied (boxed s m) 0x10 m code d) m = openedSession (boxed s m) m := by
    intro code d
    rw [openedSession, openedSession, hepoch, halike.obj Obj.sessionIdleTimeout (by decide)]
  refine ⟨fun i hf => ?_, fun hf => ?_⟩
  · have hv := (sopServe_open hp.allowed).trans (openSession_of_free hl hf)
    rw [exec_served (e := (.sopOpen m, 0x10)) h (by simp [sopCommands]) hp hs hb hv (absurd rfl), sopServe_open hp.allowed,
      openSession_of_free hl (by rw [hsess, hf]), hepoch, hopened]
  · have hv := (sopServe_open hp.allowed).trans (openSession_of_full hl hf)
    rw [exec_served (e := (.sopOpen m, 0x10)) h (by simp [sopCommands]) hp hs hb hv (fun _ => rfl), sopServe_open hp.allowed,
      openSession_of_full hl (by rw [hsess, hf])]

/-- Settles O38: each opcode's message, served on the state in which its response has been stored and sent. -/
theorem messagesAreServed : Obligations.MessagesAreServed := by
  intro s m hw h u index sub
  refine ⟨fun f hp hl ha hs hb => ?read, fun a ha hp hb h0 h4 hi hj hl => ?write, fun n hp hb hl h1 h2 hi => ?multiRead,
    fun f off n hp hl hoff hn h1 h2 ha hs hb => ?domainRead, fun hp hl => ?close, fun hp hl => ?nop, fun i hp hl hf => ?opened,
    fun hp hl hf => ?full⟩
  case read => exact read_served hw h hp hl ha hs hb
  case write => exact write_served hw h ⟨h.1, h0, h4⟩ hp hb ha hi hj hl
  case multiRead => exact multiRead_served h hp hb hl h1 h2 hi
  case domainRead =>
    subst hoff hn
    exact domainRead_served hw h hp hl h1 h2 ha hs hb
  case close => exact close_served h hp hl
  case nop => exact nop_served h hp hl
  case opened => exact (open_served hw h hp hl).1 i hf
  case full => exact (open_served hw h hp hl).2 hf

/-! ### Requests that waited, served in their turn (R32, R432) -/

/-- The state in which the response to a request that waited has been stored, while it is its session's latest, and sent (R49). -/
def turnReplied (s : State) (o : Nat) (m : SopMessage) (epoch : Nat) (b : List Byte) : State :=
  (if s.sopLatest m = true then s.sopStore o m epoch (some b) else s).deliver m.carriage b

theorem servesAlike_turnReplied {epoch : Nat} : ServesAlike s (turnReplied s o m epoch b) := by
  unfold turnReplied
  split
  · exact servesAlike_sopStore.trans servesAlike_deliver
  · exact servesAlike_deliver

/-- The state in which the oldest request that waits is served: it waits no more. -/
def turnTaken (s : State) (rest : List SlowRequest) : State := { s with sop := { s.sop with slow := rest } }

/-- The oldest request that waits is served in its turn: its response is sent, and then what it does to the device follows. -/
theorem slowRequest_served {x : SlowRequest} {rest : List SlowRequest} {d : List Byte} {r : Result} (h : s.sop.slow = x :: rest)
    (ho : x.opcode = o) (hv : (turnTaken s rest).sopServe o x.message = { code := 0, data := d, outcome := r }) :
    exec .slowRequestComplete s = ((turnReplied (turnTaken s rest) o x.message x.epoch
      (sopResponse x.message o 0 d x.key x.epoch)).sopServe o x.message).outcome := by
  subst ho
  change execSlowRequestComplete s = _
  simp only [execSlowRequestComplete, h]
  change (turnTaken s rest).sopAnswer x.opcode x.message x.key x.epoch = _
  simp only [State.sopAnswer, hv, if_true]
  rfl

theorem read_inTurn {x : SlowRequest} {rest : List SlowRequest} (h : s.sop.slow = x :: rest) (ho : x.opcode = 1)
    (hl : x.message.payload = []) (ha : sopAllowed 1 x.message = true)
    (hadm : (turnTaken s rest).admits .read x.message.index.toNat x.message.sub.toNat = .ok f) :
    exec .slowRequestComplete s = .next ((turnReplied (turnTaken s rest) 1 x.message x.epoch (sopResponse x.message 1 0
      (readData (turnTaken s rest) f x.message.index.toNat x.message.sub.toNat) x.key x.epoch)).wakeFor x.message.index.toNat) := by
  have hserve : ∀ t : State, t.sopServe 1 x.message = t.serve .read x.message.index.toNat x.message.sub.toNat none :=
    fun t => sopServe_access ha (by decide) (sopOp_read hl)
  rw [slowRequest_served h ho ((hserve _).trans (serve_read hadm)), hserve, serve_read (servesAlike_turnReplied.admits.trans hadm)]

theorem domainRead_inTurn {x : SlowRequest} {rest : List SlowRequest} {off : Nat} (h : s.sop.slow = x :: rest) (ho : x.opcode = 4)
    (hop : sopOp x.message 4 = some (.domainRead off n)) (ha : sopAllowed 4 x.message = true)
    (hadm : (turnTaken s rest).admits (.domainRead off n) x.message.index.toNat x.message.sub.toNat = .ok f) :
    exec .slowRequestComplete s = .next (((turnReplied (turnTaken s rest) 4 x.message x.epoch (sopResponse x.message 4 0
      (((turnTaken s rest).wakeFor x.message.index.toNat).readRegion (Dict.key x.message.index.toNat x.message.sub.toNat) off n).1
      x.key x.epoch)).wakeFor x.message.index.toNat).readRegion (Dict.key x.message.index.toNat x.message.sub.toNat) off n).2 := by
  have hserve : ∀ t : State, t.sopServe 4 x.message = t.serve (.domainRead off n) x.message.index.toNat x.message.sub.toNat none :=
    fun t => sopServe_access ha (by decide) hop
  rw [slowRequest_served h ho ((hserve _).trans (serve_domainRead hadm)), hserve,
    serve_domainRead (servesAlike_turnReplied.admits.trans hadm)]

/-- A request on a management lane for the device's own address is answered, and one for another leaves the device as it is (R39). -/
theorem resolve_own {lane : Nat} {own : List Byte} (hp : s.boot.powered = true) (hf : s.fenced (0x5B3 + lane) = false)
    (h0 : beNat own ≠ 0) :
    s.resolve lane own own = { s with answer := .resolved lane own } ∧ ∀ other, other ≠ own → s.resolve lane own other = s := by
  refine ⟨?_, fun other h => ?_⟩
  · simp [State.resolve, hp, hf, h0]
  · simp [State.resolve, h]

/-- Settles O39: the queue by what becomes of a message that the checks let through, and a request's turn by its access, which the
checks judge after its response as before it. -/
theorem waitingMessagesAndSessions : Obligations.WaitingMessagesAndSessions := by
  intro s
  refine ⟨fun m h e he hp hs => ⟨fun hf => ?queued, fun hf => ?busy⟩, fun m h e he hp hs hb => ?behind, fun h => ?none,
    fun x rest f h ho hl ha hadm => ?read, fun x rest f off n h ho hl hoff hn h1 h2 ha hadm => ?domainRead,
    fun n h => ?idle, fun lane own hp hf h0 => ⟨fun hown => ?arp, fun hown => ?neighbour⟩⟩
  case queued => exact (exec_of_passes h he hp).trans (sopAccept_waits hs (.inl rfl) fun _ => hf)
  case busy => exact (exec_of_passes h he hp).trans (sopAccept_busy hs hf)
  case behind => exact (exec_of_passes h he hp).trans (sopAccept_waits hs (.inr hb) (by simp))
  case none =>
    change execSlowRequestComplete s = _
    simp only [execSlowRequestComplete, h]
  case read => exact read_inTurn h ho hl ha hadm
  case domainRead =>
    subst hoff hn
    exact domainRead_inTurn h ho (sopOp_domainRead hl h1 h2) ha hadm
  case idle => exact if_pos h
  case arp | neighbour =>
    subst hown
    obtain ⟨hself, hother⟩ := resolve_own hp hf h0
    exact ⟨congrArg _ hself, fun other ho => congrArg _ (hother other ho)⟩

/-! ### Step 8 behind a message that waits (R32, R46) -/

/-- A message that the host with address 10.0.0.2 sends to the device's address 10.0.0.1 over MG0, with its CRC. -/
def laneMessage (opcode session seq index sub : Nat) : SopMessage :=
  let c : Carriage := { path := .mg0Udp, peer := [10, 0, 0, 2, 48, 57], dest := [10, 0, 0, 1] ++ toBe 2 49510, tags := [],
                        ipOptions := false, fragment := false, zeroChecksum := false }
  let m : SopMessage := { carriage := c, ver := 1, rsp := false, auth := false, rsvdHigh := 0, session := BitVec.ofNat 16 session,
                          seq := BitVec.ofNat 32 seq, length := 0, index := BitVec.ofNat 16 index, sub := BitVec.ofNat 8 sub,
                          status := 0, rsvdLow := 0, payload := [], trailer := [] }
  { m with trailer := sopTrailer none 0 0 0 0 (sopSigned m opcode) }

/-- The device in READY, where a READ of SAMPLE_SEED (0x6843:02) on that host's session 1 waits for the Atelier. -/
def laneWaits : State :=
  let s := (State.reset.put Obj.bootState 6).put Obj.sopIpv4Address 0x0A000001
  let x : Session := { isOpen := true, path := .mg0Udp, peer := [10, 0, 0, 2, 48, 57], nextSeq := 2, epoch := 2, auth := false,
                       idleMs := 10000, stored := none }
  let r : SlowRequest := { atelier := true, opcode := 1, message := laneMessage 1 1 1 0x6843 2, key := none, epoch := 2 }
  { s with sop := { s.sop with sessions := s.sop.sessions.set 0 x, slow := [r] } }

/-- A READ of BOOT_STATE (0x1200:01) on session 0, which is none of the objects that a sessionless READ may name (R40). -/
def strayRead : SopMessage := laneMessage 1 0 7 0x1200 1

/-- The checks let it through as far as step 7, and step 8 does not; yet a message of its path waits. -/
theorem strayRead_checks : laneWaits.carriageGood strayRead.carriage = true ∧ sopShaped strayRead = true ∧
    laneWaits.sopAuthentic 1 strayRead = true ∧ laneWaits.sopRefuses 1 strayRead = none ∧ laneWaits.sopSeq 1 strayRead = .serve ∧
    sopAllowed 1 strayRead = false ∧ laneWaits.sopSlow 1 strayRead = false ∧ laneWaits.sopBehind 1 strayRead = true := by
  decide +kernel

theorem answer_sopReplied {code : Nat} : ∃ b', (sopReplied s o m code b).answer =
    .sop m.carriage.path (((s.sopAdvance o m).sopStore o m (s.sopEpoch m) (some b')).ownAddress m.carriage) m.carriage.peer
      m.carriage.tags b' := by
  obtain ⟨x, d, h⟩ := deliver_eq (s := (s.sopAdvance o m).sopStore o m (s.sopEpoch m) (some (sopReply s o m code b)))
    (c := m.carriage) (b := sopReply s o m code b)
  exact ⟨sopReply s o m code b, by rw [sopReplied, h]⟩

/-- Refutes O37: a message that only step 8 turns away waits its turn behind one of its path, and is not answered
BAD_OPCODE before its turn. -/
theorem not_messagesAreChecked : ¬ Obligations.MessagesAreChecked := by
  intro h
  obtain ⟨hc, hs, ha, hr, hq, hn, hslow, hb⟩ := strayRead_checks
  have heard : sopHeard laneWaits strayRead := ⟨rfl, fun h => nomatch h⟩
  have mem : (.read (.sop strayRead), 1) ∈ sopCommands strayRead := List.mem_cons_self
  obtain ⟨-, hstep, -⟩ := h laneWaits strayRead heard _ mem
  obtain ⟨-, -, hstep⟩ := hstep hc
  obtain ⟨-, -, -, hstep⟩ := hstep hs ha
  obtain ⟨-, -, hclaim⟩ := hstep hr
  have hclaim := hclaim hq hn
  have hwaits := (exec_of_heard heard mem).trans ((sopMessage_of_serve hc hs ha hr hq).trans
    (sopAccept_waits hslow (.inr hb) (by simp)))
  have hsame := Host.Outcome.next.inj (hwaits.symm.trans hclaim)
  obtain ⟨b', hanswer⟩ := answer_sopReplied (s := boxed laneWaits strayRead) (o := 1) (m := strayRead) (code := 2) (b := [])
  exact nomatch (congrArg State.answer hsame).trans hanswer

end Sys2Proof.Proofs

/-! PROOFS. The PCIe windows (R51), and the rings with the table commands that take their records (R60, R62, R185). -/

namespace Sys2Proof.Proofs

open Sys2Proof.Machine Sys2Proof.Safety Sys2Proof.Laws

variable {s : State} {r op : Nat} {b : List Byte} {act : Nat → State → State} {e : Instr × Nat}

/-! ### An octet string in a slot of BAR0 (R51) -/

/-- A write of SOP_IPV4_ADDRESS (0x1100:04) through its slot of BAR0. -/
def addressWrite : Instr := .write (.bar0 (BitVec.ofNat 27 (0x1100 * 0x800 + 4 * 8)) [1, 0, 0, 0])

/-- The bytes of an octet string stand in their order in its slot, so that the first is the most significant one. -/
theorem addressWrite_stores :
    (nextOr State.reset (exec addressWrite State.reset)).obj? Obj.sopIpv4Address = beNat [1, 0, 0, 0] := by decide +kernel

/-- Refutes O40: SOP_IPV4_ADDRESS is an octet string, and its bytes written through BAR0 are not taken least significant byte first. -/
theorem not_pcieWindows : ¬ Obligations.PcieWindows := by
  intro h
  obtain ⟨-, -, hset, -⟩ := h State.reset rfl
  have hopen : plinthOpen State.reset := ⟨rfl, by decide, by decide⟩
  have hnext : exec addressWrite State.reset =
      .next { State.reset.put Obj.sopIpv4Address (leNat [1, 0, 0, 0]) with answer := .none } :=
    hset (0x1100, 4, 4) List.mem_cons_self [1, 0, 0, 0] hopen (by decide +kernel) rfl
  have hreads := addressWrite_stores
  rw [hnext] at hreads
  exact absurd hreads (by decide +kernel)

/-! ### Records that enter a ring (R60, R62) -/

theorem ringPush_of_room (h : s.ringFull r = false) : s.ringPush r b =
    (s.putBytes (Obj.ringRecords r) (s.obj? (Obj.ringRecordBytes r) * bits (s.obj? (Obj.ringHead r)) 30 0)
      (padTo (s.obj? (Obj.ringRecordBytes r)) b)).put (Obj.ringHead r) (ringNext (s.ringCapacity r) (s.obj? (Obj.ringHead r))) := by
  simp [State.ringPush, h]

theorem ringPush_of_full (h : s.ringFull r = true) : s.ringPush r b = (s.bump32 (Obj.ringDropped r)).flag (Obj.ringStatus r) 2 := by
  simp [State.ringPush, h]

/-- A record dropped is counted, and sets STATUS [2]; HEAD and the records stand. -/
theorem ringPush_drops (hw : s.dictWf = true) (h : s.ringFull r = true) :
    (s.ringPush r b).obj? (Obj.ringDropped r) = min (s.obj? (Obj.ringDropped r) + 1) 0xFFFFFFFF ∧
    bit ((s.ringPush r b).obj? (Obj.ringStatus r)) 2 = true ∧ (s.ringPush r b).obj? (Obj.ringHead r) = s.obj? (Obj.ringHead r) ∧
    (s.ringPush r b).dom = s.dom := by
  have hobj := (dictWf_iff.mp hw).1
  have hbump := bump32_wf (k := Obj.ringDropped r) hobj
  rw [ringPush_of_full h]
  refine ⟨?dropped, ?status, ?head, rfl⟩
  case dropped =>
    have hne : Obj.ringDropped r ≠ Obj.ringStatus r := by simp [Obj.ringDropped, Obj.ringStatus, Dict.key]
    rw [obj?_flag hbump, if_neg hne, obj?_bump32 hobj, if_pos rfl]
    rfl
  case status =>
    rw [obj?_flag hbump, if_pos rfl]
    exact bit_setBit _ 2
  case head =>
    have hs : Obj.ringHead r ≠ Obj.ringStatus r := by simp [Obj.ringHead, Obj.ringStatus, Dict.key]
    have hd : Obj.ringHead r ≠ Obj.ringDropped r := by simp [Obj.ringHead, Obj.ringDropped, Dict.key]
    rw [obj?_flag hbump, if_neg hs, obj?_bump32 hobj, if_neg hd]

/-! ### Table commands (R185) -/

/-- The table's commands, with their opcodes. -/
def tableCommands : List (Instr × Nat) :=
  [(.insert, 1), (.modify, 2), (.delete, 3), (.lookup, 5), (.hitTest, 6), (.ruleWrite, 0x10), (.ruleDelete, 0x11), (.ruleRead, 0x12),
    (.versionOpen, 0x20), (.commit, 0x21), (.versionAbort, 0x22)]

/-- Each of them takes the record at TAIL of ring 8 that bears its opcode, and acts on it in its own way. -/
theorem exec_tableCommand (he : e ∈ tableCommands) :
    tableOpcode e.2 = true ∧ ∃ act, ∀ s, exec e.1 s = .next (s.takeTable e.2 act) := by
  simp only [tableCommands, List.mem_cons, List.not_mem_nil, or_false] at he
  rcases he with rfl | rfl | rfl | rfl | rfl | rfl | rfl | rfl | rfl | rfl | rfl <;> exact ⟨rfl, _, fun _ => rfl⟩

theorem tableRecord_none (h : s.ready = false ∨ s.ringEmpty 8 = true ∨ s.ringFull 3 = true ∨ s.ring8Stopped = true ∨
    s.em.writing.isSome = true) : s.tableRecord = none := by
  rcases h with h | h | h | h | h <;> simp [State.tableRecord, h]

theorem tableRecord_some (h1 : s.ready = true) (h2 : s.ringEmpty 8 = false) (h3 : s.ringFull 3 = false)
    (h4 : s.ring8Stopped = false) (h5 : s.em.writing = none) : s.tableRecord = some (beNat (s.ringFront 8)) := by
  simp [State.tableRecord, h1, h2, h3, h4, h5]

theorem takeTable_none (h : s.tableRecord = none) : s.takeTable op act = s := by
  simp [State.takeTable, h]

/-- An opcode that is not known is completed BAD_OPCODE by whatever command takes the record. -/
theorem takeTable_unknown (h : s.tableRecord = some r) (hop : tableOpcode op = true) (hr : tableOpcode (bits r 255 248) = false) :
    s.takeTable op act = (s.ringTake 8).tableDone (bits r 239 224) (bits r 255 248) 7 0 0 0 := by
  have hne : bits r 255 248 ≠ op := by
    rintro rfl
    rw [hop] at hr
    cases hr
  simp [State.takeTable, h, hne, hr]

/-- Another known opcode waits for its own command. -/
theorem takeTable_other (h : s.tableRecord = some r) (hr : tableOpcode (bits r 255 248) = true) (hne : bits r 255 248 ≠ op) :
    s.takeTable op act = s := by
  simp [State.takeTable, h, hne, hr]

/-- Settles O43: rings by HEAD and their drops, and the table's commands by the one way in which they take a record. -/
theorem ringsAreServed : Obligations.RingsAreServed := by
  intro s
  refine ⟨fun r b h => ringPush_of_room h, fun r b _ hw h => ringPush_drops hw h, fun e he => ?_⟩
  obtain ⟨hop, act, hexec⟩ := exec_tableCommand he
  rw [hexec]
  refine ⟨fun h => congrArg _ (takeTable_none (tableRecord_none h)), fun h1 h2 h3 h4 h5 => ?_⟩
  have hrec := tableRecord_some h1 h2 h3 h4 h5
  refine ⟨fun hr => congrArg _ (takeTable_unknown hrec hop hr), fun hr hne => congrArg _ (takeTable_other hrec hr hne),
    fun _ => ⟨_, rfl⟩, fun hw => ?_⟩
  have hobj := (dictWf_iff.mp hw).1
  exact ⟨obj?_put_self hobj, fun k hk => obj?_put_ne hobj hk⟩

end Sys2Proof.Proofs

/-! PROOFS. Power, resets and clocks (03): what power, the reset pins, the rails and the clocks lead to, and what a reset wipes and
keeps. -/

namespace Sys2Proof.Proofs

open Sys2Proof.Machine Sys2Proof.Safety Sys2Proof.Laws

variable {s t : State} {k n v code cause : Nat} {step : BootStep} {kind : SeqKind} {e : Trouble}

/-! ### Power and the life-cycle fuses (R66, R71, R82) -/

/-- Settles O9: any other command than the two that end a blow keeps the fuses, and those two give them its target or leave them. -/
theorem onlyABlowChangesTheLifeState : Obligations.OnlyABlowChangesTheLifeState := by
  intro c s t hs hv he hne
  obtain ⟨f, hf, hr⟩ := holds_exec c (holds_of_shape hs hv)
  have hfuses : t.boot.fuses = f := (HoldsR.of_eq he hr).fuses
  obtain rfl | ⟨hc, hb⟩ := hf
  · exact absurd hfuses hne
  · exact ⟨hc, hfuses ▸ hb⟩

/-- Settles O3: both maps of the dictionary are empty after reset, and what they do not list reads its default. -/
theorem resetLeavesDefaults : Obligations.ResetLeavesDefaults := by
  have hoff : ∀ n ∈ Fn.numbers, Dict.reset (fnStateKey n) = 0 := by decide +kernel
  refine ⟨fun _ => rfl, fun _ _ _ => rfl, hoff, rfl, fun x hx => ?_, rfl, rfl, rfl⟩
  rw [List.eq_of_mem_replicate hx]

/-- What a loss of power leaves, where the fuses read `fuses` after it. -/
theorem powerRemoval_next {every : Bool} (h : every = true ∨ bits (s.obj? Obj.railStatus) 6 2 = 0) :
    exec (.powerRemoval every) s = .next { State.reset with
      pending := s.fusesAtLoss.2.pending, freeIx := s.fusesAtLoss.2.freeIx, pins := s.fusesAtLoss.2.pins,
      boot := { State.reset.boot with powered := false, fuses := s.fusesAtLoss.1 } } := by
  have hc : ¬ (!every && bits (s.obj? Obj.railStatus) 6 2 != 0) = true := by
    rcases h with h | h <;> simp [h]
  exact if_neg hc

/-- Settles O14: the fuses after a loss of power are those that stood, or those of the blow that it broke off. -/
theorem powerCommands : Obligations.PowerCommands := by
  intro s
  refine ⟨fun _ => rfl, fun every h => ⟨fun hb => ?_, fun target hb => ?_⟩, fun h => ?_⟩
  · have hf : s.fusesAtLoss = (s.boot.fuses, s) := by simp only [State.fusesAtLoss, hb]
    rw [powerRemoval_next h, hf]
  · have hf : s.fusesAtLoss = (if (s.free 1).1 = 1 then target else s.boot.fuses, (s.free 1).2) := by
      simp only [State.fusesAtLoss, hb]
      rfl
    refine ⟨s.fusesAtLoss.1, ?_, ?_⟩
    · rw [hf]
      dsimp only
      split
      · exact .inr rfl
      · exact .inl rfl
    · rw [powerRemoval_next h, hf]
      rfl
  · have hc : (!false && bits (s.obj? Obj.railStatus) 6 2 != 0) = true := by simp [h]
    exact if_pos hc

/-! ### How far a sequence goes (R65, R67, R72, R75, R79, R80) -/

theorem obj?_bootTo_self (hw : s.dictWf = true) : (s.bootTo step code).obj? Obj.bootState = code := by
  rw [obj?_bootTo (dictWf_iff.mp hw).1, if_pos rfl]

theorem obj?_bootTo_ne (hw : s.dictWf = true) (hk : k ≠ Obj.bootState) : (s.bootTo step code).obj? k = s.obj? k := by
  rw [obj?_bootTo (dictWf_iff.mp hw).1, if_neg hk]

theorem dictWf_bootTo (hw : s.dictWf = true) : (s.bootTo step code).dictWf = true := dictWf_put (by exact hw)

theorem warmSequence_iff : s.warmSequence = true ↔ s.boot.kind = .warm := by
  unfold State.warmSequence
  split
  · simp [*]
  · simpa using by assumption

theorem warmSequence_eq_false (h : s.boot.kind ≠ .warm) : s.warmSequence = false :=
  Bool.eq_false_iff.mpr (mt warmSequence_iff.mp h)

theorem warmHolds_iff : s.warmHolds = true ↔ s.pins.warmN = false ∧ s.pins.warmIgnored = false := by
  simp [State.warmHolds]

theorem neverStarts_iff : s.neverStarts = true ↔ s.boot.fuses = 0 ∨ s.boot.fuses = 4 := by
  simp [State.neverStarts]

/-- Nothing of rails, pins and life cycle holds a sequence any more: it needs its clocks, and then starts. -/
def PastTheHolds (s : State) : Prop :=
  s.railsIn = true ∧ s.pins.coldN = true ∧
    ((s.boot.kind = .warm ∧ s.warmHolds = false) ∨ (s.boot.kind ≠ .warm ∧ s.boot.fuses ≠ 0 ∧ s.boot.fuses ≠ 4))

theorem tryStart_rails (h : s.railsIn = false) : s.tryStart = s.bootTo .rails 0 := by simp [State.tryStart, h]

theorem tryStart_coldHeld (h : s.railsIn = true) (hc : s.pins.coldN = false) : s.tryStart = s.bootTo .coldHeld 9 := by
  simp [State.tryStart, h, hc]

theorem tryStart_warmHeld (h : s.railsIn = true) (hc : s.pins.coldN = true) (hk : s.boot.kind = .warm) (hh : s.warmHolds = true) :
    s.tryStart = s.bootTo .warmHeld 9 := by
  simp [State.tryStart, h, hc, warmSequence_iff.mpr hk, hh]

theorem tryStart_never (h : s.railsIn = true) (hc : s.pins.coldN = true) (hk : s.boot.kind ≠ .warm)
    (hf : s.boot.fuses = 0 ∨ s.boot.fuses = 4) : s.tryStart = s.bootTo .idle 10 := by
  simp [State.tryStart, h, hc, warmSequence_eq_false hk, neverStarts_iff.mpr hf]

/-- Past the holds, a sequence waits for the clocks that it needs, or starts from the clock at which it stands. -/
theorem tryStart_past (h : PastTheHolds s) : s.tryStart =
    if !s.refclk || s.warmSequence && !s.pllsIn then s.bootTo .clocks 1
    else if s.warmSequence then
      ({ s with boot := { s.boot with released := s.clock, sramWiping := true } } : State).bootTo .ddr5Reset 3
    else ({ s with boot := { s.boot with released := s.clock } } : State).bootTo .plls 1 := by
  obtain ⟨hr, hc, h⟩ := h
  have hwarm : ¬ (s.warmSequence && s.warmHolds) = true := by
    rcases h with ⟨-, hh⟩ | ⟨hk, -⟩
    · simp [hh]
    · simp [warmSequence_eq_false hk]
  have hlife : ¬ (!s.warmSequence && s.neverStarts) = true := by
    rcases h with ⟨hk, -⟩ | ⟨-, hf⟩
    · simp [warmSequence_iff.mpr hk]
    · simp [neverStarts_iff, hf]
  rw [State.tryStart, if_neg (by simp [hr]), if_neg (by simp [hc]), if_neg hwarm, if_neg hlife]
  rfl

theorem tryStart_clocks (h : PastTheHolds s) (hc : s.refclk = false ∨ (s.boot.kind = .warm ∧ s.pllsIn = false)) :
    s.tryStart = s.bootTo .clocks 1 := by
  rw [tryStart_past h, if_pos]
  rcases hc with hc | ⟨hk, hp⟩
  · simp [hc]
  · simp [warmSequence_iff.mpr hk, hp]

theorem tryStart_started (h : PastTheHolds s) (hc : s.refclk = true) (hp : s.boot.kind = .warm → s.pllsIn = true) :
    (s.boot.kind = .warm → s.tryStart =
      ({ s with boot := { s.boot with released := s.clock, sramWiping := true } } : State).bootTo .ddr5Reset 3) ∧
    (s.boot.kind ≠ .warm → s.tryStart = ({ s with boot := { s.boot with released := s.clock } } : State).bootTo .plls 1) := by
  rw [tryStart_past h]
  refine ⟨fun hk => ?_, fun hk => ?_⟩
  · simp [hc, hp hk, warmSequence_iff.mpr hk]
  · simp [hc, warmSequence_eq_false hk]

/-- How far a sequence goes shows in BOOT_STATE and in the boot's own state, and nowhere else; the fuses stay. -/
theorem tryStart_eq : ∃ b step code, s.tryStart = ({ s with boot := b } : State).bootTo step code ∧ b.fuses = s.boot.fuses := by
  unfold State.tryStart
  dsimp only
  repeat' split
  all_goals exact ⟨_, _, _, rfl, rfl⟩

/-- Settles O13: one equation for each place at which a sequence waits or starts, and one for what it leaves as it was. -/
theorem sequencesGoAsFarAsTheyMay : Obligations.SequencesGoAsFarAsTheyMay := by
  intro s hw t
  have reads : ∀ {u : State} {step code}, u.dictWf = true → t = u.bootTo step code →
      t.obj? Obj.bootState = code ∧ t.boot.step = step := by
    intro u step code hu h
    rw [h]
    exact ⟨obj?_bootTo_self hu, rfl⟩
  refine ⟨fun h => reads hw (tryStart_rails h), fun h hc => reads hw (tryStart_coldHeld h hc),
    fun h hc => ⟨fun hk hh => reads hw (tryStart_warmHeld h hc hk hh), warmHolds_iff,
      fun hk hf => reads hw (tryStart_never h hc hk hf), fun hp => ?_⟩, ?_⟩
  · have hpast : PastTheHolds s := ⟨h, hc, hp⟩
    refine ⟨fun hcl => reads hw (tryStart_clocks hpast hcl), fun ⟨hclk, hpll⟩ => ?_⟩
    obtain ⟨hwarm, hcold⟩ := tryStart_started hpast hclk hpll
    have ht : t.boot.released = s.clock := by
      by_cases hk : s.boot.kind = .warm
      · exact congrArg (·.boot.released) (hwarm hk)
      · exact congrArg (·.boot.released) (hcold hk)
    refine ⟨ht, fun hk => ?_, fun hk => reads (by exact hw) (hcold hk)⟩
    obtain ⟨h1, h2⟩ := reads (by exact hw) (hwarm hk)
    exact ⟨h1, h2, congrArg (·.boot.sramWiping) (hwarm hk)⟩
  · obtain ⟨b, step, code, hb, -⟩ := tryStart_eq (s := s)
    have ht : t = _ := hb
    refine ⟨fun k hk => ?_, by rw [ht]; rfl⟩
    rw [ht, obj?_bootTo_ne (by exact hw) hk]
    rfl

/-! ### What a reset wipes and keeps (R71, R390, R480) -/

theorem ObjectsApart.put (h : ObjectsApart s t) : ObjectsApart s (t.put k v) := by
  obtain ⟨o, rfl⟩ := h
  exact ⟨_, rfl⟩

/-- A record of the Patina changes the dictionary and the number of the next record. -/
theorem log_eq : ∃ o d x, s.log e = { s with obj := o, dom := d, faults := x } := by
  unfold State.log State.ringPush
  dsimp only
  split <;> exact ⟨_, _, _, rfl⟩

theorem log_boot : (s.log e).boot = s.boot := by
  obtain ⟨o, d, x, h⟩ := log_eq (s := s) (e := e)
  rw [h]

theorem log_atelier : (s.log e).atelier = s.atelier := by
  obtain ⟨o, d, x, h⟩ := log_eq (s := s) (e := e)
  rw [h]

theorem log_sop : (s.log e).sop = s.sop := by
  obtain ⟨o, d, x, h⟩ := log_eq (s := s) (e := e)
  rw [h]

/-- The objects that a record of the Patina may write. -/
def patinaWrites : List Nat := [Obj.ringHead 5, Obj.ringDropped 5, Obj.ringStatus 5]

theorem dictWf_log (hw : s.dictWf = true) : (s.log e).dictWf = true := by
  refine dictWf_iff.mpr ⟨log_wf (dictWf_iff.mp hw).1, ?_⟩
  unfold State.log State.ringPush
  dsimp only
  split
  · exact (dictWf_iff.mp hw).2
  · exact (dictWf_iff.mp (dictWf_putBytes hw)).2

/-- Objects set one after another leave what every other object reads. -/
theorem obj?_foldl_put {key : Nat → Nat} {val : State → Nat → Nat} {l : List Nat} (hw : Sparse.wf Dict.reset s.obj = true)
    (hk : ∀ n ∈ l, k ≠ key n) : (l.foldl (fun s n => s.put (key n) (val s n)) s).obj? k = s.obj? k := by
  refine (List.foldlRecOn (motive := fun t : State => Sparse.wf Dict.reset t.obj = true ∧ t.obj? k = s.obj? k) l _ ⟨hw, rfl⟩ ?_).2
  intro t ⟨ht, he⟩ n hn
  exact ⟨put_wf ht, (obj?_put_ne ht (hk n hn)).trans he⟩

theorem objectsApart_foldl_put {key : Nat → Nat} {val : State → Nat → Nat} {l : List Nat} :
    ObjectsApart s (l.foldl (fun s n => s.put (key n) (val s n)) s) :=
  List.foldlRecOn (motive := ObjectsApart s) l _ .refl fun _ h _ _ => h.put

/-- An abandoned reload writes RELOAD_STATUS and the levels of the sequencers (R444). -/
theorem obj?_abandonReload (hw : Sparse.wf Dict.reset s.obj = true) (hr : k ≠ Obj.reloadStatus)
    (hl : ∀ n ∈ List.range 8, k ≠ Obj.seqImageLevel n) : s.abandonReload.obj? k = s.obj? k :=
  (obj?_foldl_put (put_wf hw) hl).trans (obj?_put_ne hw hr)

theorem objectsApart_abandonReload : ObjectsApart s s.abandonReload := by
  obtain ⟨o, h⟩ : ObjectsApart (s.put Obj.reloadStatus 9) s.abandonReload := objectsApart_foldl_put
  exact ⟨o, h⟩

/-- The objects that a wipe leaves: those of the kind of reset, and after a warm one the states of the ciphers that stay FENCED with the
key store (R71). -/
def wipeKeeps (s : State) (kind : SeqKind) (k : Nat) : Bool :=
  keptKey kind k || (kind.isWarm && s.keyStoreFenced && (List.range 16).any fun g => k == Obj.functionStateCipher g)

theorem obj?_wipedBase : (s.wipedBase kind).obj? k = if wipeKeeps s kind k then s.obj? k else Dict.reset k := by
  have h := find?_filter (m := s.obj) (k := k) (p := fun e => wipeKeeps s kind e.1) fun _ => rfl
  refine (congrArg (Option.getD · (Dict.reset k)) h).trans ?_
  split <;> rfl

theorem obj?_wipedBase_kept (hk : keptKey kind k = true) : (s.wipedBase kind).obj? k = s.obj? k := by
  rw [obj?_wipedBase, if_pos (by simp [wipeKeeps, hk])]

theorem obj?_wipedBase_wiped (hk : keptKey kind k = false) (hc : kind.isWarm = false) :
    (s.wipedBase kind).obj? k = Dict.reset k := by
  rw [obj?_wipedBase, if_neg (by simp [wipeKeeps, hk, hc])]

theorem dictWf_wipedBase (hw : s.dictWf = true) : (s.wipedBase kind).dictWf = true := by
  obtain ⟨hobj, hdom⟩ := dictWf_iff.mp hw
  exact dictWf_iff.mpr ⟨sparse_filter_wf hobj, sparse_filter_wf hdom⟩

/-- Beside the one wipe of every kind, a reset may close sessions, and write the objects of a reload that it abandons. -/
theorem wiped_eq : ∃ o p, s.wiped kind = { s.wipedBase kind with obj := o, sop := p } ∧ (kind.held = false → p = State.reset.sop) := by
  cases kind with
  | cold => exact ⟨_, _, rfl, fun _ => rfl⟩
  | lifeChange => exact ⟨_, _, rfl, fun _ => rfl⟩
  | railReturn => exact ⟨_, _, rfl, fun h => nomatch h⟩
  | warm =>
    obtain ⟨o, ho⟩ := objectsApart_abandonReload (s := s.wipedBase .warm)
    simp only [State.wiped, ho]
    split
    · exact ⟨o, _, rfl, fun h => nomatch h⟩
    · exact ⟨_, _, rfl, fun h => nomatch h⟩

theorem dictWf_wiped (hw : s.dictWf = true) : (s.wiped kind).dictWf = true := by
  have hb := dictWf_wipedBase (kind := kind) hw
  cases kind with
  | cold => exact hb
  | lifeChange => exact hb
  | railReturn => exact hb
  | warm =>
    simp only [State.wiped]
    split
    · refine List.foldlRecOn (motive := fun t : State => t.dictWf = true) _ _ (dictWf_put hb) fun _ h _ _ => dictWf_put h
    · exact hb

/-- A kept object outlives the whole wipe, where an abandoned reload does not write it. -/
theorem obj?_wiped_kept (hw : s.dictWf = true) (hk : keptKey kind k = true) (hr : k ≠ Obj.reloadStatus)
    (hl : ∀ n ∈ List.range 8, k ≠ Obj.seqImageLevel n) : (s.wiped kind).obj? k = s.obj? k := by
  have hb := obj?_wipedBase_kept (s := s) hk
  cases kind with
  | cold => exact hb
  | lifeChange => exact hb
  | railReturn => exact hb
  | warm =>
    simp only [State.wiped]
    split
    · exact (obj?_abandonReload (dictWf_iff.mp (dictWf_wipedBase hw)).1 hr hl).trans hb
    · exact hb

/-- The state in which a reset's cause has been recorded, and from which its sequence starts. -/
def recorded (s : State) (kind : SeqKind) (cause : Nat) : State :=
  let u := ({ s.wiped kind with boot := { (s.wiped kind).boot with kind := kind } } : State).put Obj.lastResetCause cause
  match kind with
  | .railReturn => u
  | _ => u.log { kind := 11, unit := 0x5B1, detail := cause }

theorem beginReset_eq_tryStart : s.beginReset kind cause = (recorded s kind cause).tryStart := rfl

/-- Beside the wipe, a reset changes its cause, the Patina's ring, and what its sequence shows. -/
theorem beginReset_eq : ∃ o d x b p, s.beginReset kind cause =
      { s.wipedBase kind with obj := o, dom := d, faults := x, boot := b, sop := p } ∧
    b.fuses = s.boot.fuses ∧ (kind.held = false → p = State.reset.sop) := by
  obtain ⟨o, p, hwiped, hp⟩ := wiped_eq (s := s) (kind := kind)
  obtain ⟨o', d, x, hrec⟩ : ∃ o d x, recorded s kind cause =
      { s.wiped kind with obj := o, dom := d, faults := x, boot := { (s.wiped kind).boot with kind := kind } } := by
    unfold recorded
    dsimp only
    split
    · exact ⟨_, _, _, rfl⟩
    · obtain ⟨o, d, x, h⟩ := log_eq (s := ({ s.wiped kind with boot := { (s.wiped kind).boot with kind := kind } } : State).put
        Obj.lastResetCause cause) (e := { kind := 11, unit := 0x5B1, detail := cause })
      exact ⟨o, d, x, h⟩
  obtain ⟨b, step, code, hstart, hb⟩ := tryStart_eq (s := recorded s kind cause)
  rw [beginReset_eq_tryStart, hstart, hrec, hwiped]
  refine ⟨_, d, x, { b with step := step }, p, rfl, ?_, hp⟩
  rw [hrec, hwiped] at hb
  exact hb

theorem obj?_tryStart_ne (hw : s.dictWf = true) (hk : k ≠ Obj.bootState) : s.tryStart.obj? k = s.obj? k := by
  obtain ⟨b, step, code, h, -⟩ := tryStart_eq (s := s)
  rw [h, obj?_bootTo_ne (by exact hw) hk]
  rfl

theorem obj?_log_ne (hw : s.dictWf = true) (hk : k ∉ patinaWrites) : (s.log e).obj? k = s.obj? k :=
  obj?_log (dictWf_iff.mp hw).1 hk

/-- The record of a reset writes its cause, and at most the Patina's ring beside it. -/
theorem recorded_reads (hw : s.dictWf = true) : (recorded s kind cause).dictWf = true ∧
    (recorded s kind cause).obj? Obj.lastResetCause = cause ∧
    ∀ k, k ∉ resetWrites → (recorded s kind cause).obj? k = (s.wiped kind).obj? k := by
  have hu : ({ s.wiped kind with boot := { (s.wiped kind).boot with kind := kind } } : State).dictWf = true := dictWf_wiped hw
  have hput := dictWf_put (k := Obj.lastResetCause) (v := cause) hu
  unfold recorded
  dsimp only
  split
  · refine ⟨hput, obj?_put_self (dictWf_iff.mp hu).1, fun k hk => obj?_put_ne (dictWf_iff.mp hu).1 ?_⟩
    rintro rfl
    exact hk (by decide)
  · refine ⟨dictWf_log hput, ?_, fun k hk => ?_⟩
    · rw [obj?_log_ne hput (by decide), obj?_put_self (dictWf_iff.mp hu).1]
    · simp only [resetWrites, List.mem_cons, not_or] at hk
      obtain ⟨-, hc, h1, h2, h3, hnil⟩ := hk
      rw [obj?_log_ne hput (by simp [patinaWrites, h1, h2, h3]), obj?_put_ne (dictWf_iff.mp hu).1 hc]
      rfl

theorem obj?_beginReset_cause (hw : s.dictWf = true) : (s.beginReset kind cause).obj? Obj.lastResetCause = cause := by
  obtain ⟨hrec, hc, -⟩ := recorded_reads (kind := kind) (cause := cause) hw
  rw [beginReset_eq_tryStart, obj?_tryStart_ne hrec (by decide), hc]

/-- What a reset does not write itself reads as the wipe left it. -/
theorem obj?_beginReset (hw : s.dictWf = true) (hk : k ∉ resetWrites) :
    (s.beginReset kind cause).obj? k = (s.wiped kind).obj? k := by
  obtain ⟨hrec, -, h⟩ := recorded_reads (kind := kind) (cause := cause) hw
  rw [beginReset_eq_tryStart, obj?_tryStart_ne hrec (by rintro rfl; exact hk (by decide)), h k hk]

theorem beginReset_fuses : (s.beginReset kind cause).boot.fuses = s.boot.fuses := by
  obtain ⟨o, d, x, b, p, h, hb, -⟩ := beginReset_eq (s := s) (kind := kind) (cause := cause)
  rw [h]
  exact hb

/-- A reset of no held kind leaves every object at its default, but those it writes and those that describe the board and the die. -/
theorem obj?_beginReset_wiped (hw : s.dictWf = true) (hkind : kind = .cold ∨ kind = .lifeChange) (hp : physicalKey k = false)
    (hk : k ∉ resetWrites) : (s.beginReset kind cause).obj? k = Dict.reset k := by
  rw [obj?_beginReset hw hk]
  rcases hkind with rfl | rfl <;> exact obj?_wipedBase_wiped (by simp [keptKey, hp]) rfl

/-- An object that a reset keeps, and that neither the reset nor an abandoned reload writes, reads as before. -/
theorem obj?_beginReset_kept (hw : s.dictWf = true) (hk : keptKey kind k = true) (hn : k ∉ resetWrites)
    (hr : k ≠ Obj.reloadStatus) (hl : ∀ n ∈ List.range 8, k ≠ Obj.seqImageLevel n) :
    (s.beginReset kind cause).obj? k = s.obj? k := by
  rw [obj?_beginReset hw hn, obj?_wiped_kept hw hk hr hl]

theorem keptKey_of_held (hkind : kind = .railReturn ∨ kind = .warm) (hk : heldKey k = true) : keptKey kind k = true := by
  rcases hkind with rfl | rfl <;> simp [keptKey, hk]

/-- The range 0x1100-0x11FF holds none of the objects that a reset or an abandoned reload writes. -/
theorem not_written_of_held_range (h1 : 0x1100 ≤ k / 256) (h2 : k / 256 ≤ 0x11FF) :
    k ∉ resetWrites ∧ k ≠ Obj.reloadStatus ∧ ∀ n ∈ List.range 8, k ≠ Obj.seqImageLevel n := by
  have hout : ∀ j ∈ Obj.reloadStatus :: resetWrites ++ (List.range 8).map Obj.seqImageLevel, ¬ (0x1100 ≤ j / 256 ∧ j / 256 ≤ 0x11FF) := by
    decide
  have hk : k ∉ Obj.reloadStatus :: resetWrites ++ (List.range 8).map Obj.seqImageLevel := fun h => hout k h ⟨h1, h2⟩
  simp only [List.cons_append, List.mem_cons, List.mem_append, List.mem_map, not_or, not_exists, not_and] at hk
  obtain ⟨hr, hw, hl⟩ := hk
  exact ⟨hw, hr, fun n hn h => hl n hn h.symm⟩

/-- Settles O12: beside objects, boot, sessions and the trouble log's number a reset is its wipe, and the wipe keeps objects by kind. -/
theorem resetsWipeAndKeep : Obligations.ResetsWipeAndKeep := by
  intro s kind cause hw t r
  obtain ⟨o, d, x, b, p, h, hb, hp⟩ := beginReset_eq (s := s) (kind := kind) (cause := cause)
  have ht : t = _ := h
  refine ⟨obj?_beginReset_cause hw, beginReset_fuses, (congrArg State.frames ht :), (congrArg State.copies ht :), (congrArg
    State.ports ht :), (congrArg State.pipes ht :), (congrArg State.em ht :), (congrArg State.relief ht :), (congrArg State.versions
    ht :), (congrArg State.arm ht :), (congrArg State.queues ht :), (congrArg State.fabric ht :), (congrArg State.kiln ht :),
    (congrArg State.flow ht :), (congrArg State.timing ht :), (congrArg State.goals ht :), fun hk => ?cold, fun hk j h1 h2 =>
    ?range, fun hk => ?patina, fun hk => ?warm⟩
  case cold =>
    refine ⟨?_, ?_, fun j hj hn => obj?_beginReset_wiped hw hk hj hn⟩
    · rw [ht]
      exact hp (by rcases hk with rfl | rfl <;> rfl)
    · rw [ht]
      rcases hk with rfl | rfl <;> rfl
  case range =>
    obtain ⟨hn, hr, hl⟩ := not_written_of_held_range h1 h2
    exact obj?_beginReset_kept hw (keptKey_of_held hk (by simp [heldKey, keyIndex, h1, h2])) hn hr hl
  case patina =>
    exact obj?_beginReset_kept hw (keptKey_of_held hk (by decide)) (by decide) (by decide) (by decide)
  case warm =>
    subst hk
    exact ⟨congrArg (·.cipher.keys) ht, obj?_beginReset_kept hw (by decide) (by decide) (by decide) (by decide)⟩

/-! ### Reset pins and reset requests (R70, R72) -/

theorem ignoresWarm_of_idle (hp : s.boot.powered = true) (hi : s.boot.step = .idle) (hb : s.obj? Obj.bootState ∉ [7, 8, 10]) :
    s.ignoresWarm = false := by
  simp only [List.mem_cons, List.not_mem_nil, or_false, not_or] at hb
  obtain ⟨h7, h8, h10⟩ := hb
  simp [State.ignoresWarm, hp, hi, h7, h8, h10]

theorem sequenceRuns_iff : s.sequenceRuns = true ↔ s.boot.step ≠ .idle := by
  unfold State.sequenceRuns
  split
  · simp [*]
  · simpa using by assumption

/-- A warm cause finds no sequence and is not ignored: it begins one. -/
theorem warmCause_begins (hi : s.boot.step = .idle) (h : s.ignoresWarm = false) : s.warmCause cause = s.beginReset .warm cause := by
  have hr : s.sequenceRuns = false := Bool.eq_false_iff.mpr fun hr => sequenceRuns_iff.mp hr hi
  simp [State.warmCause, hr, h]

theorem warmCause_absorbed (h : s.boot.step ≠ .idle ∨ s.ignoresWarm = true) : s.warmCause cause = s :=
  if_pos (by rcases h with h | h <;> simp [h, sequenceRuns_iff])

/-- The row of RESET_REQUEST. -/
def resetRequestRow : Family := ⟨0x1200, 1, 1, 4, 1, .enum8, 1, .wo, 0, .range 1 2, 0⟩

theorem hostWrite_resetRequest (hs : plinthOpen s) (hv : v = 1 ∨ v = 2) :
    s.hostWrite Obj.resetRequest v = .next { s.writeReset v with answer := .code 0 } := by
  have hp : PlinthWritable 0x1200 4 resetRequestRow := by decide +kernel
  refine hostWrite_plinthObject hs hp ?_ ?_ rfl <;> rcases hv with rfl | rfl <;> decide

/-! ### READY (R72, R75, R79) -/

theorem becomeReady_held (h : s.warmHolds = true) : s.becomeReady = s.bootTo .readyHeld 9 := if_pos h

/-- With nothing that holds it the device becomes READY: it stripes over the channels in use, and records how long its boot took. -/
theorem becomeReady_free (h : s.warmHolds = false) : ∃ x n, s.becomeReady =
    (({ s with boot := { s.boot with striped := (s.bootTo .idle 6).obj? Obj.ddr5ChannelsInUse }, faults := x } : State).bootTo
      .idle 6).put Obj.bootElapsed n := by
  unfold State.becomeReady
  rw [if_neg (by simp [h])]
  exact ⟨_, _, rfl⟩

/-- What a device that becomes READY reads: BOOT_STATE, BOOT_ELAPSED, and everything else as before. -/
theorem obj?_becomeReady (hw : s.dictWf = true) (h : s.warmHolds = false) :
    s.becomeReady.ready = true ∧ s.becomeReady.boot.striped = s.obj? Obj.ddr5ChannelsInUse ∧
      ∀ k, k ≠ Obj.bootState → k ≠ Obj.bootElapsed → s.becomeReady.obj? k = s.obj? k := by
  obtain ⟨x, n, hr⟩ := becomeReady_free h
  have hobj := dictWf_iff.mp (dictWf_bootTo (step := .idle) (code := 6) hw)
  refine ⟨?_, ?_, fun k hb he => ?_⟩
  · rw [State.ready, hr, obj?_put_ne (by exact hobj.1) (by decide), obj?_bootTo_self (by exact hw)]
    rfl
  · rw [hr]
    exact obj?_bootTo_ne hw (by decide)
  · rw [hr, obj?_put_ne (by exact hobj.1) he, obj?_bootTo_ne (by exact hw) hb]
    rfl

/-- Settles O19: what ends the wipes by the kind of sequence, and what READY is by WARM_N. -/
theorem theBootEndsInReady : Obligations.TheBootEndsInReady := by
  intro s hw
  refine ⟨fun hk hn => ?_, fun h => ?_, becomeReady_held, fun h => ?_⟩
  · simp [State.wipesEnded, warmSequence_iff.mpr hk, hn]
  · refine if_neg ?_
    rcases h with hk | hn
    · simp [warmSequence_eq_false hk]
    · simp [hn]
  · obtain ⟨hready, hstriped, hobj⟩ := obj?_becomeReady hw h
    obtain ⟨x, n, hr⟩ := becomeReady_free h
    exact ⟨hready, congrArg (·.boot.step) hr, hstriped, (congrArg State.frames hr :), (congrArg State.sop hr :), hobj⟩

/-- Settles O15: each cause begins its reset where the sequence and the state let it, and each pin that rises lets its sequence go on. -/
theorem resetCauses : Obligations.ResetCauses := by
  intro s hp
  refine ⟨if_pos hp, fun h => ?coldRise, ignoresWarm_of_idle hp, fun hc hi hg => ?warmLow, fun h => ?warmAbsorbed, fun h => ?warmRise,
    fun h => ?readyRise, fun hs hi hg => ?request, fun hs h => ?requestAbsorbed, fun hs => ?requestCold⟩
  case coldRise =>
    change execColdNRise s = _
    simp only [execColdNRise, h]
  case warmLow =>
    change execWarmNLow s = _
    simp only [execWarmNLow, hc, if_true, hg]
    exact congrArg _ (warmCause_begins hi hg)
  case warmAbsorbed =>
    change execWarmNLow s = _
    unfold execWarmNLow
    dsimp only
    split
    · exact congrArg _ (warmCause_absorbed h)
    · rfl
  case warmRise =>
    change execWarmNRise s = _
    simp only [execWarmNRise, h]
  case readyRise =>
    have hf : ({ s with pins := { s.pins with warmN := true, warmIgnored := false } } : State).warmHolds = false := rfl
    obtain ⟨x, n, hr⟩ := becomeReady_free hf
    refine ⟨_, ?_, congrArg (·.boot.step) hr, congrArg (·.pins.warmN) hr, fun hw => ?_⟩
    · change execWarmNRise s = _
      simp only [execWarmNRise, h]
    · obtain ⟨hready, -, hobj⟩ := obj?_becomeReady (by exact hw) hf
      exact ⟨hready, hobj⟩
  case request =>
    exact (hostWrite_resetRequest hs (.inl rfl)).trans (by rw [State.writeReset, if_pos rfl, warmCause_begins hi hg])
  case requestAbsorbed =>
    exact (hostWrite_resetRequest hs (.inl rfl)).trans (by rw [State.writeReset, if_pos rfl, warmCause_absorbed h])
  case requestCold => exact hostWrite_resetRequest hs (.inr rfl)

/-! ### Rails (R480) -/

theorem bit_sub_self (v n : Nat) : bit (v - if bit v n then 2 ^ n else 0) n = false := by
  by_cases h : bit v n = true
  · have hd : v / 2 ^ n % 2 = 1 := by simpa [bit] using h
    have hs : (v - 2 ^ n) / 2 ^ n = v / 2 ^ n - 1 := by simpa using Nat.sub_mul_div v (2 ^ n) 1
    rw [if_pos h, bit, hs, beq_eq_false_iff_ne]
    omega
  · rw [if_neg h]
    simpa using h

/-- Every function reads OFF with the fast domains held, and what is no function's state reads as before. -/
theorem obj?_functionsOff (hk : ∀ n ∈ Fn.numbers, k ≠ fnStateKey n) : s.functionsOff.obj? k = s.obj? k := by
  have h := find?_filter (m := s.obj) (k := k) (P := fun k => !(Fn.numbers.any fun n => k == fnStateKey n &&
    !(s.keyStoreFenced && 0x180 ≤ n && n < 0x200))) fun _ => rfl
  rw [if_pos] at h
  · exact congrArg (Option.getD · (Dict.reset k)) h
  · simp only [Bool.not_eq_true', List.any_eq_false, Bool.and_eq_true, beq_iff_eq, not_and]
    exact fun n hn h => absurd h (hk n hn)

theorem dictWf_holdDomains (hw : s.dictWf = true) : s.holdDomains.dictWf = true :=
  dictWf_iff.mpr ⟨sparse_filter_wf (dictWf_iff.mp hw).1, (dictWf_iff.mp hw).2⟩

theorem auth_of_closeSessions {x : Session} (hx : x ∈ (s.closeSessions fun x => x.auth).sop.sessions) (ho : x.isOpen = true) :
    x.auth = false := by
  obtain ⟨y, -, rfl⟩ := List.mem_map.mp hx
  by_cases hc : (y.isOpen && y.auth) = true
  · rw [if_pos hc] at ho
    cases ho
  · rw [if_neg hc] at ho ⊢
    simpa [ho] using hc

/-- RAIL_STATUS with a rail of group 2 or 3 out of its range. -/
def railDown (s : State) (rail : Fin 5) : State :=
  s.put Obj.railStatus (s.obj? Obj.railStatus - if bit (s.obj? Obj.railStatus) (2 + rail.val) then 2 ^ (2 + rail.val) else 0)

/-- The state in which a rail has left its range: the fast domains are held, with no key and no authenticated session. -/
def railLost (s : State) (rail : Fin 5) : State :=
  { (railDown s rail).holdDomains.closeSessions (fun x => x.auth) with
    cipher := Cipher.reset, boot := { s.boot with kind := .railReturn, sramWiping := false, ddr5Wiped := false, pllHold := false } }

theorem railLoss_next {rail : Fin 5} (hp : s.boot.powered = true) (h : s.boot.step ≠ .rails) :
    exec (.railLoss rail) s = .next (((railLost s rail).bootTo .rails 0).log { kind := 11, unit := 0x5B1, detail := 7 }) := by
  change execRailLoss rail s = _
  unfold execRailLoss
  rw [if_neg (by simp [hp])]
  dsimp only
  split
  · exact absurd (by assumption) h
  · rfl

theorem dictWf_railLost {rail : Fin 5} (hw : s.dictWf = true) : (railLost s rail).dictWf = true :=
  dictWf_holdDomains (s := railDown s rail) (dictWf_put hw)

/-- RAIL_STATUS is no function's state, so the rail reads out of range with the functions OFF. -/
theorem bit_railLost {rail : Fin 5} (hw : s.dictWf = true) :
    bit ((railLost s rail).obj? Obj.railStatus) (2 + rail.val) = false := by
  have hfn : ∀ n ∈ Fn.numbers, Obj.railStatus ≠ fnStateKey n := by decide +kernel
  have hread : (railLost s rail).obj? Obj.railStatus = _ :=
    (obj?_functionsOff (s := railDown s rail) hfn).trans (obj?_put_self (dictWf_iff.mp hw).1)
  rw [hread, bit_sub_self]

theorem auth_of_railLost {rail : Fin 5} {x : Session} (hx : x ∈ (railLost s rail).sop.sessions) (ho : x.isOpen = true) :
    x.auth = false :=
  auth_of_closeSessions (s := (railDown s rail).holdDomains) hx ho

/-- Settles O16: the loss of a rail by the state it leaves, its return by the kind of the sequence that waits for the rails. -/
theorem railCommands : Obligations.RailCommands := by
  intro s rail hp hw
  refine ⟨fun h => ?loss, fun h hk => ?restart, fun h hk => ?goOn⟩
  case loss =>
    have hwl := dictWf_railLost (rail := rail) hw
    have hwb : ((railLost s rail).bootTo .rails 0).dictWf = true := dictWf_bootTo hwl
    obtain ⟨o, d, x, hlog⟩ := log_eq (s := (railLost s rail).bootTo .rails 0) (e := { kind := 11, unit := 0x5B1, detail := 7 })
    refine ⟨_, railLoss_next hp h, ?_, congrArg (·.boot.step) hlog, congrArg (·.boot.kind) hlog, (congrArg State.cipher hlog :),
      (congrArg State.goals hlog :), (congrArg State.frames hlog :), (congrArg State.copies hlog :), (congrArg State.ports hlog :),
      (congrArg State.fabric hlog :), ?_, fun y hy ho => ?_⟩
    · rw [obj?_log_ne hwb (by decide), obj?_bootTo_self hwl]
    · rw [obj?_log_ne hwb (by decide), obj?_bootTo_ne hwl (by decide), bit_railLost hw]
    · rw [log_sop] at hy
      exact auth_of_railLost (s := s) (rail := rail) hy ho
  case restart =>
    change execRailReturn s = _
    simp [execRailReturn, hp, h, hk]
  case goOn =>
    change execRailReturn s = _
    unfold execRailReturn
    rw [if_neg (by simp [hp])]
    simp only [h]
    split
    · exact absurd (by assumption) hk
    · rfl

/-! ### Clocks (R67, R68, R481) -/

/-- The objects that show a lost clock (R87). -/
def clockWrites : List Nat := [Obj.clockStatus, Obj.clockSummary]

/-- A condition gives one of its two branches. -/
theorem ite_left_or_right {α : Type} {c : Prop} [Decidable c] {x y : α} : (if c then x else y) = x ∨ (if c then x else y) = y := by
  split
  · exact .inl rfl
  · exact .inr rfl

theorem loseClock_eq {source : ClockSource} : ∃ v, s.loseClock source = s.put Obj.clockStatus v ∨
    s.loseClock source = (s.put Obj.clockStatus v).flag Obj.clockSummary 1 := by
  unfold State.loseClock
  exact ⟨_, ite_left_or_right⟩

theorem objectsApart_loseClock {source : ClockSource} : ObjectsApart s (s.loseClock source) := by
  obtain ⟨v, h | h⟩ := loseClock_eq (s := s) (source := source) <;> rw [h]
  · exact ObjectsApart.refl.put
  · exact ObjectsApart.refl.put.flag

theorem loseClock_reads {source : ClockSource} (hw : s.dictWf = true) : (s.loseClock source).dictWf = true ∧
    ∀ k, k ∉ clockWrites → (s.loseClock source).obj? k = s.obj? k := by
  simp only [clockWrites, List.mem_cons, not_or]
  obtain ⟨v, h | h⟩ := loseClock_eq (s := s) (source := source) <;> rw [h]
  · exact ⟨dictWf_put hw, fun k ⟨hk, _⟩ => obj?_put_ne (dictWf_iff.mp hw).1 hk⟩
  · have hput := dictWf_put (k := Obj.clockStatus) (v := v) hw
    refine ⟨dictWf_put hput, fun k ⟨hk, hs, _⟩ => ?_⟩
    rw [obj?_flag (dictWf_iff.mp hput).1, if_neg hs, obj?_put_ne (dictWf_iff.mp hw).1 hk]

/-- A sequence that needs its clocks is abandoned, and waits for them. -/
theorem abandonForClocks_eq (h : s.boot.step ∉ [.idle, .rails, .coldHeld]) : s.abandonForClocks =
    ({ s with boot := { s.boot with sramWiping := false, ddr5Wiped := false } } : State).bootTo .clocks 1 := by
  unfold State.abandonForClocks
  split
  case h_1 hstep => exact absurd (by simp [hstep]) h
  case h_2 hstep => exact absurd (by simp [hstep]) h
  case h_3 hstep => exact absurd (by simp [hstep]) h
  case h_4 => rfl

/-- Settles O17: each event by the step that waits for it. -/
theorem clockCommands : Obligations.ClockCommands := by
  intro s
  refine ⟨fun hp h => ?stable, fun h => ?locked, fun h hk => ?lockedWaiting, fun h => if_pos h, fun source hw hp h => ?lost,
    fun pll h => ?notReady, fun pll h => ?ready⟩
  case stable =>
    change execClocksStable s = _
    unfold execClocksStable
    rw [if_neg (by simp [hp])]
    simp [h]
  case locked =>
    change execPllsLocked s = _
    simp only [execPllsLocked, h]
    rfl
  case lockedWaiting =>
    refine ⟨({ s with boot := { s.boot with released := s.clock } } : State).pllsLocked, ?_, rfl⟩
    change execPllsLocked s = _
    simp [execPllsLocked, h, warmSequence_eq_false hk]
  case lost =>
    obtain ⟨o, ho⟩ := objectsApart_loseClock (s := s) (source := source)
    obtain ⟨hw', hobj⟩ := loseClock_reads (source := source) hw
    have hstep : (s.loseClock source).boot.step ∉ [.idle, .rails, .coldHeld] := by rwa [ho]
    have heq := abandonForClocks_eq hstep
    refine ⟨_, if_neg (by simp [hp]), ?_, congrArg (·.boot.step) heq, congrArg (·.boot.sramWiping) heq,
      (congrArg State.frames heq).trans (congrArg State.frames ho :), (congrArg State.sop heq).trans (congrArg State.sop ho :),
      fun k hb h1 h2 => ?_⟩
    · rw [heq, obj?_bootTo_self (by exact hw')]
    · rw [heq, obj?_bootTo_ne (by exact hw') hb]
      exact hobj k (by simp [clockWrites, h1, h2])
  case notReady =>
    cases pll <;> exact if_neg (by simp [h])
  case ready =>
    cases pll <;> exact if_pos h

end Sys2Proof.Proofs

/-! PROOFS. The boot from the configuration block to the wipes, the uploads and the life-cycle requests (03). -/

namespace Sys2Proof.Proofs

open Sys2Proof.Machine Sys2Proof.Safety Sys2Proof.Laws

variable {s : State} {n i j code target : Nat} {good : Bool} {b : List Byte} {f : Family} {sig : Option Bool}

/-! ### Images judged (R73, R74, R76) -/

/-- A change of image is told by LIFE_SUMMARY [1] and by a record of the Patina. -/
theorem imageChange_reads (hw : s.dictWf = true) : (s.imageChange code).dictWf = true ∧
    bit ((s.imageChange code).obj? Obj.lifeSummary) 1 = true ∧
    ∀ k, k ∉ Obj.lifeSummary :: patinaWrites → (s.imageChange code).obj? k = s.obj? k := by
  have hf : (s.flag Obj.lifeSummary 1).dictWf = true := dictWf_put hw
  have hobj := (dictWf_iff.mp hw).1
  refine ⟨dictWf_log hf, ?_, fun k hk => ?_⟩
  · rw [State.imageChange, obj?_log_ne hf (by decide), obj?_flag hobj, if_pos rfl, bit_setBit]
  · rw [List.mem_cons, not_or] at hk
    obtain ⟨hl, hp⟩ := hk
    rw [State.imageChange, obj?_log_ne hf hp, obj?_flag hobj, if_neg hl]

theorem imageChange_boot : (s.imageChange code).boot = s.boot := log_boot

theorem imageChange_atelier : (s.imageChange code).atelier = s.atelier := log_atelier

/-- An image whose signature or LIFE_MASK fails is rejected (R76). -/
theorem judgeImage_rejects (h : good = false ∨ imageAllows s.boot.image s.boot.fuses = false) :
    ∃ c, s.judgeImage n good = s.rejectImage n c := by
  unfold State.judgeImage
  cases good with
  | false => exact ⟨4, rfl⟩
  | true =>
    have ha : imageAllows s.boot.image s.boot.fuses = false := h.resolve_left (by simp)
    exact ⟨5, by simp [ha]⟩

/-- An image that verifies is loaded, and the DDR5 channels are trained; that of an upload is a change of image (R76, R78). -/
theorem judgeImage_accepts (h : imageAllows s.boot.image s.boot.fuses = true) :
    s.judgeImage n true = (s.loadImage n).bootTo .training 3 ∨
    s.judgeImage n true = ((s.loadImage n).bootTo .training 3).imageChange 3 := by
  unfold State.judgeImage
  simp only [Bool.not_true, Bool.false_eq_true, if_false, h]
  exact ite_left_or_right.symm

/-- The Atelier with an image in its hold and in every control store (R439). -/
def imageHeld (s : State) : State :=
  { s with atelier := { s.atelier with
    hold := s.boot.image.take (imageLength s.boot.image),
    seqs := s.atelier.seqs.map fun q => { q with store := imageStore s.boot.image } } }

/-- The objects that name an image loaded, but those of the single sequencers. -/
def imageNamed (s : State) (n : Nat) : State :=
  (((imageHeld s).put Obj.bootImage n).put Obj.microcodeLevel (imageLevel s.boot.image)).put Obj.imageHoldLevel
    (imageLevel s.boot.image)

theorem objectsApart_loadImage : ObjectsApart (imageHeld s) (s.loadImage n) := by
  obtain ⟨o, h⟩ : ObjectsApart (imageNamed s n) (s.loadImage n) := objectsApart_foldl_put
  exact ⟨o, h⟩

theorem dictWf_loadImage (hw : s.dictWf = true) : (s.loadImage n).dictWf = true :=
  List.foldlRecOn (motive := fun t : State => t.dictWf = true) _ _ (dictWf_put (dictWf_put (dictWf_put (by exact hw))))
    fun _ h _ _ => dictWf_put h

/-- What is read of an image loaded: where it came from, and its level. -/
theorem obj?_loadImage (hw : s.dictWf = true) : (s.loadImage n).obj? Obj.bootImage = n ∧
    (s.loadImage n).obj? Obj.microcodeLevel = imageLevel s.boot.image ∧
    (s.loadImage n).obj? Obj.imageHoldLevel = imageLevel s.boot.image := by
  have hheld : Sparse.wf Dict.reset (imageHeld s).obj = true := (dictWf_iff.mp hw).1
  have named : ∀ k, (∀ m ∈ List.range 8, k ≠ Obj.seqImageLevel m) → (s.loadImage n).obj? k = (imageNamed s n).obj? k :=
    fun k hk => obj?_foldl_put (s := imageNamed s n) (put_wf (put_wf (put_wf hheld))) hk
  refine ⟨?_, ?_, ?_⟩ <;> rw [named _ (by decide), imageNamed]
  · rw [obj?_put_ne (put_wf (put_wf hheld)) (by decide), obj?_put_ne (put_wf hheld) (by decide), obj?_put_self hheld]
  · rw [obj?_put_ne (put_wf (put_wf hheld)) (by decide), obj?_put_self (put_wf hheld)]
  · rw [obj?_put_self (put_wf (put_wf hheld))]

/-! ### DDR5 channels without training values (R78, R79) -/

/-- The channels that hold no training values are fenced and recorded; the boot's own state stays. -/
theorem fenceUntrained_boot : s.fenceUntrained.boot = s.boot := by
  refine List.foldlRecOn (motive := fun t : State => t.boot = s.boot) _ _ rfl fun t ht c _ => ?_
  split
  · rw [log_boot]
    exact ht
  · exact ht

theorem kilnFailed_bootState (hw : s.dictWf = true) : (s.kilnFailed n).obj? Obj.bootState = 8 :=
  obj?_bootTo_self (dictWf_holdDomains (dictWf_log hw))

/-- Settles O18: each event at the step that waits for it. -/
theorem bootSteps : Obligations.BootSteps := by
  intro s
  refine ⟨fun b h => ?config, fun b n h hd => ?imageGood, fun b h hd => ?imageBad, fun good hw h hg => ?rejected,
    fun n hw h ha => ?accepted, fun h => ?sram, fun h1 h2 => ?sramLast, fun failed h => ?training, fun h => ?release,
    fun h => ?reinit, fun h h1 h2 => ?ddr5, fun h h1 h2 => ?ddr5Last, fun h => ?kiln, fun x hw h => ?kilnFailed⟩
  case config =>
    change (_ → execConfigBlockRead b s = _) ∧ (_ → execConfigBlockRead b s = _)
    simp only [execConfigBlockRead, h]
    exact ⟨fun hd => if_neg (fun hn => hn hd), fun hd => if_pos hd⟩
  case imageGood =>
    change execImageReadEnd b s = _
    simp only [execImageReadEnd, h]
    exact if_neg (fun hn => hn hd)
  case imageBad =>
    change execImageReadEnd b s = _
    simp only [execImageReadEnd, h]
    exact if_pos hd
  case rejected =>
    obtain ⟨c, hc⟩ := judgeImage_rejects (n := 1) hg
    obtain ⟨hwi, hbit, -⟩ := imageChange_reads (code := 2) hw
    refine ⟨(s.imageChange 2).bootTo (.imageRead 2) 2, ?_, rfl, obj?_bootTo_self hwi, ?_⟩
    · change execImageVerified good s = _
      simp only [execImageVerified, h, hc]
      rfl
    · rw [obj?_bootTo_ne hwi (by decide), hbit]
  case accepted =>
    have hwl := dictWf_loadImage (n := n) hw
    have hwb := dictWf_bootTo (step := .training) (code := 3) hwl
    obtain ⟨h1, h2, h3⟩ := obj?_loadImage (n := n) hw
    obtain ⟨o, hl⟩ := objectsApart_loadImage (s := s) (n := n)
    have hseqs : ((s.loadImage n).bootTo .training 3).atelier.seqs =
        s.atelier.seqs.map fun q => { q with store := imageStore s.boot.image } := congrArg (·.atelier.seqs) hl
    have reads : ∀ {k x}, k ≠ Obj.bootState → (s.loadImage n).obj? k = x → ((s.loadImage n).bootTo .training 3).obj? k = x :=
      fun hk hx => (obj?_bootTo_ne hwl hk).trans hx
    refine ⟨s.judgeImage n true, ?_, ?_⟩
    · change execImageVerified true s = _
      simp only [execImageVerified, h]
    · obtain hj | hj := judgeImage_accepts (n := n) ha <;> rw [hj]
      · exact ⟨rfl, obj?_bootTo_self hwl, reads (by decide) h1, reads (by decide) h2, reads (by decide) h3, hseqs⟩
      · obtain ⟨-, -, hk⟩ := imageChange_reads (code := 3) hwb
        rw [imageChange_boot, imageChange_atelier, hk _ (by decide), hk _ (by decide), hk _ (by decide), hk _ (by decide)]
        exact ⟨rfl, obj?_bootTo_self hwl, reads (by decide) h1, reads (by decide) h2, reads (by decide) h3, hseqs⟩
  case sram =>
    change execSramWipeEnd s = _
    simp [execSramWipeEnd, h]
  case sramLast =>
    change execSramWipeEnd s = _
    simp [execSramWipeEnd, h1, h2]
  case training =>
    change ∃ t, execDdr5TrainingEnd failed s = .next t ∧ _
    simp only [execDdr5TrainingEnd, h]
    exact ⟨_, rfl, rfl, (congrArg Boot.trained fenceUntrained_boot :)⟩
  case release =>
    change execDdr5ResetRelease s = _
    simp only [execDdr5ResetRelease, h]
    rfl
  case reinit =>
    change ∃ t, execDdr5ReinitEnd s = .next t ∧ _
    simp only [execDdr5ReinitEnd, h]
    exact ⟨_, rfl, (congrArg (fun b : Boot => { b with step := .ddr5Wipe }) fenceUntrained_boot :)⟩
  case ddr5 =>
    change execDdr5WipeEnd s = _
    simp [execDdr5WipeEnd, h, h1, h2]
  case ddr5Last =>
    change execDdr5WipeEnd s = _
    simp [execDdr5WipeEnd, h, h1, h2]
  case kiln =>
    change execPowerOnKilnPassEnd none s = _
    simp only [execPowerOnKilnPassEnd, h]
  case kilnFailed =>
    change ∃ t, execPowerOnKilnPassEnd (some x) s = .next t ∧ _
    simp only [execPowerOnKilnPassEnd, h]
    exact ⟨_, rfl, kilnFailed_bootState (dictWf_put hw)⟩

/-! ### Uploads and life-cycle requests (R77, R80-R82) -/

/-- A write of an object that the Plinth holds, where the object's own rule rejects the value. -/
theorem hostWriteBytes_plinth_refused {e : Nat} (hs : plinthOpen s) (h : PlinthWritable i j f) (hb : b.length = f.size)
    (hc : f.check.takes (beNat b) = true) (hw : s.writeObject f (Dict.key i j) (beNat b) sig = .error e) :
    s.hostWriteBytes i j b sig = .next { s with answer := .code e } := by
  have ha := admits_write_plinth hs h hb hc
  have hslow := slowAccess_write_plinth (s := s) (b := b) h
  obtain ⟨-, -, -, hi⟩ := h
  simp [State.hostWriteBytes, hs.1, State.serveNow, ha, hslow, State.serve, writesCopyView, State.wakeFor, hi, hw, State.outcomeOf,
    State.rejected, answering]

/-- The row of UPLOAD_START. -/
def uploadStartRow : Family := ⟨0x1201, 1, 1, 2, 1, .bool, 1, .wo, 0, .range 0 1, 0⟩

theorem uploadStart_writable : PlinthWritable 0x1201 2 uploadStartRow := by decide +kernel

theorem b2n_taken (u : Bool) : b2n u < 256 ^ 1 ∧ uploadStartRow.check.takes (b2n u) = true := by cases u <;> decide

theorem uploadStart_refused {u : Bool} (hs : plinthOpen s) (h : s.obj? Obj.bootState ≠ 7) :
    exec (.uploadStart u) s = .next { s with answer := .code 0x16 } := by
  obtain ⟨hlt, hc⟩ := b2n_taken u
  refine (hostWrite_eq_bytes uploadStart_writable.1).trans
    (hostWriteBytes_plinth_refused hs uploadStart_writable (toBe_length ..) ?_ ?_) <;> rw [beNat_toBe (by exact hlt)]
  · exact hc
  · exact if_pos h

theorem uploadStart_taken {u : Bool} (hs : plinthOpen s) (h : s.obj? Obj.bootState = 7) :
    exec (.uploadStart u) s = .next { (if b2n u = 1 then s.upload else s) with answer := .code 0 } := by
  obtain ⟨hlt, hc⟩ := b2n_taken u
  exact hostWrite_plinthObject hs uploadStart_writable hlt hc (if_neg (fun hn => hn h))

/-- The row of LIFE_REQUEST. -/
def lifeRequestRow : Family := ⟨0x1010, 1, 1, 2, 1, .u32, 4, .wo, 0, .any, 0⟩

theorem lifeRequest_writable : PlinthWritable 0x1010 2 lifeRequestRow := by decide +kernel

theorem exec_lifeRequest_refused {v : BitVec 32} (hs : plinthOpen s) (h : v.toNat / 256 ≠ 0x4C4346 ∨ 4 < v.toNat % 256) :
    exec (.lifeRequest v good) s = .next { s with answer := .code 0x16 } := by
  refine hostWriteBytes_plinth_refused hs lifeRequest_writable (toBe_length ..) rfl ?_
  rw [beNat_toBe v.isLt]
  exact if_pos h

/-- A request of the right form is judged for the life-cycle code that it names. -/
theorem exec_lifeRequest_judged {target : BitVec 8} (hs : plinthOpen s) (h : target.toNat ≤ 4) :
    exec (.lifeRequest (BitVec.ofNat 32 (0x4C4346 * 256 + target.toNat)) good) s =
      .next { s.lifeRequest target.toNat good with answer := .code 0 } := by
  generalize hv : BitVec.ofNat 32 (0x4C4346 * 256 + target.toNat) = v
  have hn : v.toNat = 0x4C4346 * 256 + target.toNat := by
    rw [← hv, BitVec.toNat_ofNat]
    omega
  refine hostWriteBytes_plinth hs lifeRequest_writable (r := .next (s.lifeRequest target.toNat good)) (toBe_length ..) rfl ?_
  rw [beNat_toBe v.isLt]
  have hm : v.toNat % 256 = target.toNat := by omega
  have hform : ¬ (v.toNat / 256 ≠ 0x4C4346 ∨ 4 < v.toNat % 256) := by omega
  refine (if_neg hform).trans ?_
  rw [hm]
  rfl

theorem lifeTransition_le {present : Nat} {needs : Bool} (h : lifeTransition present target = some needs) : target ≤ 4 := by
  unfold lifeTransition at h
  split at h
  · omega
  split at h
  · omega
  split at h
  · omega
  split at h
  · omega
  · cases h

/-- A transition that needs no record, or has one with a good signature, begins its blow (R81, R82). -/
theorem lifeRequest_blows {needs : Bool} (hb : s.boot.blowing = none) (ht : lifeTransition s.boot.fuses target = some needs)
    (hn : needs = true → s.lifeRecord target = true ∧ good = true) : s.lifeRequest target good =
      ({ s with boot := { s.boot with blowing := some target } } : State).put Obj.lifeRequestStatus 1 := by
  have hc : ¬ (needs && !(s.lifeRecord target && good)) = true := by
    cases needs with
    | false => simp
    | true => simp [hn]
  unfold State.lifeRequest
  rw [if_neg (by simp [hb]), ht]
  exact if_neg hc

theorem lifeRequest_rejects (hb : s.boot.blowing = none) (ht : lifeTransition s.boot.fuses target = none) :
    s.lifeRequest target good = (s.put Obj.lifeRequestStatus 2).flag Obj.lifeSummary 2 := by
  simp [State.lifeRequest, hb, ht]

/-- Settles O20: the end of a blow as the reset it begins, and each request as the write of its object. -/
theorem uploadAndLifeRequests : Obligations.UploadAndLifeRequests := by
  refine ⟨fun s target hb => ⟨_, ?_, rfl, beginReset_fuses, fun hw => obj?_beginReset_cause hw⟩, fun s good _ hs => ?_⟩
  · change execFuseBlowEnd s = _
    simp only [execFuseBlowEnd, hb]
  · refine ⟨fun u h => uploadStart_refused hs h, fun h => ⟨uploadStart_taken hs h, uploadStart_taken hs h⟩,
      fun v h => exec_lifeRequest_refused hs h, fun target => ?_⟩
    intro v hb
    refine ⟨fun ht => ?_, fun ht hr hg => ?_, fun hle ht => ?_⟩
    · exact (exec_lifeRequest_judged hs (lifeTransition_le ht)).trans (by rw [lifeRequest_blows hb ht (fun h => nomatch h)])
    · exact (exec_lifeRequest_judged hs (lifeTransition_le ht)).trans (by rw [lifeRequest_blows hb ht (fun _ => ⟨hr, hg⟩)])
    · exact (exec_lifeRequest_judged hs hle).trans (by rw [lifeRequest_rejects hb ht])

end Sys2Proof.Proofs

/-! PROOFS. How pipes sleep and wake (R84, R85). -/

namespace Sys2Proof.Proofs

open Sys2Proof.Machine Sys2Proof.Laws

variable {s : State} {pipe : Pipe}

/-- What every entry deeper than GATED asks of a pipe: it is clocked and not waking, has nothing to do, and nothing keeps it at
GATED (R84). -/
structure PipeRests (s : State) (p : Nat) : Prop where
  ready : s.ready = true
  awake : (s.pipe p).waking = none
  clocked : s.pipeOn p = true
  idle : s.pipeIdle p = true
  deepens : s.mayDeepen p = true

/-- Pipe 16 outside a takeover enters RETAIN from awake or GATED. -/
theorem pipeRetainEntry_spare (h : PipeRests s pipe.val) (hp : pipe.val = 16) (hg : s.groupsOf 16 = []) (hd : s.depth pipe.val ≤ 1) :
    exec (.pipeRetainEntry pipe) s = .next (s.put (Obj.sleepDepth pipe.val) 2) := by
  obtain ⟨hready, hawake, hclocked, hidle, hdeep⟩ := h
  change execPipeRetainEntry pipe s = _
  rw [hp] at hawake hclocked hidle hdeep hd ⊢
  simp [execPipeRetainEntry, hp, hready, hawake, hclocked, hidle, hdeep, hg, hd]

/-- A pipe that serves enters RETAIN from GATED with SLEEP on, and a pipe other than 16 where SLEEP_POLICY allows it (R84, R91). -/
theorem pipeRetainEntry_serving (h : PipeRests s pipe.val) (hg : pipe.val = 16 → s.groupsOf 16 ≠ []) (hd : s.depth pipe.val = 1)
    (hs : s.sleepOn pipe.val = true) (hpolicy : pipe.val = 16 ∨ 1 ≤ s.obj? (Obj.sleepPolicy pipe.val)) :
    exec (.pipeRetainEntry pipe) s = .next (s.put (Obj.sleepDepth pipe.val) 2) := by
  have hn : (pipe.val = 16 && (s.groupsOf 16).isEmpty) = false := by simpa using hg
  change execPipeRetainEntry pipe s = _
  simp only [execPipeRetainEntry, hn]
  simp [h.ready, h.awake, h.clocked, h.idle, h.deepens, hd, hs, hpolicy]

theorem pipeOffEntry_enters (h : PipeRests s pipe.val) (hp : pipe.val < 16) (hd : s.depth pipe.val ≠ 3)
    (hs : s.sleepOn pipe.val = true) (hpolicy : s.obj? (Obj.sleepPolicy pipe.val) = 2)
    (hdown : ∀ q ∈ s.pipePorts pipe.val, (s.fn q = 0 ∨ s.fn q = 3) ∧ s.egressCopies q = []) :
    exec (.pipeOffEntry pipe) s =
      .next ((s.setPipe pipe.val fun _ => PipeSt.reset (s.obj? Obj.sampleSeed) pipe.val).put (Obj.sleepDepth pipe.val) 3) := by
  have hall : ((s.pipePorts pipe.val).all fun q => (s.fn q == 0 || s.fn q == 3) && (s.egressCopies q).isEmpty) = true := by
    simpa [List.all_eq_true] using hdown
  refine if_pos ?_
  rw [hall]
  simp [h.ready, h.awake, h.clocked, h.idle, h.deepens, hd, hs, hpolicy, Nat.ne_of_lt hp]

/-- A wake that begins, for a pipe deeper than the wake is for; from RETAIN or OFF it is counted (R85). -/
theorem wakeTo_begins {d : Nat} (hd : d < s.depth pipe.val) (hw : (s.pipe pipe.val).waking = none) : s.wakeTo pipe.val d =
    (if 2 ≤ s.depth pipe.val then (s.setPipe pipe.val fun x => { x with waking := some d }).bump32 (Obj.wakeCount pipe.val)
      else s.setPipe pipe.val fun x => { x with waking := some d }) := by
  unfold State.wakeTo
  rw [hw]
  exact if_neg (Nat.not_le.mpr hd)

/-- Settles O30: each entry by its conditions, and each wake by its cause and the depth that it finds. -/
theorem pipesSleepAndWake : Obligations.PipesSleepAndWake := by
  intro s pipe hready
  have wake : ∀ {cause r}, execPipeWake pipe cause s = r → exec (.pipeWake pipe cause) s = r := id
  refine ⟨fun hd hw hon hidle => ?gated, fun hw hon hidle hdeep => ?deeper, fun hd => ?whole, fun hd => ?part, fun hd => ?asleep,
    fun d hd hw => wakeTo_begins hd hw, fun d hw => ?woken⟩
  case gated => exact if_pos (by simp [hready, hd, hw, hon, hidle])
  case deeper =>
    have h : PipeRests s pipe.val := ⟨hready, hw, hon, hidle, hdeep⟩
    exact ⟨fun hp hd hs hpol => pipeRetainEntry_serving h (fun h16 => absurd h16 (Nat.ne_of_lt hp)) hd hs (.inr hpol),
      fun hp hg hd => pipeRetainEntry_spare h hp hg hd,
      fun hp hg hd hs => pipeRetainEntry_serving h (fun _ => hg) hd hs (.inl hp),
      fun hp hd hs hpol hdown => pipeOffEntry_enters h hp hd hs hpol hdown⟩
  case whole =>
    simp only [List.forall_mem_cons]
    refine ⟨wake ?_, wake ?_, List.forall_mem_nil _⟩ <;> simp [execPipeWake, hready, hd, State.beginWake]
  case part =>
    simp only [List.forall_mem_cons]
    refine ⟨wake ?_, wake ?_, List.forall_mem_nil _⟩ <;> simp [execPipeWake, hready, hd]
  case asleep =>
    simp only [List.forall_mem_cons]
    refine ⟨wake ?_, wake ?_, wake ?_, wake ?_, List.forall_mem_nil _⟩ <;> simp [execPipeWake, hready, hd]
  case woken =>
    change execPipeWakeEnd pipe s = _
    simp only [execPipeWakeEnd, hw]

end Sys2Proof.Proofs

/-! PROOFS. Requests to functions (R93-R96), and the passages that drains and starts end (R97, R98). -/

namespace Sys2Proof.Proofs

open Sys2Proof.Machine Sys2Proof.Safety Sys2Proof.Laws

variable {s : State} {fn : Fn} {g : FnGoal} {r : Result} {b : List Byte} {e i j n v count : Nat}

/-! ### FUNCTION_REQUEST as an object of the Plinth (R34, R93) -/

/-- The row of the FUNCTION_REQUEST objects of an index: one for each function of a kind, each a code from 1 to 4. -/
def requestRow (i count : Nat) : Family := ⟨i, 1, 1, 1, count, .enum8, 1, .wo, 0, .range 1 4, 0⟩

/-- The FUNCTION_REQUEST object of a function by its number: the Plinth holds it, and the chapter of modes gives its rule. -/
abbrev RequestObject (i j count n : Nat) : Prop :=
  Writable i j (requestRow i count) ∧ plinthHolds i j = true ∧ isRequest i = true ∧ pipeOfIndex i = none ∧ i / 4096 = 1 ∧
    0x1400 ≤ i ∧ requestedFn i j = n

/-- The table Functions: each function's request object, and the number that it stands for (R92). -/
theorem requestKey_object (fn : Fn) : ∃ i j count, requestKey fn = Dict.key i j ∧ RequestObject i j count (fnNumber fn) := by
  have ports : ∀ p : Port, RequestObject 0x1411 (1 + p.val) 128 p.val := by decide +kernel
  have scheds : ∀ g : Group, RequestObject 0x1413 (1 + g.val) 16 (0x100 + g.val) := by decide +kernel
  have ciphers : ∀ g : Group, RequestObject 0x1415 (1 + g.val) 16 (0x180 + g.val) := by decide +kernel
  have pipes : ∀ p : Pipe, RequestObject 0x1417 (1 + p.val) 17 (0x200 + p.val) := by decide +kernel
  have quadrants : ∀ q : Quadrant, RequestObject 0x1419 (1 + q.val) 4 (0x300 + q.val) := by decide +kernel
  have fabric : RequestObject 0x141B 1 1 0x400 := by decide +kernel
  cases fn with
  | port p => exact ⟨_, _, _, rfl, ports p⟩
  | sched g => exact ⟨_, _, _, rfl, scheds g⟩
  | cipher g => exact ⟨_, _, _, rfl, ciphers g⟩
  | pipe p => exact ⟨_, _, _, rfl, pipes p⟩
  | relief q => exact ⟨_, _, _, rfl, quadrants q⟩
  | fabric => exact ⟨_, _, _, rfl, fabric⟩

theorem slowFull_of_fastOpen (hs : fastOpen s) : s.slowFull = false := by
  obtain ⟨-, -, -, hlen⟩ := hs
  have := List.length_filter_le (fun x => x.atelier) s.sop.slow
  simp only [State.slowFull, decide_eq_false_iff_not]
  omega

/-- Once READY, a request object takes each of its four codes. -/
theorem admits_write_request (hs : fastOpen s) (h : RequestObject i j count n) (hb : b.length = 1) (hv : 1 ≤ beNat b ∧ beNat b ≤ 4) :
    s.admits (.write b) i j = .ok (requestRow i count) := by
  obtain ⟨hplinth, hready, -, -⟩ := hs
  obtain ⟨hw, hp, -⟩ := h
  have hkind : s.kindRefuses (requestRow i count) (Dict.key i j) (.write b) = none := kindRefuses_write_writable (.inr rfl)
  have hshape : s.shapeRefuses (requestRow i count) i j (.write b) = none := shapeRefuses_write_none (fun h => nomatch h) hb
  have hvalue : valueRefuses (requestRow i count) (.write b) = none := by simp [valueRefuses, requestRow, Check.takes, hv]
  simp [State.admits, object?_of_writable hw, lifeAllows_of_plinthOpen hplinth, hkind, hshape, hvalue, State.placeRefuses,
    State.inPlinth, hp, hready]

theorem writeObject_request (h : RequestObject i j count n) :
    s.writeObject (requestRow i count) (Dict.key i j) v none = s.requestFn n v := by
  obtain ⟨⟨-, -, hj, -, -⟩, -, hr, -, hpage, hlow, rfl⟩ := h
  have hi : ¬ i < 0x1200 ∧ ¬ i < 0x1400 := by omega
  have hsub : Dict.key i j % 256 = j := by
    rw [Dict.key]
    omega
  simp [State.writeObject, requestRow, hpage, hi, State.writeModes, hr, hsub]

/-- A request to a function is the write of its request object, and answers as the request is judged. -/
theorem hostWrite_request (hs : fastOpen s) (hv : 1 ≤ v ∧ v ≤ 4) : s.hostWrite (requestKey fn) v =
    answering (s.outcomeOf (s.requestFn (fnNumber fn) v)).outcome (.code (s.outcomeOf (s.requestFn (fnNumber fn) v)).code) := by
  obtain ⟨i, j, count, hkey, h⟩ := requestKey_object fn
  have hbe : beNat (toBe 1 v) = v := beNat_toBe (by omega)
  have ha : s.admits (.write (toBe 1 v)) i j = .ok (requestRow i count) :=
    admits_write_request hs h (toBe_length ..) (by rwa [hbe])
  have hw := writeObject_request (s := s) (v := v) h
  obtain ⟨hobj, -, -, hpipe, -⟩ := h
  obtain ⟨⟨hpower, -⟩, -⟩ := id hs
  rw [hkey, hostWrite_eq_bytes hobj]
  change s.hostWriteBytes i j (toBe 1 v) none = _
  simp [State.hostWriteBytes, hpower, State.serveNow, ha, slowFull_of_fastOpen hs, State.serve, writesCopyView,
    State.wakeFor, hpipe, hbe, hw]

theorem hostWrite_request_ok (hs : fastOpen s) (hv : 1 ≤ v ∧ v ≤ 4) (h : s.requestFn (fnNumber fn) v = .ok r) :
    s.hostWrite (requestKey fn) v = answering r (.code 0) := by
  rw [hostWrite_request hs hv, h]
  rfl

theorem hostWrite_request_error (hs : fastOpen s) (hv : 1 ≤ v ∧ v ≤ 4) (h : s.requestFn (fnNumber fn) v = .error e) :
    s.hostWrite (requestKey fn) v = .next { s with answer := .code e } := by
  rw [hostWrite_request hs hv, h]
  rfl

/-! ### What a request may begin (table Function transitions) -/

theorem requestFn_hold_of_off (h : s.fn n = 0) (hm : s.mayStart n false = true) :
    s.requestFn n 1 = .ok (.next (s.beginStart n)) := by
  simp [State.requestFn, h, hm]

theorem requestFn_hold_of_run (h : s.fn n = 2) (hm : s.mayStart n false = true) :
    s.requestFn n 1 = .ok (.next (s.beginDrain n)) := by
  simp [State.requestFn, h, hm]

theorem requestFn_hold_refused (h : s.fn n ≠ 0 ∧ s.fn n ≠ 2 ∨ s.mayStart n false = false) : s.requestFn n 1 = .error 0x16 := by
  rcases h with ⟨h0, h2⟩ | hm
  · simp [State.requestFn, h0, h2, Abort.valueRange]
  · simp [State.requestFn, hm, Abort.valueRange]

/-- RUN from HOLD, of a port that would share lanes with another among them (UB-MODE-2). -/
theorem requestFn_run_of_hold (h : s.fn n = 1) (hm : s.mayStart n true = true) : s.requestFn n 2 =
    .ok (if n < 0x100 ∧ s.sharesLanes n = true then undefinedCase "UB-MODE-2" else .next (s.passFn n 5 .run)) := by
  simp [State.requestFn, h, hm]

theorem requestFn_run_refused (h : s.fn n ≠ 1 ∨ s.mayStart n true = false) : s.requestFn n 2 = .error 0x16 := by
  rcases h with h | hm
  · simp [State.requestFn, h, Abort.valueRange]
  · simp [State.requestFn, hm, Abort.valueRange]

theorem requestFn_off_of_hold (h : s.fn n = 1) (hm : s.mayStop n = true) : s.requestFn n 3 = .ok (.next (s.reachOff n)) := by
  simp [State.requestFn, h, hm]

theorem requestFn_off_of_fenced (h : s.fn n = 3) (hl : s.liftable n = true) (hm : s.mayStop n = true) :
    s.requestFn n 3 = .ok (.next (s.reachOff n)) := by
  simp [State.requestFn, h, hl, hm]

theorem requestFn_off_refused (h : s.fn n ≠ 1 ∧ (s.fn n ≠ 3 ∨ s.liftable n = false) ∨ s.mayStop n = false) :
    s.requestFn n 3 = .error 0x16 := by
  rcases h with ⟨h1, h3 | hl⟩ | hm
  · simp [State.requestFn, h1, h3, Abort.valueRange]
  · simp [State.requestFn, h1, hl, Abort.valueRange]
  · simp [State.requestFn, hm, Abort.valueRange]

theorem requestFn_fence {t : State} (h : s.hostFence (Units.ofFunction n) = some t) : s.requestFn n 4 = .ok (.next t) := by
  simp [State.requestFn, h]

theorem requestFn_fence_refused (h : s.hostFence (Units.ofFunction n) = none) : s.requestFn n 4 = .error 0x16 := by
  simp [State.requestFn, h, Abort.valueRange]

/-- Settles O28: each request as the write of its object, judged by the state that the function reads. -/
theorem functionRequests : Obligations.FunctionRequests := by
  intro s fn hs n st
  refine ⟨fun h hm => ?starts, fun h hm => ?drains, fun h => ?holdRefused, fun h hm hl => ?sharesLanes, fun h hm hl => ?runs,
    fun h => ?runRefused, fun h hm => ?stops, fun h hl hm => ?lifts, fun h => ?offRefused, fun t h => ?fences,
    fun h => ?fenceRefused⟩
  case starts => exact hostWrite_request_ok hs (by decide) (requestFn_hold_of_off h hm)
  case drains => exact hostWrite_request_ok hs (by decide) (requestFn_hold_of_run h hm)
  case holdRefused => exact hostWrite_request_error hs (by decide) (requestFn_hold_refused h)
  case sharesLanes => exact hostWrite_request_ok hs (by decide) ((requestFn_run_of_hold h hm).trans (by rw [if_pos hl]))
  case runs => exact hostWrite_request_ok hs (by decide) ((requestFn_run_of_hold h hm).trans (by rw [if_neg hl]))
  case runRefused => exact hostWrite_request_error hs (by decide) (requestFn_run_refused h)
  case stops => exact hostWrite_request_ok hs (by decide) (requestFn_off_of_hold h hm)
  case lifts => exact hostWrite_request_ok hs (by decide) (requestFn_off_of_fenced h hl hm)
  case offRefused => exact hostWrite_request_error hs (by decide) (requestFn_off_refused h)
  case fences => exact hostWrite_request_ok hs (by decide) (requestFn_fence h)
  case fenceRefused => exact hostWrite_request_error hs (by decide) (requestFn_fence_refused h)

/-! ### Passages and their ends (R93, R97, R98) -/

theorem armPair_obj : (s.armPair n v).obj = s.obj := by
  unfold State.armPair
  split
  · split <;> rfl
  · rfl

theorem fn_setFn (hw : Sparse.wf Dict.reset s.obj = true) : (s.setFn n v).fn n = v :=
  obj?_put_self (by simpa [armPair_obj] using hw)

theorem fn_passFn (hw : Sparse.wf Dict.reset s.obj = true) : (s.passFn n v g).fn n = v :=
  obj?_put_self (by simpa [armPair_obj] using hw)

/-- A passage has the goal it was begun for, whatever passage the function was in before. -/
theorem goal_passFn : (s.passFn n v g).goal n = some g := by
  have hother : ∀ m : List (Nat × FnGoal), (m.filter fun e => e.1 != n).find? (fun e => e.1 == n) = none := by
    simp [List.find?_eq_none]
  simp [State.passFn, State.goal, State.put, List.find?_append, hother]

theorem holdFromRun_of_ne (h : n ≠ 0x400) : s.holdFromRun n = s.setFn n 1 := if_neg h

theorem holdFromRun_fabric (h : n = 0x400) : s.holdFromRun n = ((s.setFn n 1).closeReassembly 0xC4).clearRequests := if_pos h

theorem drainComplete_draining (h : s.fn (fnNumber fn) = 4) : exec (.drainComplete fn) s =
    .next (if s.drained (fnNumber fn) = true then s.holdFromRun (fnNumber fn) else s) := by
  change execDrainComplete fn s = _
  cases hd : s.drained (fnNumber fn) <;> simp [execDrainComplete, h, hd]

theorem drainComplete_otherwise (h : s.fn (fnNumber fn) ≠ 4) : exec (.drainComplete fn) s = .next s :=
  if_neg fun hd => h hd.1

/-- What a forced drain drops: a Relief quadrant's searches, and the work in flight of any other function. -/
def forcedDrop (s : State) (n : Nat) : State := if 0x300 ≤ n ∧ n < 0x400 then s.endSearches (n - 0x300) else s.forceWork n

/-- What a forced drain leaves: the function in HOLD, its number recorded, and MODE_SUMMARY [2] set (R98). -/
def forcedHold (s : State) (n : Nat) : State :=
  (((forcedDrop s n).holdFromRun n).put Obj.lastForcedDrain n).flag Obj.modeSummary 2

theorem forcedDrain_draining (h : s.fn (fnNumber fn) = 4) : exec (.forcedDrain fn) s = .next (forcedHold s (fnNumber fn)) := if_pos h

theorem forcedDrain_otherwise (h : s.fn (fnNumber fn) ≠ 4) : exec (.forcedDrain fn) s = .next s := if_neg h

theorem holdFromRun_forcedDrop_wf (hs : Shape s) (hv : SlotsGood s.versions) :
    Sparse.wf Dict.reset ((forcedDrop s n).holdFromRun n).obj = true := by
  have h := holds_of_shape hs hv
  have hdrop : Holds s.pending s.boot.fuses s.freeIx (forcedDrop s n) :=
    holds_ite (holds_State_endSearches h) (holds_State_forceWork h)
  exact (holds_State_holdFromRun hdrop).obj

theorem forcedHold_records (hs : Shape s) (hv : SlotsGood s.versions) :
    (forcedHold s n).obj? Obj.lastForcedDrain = n ∧ bit ((forcedHold s n).obj? Obj.modeSummary) 2 = true := by
  have hw := holdFromRun_forcedDrop_wf (n := n) hs hv
  have hput : Sparse.wf Dict.reset (((forcedDrop s n).holdFromRun n).put Obj.lastForcedDrain n).obj = true := put_wf hw
  have hne : Obj.lastForcedDrain ≠ Obj.modeSummary := by decide
  constructor
  · rw [forcedHold, obj?_flag hput, if_neg hne, obj?_put_self hw]
  · rw [forcedHold, obj?_flag hput, if_pos rfl, bit_setBit]

theorem startComplete_run (h : s.fn (fnNumber fn) = 5) (hg : s.goal (fnNumber fn) = some .run) :
    exec (.startComplete fn) s = .next (s.reachRun (fnNumber fn)) := by
  change execStartComplete fn s = _
  simp [execStartComplete, h, hg]

theorem startComplete_hold (h : s.fn (fnNumber fn) = 5) (hg : s.goal (fnNumber fn) = some .hold) :
    exec (.startComplete fn) s = .next (s.holdFromOff (fnNumber fn)) := by
  change execStartComplete fn s = _
  simp [execStartComplete, h, hg]

theorem startComplete_otherwise (h : s.fn (fnNumber fn) ≠ 5 ∨ s.goal (fnNumber fn) = none) : exec (.startComplete fn) s = .next s := by
  change execStartComplete fn s = _
  rcases h with h | hg
  · simp [execStartComplete, h]
  · simp [execStartComplete, hg]

/-- Settles O29: the end of each passage by the state that the function reads, and what a forced drain records. -/
theorem functionPassages : Obligations.FunctionPassages := by
  intro s fn n forced
  refine ⟨fun h hd => ?drained, fun h hd => ?drains, fun h => ?forced, fun h => ?notDraining, fun h hg => ?toRun,
    fun h hg => ?toHold, fun h => ?notStarting, holdFromRun_of_ne, holdFromRun_fabric, fun hs hv => ?shaped⟩
  case drained => exact (drainComplete_draining h).trans (by rw [if_pos hd])
  case drains => exact (drainComplete_draining h).trans (by rw [hd, if_neg Bool.false_ne_true])
  case forced => exact forcedDrain_draining h
  case notDraining => exact ⟨drainComplete_otherwise h, forcedDrain_otherwise h⟩
  case toRun => exact startComplete_run h hg
  case toHold => exact startComplete_hold h hg
  case notStarting => exact startComplete_otherwise h
  case shaped =>
    obtain ⟨hw, -⟩ := dictWf_iff.mp hs.dict
    exact ⟨fun v g => ⟨fn_passFn hw, goal_passFn⟩, fun v => fn_setFn hw,
      fun h => ⟨_, forcedDrain_draining h, forcedHold_records hs hv⟩⟩

end Sys2Proof.Proofs

/-! PROOFS. The clears of a port's, a pipe's and a ring's flags and counters (R58, R62, R125, R133, R135, R158, R253). -/

namespace Sys2Proof.Proofs

open Sys2Proof.Machine Sys2Proof.Safety Sys2Proof.Laws

variable {s t : State} {f : Family} {port : Port} {pipe : Pipe} {i j v p : Nat}

/-! ### Objects of a port (R36, R482) -/

/-- The objects that every port has at an index of its block and a sub-index, by their row. -/
abbrev PortObject (i j : Nat) (f : Family) : Prop := (0x2000 ≤ i ∧ i < 0x2010) ∧ f.index / 4096 = 2 ∧ Writable i j f

/-- Every family of 0x2000-0x2FFF gives an index to each of the 128 ports, 16 apart (table Index map). -/
theorem page_ports : ∀ f ∈ Dict.page 2, (0x2000 ≤ f.index ∧ f.index < 0x2010) ∧ f.step = 16 ∧ f.indices = 128 := by
  decide +kernel

/-- What a family has for a port it has for port 0. -/
theorem has_port (hf : f ∈ Dict.page 2) (hi : 0x2000 ≤ i ∧ i < 0x2010) :
    Dict.Family.has f (i + 16 * port.val) j = Dict.Family.has f i j := by
  obtain ⟨hindex, hstep, hcount⟩ := page_ports f hf
  have hp := port.isLt
  rw [Bool.eq_iff_iff]
  simp only [Dict.Family.has, hstep, hcount, Bool.and_eq_true, decide_eq_true_eq, beq_iff_eq]
  omega

theorem page_port (hi : 0x2000 ≤ i ∧ i < 0x2010) : Dict.page ((i + 16 * port.val) / 4096) = Dict.page (i / 4096) := by
  have hp := port.isLt
  congr 1
  omega

/-- The objects of every port are those of port 0. -/
theorem writable_port (hi : 0x2000 ≤ i ∧ i < 0x2010) (h : Writable i j f) : Writable (i + 16 * port.val) j f := by
  have hpage : i / 4096 = 2 := by omega
  have hfind : Dict.find (i + 16 * port.val) j = Dict.find i j := by
    rw [Dict.find, page_port hi, ← List.head?_filter, List.filter_congr fun g hg => has_port (hpage ▸ hg) hi, List.head?_filter]
    rfl
  have hhigh : Dict.highest (i + 16 * port.val) = Dict.highest i := by
    rw [Dict.highest, page_port hi]
    exact List.foldl_rel (r := Eq) rfl fun g hg m m' hm => by rw [has_port (hpage ▸ hg) hi, hm]
  obtain ⟨hf, h1, hj, ha, hty⟩ := h
  exact ⟨hfind.trans hf, fun h => h1 (hhigh.symm.trans h), hj, ha, hty⟩

theorem portOfIndex_port (hi : 0x2000 ≤ i ∧ i < 0x2010) : portOfIndex (i + 16 * port.val) = some port.val := by
  rw [portOfIndex, if_pos (by omega)]
  congr 1
  omega

theorem pipeOfIndex_port (hi : 0x2000 ≤ i ∧ i < 0x2010) : pipeOfIndex (i + 16 * port.val) = none := by
  rw [pipeOfIndex, if_neg (by omega), if_neg (by omega), if_neg (by omega)]

theorem isRequest_port (hi : 0x2000 ≤ i ∧ i < 0x2010) : isRequest (i + 16 * port.val) = false := by
  simp only [isRequest, Bool.or_eq_false_iff, beq_eq_false_iff_ne]
  omega

/-- A port's objects are held by the port's own unit. -/
theorem holderFenced_port {op : Op} (hi : 0x2000 ≤ i ∧ i < 0x2010) :
    s.holderFenced (i + 16 * port.val) j op = s.fenced (0x040 + port.val) := by
  have hu : unitOfIndex (i + 16 * port.val) = some (0x040 + port.val) := by
    simp only [unitOfIndex, pipeOfIndex_port hi, portOfIndex_port hi]
  simp only [State.holderFenced, hu]
  rw [if_neg (by omega), if_neg (by omega), if_neg (by omega), if_neg (by omega), if_neg (by omega), if_neg (by omega)]

theorem blockOff_port (hi : 0x2000 ≤ i ∧ i < 0x2010) :
    s.blockOff (i + 16 * port.val) = !s.groupPowered (port.val / 8) := by
  simp only [State.blockOff, pipeOfIndex_port hi, portOfIndex_port hi]

/-- A write of an object of a port, whose unit is not fenced and whose group is powered: what the rule of ports makes of it. -/
theorem hostWrite_port (hs : fastOpen s) (hu : s.fenced (0x040 + port.val) = false) (hg : s.groupPowered (port.val / 8) = true)
    (h : PortObject i j f) (hv : v < 256 ^ f.size) (hc : f.check.takes v = true)
    (hw : s.writePort f (Dict.key (i + 16 * port.val) j) v = wrote t) :
    s.hostWrite (Dict.key (i + 16 * port.val) j) v = .next { t with answer := .code 0 } := by
  obtain ⟨hi, hpage, hrow⟩ := h
  obtain ⟨hf, h1, hj, ha, hty⟩ := writable_port (port := port) hi hrow
  refine hostWrite_fast hs rfl hj hf h1 ha hty (isRequest_port hi) (fun _ => (holderFenced_port hi).trans hu) ?_ hv hc ?_
  · rw [blockOff_port hi, hg, Bool.not_true]
  · simpa only [State.wakeFor, pipeOfIndex_port hi, State.writeObject, hpage, wrote] using hw

/-! ### The rule of a port's action objects -/

/-- The port that a key of 0x2000-0x27FF names. -/
theorem port_of_key (hi : 0x2000 ≤ i ∧ i < 0x2010) (hj : j < 256) : (Dict.key (i + 16 * p) j / 256 - 0x2000) / 16 = p := by
  rw [Dict.key]
  omega

theorem key_port_eq_iff {i' j' : Nat} :
    Dict.key (i + 16 * p) j = Dict.key (i' + 16 * p) j' ↔ 256 * i + j = 256 * i' + j' := by
  rw [Dict.key, Dict.key]
  omega

theorem writePort_underrunStepReset :
    s.writePort f (Obj.underrunStepReset p) v = wrote (if v = 1 then s.underrunStepReset p else s) := by
  simp [State.writePort, Obj.underrunStepReset, port_of_key, onOne]

theorem writePort_portFlagsClear : s.writePort f (Obj.portFlagsClear p) v = wrote (s.clearFlags (Obj.portFlags p) v) := by
  simp [State.writePort, Obj.underrunStepReset, Obj.portFlagsClear, port_of_key, key_port_eq_iff]

theorem writePort_statsRxHalfClear : s.writePort f (Obj.statsRxHalfClear p) v = wrote (s.clearFlags (Obj.statsRxHalf p) v) := by
  simp [State.writePort, Obj.underrunStepReset, Obj.portFlagsClear, Obj.statsRxHalfClear, port_of_key, key_port_eq_iff]

theorem writePort_statsTxHalfClear : s.writePort f (Obj.statsTxHalfClear p) v = wrote (s.clearFlags (Obj.statsTxHalf p) v) := by
  simp [State.writePort, Obj.underrunStepReset, Obj.portFlagsClear, Obj.statsRxHalfClear, Obj.statsTxHalfClear, port_of_key,
    key_port_eq_iff]

theorem writePort_statsClear : s.writePort f (Obj.statsClear p) v = wrote (s.statsClear p v) := by
  simp [State.writePort, Obj.underrunStepReset, Obj.portFlagsClear, Obj.statsRxHalfClear, Obj.statsTxHalfClear, Obj.statsClear,
    port_of_key, key_port_eq_iff]

/-! ### Objects of a pipe (R35, R84) -/

/-- The objects that every pipe has at the indices from a first one on and a sub-index, by their row. -/
abbrev PipeObject (i j : Nat) (f : Family) : Prop := (i = 0x3000 ∨ i = 0x6800) ∧ ∀ pipe : Pipe, Writable (i + pipe.val) j f

theorem pipeOfIndex_pipe (hi : i = 0x3000 ∨ i = 0x6800) : pipeOfIndex (i + pipe.val) = some pipe.val := by
  rcases hi with rfl | rfl
  · rw [pipeOfIndex, if_pos (by omega), Nat.add_sub_cancel_left]
  · rw [pipeOfIndex, if_neg (by omega), if_pos (by omega), Nat.add_sub_cancel_left]

theorem isRequest_pipe (hi : i = 0x3000 ∨ i = 0x6800) : isRequest (i + pipe.val) = false := by
  simp only [isRequest, Bool.or_eq_false_iff, beq_eq_false_iff_ne]
  omega

/-- A pipe's objects are held by the pipe itself. -/
theorem holderFenced_pipe {op : Op} (hi : i = 0x3000 ∨ i = 0x6800) : s.holderFenced (i + pipe.val) j op = s.fenced pipe.val := by
  have hu : unitOfIndex (i + pipe.val) = some pipe.val := by simp only [unitOfIndex, pipeOfIndex_pipe hi]
  simp only [State.holderFenced, hu]
  rw [if_neg (by omega), if_neg (by omega), if_neg (by omega), if_neg (by omega), if_neg (by omega), if_neg (by omega)]

/-- A write of an object of a pipe that is neither fenced nor off wakes the pipe to GATED, and then is what its rule makes of it. -/
theorem hostWrite_pipe (hs : fastOpen s) (hu : s.fenced pipe.val = false) (hon : s.fn (Fn.pipeNo pipe.val) ≠ 0)
    (hd : s.depth pipe.val ≠ 3) (h : PipeObject i j f) (hv : v < 256 ^ f.size) (hc : f.check.takes v = true)
    (hw : (s.wakeTo pipe.val 1).writeObject f (Dict.key (i + pipe.val) j) v none = .ok (.next t)) :
    s.hostWrite (Dict.key (i + pipe.val) j) v = .next { t with answer := .code 0 } := by
  obtain ⟨hi, hrow⟩ := h
  obtain ⟨hf, h1, hj, ha, hty⟩ := hrow pipe
  have hb : s.blockOff (i + pipe.val) = false := by simp [State.blockOff, pipeOfIndex_pipe hi, hon, hd]
  refine hostWrite_fast hs rfl hj hf h1 ha hty (isRequest_pipe hi) (fun _ => (holderFenced_pipe hi).trans hu) hb hv hc ?_
  simpa only [State.wakeFor, pipeOfIndex_pipe hi, hb, Bool.false_eq_true, if_false] using hw

/-- The row of a pipe's PIPE_FLAGS_CLEAR. -/
def pipeFlagsRow : Family := ⟨0x3000, 17, 1, 8, 1, .bits32, 4, .wo, 0, .bits 7, 0⟩

/-- The row of a pipe's RECIRC_DEPTH_PEAK, which takes 0 alone. -/
def recircPeakRow : Family := ⟨0x6800, 17, 1, 4, 1, .u16, 2, .rw, 0, .range 0 0, 0⟩

theorem writeObject_pipeFlagsClear :
    s.writeObject pipeFlagsRow (Obj.pipeFlagsClear p) v none = wrote (s.clearFlags (Obj.pipeFlags p) v) := by
  have hp : Obj.pipeFlagsClear p / 256 - 0x3000 = p := by
    rw [Obj.pipeFlagsClear, Dict.key]
    omega
  have hpage : pipeFlagsRow.index / 4096 = 3 := by decide
  simp only [State.writeObject, hpage]
  rw [State.writeParser, if_pos (by rfl), hp]

theorem writeObject_recircDepthPeak :
    s.writeObject recircPeakRow (Obj.recircDepthPeak p) v none = wrote (s.restartPeak p) := by
  have hp : Obj.recircDepthPeak p / 256 - 0x6800 = p := by
    rw [Obj.recircDepthPeak, Dict.key]
    omega
  have hne : Obj.recircDepthPeak p ≠ Obj.queueSummaryClear ∧ Obj.recircDepthPeak p ≠ Obj.classQuotaCells 2 ∧
      Obj.recircDepthPeak p ≠ Obj.headroomCells := by
    simp only [Obj.recircDepthPeak, Obj.queueSummaryClear, Obj.classQuotaCells, Obj.headroomCells, Dict.key]
    omega
  obtain ⟨hq, hc, hh⟩ := hne
  have hpage : recircPeakRow.index / 4096 = 6 := by decide
  simp only [State.writeObject, hpage]
  simp only [State.writeBuffers, recircPeakRow, hq, hc, hh, hp, false_and, if_false, if_true]

/-! ### A ring's STATUS (R62) -/

theorem writeRing_ringStatusClear : s.writeRing f (Obj.ringStatusClear p) v = wrote (s.clearFlags (Obj.ringStatus p) v) := by
  have hp : (Obj.ringStatusClear p / 256 - 0xB000) / 16 = p := ring_of_key (by decide)
  simp only [State.writeRing, hp]
  simp [Obj.ringStatusClear, Obj.ringHead, Obj.ringTail, Dict.key]

/-- The row of a ring's STATUS_CLEAR belongs to the Plinth. -/
theorem ringStatusClear_row : ∀ n ∈ rings, PlinthWritable (0xB000 + 16 * n) 8 (clearRow (0xB000 + 16 * n) 8 7) := by
  decide +kernel

theorem hostWrite_ringStatusClear {v : BitVec 32} (hs : plinthOpen s) (hp : p ∈ rings) (h0 : clearBits v.toNat 7 = 0) :
    s.hostWrite (Obj.ringStatusClear p) v.toNat = .next { s.clearFlags (Obj.ringStatus p) v.toNat with answer := .code 0 } := by
  refine (hostWrite_clear_plinth hs (ringStatusClear_row p hp) ?_).1 h0
  have hi : (0xB000 + 16 * p) / 4096 = 11 := by
    have : p < 256 := (by decide : ∀ n ∈ rings, n < 256) p hp
    omega
  simp only [State.writeObject, clearRow, hi]
  exact writeRing_ringStatusClear

/-! ### The clears -/

/-- The row of a port's UNDERRUN_STEP_RESET. -/
def underrunStepResetRow : Family := ⟨0x2008, 128, 16, 3, 1, .bool, 1, .wo, 0, .range 0 1, 0⟩

/-- The row of a port's STATS_CLEAR. -/
def statsClearRow : Family := ⟨0x200D, 128, 16, 5, 1, .enum8, 1, .wo, 0, .range 1 3, 0⟩

/-- The row of a port's object that clears flags, by its index, its sub-index and the flags' mask. -/
def portClearRow (i j mask : Nat) : Family := ⟨i, 128, 16, j, 1, .bits32, 4, .wo, 0, .bits mask, 0⟩

/-- STATS_CLEAR takes its three values alike (R133). -/
theorem hostWrite_statsClear (hs : fastOpen s) (hu : s.fenced (0x040 + port.val) = false) (hg : s.groupPowered (port.val / 8) = true)
    (hv : 1 ≤ v ∧ v ≤ 3) : s.hostWrite (Obj.statsClear port.val) v = .next { s.statsClear port.val v with answer := .code 0 } := by
  have hrow : PortObject 0x200D 5 statsClearRow := by decide +kernel
  exact hostWrite_port hs hu hg hrow (show v < 256 by omega) (by simp [statsClearRow, Check.takes, hv]) writePort_statsClear

/-- Settles O25: each clear as the write of its object, by the rule of the port, the pipe or the ring that the object is of. -/
theorem portAndPipeClears : Obligations.PortAndPipeClears := by
  intro s hs
  refine ⟨fun p v hu hg => ?port, fun p v hu hon hd => ?pipe, fun r v hr h0 => hostWrite_ringStatusClear hs.1 hr h0⟩
  case port =>
    have hflags : PortObject 0x200A 2 (portClearRow 0x200A 2 0xFFF) := by decide +kernel
    have hrx : PortObject 0x200D 3 (portClearRow 0x200D 3 0x1FFFFFFF) := by decide +kernel
    have htx : PortObject 0x200D 4 (portClearRow 0x200D 4 0x1FFFF) := by decide +kernel
    have hreset : PortObject 0x2008 3 underrunStepResetRow := by decide +kernel
    exact ⟨fun h0 => hostWrite_port hs hu hg hflags v.isLt (decide_eq_true h0) writePort_portFlagsClear,
      fun h0 => hostWrite_port hs hu hg hrx v.isLt (decide_eq_true h0) writePort_statsRxHalfClear,
      fun h0 => hostWrite_port hs hu hg htx v.isLt (decide_eq_true h0) writePort_statsTxHalfClear,
      hostWrite_port hs hu hg hreset (by decide) rfl writePort_underrunStepReset,
      hostWrite_statsClear hs hu hg (by decide), hostWrite_statsClear hs hu hg (by decide), hostWrite_statsClear hs hu hg (by decide)⟩
  case pipe =>
    have hflags : PipeObject 0x3000 8 pipeFlagsRow := by decide +kernel
    have hpeak : PipeObject 0x6800 4 recircPeakRow := by decide +kernel
    exact ⟨fun h0 => hostWrite_pipe hs hu hon hd hflags v.isLt (decide_eq_true h0) writeObject_pipeFlagsClear,
      hostWrite_pipe hs hu hon hd hpeak (by decide) rfl writeObject_recircDepthPeak⟩

end Sys2Proof.Proofs

/-! PROOFS. Links as they come up, reach UP and are lost (R108-R113, R126-R128). -/

namespace Sys2Proof.Proofs

open Sys2Proof.Machine Sys2Proof.Laws

variable {s : State} {port : Port} {pages : Pages} {cause : LossCause} {b j k p r v : Nat}

/-! ### Negotiation and parallel detection (R110, R111) -/

/-- A partner's pages as a port has heard them: its base page shows. -/
def withPages (s : State) (p : Nat) (pages : Pages) : State := s.put (Obj.partnerBasePage p) pages.basePage.toNat

theorem pagesReceived_common (hr : s.ready = true) (hl : s.link port.val = 1)
    (hc : commonRow ((withPages s port.val pages).offeredRows port.val) (bitList 20 pages.rows.toNat) = some r) :
    exec (.pagesReceived port pages) s = .next (((withPages s port.val pages).setPort port.val fun x =>
      { x with row := r, fec := resolvedFec r pages, anResult := 1, exchanged := false }).toTraining port.val) := by
  change execPagesReceived port pages s = _
  rw [withPages] at *
  simp only [execPagesReceived, hr, hl, hc, Bool.not_true, Bool.false_eq_true, if_false, if_true]

theorem pagesReceived_noCommon (hr : s.ready = true) (hl : s.link port.val = 1)
    (hc : commonRow ((withPages s port.val pages).offeredRows port.val) (bitList 20 pages.rows.toNat) = none) :
    exec (.pagesReceived port pages) s = .next (((withPages s port.val pages).flag (Obj.portFlags port.val) 11).setPort port.val
      fun x => { x with exchanged := true }) := by
  change execPagesReceived port pages s = _
  rw [withPages] at *
  simp only [execPagesReceived, hr, hl, hc, Bool.not_true, Bool.false_eq_true, if_false, if_true]

/-- Pages in parallel detection lead back to arbitration (R111). -/
theorem pagesReceived_detecting (hr : s.ready = true) (hl : s.link port.val = 2) :
    exec (.pagesReceived port pages) s = .next ((withPages s port.val pages).put (Obj.linkState port.val) 1) := by
  change execPagesReceived port pages s = _
  simp [execPagesReceived, hr, hl, withPages, State.setLink]

theorem anWaitExpiry_exchanged (hl : s.link port.val = 1) (hx : (s.port port.val).exchanged = true) :
    exec (.anWaitExpiry port) s = .next (s.setPort port.val fun x => { x with exchanged := false }) := by
  change execAnWaitExpiry port s = _
  simp [execAnWaitExpiry, hl, hx]

theorem anWaitExpiry_detects (hl : s.link port.val = 1) (hx : (s.port port.val).exchanged = false)
    (hw : s.inForce (Obj.portWidth port.val) = 1) (hb : s.nextRate port.val 0 = some b) : exec (.anWaitExpiry port) s =
      .next ((s.setPort port.val fun x => { x with tryRate := b }).put (Obj.linkState port.val) 2) := by
  change execAnWaitExpiry port s = _
  simp [execAnWaitExpiry, hl, hx, hw, hb, State.setLink]

theorem pdDwellExpiry_next (hl : s.link port.val = 2) (hb : s.nextRate port.val ((s.port port.val).tryRate + 1) = some b) :
    exec (.pdDwellExpiry port) s = .next (s.setPort port.val fun x => { x with tryRate := b }) := by
  change execPdDwellExpiry port s = _
  simp [execPdDwellExpiry, hl, hb]

theorem pdDwellExpiry_last (hl : s.link port.val = 2) (hb : s.nextRate port.val ((s.port port.val).tryRate + 1) = none) :
    exec (.pdDwellExpiry port) s = .next (s.put (Obj.linkState port.val) 1) := by
  change execPdDwellExpiry port s = _
  simp [execPdDwellExpiry, hl, hb, State.setLink]

/-! ### Training (R112) -/

/-- A setting in force is not another object. -/
theorem inForce_put_ne (hw : s.dictWf = true) (hj : j ≠ k) : (s.put k v).inForce j = s.inForce j := by
  unfold State.inForce
  rw [obj?_put_ne (dictWf_iff.mp hw).1 hj]
  rfl

/-- The limit of training sets PORT_FLAGS [8], and leads to arbitration anew where AN_ENABLE is 1. -/
theorem trainingLimitExpiry_training (hw : s.dictWf = true) (hl : s.link port.val = 3) :
    exec (.trainingLimitExpiry port) s = .next (if s.inForce (Obj.anEnable port.val) = 1 then
      (s.flag (Obj.portFlags port.val) 8).put (Obj.linkState port.val) 1 else s.flag (Obj.portFlags port.val) 8) := by
  have hne : Obj.anEnable port.val ≠ Obj.portFlags port.val := by
    simp only [Obj.anEnable, Obj.portFlags, Dict.key]
    omega
  have ha : (s.flag (Obj.portFlags port.val) 8).inForce (Obj.anEnable port.val) = s.inForce (Obj.anEnable port.val) :=
    inForce_put_ne hw hne
  change execTrainingLimitExpiry port s = _
  simp only [execTrainingLimitExpiry, hl, ne_eq, not_true_eq_false, if_false, ha]
  split <;> rfl

/-- Settles O31: each command in the link state that it acts in. -/
theorem linksComeUp : Obligations.LinksComeUp := by
  intro s port p
  refine ⟨fun pages hr hl => ⟨fun r => ?common, ?noCommon⟩, fun pages hr hl => ?heard, fun hl hx => ?waited,
    fun b hl hx hw hb => ?detects, fun b hl hb => ?nextRate, fun hl hb => ?lastRate, fun hl => ?detected, fun hl => ?trained,
    fun hw hl ha => ?arbitrates, fun hw hl ha => ?trainsOn⟩
  case common => exact pagesReceived_common hr hl
  case noCommon => exact pagesReceived_noCommon hr hl
  case heard => exact pagesReceived_detecting hr hl
  case waited => exact anWaitExpiry_exchanged hl hx
  case detects => exact anWaitExpiry_detects hl hx hw hb
  case nextRate => exact pdDwellExpiry_next hl hb
  case lastRate => exact pdDwellExpiry_last hl hb
  case detected => exact if_neg (not_not_intro hl)
  case trained => exact if_pos hl
  case arbitrates => exact (trainingLimitExpiry_training hw hl).trans (by rw [if_pos ha])
  case trainsOn => exact (trainingLimitExpiry_training hw hl).trans (by rw [if_neg ha])

/-! ### UP and HOLDING (R109, R113, R126-R128) -/

/-- The row in use of a port whose link reaches UP shows, and the marks of its loss are gone. -/
def showUp (s : State) (p : Nat) (x : PortSt) : State :=
  ((((((s.put (Obj.linkState p) 5).put (Obj.lastLinkChange p) s.time).put (Obj.speedInUse p) x.row).put
    (Obj.portDataRate p) (rowRate x.row)).put (Obj.fecInUse p) x.fec).put (Obj.anResult p) x.anResult).setPort p
      fun y => { y with flushed := false, holdRunning := false, remoteFault := false }

/-- A link reaches UP from ALIGNING, or from HOLDING, where its return is counted. -/
theorem linkUp_reached (h : s.link port.val = 4 ∨ s.link port.val = 6) : exec (.linkUp port) s = .next ((showUp
    (if s.link port.val = 6 then s.bump32 (Obj.holdResumes port.val) else s) port.val (s.port port.val)).startTx port.val) := if_pos h

/-- The timebase does not depend on what an object reads. -/
theorem time_holdResumes : (if s.link p = 6 then s.bump32 k else s).time = s.time := by split <;> rfl

/-- Remote fault is received from now on, or no more. -/
def noteCause (s : State) (p : Nat) (cause : LossCause) : State := s.setPort p fun x => { x with remoteFault := cause == .remoteFault }

/-- A link in UP enters HOLDING: its frame on the wire is cut off, its frame in reception ends, its pauses end, and its hold time runs
while its function reads RUN (R126). -/
def enterHolding (s : State) (p : Nat) : State :=
  let u := (((s.put (Obj.linkState p) 6).bump32 (Obj.linkDownCount p)).put (Obj.lastLinkChange p) s.time).flag (Obj.portFlags p) 1
  let v := ((u.stomp p 0x0D).endReception p 0x05 0x05).clearPauses p
  v.setPort p fun x => { x with holdRunning := v.runs p }

theorem loseLink_up (h : s.link p = 5) : s.loseLink p cause =
    if (enterHolding (noteCause s p cause) p).runs p = true ∧ (enterHolding (noteCause s p cause) p).obj? (Obj.holdTimeUs p) = 0 then
      ((enterHolding (noteCause s p cause) p).linkDownFlush p).leaveHolding p
    else enterHolding (noteCause s p cause) p := by
  have h0 : s.link p ≠ 0 := by omega
  have ha : (noteCause s p cause).link p = 5 := h
  rw [State.loseLink, if_neg h0]
  exact if_neg (not_not_intro ha)

theorem loseLink_down (h : s.link p ≠ 5) (h0 : s.link p ≠ 0) : s.loseLink p cause = noteCause s p cause := by
  rw [State.loseLink, if_neg h0]
  exact if_pos h

theorem loseLink_disabled (h : s.link p = 0) : s.loseLink p cause = s := by
  have h5 : s.link p ≠ 5 := by omega
  rw [State.loseLink, if_pos h]
  exact if_pos h5

/-- Settles O32: LINK_UP by what shows, LINK_LOSS by the link state that it meets, and the end of the hold time. -/
theorem linksGoUpAndDown : Obligations.LinksGoUpAndDown := by
  intro s port p x
  refine ⟨fun h => ?reached, fun cause h => ?lost, fun cause h h0 => ?down, fun cause h => ?disabled, fun hrun hp => ?expired⟩
  case reached =>
    have hup := linkUp_reached h
    rw [showUp, time_holdResumes] at hup
    exact hup
  case lost => exact congrArg Host.Outcome.next (loseLink_up h)
  case down => exact congrArg Host.Outcome.next (loseLink_down h h0)
  case disabled => exact congrArg Host.Outcome.next (loseLink_disabled h)
  case expired => exact if_pos ⟨hrun, hp⟩

end Sys2Proof.Proofs

/-! PROOFS. Frames at the receive MAC (R113-R116, R119), and frames that a pipe takes from the host (R13). -/

namespace Sys2Proof.Proofs

open Sys2Proof.Machine Sys2Proof.Laws

variable {s t : State} {port : Port} {b : List Byte} {err : RxError} {later : Option Nat} {modes : PortModes}
  {c e p time : Nat}

/-! ### What is taken into reception (R113) -/

/-- A whole frame on a port whose link is UP and whose MAC is free is received, once what the FEC reports is counted. -/
theorem receive_whole (hr : s.ready = true) (hl : s.link p = 5) (ha : (s.port p).rxActive = false) :
    s.receive p .whole b err = (s.fecReport p err).receiveWhole p b ((s.fecReport p err).headCode p b) none
      ((s.fecReport p err).ingressStamp p) ((s.fecReport p err).modesAt p) err := by
  simp [State.receive, hr, hl, ha]

/-- The rest of a frame does not fit a port that has none in reception. -/
theorem receive_tail_idle (ha : (s.port p).rxActive = false) : s.receive p .tail b err = s := by
  simp [State.receive, ha]

/-! ### What a whole frame meets (R114, R115) -/

/-- Without an error reported, reception meets first a FIFO that refuses the frame. -/
theorem judgeWhole_refused (he : errorCode err = none) : s.judgeWhole p b (some c) err = (s, some c) := by
  simp [State.judgeWhole, State.judgeMet, he]

theorem judgeWhole_tooLong (he : errorCode err = none) (hb : s.maxFrame p < b.length) :
    s.judgeWhole p b none err = (s, some 0x02) := by
  simp [State.judgeWhole, State.judgeMet, he, hb]

/-- A frame that meets nothing on its way is judged by its length and its FCS at its tail. -/
theorem judgeWhole_tail (he : errorCode err = none) (hb : b.length ≤ s.maxFrame p) :
    s.judgeWhole p b none err = (s, tailCode b) := by
  simp [State.judgeWhole, State.judgeMet, he, Nat.not_lt.mpr hb]

/-- An error reported ends a frame that meets nothing else. -/
theorem judgeWhole_error (he : errorCode err = some e) (hb : b.length ≤ s.maxFrame p) :
    s.judgeWhole p b none err = (s, some e) := by
  simp [State.judgeWhole, State.judgeMet, he, Nat.not_lt.mpr hb]

/-- A control frame does not go to the ingress FIFO (R116). -/
theorem fifoCode_control {whole : Bool} (hc : isControl b = true) : s.fifoCode p b whole = none := by
  simp [State.fifoCode, hc]

/-! ### What becomes of a whole frame (R23, R114-R116) -/

theorem receiveWhole_head : s.receiveWhole p b (some c) later time modes err = (s.macStats p b).endAtArrival p c := rfl

theorem receiveWhole_condemned
    (hj : (s.macStats p b).judgeWhole p b ((s.macStats p b).fifoCode p b true) err = (t, some c)) :
    s.receiveWhole p b none none time modes err = t.endAtArrival p c := by
  simp [State.receiveWhole, hj]

/-- A frame that nothing condemns is counted good: a control frame is consumed, any other goes on to the cipher and the FIFO. -/
theorem receiveWhole_good (hf : (s.macStats p b).fifoCode p b true = none) (hb : b.length ≤ (s.macStats p b).maxFrame p)
    (ht : tailCode b = none) : s.receiveWhole p b none none time modes .none =
      if isControl b then ((s.macStats p b).rxGood p b).control p b
      else ((s.macStats p b).rxGood p b).takeWhole p b none time modes := by
  have hj : (s.macStats p b).judgeWhole p b none .none = (s.macStats p b, none) := (judgeWhole_tail rfl hb).trans (by rw [ht])
  simp [State.receiveWhole, hf, hj, State.accept]

/-- A whole good frame received without an error, on a port that takes it. -/
theorem receive_good (hr : s.ready = true) (hl : s.link p = 5) (ha : (s.port p).rxActive = false) (hc : s.headCode p b = none)
    (hf : (s.macStats p b).fifoCode p b true = none) (hb : b.length ≤ (s.macStats p b).maxFrame p) (ht : tailCode b = none) :
    s.receive p .whole b .none = if isControl b then ((s.macStats p b).rxGood p b).control p b
      else ((s.macStats p b).rxGood p b).takeWhole p b none (s.ingressStamp p) (s.modesAt p) := by
  have hfec : s.fecReport p .none = s := rfl
  rw [receive_whole hr hl ha, hfec, hc, receiveWhole_good hf hb ht]

/-! ### Frames from the host (R13) -/

/-- The frame that a pipe takes from the host for a port. -/
def injected (s : State) (p : Nat) (b : List Byte) : Frame :=
  arrivingFrame .host p (.inject (s.portPipe p)) (b ++ fcs b) true s.time (s.modesAt p)

theorem hostInjection_taken (hr : s.ready = true) (hp : s.portPipe port.val ≠ 0xFF) (hu : s.fenced (s.portPipe port.val) = false)
    (hrun : s.runs (Fn.pipeNo (s.portPipe port.val)) = true) :
    exec (.hostInjection port b) s = .next (s.addFrame (injected s port.val b)) := by
  change execHostInjection port b s = _
  simp [execHostInjection, hr, hp, hu, hrun, injected]

/-- Settles O33: what reception meets of a whole frame, and what becomes of the frame for that; and a frame from the host. -/
theorem wholeFramesReceived : Obligations.WholeFramesReceived := by
  refine ⟨fun s port b hr hl ha => ?received, fun s port b hr hp hu hrun => ?injected⟩
  case received =>
    refine ⟨fun err c hc => ?head, fun err c t hc hj => ?condemned,
      fun t err he => ⟨fun c => judgeWhole_refused he, judgeWhole_tooLong he, judgeWhole_tail he⟩,
      fun t err e he hb => judgeWhole_error he hb, fun hc hb ht => ⟨fun hn hf => ?forward, fun hn => ?control⟩,
      congrArg Host.Outcome.next (receive_tail_idle ha)⟩
    case head => exact congrArg Host.Outcome.next ((receive_whole hr hl ha).trans (by rw [hc, receiveWhole_head]))
    case condemned => exact congrArg Host.Outcome.next ((receive_whole hr hl ha).trans (by rw [hc, receiveWhole_condemned hj]))
    case forward => exact congrArg Host.Outcome.next ((receive_good hr hl ha hc hf hb ht).trans (by rw [hn, if_neg Bool.false_ne_true]))
    case control =>
      have hconsumed : (.next (s.receive port.val .whole b .none) : Result) = _ :=
        congrArg Host.Outcome.next ((receive_good hr hl ha hc (fifoCode_control hn) hb ht).trans (if_pos hn))
      simp only [List.forall_mem_cons]
      exact ⟨hconsumed, hconsumed, hconsumed, hconsumed, List.forall_mem_nil _⟩
  case injected =>
    exact ⟨_, _, hostInjection_taken hr hp hu hrun, rfl, rfl, rfl, rfl, rfl, rfl, rfl, rfl, rfl, rfl, rfl, rfl⟩

end Sys2Proof.Proofs

/-! PROOFS. Pauses and their watchdog (R116, R121-R123). -/

namespace Sys2Proof.Proofs

open Sys2Proof.Machine Sys2Proof.Laws

variable {s : State} {port : Port} {cls : TrafficClass} {b : List Byte} {g : Pause → Pause} {d p n : Nat}

/-! ### Pauses of a class (R121-R123) -/

/-- A port changed reads as it was changed. -/
theorem port_setPort {m : PortSt → PortSt} (hp : p < s.ports.length) : (s.setPort p m).port p = m (s.port p) := by
  simp [State.port, State.setPort, modifyAt, List.getD, hp]

/-- The pauses of a port whose class `n` has changed, by class. -/
theorem pause_setPause_eq (hp : p < s.ports.length) :
    (s.setPause p n g).pause p d = (modifyAt (s.port p).pauses n g).getD d .none :=
  congrArg (fun x : PortSt => x.pauses.getD d .none) (port_setPort hp)

theorem pause_setPause (hp : p < s.ports.length) (hc : n < (s.port p).pauses.length) :
    (s.setPause p n g).pause p n = g (s.pause p n) := by
  rw [pause_setPause_eq hp]
  simp [State.pause, modifyAt, List.getD, hc]

theorem pause_setPause_ne (hp : p < s.ports.length) (hd : d ≠ n) : (s.setPause p n g).pause p d = s.pause p d := by
  rw [pause_setPause_eq hp]
  simp [State.pause, modifyAt, List.getD, hd.symm]

theorem pauseWatchdogExpiry_breaks (hp : (s.pause port.val cls.val).paused = true)
    (hw : s.obj? (Obj.pauseWatchdogMs port.val cls.val) ≠ 0) : exec (.pauseWatchdogExpiry port cls) s = .next
      (((((s.setPause port.val cls.val fun x => { x with paused := false, quanta := 0, ignoring := true }).bump32
        (Obj.pauseWatchdogBreaks port.val)).flag (Obj.portFlags port.val) 5).log
          { kind := 8, unit := 0x040 + port.val, detail := field 4 port.val + cls.val }).startTx port.val) := if_pos ⟨hp, hw⟩

/-! ### MAC control frames (R116, R121) -/

/-- What a control frame counts: its kind at the port, and its code. -/
def controlCounted (s : State) (p sub code : Nat) : State := (s.rxStat p sub 1).code (s.portPipe p) code

theorem control_pause (h : beAt b 14 2 = 0x0001) : s.control p b = if s.obj? (Obj.rxFlowControl p) = 1 then
    ((List.range 8).foldl (fun s c => s.pauseFor p c (beAt b 16 2)) (controlCounted s p 0x10 0x09)).startTx p
    else controlCounted s p 0x10 0x09 := if_pos h

theorem control_pfc (h : beAt b 14 2 = 0x0101) : s.control p b = if s.obj? (Obj.rxFlowControl p) = 2 then
    ((bitList 8 (Nat.land (beAt b 16 2) ((controlCounted s p 0x11 0x09).obj? (Obj.pfcClassEnable p)))).foldl
      (fun s c => s.pauseFor p c (beAt b (18 + 2 * c) 2)) (controlCounted s p 0x11 0x09)).startTx p
    else controlCounted s p 0x11 0x09 := by
  have hne : beAt b 14 2 ≠ 0x0001 := by omega
  exact (if_neg hne).trans (if_pos h)

theorem control_other (h1 : beAt b 14 2 ≠ 0x0001) (h2 : beAt b 14 2 ≠ 0x0101) : s.control p b = controlCounted s p 0x12 0x0A :=
  (if_neg h1).trans (if_neg h2)

/-- Settles O34: the end of a pause and its break by the class that they act on, and control frames by their operation code. -/
theorem pausesBeginAndEnd : Obligations.PausesBeginAndEnd := by
  refine ⟨fun s port cls => ?timers, fun s p b => ?frames⟩
  case timers =>
    refine ⟨fun hp => if_pos hp, fun hp hw => pauseWatchdogExpiry_breaks hp hw, rfl, fun hports hpauses f => ⟨?_, fun d hd => ?_⟩⟩
    · exact pause_setPause (Nat.lt_of_lt_of_eq port.isLt hports.symm) (Nat.lt_of_lt_of_eq cls.isLt hpauses.symm)
    · exact pause_setPause_ne (Nat.lt_of_lt_of_eq port.isLt hports.symm) fun h => hd (Fin.ext h)
  case frames =>
    refine ⟨fun h hm => (control_pause h).trans (if_pos hm), fun h hm => (control_pause h).trans (if_neg hm),
      fun h hm => (control_pfc h).trans (if_pos hm), fun h hm => (control_pfc h).trans (if_neg hm), control_other,
      fun c quanta hi => if_pos hi, fun c quanta hi => if_neg (Bool.eq_false_iff.mp hi)⟩

end Sys2Proof.Proofs

/-! PROOFS. The transmit side of a port (R22, R117, R124, R125, R284). -/

namespace Sys2Proof.Proofs

open Sys2Proof.Machine

variable {s : State} {port : Port} {x : Tx} {c : Copy} {f : Frame} {p : Nat}

/-! ### Transmission (R22, R117, R124, R284) -/

theorem cutThroughStart_starts (hm : s.mayTransmit port.val = true) (hi : (s.port port.val).tx = none)
    (hn : s.nextToStart port.val = some c) (hf : s.frame? c.frame = some f) (hw : f.complete = false)
    (hcut : s.mayCut port.val c f = true) : exec (.cutThroughStart port) s = .next (s.beginTx port.val c true) := by
  change execCutThroughStart port s = _
  simp [execCutThroughStart, hm, hi, hn, hf, hw, hcut]

/-- A port's frame in transmission, with its copy and its frame. -/
structure Sends (s : State) (p : Nat) (x : Tx) (c : Copy) (f : Frame) : Prop where
  tx : (s.port p).tx = some x
  copy : s.copy? x.copy = some c
  frame : s.frame? c.frame = some f

theorem transmitEnd_sends (h : Sends s port.val x c f) : exec (.transmitEnd port) s =
    .next (if f.complete then (s.endTransmit port.val x c f).startTx port.val else s) := by
  change execTransmitEnd port s = _
  simp only [execTransmitEnd, h.tx, h.copy, h.frame]
  split <;> rfl

/-- A frame that runs dry on the wire is stomped, and CLEAN_FRAMES counts from 0 again (R117, R124). -/
def ranDry (s : State) (p : Nat) : State := ((s.stomp p 0x0B).flag (Obj.portFlags p) 6).put (Obj.cleanFrames p) 0

/-- UNDERRUN_STEP rises where the threshold is below MAX_FRAME (R124). -/
def stepRaised (s u : State) (p : Nat) : State :=
  if s.cutThreshold p < s.inForce (Obj.maxFrame p) then u.put (Obj.underrunStep p) (min (u.obj? (Obj.underrunStep p) + 1) 255) else u

theorem transmitUnderrun_sends (h : Sends s port.val x c f) : exec (.transmitUnderrun port) s =
    .next (if x.cut = true ∧ f.complete = false then (stepRaised s (ranDry s port.val) port.val).startTx port.val else s) := by
  have hw : s.copyComplete c = f.complete := by rw [State.copyComplete, h.frame]; rfl
  change execTransmitUnderrun port s = _
  simp only [execTransmitUnderrun, h.tx, h.copy, hw, Bool.not_eq_true, decide_eq_true_eq]
  split <;> rfl

/-- Settles O36: the copy that may start, the one on the wire by whether its frame is whole, and CLEAN_FRAMES on both sides of its
limit. -/
theorem transmitSide : Obligations.TransmitSide := by
  intro s port p
  refine ⟨fun c f hm hi hn hf hw hcut => cutThroughStart_starts hm hi hn hf hw hcut, fun x c f hx hc hf => ?sends,
    fun h => if_pos h, fun h => if_neg (Nat.not_lt.mpr h)⟩
  have h : Sends s port.val x c f := ⟨hx, hc, hf⟩
  have hend := transmitEnd_sends h
  have hdry := transmitUnderrun_sends h
  refine ⟨fun hw => hend.trans (by rw [if_pos hw]), fun hw => hend.trans (by rw [hw, if_neg Bool.false_ne_true]),
    fun hcut hw => hdry.trans (by rw [if_pos ⟨hcut, hw⟩]; rfl), fun ho => hdry.trans (congrArg _ (if_neg ?_))⟩
  rcases ho with hcut | hw
  · simp [hcut]
  · simp [hw]

end Sys2Proof.Proofs

/-! PROOFS. The parse graph's selection and load, the late length check, and a cell not granted in time (R146, R155, R275). -/

namespace Sys2Proof.Proofs

open Sys2Proof.Machine Sys2Proof.Safety Sys2Proof.Laws

variable {s : State} {f : Family} {g : Frame} {b : List Byte} {w : Written} {i j v id : Nat}

/-! ### An object of a fast domain, whatever its rule makes of the value -/

theorem admits_write_fast (hs : fastOpen s) (h : Writable i j f ∧ OutsideBlocks i) (hu : s.holderFenced i j (.write b) = false)
    (hb : b.length = f.size) (hc : f.check.takes (beNat b) = true) : s.admits (.write b) i j = .ok f := by
  obtain ⟨hplinth, hready, hpll, -⟩ := hs
  obtain ⟨hw, hr, hp, hq⟩ := h
  obtain ⟨-, -, -, ha, ht⟩ := id hw
  have hplace : s.placeRefuses f i j (.write b) = none := by simp [State.placeRefuses, hr, hready, hpll, State.blockOff, hp, hq, hu]
  simp [State.admits, object?_of_writable hw, lifeAllows_of_plinthOpen hplinth, kindRefuses_write_writable ha,
    shapeRefuses_write_none ht hb, valueRefuses, hc, hplace]

/-- A value written to an object of a fast domain that belongs to no block: what its rule makes of it, be it a next state, a misuse or
a refusal. -/
theorem hostWrite_fastObject (hs : fastOpen s) (h : Writable i j f ∧ OutsideBlocks i) (hu : ∀ b, s.holderFenced i j (.write b) = false)
    (hv : v < 256 ^ f.size) (hc : f.check.takes v = true) (hw : s.writeObject f (Dict.key i j) v none = w) :
    s.hostWrite (Dict.key i j) v = answering (s.outcomeOf w).outcome (.code (s.outcomeOf w).code) := by
  have ha : s.admits (.write (toBe f.size v)) i j = .ok f :=
    admits_write_fast hs h (hu _) (toBe_length ..) (by rwa [beNat_toBe hv])
  obtain ⟨⟨hpower, -⟩, -⟩ := id hs
  obtain ⟨hwr, -, hp, -⟩ := h
  rw [hostWrite_eq_bytes hwr]
  simp [State.hostWriteBytes, hpower, State.serveNow, ha, slowFull_of_fastOpen hs, State.serve, writesCopyView, State.wakeFor, hp,
    beNat_toBe hv, hw]

/-! ### The parse graph (R155) -/

/-- The row of PARSE_GRAPH_SELECT. -/
def graphSelectRow : Family := ⟨0x30A0, 1, 1, 1, 1, .enum8, 1, .rw, 0, .range 0 1, 0⟩

/-- The row of STANDARD_GRAPH_LOAD. -/
def graphLoadRow : Family := ⟨0x30A3, 1, 1, 1, 1, .bool, 1, .wo, 0, .range 0 1, 0⟩

theorem graphSelect_writable : Writable 0x30A0 1 graphSelectRow ∧ OutsideBlocks 0x30A0 := by decide +kernel

theorem graphLoad_writable : Writable 0x30A3 1 graphLoadRow ∧ OutsideBlocks 0x30A3 := by decide +kernel

/-- A selection of copy 0 or 1 is judged by the templates of that copy. -/
theorem parseGraphSelect_judged {v : BitVec 8} (hs : fastOpen s) (hv : v.toNat ≤ 1) (hw : s.selectGraph v.toNat = w) :
    exec (.parseGraphSelect v) s = answering (s.outcomeOf w).outcome (.code (s.outcomeOf w).code) :=
  hostWrite_fastObject hs graphSelect_writable (fun _ => rfl) v.isLt (by simpa [graphSelectRow, Check.takes] using hv) hw

theorem parseGraphSelect_refused {v : BitVec 8} (hs : fastOpen s) (hv : 1 < v.toNat) :
    exec (.parseGraphSelect v) s = .next { s with answer := .code 0x16 } :=
  hostWrite_valueRange hs.1 graphSelect_writable.1 v.isLt (by simpa [graphSelectRow, Check.takes] using hv)

/-- The copy that a byte of 0 or 1 names. -/
theorem toNat_beq_one {v : BitVec 8} : (v.toNat == 1) = (v == 1) := by
  rw [Bool.eq_iff_iff, beq_iff_eq, beq_iff_eq, ← BitVec.toNat_inj]
  rfl

theorem selectGraph_good (ho : s.graphOverruns (v == 1) = false) (hm : s.graphMisfits (v == 1) = false) :
    s.selectGraph v = wrote (s.put Obj.parseGraphSelect v) := by
  simp [State.selectGraph, ho, hm]

theorem selectGraph_overruns (ho : s.graphOverruns (v == 1) = true) : s.selectGraph v = .ok (undefinedCase "UB-PAR-1") :=
  if_pos ho

theorem selectGraph_misfits (ho : s.graphOverruns (v == 1) = false) (hm : s.graphMisfits (v == 1) = true) :
    s.selectGraph v = .ok (undefinedCase "UB-PAR-2") := by
  simp [State.selectGraph, ho, hm]

theorem loadStandardGraph_obj : s.loadStandardGraph.obj = s.obj := by
  rw [State.loadStandardGraph, putBytes_obj, putBytes_obj]

theorem loadStandardGraph_frames : s.loadStandardGraph.frames = s.frames := by
  rw [State.loadStandardGraph, putBytes_frames, putBytes_frames]

/-- A load is judged by whether the copy that is not selected is busy. -/
theorem standardGraphLoad_judged (hs : fastOpen s) (hw : s.loadStandard 1 = w) :
    exec .standardGraphLoad s = answering (s.outcomeOf w).outcome (.code (s.outcomeOf w).code) :=
  hostWrite_fastObject hs graphLoad_writable (fun _ => rfl) (by decide) rfl hw

theorem loadStandard_free (h : s.graphBusy (s.obj? Obj.parseGraphSelect == 0) = false) :
    s.loadStandard 1 = wrote s.loadStandardGraph := by
  simp [State.loadStandard, h]

theorem loadStandard_busy (h : s.graphBusy (s.obj? Obj.parseGraphSelect == 0) = true) : s.loadStandard 1 = refuseValue := by
  simp [State.loadStandard, h]

/-! ### The check at a tail (R146) -/

theorem lateLengthCheck_unknown (hf : s.frame? id = none) : exec (.lateLengthCheck id) s = .next s := by
  change execLateLengthCheck id s = _
  simp only [execLateLengthCheck, hf]

theorem lateLengthCheck_waits (hf : s.frame? id = some g) (ht : g.tail = none) : exec (.lateLengthCheck id) s = .next s := by
  change execLateLengthCheck id s = _
  simp only [execLateLengthCheck, hf, ht]

theorem lateLengthCheck_checks (hf : s.frame? id = some g) (ht : g.tail = some b) :
    exec (.lateLengthCheck id) s = .next (s.checkTail g b) := by
  change execLateLengthCheck id s = _
  simp only [execLateLengthCheck, hf, ht]

/-- A frame has no length check before it any more. -/
def tailJudged (s : State) (g : Frame) : State := s.setFrame g.id fun x => { x with lateRegion := none, tail := none }

theorem checkTail_reaches (h : g.fallsShort b.length = false) : s.checkTail g b = (tailJudged s g).takeTail g.id b := by
  simp [State.checkTail, h, tailJudged]

theorem checkTail_forwards (h : g.fallsShort b.length = true) (ha : g.latched.failureAction = 2) :
    s.checkTail g b = (tailJudged (s.countConflict (s.framePipe g)) g).takeTail g.id b := by
  simp [State.checkTail, h, ha, tailJudged]

theorem checkTail_loses (h : g.fallsShort b.length = true) (ha : g.latched.failureAction ≠ 2) (hl : g.loc ≠ .ending) :
    s.checkTail g b = (tailJudged (s.countConflict (s.framePipe g)) g).loseFrame g.id 0x20 0x20 := by
  simp [State.checkTail, h, ha, hl, tailJudged]

/-- A frame whose passes are over keeps its own code where that is a parser code, and ends with 0x20 otherwise (R23). -/
theorem checkTail_ends (h : g.fallsShort b.length = true) (ha : g.latched.failureAction ≠ 2) (hl : g.loc = .ending) :
    s.checkTail g b = if g.late.getD 0 < 0x40 then (tailJudged (s.countConflict (s.framePipe g)) g).endAtTail g b.length
      else (tailJudged (s.countConflict (s.framePipe g)) g).endFrame g.id 0x20 := by
  simp [State.checkTail, h, ha, hl, tailJudged]

/-! ### A cell not granted in time (R275) -/

theorem grantTimeout_unknown (hf : s.frame? id = none) : exec (.grantTimeout id) s = .next s := by
  change execGrantTimeout id s = _
  simp only [execGrantTimeout, hf]

theorem grantTimeout_idle (hf : s.frame? id = some g) (h : g.complete = true ∨ g.cells = []) :
    exec (.grantTimeout id) s = .next s := by
  change execGrantTimeout id s = _
  rcases h with h | h <;> simp [execGrantTimeout, hf, h]

theorem grantTimeout_loses (hf : s.frame? id = some g) (hw : g.complete = false) (hc : g.cells ≠ []) :
    exec (.grantTimeout id) s = .next (s.loseFrame id 0x85 0x85) := by
  change execGrantTimeout id s = _
  simp [execGrantTimeout, hf, hw, hc]

/-- Settles O42: the two graph objects by their rules, the tail by what it falls short of, and the timeout by what the frame holds. -/
theorem graphAndTailCommands : Obligations.GraphAndTailCommands := by
  intro s
  refine ⟨fun hs v => ?select, fun hs => ?load, fun id hf => ⟨lateLengthCheck_unknown hf, grantTimeout_unknown hf⟩,
    fun id f hf => ⟨lateLengthCheck_waits hf, fun b ht => ?late, grantTimeout_idle hf, grantTimeout_loses hf⟩⟩
  case select =>
    rw [← toNat_beq_one]
    exact ⟨fun hv ho hm => parseGraphSelect_judged hs hv (selectGraph_good ho hm),
      fun hv ho => parseGraphSelect_judged hs hv (selectGraph_overruns ho),
      fun hv ho hm => parseGraphSelect_judged hs hv (selectGraph_misfits ho hm), parseGraphSelect_refused hs⟩
  case load =>
    exact ⟨fun hfree => ⟨standardGraphLoad_judged hs (loadStandard_free hfree), loadStandardGraph_obj, loadStandardGraph_frames⟩,
      fun hbusy => standardGraphLoad_judged hs (loadStandard_busy hbusy)⟩
  case late =>
    rw [lateLengthCheck_checks hf ht]
    exact ⟨fun h => congrArg _ (checkTail_reaches h), fun h ha => congrArg _ (checkTail_forwards h ha),
      fun h ha hl => congrArg _ (checkTail_loses h ha hl),
      fun h ha hl hc => congrArg _ ((checkTail_ends h ha hl).trans (if_neg (Nat.not_lt.mpr hc))),
      fun h ha hl hc => congrArg _ ((checkTail_ends h ha hl).trans (if_pos hc))⟩

end Sys2Proof.Proofs

/-! PROOFS. The exact-match commands of ring 8 (R166, R167, R170, R185-R187): what each makes of the record it takes, and how the four
copies are written. -/

namespace Sys2Proof.Proofs

open Sys2Proof.Machine

variable {s t u v l : State} {c : TableCommand} {w : EmWriting} {b m q r op status x : Nat} {ps : List (Nat × Nat)} {qs : List Nat}

/-! ### The record that a command takes (R185) -/

/-- A command acts on the record that bears its opcode. -/
theorem takeTable_own {act : Nat → State → State} (h : s.tableRecord = some r) (ho : bits r 255 248 = op) :
    s.takeTable op act = act r (s.ringTake 8) := by
  simp [State.takeTable, h, ho]

theorem exec_insert (h : s.tableRecord = some r) (ho : bits r 255 248 = 1) :
    exec .insert s = .next ((s.ringTake 8).emInsert (tableCommand r)) := congrArg _ (takeTable_own h ho)

theorem exec_modify (h : s.tableRecord = some r) (ho : bits r 255 248 = 2) :
    exec .modify s = .next ((s.ringTake 8).emModify (tableCommand r)) := congrArg _ (takeTable_own h ho)

theorem exec_delete (h : s.tableRecord = some r) (ho : bits r 255 248 = 3) :
    exec .delete s = .next ((s.ringTake 8).emDelete (tableCommand r)) := congrArg _ (takeTable_own h ho)

theorem exec_lookup (h : s.tableRecord = some r) (ho : bits r 255 248 = 5) :
    exec .lookup s = .next ((s.ringTake 8).emLookup (tableCommand r)) := congrArg _ (takeTable_own h ho)

theorem exec_hitTest (h : s.tableRecord = some r) (ho : bits r 255 248 = 6) :
    exec .hitTest s = .next ((s.ringTake 8).emHitTest (tableCommand r)) := congrArg _ (takeTable_own h ho)

theorem ringPush_em {n : Nat} {rec : List Byte} : (s.ringPush n rec).em = s.em := by
  unfold State.ringPush
  split <;> rfl

/-- A completion leaves the exact-match store as it is. -/
theorem tableDone_em {tag hits moves result : Nat} : (s.tableDone tag op status hits moves result).em = s.em := by
  unfold State.tableDone
  split <;> exact ringPush_em

/-! ### Commands that are refused (R186) -/

theorem emInsert_refused (h : s.checkWrite c = .error x) : s.emInsert c = s.refuseTable c x := by simp [State.emInsert, h]

theorem emModify_refused (h : s.checkWrite c = .error x) : s.emModify c = s.refuseTable c x := by simp [State.emModify, h]

theorem emDelete_refused (h : s.checkWrite c = .error x) : s.emDelete c = s.refuseTable c x := by simp [State.emDelete, h]

theorem emInsert_exists (h : s.checkWrite c = .ok b) (hv : s.keyVisible c b = true) : s.emInsert c = s.refuseTable c 1 := by
  simp [State.emInsert, h, hv]

theorem emModify_missing (h : s.checkWrite c = .ok b) (hv : s.keyVisible c b = false) : s.emModify c = s.refuseTable c 2 := by
  simp [State.emModify, h, hv]

theorem emDelete_missing (h : s.checkWrite c = .ok b) (hv : s.keyVisible c b = false) : s.emDelete c = s.refuseTable c 2 := by
  simp [State.emDelete, h, hv]

/-- The commands that write the copies, with their opcodes. -/
def writeCommands : List (Instr × Nat) := [(.insert, 1), (.modify, 2), (.delete, 3)]

/-- A record that the checks of R186 refuse is completed with their status. -/
theorem writeCommand_refused {e : Instr × Nat} (he : e ∈ writeCommands) (h : s.tableRecord = some r) (ho : bits r 255 248 = e.2)
    (hx : (s.ringTake 8).checkWrite (tableCommand r) = .error x) :
    exec e.1 s = .next ((s.ringTake 8).refuseTable (tableCommand r) x) := by
  simp only [writeCommands, List.mem_cons, List.not_mem_nil, or_false] at he
  rcases he with rfl | rfl | rfl
  · exact (exec_insert h ho).trans (congrArg _ (emInsert_refused hx))
  · exact (exec_modify h ho).trans (congrArg _ (emModify_refused hx))
  · exact (exec_delete h ho).trans (congrArg _ (emDelete_refused hx))

/-- An INSERT of a key that is there completes with KEY_EXISTS, a MODIFY or DELETE of one that is not with NOT_FOUND. -/
theorem writeCommand_misses {e : Instr × Nat} (he : e ∈ writeCommands) (h : s.tableRecord = some r) (ho : bits r 255 248 = e.2)
    (hb : (s.ringTake 8).checkWrite (tableCommand r) = .ok b)
    (hv : e.2 = 1 ↔ (s.ringTake 8).keyVisible (tableCommand r) b = true) :
    exec e.1 s = .next ((s.ringTake 8).refuseTable (tableCommand r) (if e.2 = 1 then 1 else 2)) := by
  simp only [writeCommands, List.mem_cons, List.not_mem_nil, or_false] at he
  rcases he with rfl | rfl | rfl
  · exact (exec_insert h ho).trans (congrArg _ (emInsert_exists hb (hv.mp rfl)))
  · exact (exec_modify h ho).trans (congrArg _ (emModify_missing hb (by simpa using hv)))
  · exact (exec_delete h ho).trans (congrArg _ (emDelete_missing hb (by simpa using hv)))

/-! ### Places for new units, and the log (R166, R167, R229) -/

/-- What becomes of a command that gives new units to some copies: the log's entry, then the places, then the writing. -/
def planned (s : State) (c : TableCommand) (b : Nat) (qs : List Nat) : State :=
  match s.logFor c b with
  | none => s.refuseTable c 9
  | some l =>
    match l.emPlaces c.keyType c.key qs with
    | (t, some ps, m) => t.startWriting c b ps m (s.logsNew c b)
    | (t, none, m) => ({ t with versions := s.versions } : State).tableDone c.tag c.op 3 0 m 0

theorem planned_logFull (hl : s.logFor c b = none) : planned s c b qs = s.refuseTable c 9 := by simp [planned, hl]

theorem planned_places (hl : s.logFor c b = some l) (hp : l.emPlaces c.keyType c.key qs = (t, some ps, m)) :
    planned s c b qs = t.startWriting c b ps m (s.logsNew c b) := by
  simp [planned, hl, hp]

theorem planned_tableFull (hl : s.logFor c b = some l) (hp : l.emPlaces c.keyType c.key qs = (t, none, m)) :
    planned s c b qs = ({ t with versions := s.versions } : State).tableDone c.tag c.op 3 0 m 0 := by
  simp [planned, hl, hp]

/-- The copies in which MODIFY gives a unit a successor (R170). -/
def succeededCopies (s : State) (c : TableCommand) (b : Nat) : List Nat :=
  [0, 1, 2, 3].filter fun q => (s.copyUnits q c.keyType c.key).any (c.succeeds b)

theorem emInsert_plans (h : s.checkWrite c = .ok b) (hv : s.keyVisible c b = false) :
    s.emInsert c = planned s c b [0, 1, 2, 3] := by
  simp only [State.emInsert, h, hv, Bool.false_eq_true, if_false] <;> rfl

theorem emModify_plans (h : s.checkWrite c = .ok b) (hv : s.keyVisible c b = true) (hn : succeededCopies s c b ≠ []) :
    s.emModify c = planned s c b (succeededCopies s c b) := by
  have he : (succeededCopies s c b).isEmpty = false := List.isEmpty_eq_false_iff.mpr hn
  unfold succeededCopies at he
  simp only [State.emModify, h, hv, he, Bool.not_true, Bool.false_eq_true, if_false] <;> rfl

theorem emModify_rewrites (h : s.checkWrite c = .ok b) (hv : s.keyVisible c b = true) (hn : succeededCopies s c b = []) :
    s.emModify c = s.startWriting c b [] 0 false := by
  unfold succeededCopies at hn
  simp [State.emModify, h, hv, hn]

theorem succeeds_immediate {k : EmUnit} (h : c.versioned = false) : c.succeeds b k = false := by simp [TableCommand.succeeds, h]

theorem succeededCopies_immediate (h : c.versioned = false) : succeededCopies s c b = [] := by
  simp [succeededCopies, succeeds_immediate h]

theorem emDelete_logFull (h : s.checkWrite c = .ok b) (hv : s.keyVisible c b = true) (hl : s.logFor c b = none) :
    s.emDelete c = s.refuseTable c 9 := by
  simp [State.emDelete, h, hv, hl]

theorem emDelete_starts (h : s.checkWrite c = .ok b) (hv : s.keyVisible c b = true) (hl : s.logFor c b = some l) :
    s.emDelete c = l.startWriting c b [] 0 (s.logsNew c b) := by
  simp [State.emDelete, h, hv, hl]

/-- An immediate command logs nothing (R229). -/
theorem logFor_immediate (h : c.versioned = false) : s.logFor c b = some s ∧ s.logsNew c b = false := by
  simp [State.logFor, State.logsNew, h]

/-! ### The copies, one a clock (R167, R170) -/

theorem writeNext_goesOn (hw : t.em.writing = some w) (hq : w.copies = q :: qs) (hc : t.writeCopy w q = (v, true, m)) (hn : qs ≠ []) :
    t.writeNext = { v with em := { v.em with writing := some { w with copies := qs, moves := w.moves + m } } } := by
  simp [State.writeNext, hw, hq, hc, hn]

theorem writeNext_completes (hw : t.em.writing = some w) (hq : w.copies = q :: qs) (hc : t.writeCopy w q = (v, true, m)) (hn : qs = []) :
    t.writeNext = v.endWriting { w with copies := qs, moves := w.moves + m } 0 := by
  simp [State.writeNext, hw, hq, hc, hn]

theorem writeNext_takesBack (hw : t.em.writing = some w) (hq : w.copies = q :: qs) (hc : t.writeCopy w q = (v, false, m)) :
    t.writeNext = v.undoWriting { w with moves := w.moves + m } := by
  simp [State.writeNext, hw, hq, hc]

/-- The units of a copy that a command finds in its slot. -/
def unitsFound (t : State) (w : EmWriting) (q : Nat) : List EmUnit :=
  (t.copyUnits q w.command.keyType w.command.key).filter fun x => bit x.visible w.slot

/-- A unit of a copy is one that the command finds in its slot. -/
def findsUnit (w : EmWriting) (q : Nat) (k : EmUnit) : Bool :=
  k.copy == q && k.keyType == w.command.keyType && k.key == w.command.key && bit k.visible w.slot

theorem contains_unitsFound {k : EmUnit} (hk : k ∈ t.em.units) : (unitsFound t w q).contains k = findsUnit w q k := by
  rw [Bool.eq_iff_iff]
  simp only [unitsFound, findsUnit, State.copyUnits, State.keyUnits, List.contains_iff_mem, List.mem_filter, Bool.and_eq_true]
  exact ⟨fun ⟨⟨⟨_, htype, hkey⟩, hcopy⟩, hbit⟩ => ⟨⟨⟨hcopy, htype⟩, hkey⟩, hbit⟩,
    fun ⟨⟨⟨hcopy, htype⟩, hkey⟩, hbit⟩ => ⟨⟨⟨hk, htype, hkey⟩, hcopy⟩, hbit⟩⟩

/-- An immediate MODIFY rewrites the result of the key's units in the copy, each in its place. -/
theorem editCopy_modify (hi : w.command.versioned = false) (ho : w.command.op = 2) : t.editCopy w q = { t with em := { t.em with
    units := t.em.units.map fun k => if findsUnit w q k then { k with result := w.command.result } else k } } := by
  have hnone : (unitsFound t w q).filter (w.command.succeeds w.slot) = [] := by simp [succeeds_immediate hi]
  have hmap : (t.em.units.map fun k => if (unitsFound t w q).contains k && !w.command.succeeds w.slot k then
      { k with result := w.command.result } else k) =
      t.em.units.map fun k => if findsUnit w q k then { k with result := w.command.result } else k :=
    List.map_congr_left fun k hk => by rw [contains_unitsFound hk, succeeds_immediate hi, Bool.not_false, Bool.and_true]
  unfold unitsFound at hnone hmap
  simp only [State.editCopy, ho, if_true, hnone, hmap, List.foldl_nil]

/-- An immediate DELETE frees the key's units in the copy. -/
theorem editCopy_delete (hi : w.command.versioned = false) (ho : w.command.op = 3) :
    t.editCopy w q = (unitsFound t w q).foldl (fun t k => t.freeUnit k) t := by
  simp [State.editCopy, unitsFound, State.setVisible, hi, ho]

/-! ### LOOKUP and HIT_TEST (R185-R187) -/

/-- The units that LOOKUP finds, by copy. -/
def lookedUp (s : State) (c : TableCommand) (b : Nat) : List EmUnit :=
  (List.range 4).filterMap fun q => s.emFind q b c.keyType c.key

theorem emLookup_missing (hk : s.keyGood c.keyType c.key = true) (hb : s.targetSlot c = .ok b) (hf : lookedUp s c b = []) :
    s.emLookup c = s.refuseTable c 2 := by
  unfold lookedUp at hf
  simp [State.emLookup, hk, hb, hf]

theorem emLookup_found {k : EmUnit} {ks : List EmUnit} (hk : s.keyGood c.keyType c.key = true) (hb : s.targetSlot c = .ok b)
    (hf : lookedUp s c b = k :: ks) :
    s.emLookup c = s.tableDone c.tag c.op 0 (((lookedUp s c b).map fun y => 2 ^ y.copy).sum) 0 k.result := by
  unfold lookedUp at hf ⊢
  simp [State.emLookup, hk, hb, hf]

theorem emHitTest_missing (hk : s.keyGood c.keyType c.key = true) (hu : s.keyUnits c.keyType c.key = []) :
    s.emHitTest c = s.refuseTable c 2 := by
  simp [State.emHitTest, hk, hu]

theorem emHitTest_found (hk : s.keyGood c.keyType c.key = true) (hu : s.keyUnits c.keyType c.key ≠ []) :
    let us := s.keyUnits c.keyType c.key
    let here := us.map fun k => k.copy * 2 ^ 22 + k.n
    s.emHitTest c = ({ s with em := { s.em with hits := s.em.hits.filter fun h => !here.contains h } } : State).tableDone c.tag c.op 0
      (((List.range 4).map fun q => if us.any (fun k => k.copy == q && s.em.hits.contains (q * 2 ^ 22 + k.n)) then 2 ^ q else 0).sum)
      0 0 := by
  have he : (s.keyUnits c.keyType c.key).isEmpty = false := List.isEmpty_eq_false_iff.mpr hu
  simp only [State.emHitTest, hk, he, Bool.not_true, Bool.false_eq_true, if_false]

/-- Settles O44: each command by what its checks, the log and the places answer, and the writing copy by copy. -/
theorem exactMatchCommands : Obligations.ExactMatchCommands := by
  intro s r h op c u done
  refine ⟨fun e he ho => ⟨fun x hx => ⟨writeCommand_refused he h ho hx, tableDone_em⟩, fun b hb hv => ?misses⟩,
    fun ho b hb hv => ?insert, fun ho b hb hv => ?modify, fun ho b hb hv => ?delete, fun _ _ _ _ _ => rfl,
    fun t w q qs v m hw hq => ⟨writeNext_goesOn hw hq, writeNext_completes hw hq, writeNext_takesBack hw hq⟩,
    fun t w q hi => ⟨editCopy_modify hi, editCopy_delete hi⟩, fun ho hk b hb => ?lookup, fun ho hk => ?hitTest⟩
  case misses =>
    rw [ho] at hv ⊢
    exact writeCommand_misses he h ho hb hv
  case insert =>
    rw [exec_insert h ho, emInsert_plans hb hv]
    exact ⟨fun hl => congrArg _ (planned_logFull hl), fun l t ps m hl hp => congrArg _ (planned_places hl hp),
      fun l t m hl hp => congrArg _ (planned_tableFull hl hp)⟩
  case modify =>
    rw [exec_modify h ho]
    exact ⟨fun hn => congrArg _ (emModify_rewrites hb hv hn), succeededCopies_immediate,
      fun hn hl => congrArg _ ((emModify_plans hb hv hn).trans (planned_logFull hl)),
      fun l t ps m hn hl hp => congrArg _ ((emModify_plans hb hv hn).trans (planned_places hl hp)),
      fun l t m hn hl hp => congrArg _ ((emModify_plans hb hv hn).trans (planned_tableFull hl hp))⟩
  case delete =>
    rw [exec_delete h ho]
    exact ⟨fun hl => congrArg _ (emDelete_logFull hb hv hl), fun l hl => congrArg _ (emDelete_starts hb hv hl), logFor_immediate⟩
  case lookup =>
    rw [exec_lookup h ho]
    exact ⟨fun hf => congrArg _ (emLookup_missing hk hb hf), fun x rest hf => congrArg _ (emLookup_found hk hb hf),
      fun _ _ _ _ => tableDone_em⟩
  case hitTest =>
    rw [exec_hitTest h ho]
    exact ⟨fun hu => congrArg _ (emHitTest_missing hk hu), fun hu => congrArg _ (emHitTest_found hk hu)⟩

end Sys2Proof.Proofs

/-! PROOFS. The upkeep of the tables: repair of the exact-match store (R183), shadows and re-homing of the Relief banks (R209, R210), and
learn events (R188, R189). -/

namespace Sys2Proof.Proofs

open Sys2Proof.Machine Sys2Proof.Laws

variable {s t u : State} {q b n k key : Nat} {x : EmUnit}

/-! ### What a repair of the exact-match store changes -/

/-- `t` is `s` but for the dictionary and the exact-match store. -/
def EmApart (s t : State) : Prop := ∃ o d e, t = { s with obj := o, dom := d, em := e }

theorem EmApart.refl : EmApart s s := ⟨s.obj, s.dom, s.em, rfl⟩

theorem EmApart.trans (h : EmApart s t) (h' : EmApart t u) : EmApart s u := by
  obtain ⟨o, d, e, rfl⟩ := h
  obtain ⟨o', d', e', rfl⟩ := h'
  exact ⟨o', d', e', rfl⟩

theorem EmApart.em {e : Em} (h : EmApart s t) : EmApart s { t with em := e } := h.trans ⟨t.obj, t.dom, e, rfl⟩

theorem DictApart.emApart (h : DictApart s t) : EmApart s t := by
  obtain ⟨o, d, rfl⟩ := h
  exact ⟨o, d, s.em, rfl⟩

theorem EmApart.relief (h : EmApart s t) : t.relief = s.relief := by
  obtain ⟨o, d, e, rfl⟩ := h
  rfl

theorem EmApart.versions (h : EmApart s t) : t.versions = s.versions := by
  obtain ⟨o, d, e, rfl⟩ := h
  rfl

/-- Steps that each change no more than the store and the dictionary change no more together. -/
theorem EmApart.foldl {α : Type} {g : State → α → State} {l : List α} (hg : ∀ t a, EmApart t (g t a)) (s : State) :
    EmApart s (l.foldl g s) :=
  List.foldlRecOn (motive := EmApart s) l g .refl fun t h a _ => h.trans (hg t a)

theorem emApart_filterKey {up : Bool} : EmApart s (s.filterKey q k key up) := by
  unfold State.filterKey
  split
  · exact EmApart.foldl (fun _ _ => EmApart.refl.em) s
  · exact .refl

theorem emApart_makeMoves (ms : List (EmUnit × Nat)) (s : State) : EmApart s (s.makeMoves ms) := by
  induction ms generalizing s with
  | nil => exact .refl
  | cons m ms ih =>
    unfold State.makeMoves
    split
    · exact EmApart.refl.em.trans (ih _)
    · exact ih s

theorem emApart_emPlace : EmApart s (s.emPlace q k key).1 := by
  have hmoved (path : List (EmUnit × Nat)) : EmApart s ((s.makeMoves path).countN (0x128 + 8 * q + 7) path.length) :=
    (emApart_makeMoves path s).trans dictApart_countN.emApart
  unfold State.emPlace
  split
  · exact .refl
  · dsimp only
    split
    · split <;> exact hmoved _
    · exact .refl

theorem emApart_addUnit : EmApart s (s.addUnit x) := emApart_filterKey.em

theorem emApart_drainOverflow : EmApart s (s.drainOverflow q) := by
  refine EmApart.foldl (fun t x => ?_) s
  split
  · exact EmApart.refl.em
  · exact .refl

theorem emApart_freeUnit : EmApart s (s.freeUnit x) := by
  unfold State.freeUnit
  split
  · exact .refl
  · exact emApart_filterKey.em.trans emApart_drainOverflow

theorem emApart_loseUnit : EmApart s (s.loseUnit q) := ⟨_, s.dom, s.em, rfl⟩

theorem emApart_rebuildUnit : EmApart s (s.rebuildUnit q x) := by
  have hplace : EmApart s (s.emPlace q x.keyType x.key).1 := emApart_emPlace
  unfold State.rebuildUnit
  split <;> rename_i heq <;> rw [heq] at hplace
  · exact hplace.trans emApart_addUnit
  · exact hplace.trans emApart_loseUnit

/-! ### Restoring, scrubbing and rebuilding (R183) -/

theorem restorePlace_restores (hc : s.emCorrupt q n = true) (hl : s.imageLost q n = false) :
    s.restorePlace q n = (s.clearCorrupt q n).bump32 (Obj.emRestored q) := by
  simp [State.restorePlace, hc, hl]

theorem restorePlace_idle (h : s.emCorrupt q n = false ∨ s.imageLost q n = true) : s.restorePlace q n = s := by
  rcases h with h | h <;> simp [State.restorePlace, h]

/-- A restore and a scrub of a place are the same repair while the device runs. -/
theorem exec_repairs {c : Instr} {copy : Quadrant} {place : EmPlace} (hr : s.ready = true)
    (hc : c ∈ ([.bucketRestore copy place, .scrub copy place] : List Instr)) :
    exec c s = .next (s.restorePlace copy.val (emPlaceKey place)) := by
  simp only [List.mem_cons, List.not_mem_nil, or_false] at hc
  rcases hc with rfl | rfl
  · rfl
  · exact if_pos hr

/-- The bucket's units freed where it is corrupt, those of copy q XOR 1 placed again, and those that neither holds counted. -/
def rebuilt (s : State) (q base : Nat) : State :=
  let lost := if s.emCorrupt q base then s.bucketUnits q base else []
  let s := lost.foldl (fun s u => s.freeUnit u) s
  let other := Nat.xor q 1
  let found := s.em.units.filter fun u => u.copy == other && !s.holdsLike q u &&
    (s.bucket1 q u.keyType u.key == base || s.bucket2 q u.keyType u.key == base)
  let s := found.foldl (fun s u => s.rebuildUnit q u) s
  let missing := lost.filter fun u => !s.em.units.any fun v =>
    v.copy == other && v.keyType == u.keyType && v.key == u.key && v.visible == u.visible
  missing.foldl (fun s _ => s.loseUnit q) s

theorem emApart_rebuilt : EmApart s (rebuilt s q n) :=
  ((EmApart.foldl (fun _ _ => emApart_freeUnit) s).trans (EmApart.foldl (fun _ _ => emApart_rebuildUnit) _)).trans
    (EmApart.foldl (fun _ _ => emApart_loseUnit) _)

/-- A place's image written anew. -/
def imageWritten (s : State) (q n : Nat) : State :=
  { s with em := { s.em with imageLost := s.em.imageLost.filter fun p => p != q * 2 ^ 22 + n } }

theorem bucketRebuild_kept {copy : Quadrant} {bank : Fin 64} {bucket : Fin 8192}
    (h : s.imageLost copy.val (emPlaceKey (.bucket bank bucket)) = false) : exec (.bucketRebuild copy bank bucket) s = .next s :=
  if_pos (by rw [Bool.not_eq_true']; exact h)

theorem bucketRebuild_lost {copy : Quadrant} {bank : Fin 64} {bucket : Fin 8192}
    (h : s.imageLost copy.val (emPlaceKey (.bucket bank bucket)) = true) :
    let base := emPlaceKey (.bucket bank bucket)
    exec (.bucketRebuild copy bank bucket) s =
      .next (imageWritten ((rebuilt s copy.val base).clearCorrupt copy.val base) copy.val base) :=
  if_neg (by rw [Bool.not_eq_true, Bool.not_eq_false']; exact h)

theorem contains_filter_ne {l : List Nat} : (l.filter fun p => p != n).contains n = false := by simp

/-! ### Shadows and guests (R209, R210) -/

/-- What the guests of a quadrant leave alone: the rule table, the shadows, the exact-match store, and the dictionary's form. -/
def GuestsApart (s t : State) : Prop :=
  t.relief.table = s.relief.table ∧ t.relief.shadows = s.relief.shadows ∧ t.em = s.em ∧ (s.dictWf = true → t.dictWf = true)

theorem GuestsApart.refl : GuestsApart s s := ⟨rfl, rfl, rfl, id⟩

theorem GuestsApart.trans (h : GuestsApart s t) (h' : GuestsApart t u) : GuestsApart s u := by
  obtain ⟨ht, hs, he, hw⟩ := h
  obtain ⟨ht', hs', he', hw'⟩ := h'
  exact ⟨ht'.trans ht, hs'.trans hs, he'.trans he, fun h => hw' (hw h)⟩

theorem GuestsApart.foldl {α : Type} {g : State → α → State} {l : List α} (hg : ∀ t a, GuestsApart t (g t a)) (s : State) :
    GuestsApart s (l.foldl g s) :=
  List.foldlRecOn (motive := GuestsApart s) l g .refl fun t h a _ => h.trans (hg t a)

theorem guestsApart_ite {c : Prop} [Decidable c] (ht : GuestsApart s t) (hu : GuestsApart s u) :
    GuestsApart s (if c then t else u) := by
  split <;> assumption

theorem guestsApart_putBank {x : BankSt} : GuestsApart s (s.putBank q b x) := ⟨rfl, rfl, rfl, id⟩

theorem guestsApart_flag : GuestsApart s (s.flag k n) := ⟨rfl, rfl, rfl, dictWf_put⟩

theorem guestsApart_takeGuest {form g : Nat} : GuestsApart s (s.takeGuest q form g) := by
  unfold State.takeGuest
  split
  · dsimp only
    split
    · exact guestsApart_putBank.trans guestsApart_flag
    · exact guestsApart_putBank
  · exact .refl

theorem guestsApart_placeGuests {lead state form : Nat} {entries : List Rule} {places : List Place} :
    GuestsApart s (s.placeGuests q lead state form entries places) := by
  have harrays (t : State) (l : List (Nat × Rule)) : GuestsApart t { t with relief := { t.relief with arrays := l } } :=
    ⟨rfl, rfl, rfl, id⟩
  exact ((GuestsApart.foldl (fun _ _ => guestsApart_takeGuest) s).trans (harrays _ _)).trans
    (GuestsApart.foldl (fun _ _ => guestsApart_putBank) _)

/-- The neighbour's banks that counted as lost together with the group's are lost alone (R210). -/
def neighbourAlone (s : State) (q lead : Nat) : State :=
  (s.groupBanks q lead).foldl (fun s c =>
    if (s.bankSt q c).state = 3 then s.putBank q c { state := 1, guests := [], taken := none } else s) s

theorem guestsApart_neighbourAlone {lead : Nat} : GuestsApart s (neighbourAlone s q lead) :=
  GuestsApart.foldl (fun t c => guestsApart_ite guestsApart_putBank .refl) s

theorem neighbourAlone_obj {lead : Nat} : (neighbourAlone s q lead).obj = s.obj :=
  List.foldlRecOn (motive := fun t : State => t.obj = s.obj) _ _ rfl fun t h c _ => by split <;> exact h

/-- A lost group's entries, as its shadow has them, written into guests. -/
def rehomed (s : State) (q lead form : Nat) (places : List Place) : State :=
  neighbourAlone ((s.placeGuests q lead 2 form (s.shadowEntries q lead) places).flag Obj.reliefSummary 3) (Nat.xor q 1) lead

theorem guestsApart_rehomed {lead form : Nat} {places : List Place} : GuestsApart s (rehomed s q lead form places) :=
  (guestsApart_placeGuests.trans guestsApart_flag).trans guestsApart_neighbourAlone

theorem rehomed_summary {lead form : Nat} {places : List Place} (hw : s.dictWf = true) :
    bit ((rehomed s q lead form places).obj? Obj.reliefSummary) 3 = true := by
  obtain ⟨-, -, -, hplaced⟩ := guestsApart_placeGuests (s := s) (q := q) (lead := lead) (state := 2) (form := form)
    (entries := s.shadowEntries q lead) (places := places)
  rw [rehomed, obj?_congr neighbourAlone_obj, obj?_flag (dictWf_iff.mp (hplaced hw)).1, if_pos rfl]
  exact bit_setBit _ 3

theorem rehomeBank_stays (h : s.bankLost q b = false ∨ s.guestPlan q (bankLead (s.bankInForce q b) b)
    (s.shadowEntries q (bankLead (s.bankInForce q b) b)) true = none) : s.rehomeBank q b = s := by
  rcases h with h | h <;> simp [State.rehomeBank, h]

theorem rehomeBank_moves {form : Nat} {places : List Place} (hl : s.bankLost q b = true)
    (hp : s.guestPlan q (bankLead (s.bankInForce q b) b) (s.shadowEntries q (bankLead (s.bankInForce q b) b)) true =
      some (form, places)) : s.rehomeBank q b = rehomed s q (bankLead (s.bankInForce q b) b) form places := by
  simp only [State.rehomeBank, hl, hp, Bool.not_true, Bool.false_eq_true, if_false]
  rfl

theorem shadowMismatch_idle {quadrant : Quadrant} {bank : Fin 32} {position : Fin 1024}
    (h : s.ready = false ∨ s.relief.suspended.contains (32 * quadrant.val + bank.val) = true) :
    exec (.shadowMismatch quadrant bank position) s = .next s :=
  if_pos (by rw [Bool.or_eq_true, Bool.not_eq_true']; exact h)

theorem shadowMismatch_rewrites {quadrant : Quadrant} {bank : Fin 32} {position : Fin 1024} (hr : s.ready = true)
    (hs : s.relief.suspended.contains (32 * quadrant.val + bank.val) = false) :
    let unit := 0x380 + 32 * quadrant.val + bank.val
    exec (.shadowMismatch quadrant bank position) s = .next
      (((((s.bump64 (Obj.shadowMismatches quadrant.val)).count (0x148 + 8 * quadrant.val + 7)).flag Obj.reliefSummary 0).judge
        { unit := unit, checker := 2, cls := 0, access := 3, master := unit, address := position.val }).request 2) :=
  if_neg (by rw [hr, hs]; decide)

/-- Of the entries of a bank's rebuilt shadow, all come from the rule table (R209). -/
theorem mem_rebuiltShadow {old : List (Nat × Rule)} {table : List Rule} {e : Nat × Rule}
    (he : e ∈ old.filter (fun e => !(e.1 == q && e.2.homeBank + e.2.member == b)) ++
      (table.filter fun r => r.bank == b).map fun r => (q, r))
    (hq : e.1 = q) (hb : e.2.homeBank + e.2.member = b) :
    e ∈ table.filterMap fun r => if r.bank = b then some (q, r) else none := by
  rw [List.mem_append] at he
  rcases he with he | he
  · simp [hq, hb] at he
  · obtain ⟨r, hr, rfl⟩ := List.mem_map.mp he
    obtain ⟨hmem, hbank⟩ := List.mem_filter.mp hr
    exact List.mem_filterMap.mpr ⟨r, hmem, if_pos (beq_iff_eq.mp hbank)⟩

/-! ### Learn events (R188, R189) -/

theorem learnEvent_idle (h : nextLearn s.em.learns = none) : exec .learnEvent s = .next s := by
  change execLearnEvent s = _
  simp [execLearnEvent, h]

theorem learnEvent_judges {l : Learn} (h : nextLearn s.em.learns = some l) : exec .learnEvent s =
    .next (({ s with em := { s.em with learns := s.em.learns.erase l } } : State).judgeLearn l) := by
  change execLearnEvent s = _
  simp [execLearnEvent, h]

/-- The set of the dedupe cache that an event's key falls into. -/
def learnSet (s : State) (l : Learn) : Nat := s.hash1 0 5 (field 64 l.bd + l.mac) % 1024

/-- The live entry of the dedupe cache for an event's key. -/
def liveEntry (s : State) (l : Learn) : Option Dedupe :=
  s.em.dedupe.find? fun e => e.set == learnSet s l && e.bd == l.bd && e.mac == l.mac && s.dedupeLive e

theorem judgeLearn_suppressed {l : Learn} {e : Dedupe} (h : liveEntry s l = some e) (hp : e.port = l.port) :
    s.judgeLearn l = s.bump64 Obj.learnSuppressed := by
  unfold liveEntry learnSet at h
  simp [State.judgeLearn, h, hp]

theorem judgeLearn_moveDropped {l : Learn} {e : Dedupe} (h : liveEntry s l = some e) (hp : e.port ≠ l.port)
    (hf : s.ringFull 0 = true) : s.judgeLearn l = s.ringPush 0 (l.record 2 e.port) := by
  unfold liveEntry learnSet at h
  simp [State.judgeLearn, h, hp, hf]

theorem judgeLearn_dropped {l : Learn} (h : liveEntry s l = none) (hf : s.ringFull 0 = true) :
    s.judgeLearn l = s.ringPush 0 (if l.miss then l.record 1 0 else l.record 3 l.entryPort) := by
  unfold liveEntry learnSet at h
  simp [State.judgeLearn, h, hf]

theorem judgeLearn_recorded {l : Learn} (h : liveEntry s l = none) (hf : s.ringFull 0 = false) : s.judgeLearn l =
    ((s.ringPush 0 (if l.miss then l.record 1 0 else l.record 3 l.entryPort)).dedupeWrite (learnSet s l) l.bd l.mac l.port).bump64
      Obj.learnRecords := by
  unfold liveEntry learnSet at h
  simp [State.judgeLearn, learnSet, h, hf]

/-- Settles O47: each repair by what it restores and what it leaves, and a learn event by what the cache and ring 0 hold. -/
theorem tablesAreKeptUp : Obligations.TablesAreKeptUp := by
  intro s
  refine ⟨fun q place hr c hc => ?repair, fun q bank bucket => ⟨bucketRebuild_kept, fun h => ?rebuild⟩,
    fun q b => ⟨_, rfl, rfl, rfl, rfl, rfl, fun e ⟨he, hq, hb⟩ => mem_rebuiltShadow he hq hb⟩, fun q b => ?rehome,
    fun q b position => ⟨shadowMismatch_idle, shadowMismatch_rewrites⟩, learnEvent_idle, fun l hl => ?learn⟩
  case repair =>
    rw [exec_repairs hr hc]
    exact ⟨fun hcor hl => congrArg _ (restorePlace_restores hcor hl), fun h => congrArg _ (restorePlace_idle h)⟩
  case rebuild =>
    exact ⟨_, bucketRebuild_lost h, contains_filter_ne, contains_filter_ne, emApart_rebuilt.relief, emApart_rebuilt.versions⟩
  case rehome =>
    refine ⟨fun h => congrArg _ (rehomeBank_stays h), fun hl form places hp =>
      ⟨rehomed s q.val _ form places, congrArg _ (rehomeBank_moves hl hp), ?_⟩⟩
    obtain ⟨htable, hshadows, hem, -⟩ := guestsApart_rehomed (s := s) (q := q.val)
      (lead := bankLead (s.bankInForce q.val b.val) b.val) (form := form) (places := places)
    exact ⟨rehomed_summary, htable, hshadows, hem⟩
  case learn =>
    rw [learnEvent_judges hl]
    exact ⟨fun e he hp => congrArg _ (judgeLearn_suppressed he hp), fun e he hp hf => congrArg _ (judgeLearn_moveDropped he hp hf),
      fun he hf => congrArg _ (judgeLearn_dropped he hf), fun he hf => congrArg _ (judgeLearn_recorded he hf)⟩

end Sys2Proof.Proofs

/-! PROOFS. The Relief and version commands of ring 8 (R204-R207, R225-R227): what each makes of the record it takes. -/

namespace Sys2Proof.Proofs

open Sys2Proof.Machine

variable {s t : State} {c : RuleCommand} {x : Rule} {b f n op r tag v : Nat}

/-! ### The record that a Relief command takes (R204) -/

theorem exec_ruleWrite (h : s.tableRecord = some r) (ho : bits r 255 248 = 0x10) :
    exec .ruleWrite s = .next ((s.ringTake 8).ruleWrite (ruleCommand r)) := congrArg _ (takeTable_own h ho)

theorem exec_ruleDelete (h : s.tableRecord = some r) (ho : bits r 255 248 = 0x11) :
    exec .ruleDelete s = .next ((s.ringTake 8).ruleDelete (ruleCommand r)) := congrArg _ (takeTable_own h ho)

theorem exec_ruleRead (h : s.tableRecord = some r) (ho : bits r 255 248 = 0x12) :
    exec .ruleRead s = .next ((s.ringTake 8).ruleRead (ruleCommand r)) := congrArg _ (takeTable_own h ho)

/-- The Relief commands, with their opcodes. -/
def reliefCommands : List (Instr × Nat) := [(.ruleWrite, 0x10), (.ruleDelete, 0x11), (.ruleRead, 0x12)]

/-- A bank or position that the checks of R205 refuse is completed BAD_ENTRY by each of the three. -/
theorem reliefCommand_refused {e : Instr × Nat} (he : e ∈ reliefCommands) (h : s.tableRecord = some r) (ho : bits r 255 248 = e.2)
    (hg : (s.ringTake 8).ruleGroup (ruleCommand r) = none) : exec e.1 s = .next ((s.ringTake 8).ruleDone (ruleCommand r) 4 0) := by
  simp only [reliefCommands, List.mem_cons, List.not_mem_nil, or_false] at he
  rcases he with rfl | rfl | rfl
  · rw [exec_ruleWrite h ho, State.ruleWrite, hg]
  · rw [exec_ruleDelete h ho, State.ruleDelete, hg]
  · rw [exec_ruleRead h ho, State.ruleRead, hg]

/-! ### RULE_WRITE, RULE_DELETE and RULE_READ (R205-R207) -/

/-- The entries that a command's staged images make, one for each bank of its group. -/
def stagedRule (s : State) (c : RuleCommand) (n v : Nat) : List Rule :=
  (List.range n).map fun j =>
    let x := s.stagedImage c j
    { bank := c.bank + j, position := c.index, visible := v, key := bits x 511 352, care := bits x 351 192,
      result := bits x 191 152, homeBank := c.bank, homeIndex := c.index, member := j }

/-- An immediate RULE_WRITE logs nothing (R229): it writes its entries, in place of the rule that stood there (R206). -/
theorem ruleWrite_writes (hg : s.ruleGroup c = some n) (hi : s.imagesGood c n = true) (hv : s.ruleWriteVisible c = .ok v)
    (himm : c.versioned = false) (hw : s.writeRule (stagedRule s c n v) = some t) : s.ruleWrite c = t.ruleDone c 0 0 := by
  unfold stagedRule at hw
  simp [State.ruleWrite, hg, hi, hv, himm, hw]

/-- A quadrant without a place for them leaves the rule in none (R207). -/
theorem ruleWrite_tableFull (hg : s.ruleGroup c = some n) (hi : s.imagesGood c n = true) (hv : s.ruleWriteVisible c = .ok v)
    (himm : c.versioned = false) (hw : s.writeRule (stagedRule s c n v) = none) : s.ruleWrite c = s.ruleDone c 3 0 := by
  unfold stagedRule at hw
  simp [State.ruleWrite, hg, hi, hv, himm, hw]

/-- An immediate command acts on the current slot. -/
theorem ruleSlot_immediate (himm : c.versioned = false) : s.ruleSlot c = some s.currentSlot := by
  simp [State.ruleSlot, himm]

/-- An immediate RULE_DELETE frees a position that every slot sees (R206). -/
theorem ruleDelete_drops (hg : s.ruleGroup c = some n) (hx : s.ruleAt c.bank c.index = some x) (himm : c.versioned = false)
    (h7 : x.visible = 7) (hb : bit x.visible s.currentSlot = true) :
    s.ruleDelete c = (s.dropRule c.bank c.index).ruleDone c 0 0 := by
  rw [h7] at hb
  simp [State.ruleDelete, hg, ruleSlot_immediate himm, hx, himm, h7, hb, State.setRuleVisible]

/-- A position whose bits differ between slots refuses an immediate RULE_DELETE (R206). -/
theorem ruleDelete_conflicts (hg : s.ruleGroup c = some n) (hx : s.ruleAt c.bank c.index = some x) (himm : c.versioned = false)
    (h7 : x.visible ≠ 7) : s.ruleDelete c = s.ruleDone c 5 0 := by
  simp [State.ruleDelete, hg, ruleSlot_immediate himm, hx, himm, h7]

theorem ruleRead_stages (hg : s.ruleGroup c = some n) (hs : s.ruleSlot c = some b) (hx : s.ruleAt c.bank c.index = some x)
    (hb : bit x.visible b = true) :
    s.ruleRead c = ((List.range n).foldl (fun (t : State) j =>
      t.putRecord Obj.ruleStaging 64 (c.row + j) (t.ruleView (c.bank + j) c.index)) s).ruleDone c 0 x.result := by
  simp [State.ruleRead, hg, hs, hx, hb]

/-! ### The record that a version command takes (R225) -/

theorem takeVersion_own {act : Nat → State → State} (h : s.tableRecord = some r) (ho : bits r 255 248 = op)
    (hg : versionRecordGood r = true) : s.takeVersion op act = act r (s.ringTake 8) :=
  (takeTable_own h ho).trans (if_pos hg)

theorem takeVersion_malformed {act : Nat → State → State} (h : s.tableRecord = some r) (ho : bits r 255 248 = op)
    (hg : versionRecordGood r = false) : s.takeVersion op act = (s.ringTake 8).versionDone (bits r 239 224) op 4 :=
  (takeTable_own h ho).trans (if_neg (Bool.eq_false_iff.mp hg))

theorem exec_versionOpen (h : s.tableRecord = some r) (ho : bits r 255 248 = 0x20) (hg : versionRecordGood r = true) :
    exec .versionOpen s = .next ((s.ringTake 8).versionOpen (bits r 239 224)) := congrArg _ (takeVersion_own h ho hg)

theorem exec_commit (h : s.tableRecord = some r) (ho : bits r 255 248 = 0x21) (hg : versionRecordGood r = true) :
    exec .commit s = .next ((s.ringTake 8).versionCommit r) := congrArg _ (takeVersion_own h ho hg)

theorem exec_versionAbort (h : s.tableRecord = some r) (ho : bits r 255 248 = 0x22) (hg : versionRecordGood r = true) :
    exec .versionAbort s = .next ((s.ringTake 8).versionAbort (bits r 239 224)) := congrArg _ (takeVersion_own h ho hg)

/-- The version commands, with their opcodes. -/
def versionCommands : List (Instr × Nat) := [(.versionOpen, 0x20), (.commit, 0x21), (.versionAbort, 0x22)]

/-- Each of them takes the record of its opcode in its own way. -/
theorem exec_versionCommand {e : Instr × Nat} (he : e ∈ versionCommands) :
    ∃ act, ∀ s, exec e.1 s = .next (s.takeVersion e.2 act) := by
  simp only [versionCommands, List.mem_cons, List.not_mem_nil, or_false] at he
  rcases he with rfl | rfl | rfl <;> exact ⟨_, fun _ => rfl⟩

/-- A record with a bit that the field map does not name is completed BAD_ENTRY. -/
theorem versionCommand_refused {e : Instr × Nat} (he : e ∈ versionCommands) (h : s.tableRecord = some r)
    (ho : bits r 255 248 = e.2) (hg : versionRecordGood r = false) :
    exec e.1 s = .next ((s.ringTake 8).versionDone (bits r 239 224) e.2 4) := by
  obtain ⟨act, hexec⟩ := exec_versionCommand he
  exact (hexec s).trans (congrArg _ (takeVersion_malformed h ho hg))

/-! ### VERSION_OPEN, COMMIT and ABORT (R226, R227) -/

theorem versionOpen_building (hb : s.buildingSlot.isSome = true) : s.versionOpen tag = s.versionDone tag 0x20 0x0B := by
  simp [State.versionOpen, hb]

theorem versionOpen_noFree (hb : s.buildingSlot = none) (hf : s.slotIn .free = none) :
    s.versionOpen tag = s.versionDone tag 0x20 8 := by
  simp [State.versionOpen, hb, hf]

theorem versionOpen_opens (hb : s.buildingSlot = none) (hf : s.slotIn .free = some f) : s.versionOpen tag =
    ((s.slotTo f .building).setSlot f fun x =>
      { x with number := nextVersion (s.slot s.currentSlot).number, log := [] }).versionDone tag 0x20 0 := by
  simp [State.versionOpen, hb, hf]

theorem versionCommit_noBuild (hb : s.buildingSlot = none) : s.versionCommit r = s.versionDone (bits r 239 224) 0x21 6 := by
  simp [State.versionCommit, hb]

theorem versionCommit_primes (hb : s.buildingSlot = some b) (hf : s.slotIn .free = some f) : s.versionCommit r =
    ({ s.slotTo f .priming with
      versions := { (s.slotTo f .priming).versions with commit := .priming (bits r 239 224) } } : State).request 1 := by
  simp [State.versionCommit, State.startPriming, hb, hf]

theorem versionCommit_noWait (hb : s.buildingSlot = some b) (hf : s.slotIn .free = none) (hw : bit r 223 = true) :
    s.versionCommit r = s.versionDone (bits r 239 224) 0x21 8 := by
  simp [State.versionCommit, hb, hf, hw]

theorem versionCommit_waits (hb : s.buildingSlot = some b) (hf : s.slotIn .free = none) (hw : bit r 223 = false) :
    s.versionCommit r = { s with versions := { s.versions with commit := .pending (bits r 239 224) } } := by
  simp [State.versionCommit, hb, hf, hw]

theorem versionAbort_noBuild (hb : s.buildingSlot = none) : s.versionAbort tag = s.versionDone tag 0x22 6 := by
  simp [State.versionAbort, hb]

theorem versionAbort_begins (hb : s.buildingSlot.isSome = true) :
    s.versionAbort tag = ({ s with versions := { s.versions with aborting := some tag } } : State).request 1 := by
  simp [State.versionAbort, Option.isNone_eq_false_iff.mpr hb]

/-- Settles O45: each command by what the checks on its record, the rule at its position and the states of the slots answer. -/
theorem ruleAndVersionCommands : Obligations.RuleAndVersionCommands := by
  intro s r h op c u tag
  refine ⟨fun e he ho => reliefCommand_refused he h ho, fun n v ho hg hi hv himm => ?write, fun n x ho hg hx himm => ?delete,
    fun n b x ho hg hs hx hb => ?read, fun e he ho hg => ?malformed, fun ho hg => ?opens, fun ho hg => ?commit, fun ho hg => ?abort⟩
  case write =>
    rw [exec_ruleWrite h ho]
    exact ⟨fun t hw => congrArg _ (ruleWrite_writes hg hi hv himm hw), fun hw => congrArg _ (ruleWrite_tableFull hg hi hv himm hw)⟩
  case delete =>
    rw [exec_ruleDelete h ho]
    exact ⟨fun h7 hb => congrArg _ (ruleDelete_drops hg hx himm h7 hb), fun h7 => congrArg _ (ruleDelete_conflicts hg hx himm h7)⟩
  case read =>
    rw [exec_ruleRead h ho]
    exact congrArg _ (ruleRead_stages hg hs hx hb)
  case malformed =>
    rw [ho]
    exact versionCommand_refused he h ho hg
  case opens =>
    rw [exec_versionOpen h ho hg]
    exact ⟨fun hb => congrArg _ (versionOpen_building hb), fun hb hf => congrArg _ (versionOpen_noFree hb hf),
      fun f hb hf => congrArg _ (versionOpen_opens hb hf)⟩
  case commit =>
    rw [exec_commit h ho hg]
    exact ⟨fun hb => congrArg _ (versionCommit_noBuild hb), fun b f hb hf => congrArg _ (versionCommit_primes hb hf),
      fun b hb hf => ⟨fun hw => congrArg _ (versionCommit_noWait hb hf hw), fun hw => congrArg _ (versionCommit_waits hb hf hw)⟩⟩
  case abort =>
    rw [exec_versionAbort h ho hg]
    exact ⟨fun hb => congrArg _ (versionAbort_noBuild hb), fun hb => congrArg _ (versionAbort_begins hb)⟩

end Sys2Proof.Proofs

/-! PROOFS. The order of the version slots under every step (R220), and how versions pass on (R227-R237). -/

namespace Sys2Proof.Proofs

open Sys2Proof.Machine Sys2Proof.Safety Sys2Proof.Laws

variable {s t : State} {b p i j n op tag : Nat} {st : SlotState} {g : SlotSt → SlotSt} {x : Slot}

/-- Settles O6: `Holds`, of which R220 is a part, is kept by the command at the front of the queue and by a core clock. -/
theorem stepKeepsVersionSlots : Obligations.StepKeepsVersionSlots := by
  intro s t hs hv e
  obtain ⟨f', hr⟩ := holds_step (holds_of_shape hs hv)
  have ht : SlotsGood t.versions := (HoldsR.of_eq e hr).versions
  obtain ⟨-, hcurrent, hbuilding, hleaving, -⟩ := id ht
  exact ⟨hcurrent, hbuilding, hleaving, ht⟩

/-! ### What a slot reads after a slot is changed -/

theorem slot_congr (h : t.versions = s.versions) : t.slot i = s.slot i := by rw [State.slot, h, State.slot]

theorem slot_withCommit {c : Commit} : ({ s with versions := { s.versions with commit := c } } : State).slot i = s.slot i := rfl

theorem setSlot_obj : (s.setSlot i g).obj = s.obj := rfl

theorem slotTo_obj : (s.slotTo i st).obj = s.obj := rfl

theorem slots_length_slotTo : (s.slotTo i st).versions.slots.length = s.versions.slots.length := List.length_modify ..

theorem slot_setSlot_same (h : i < s.versions.slots.length) : (s.setSlot i g).slot i = g (s.slot i) := by
  simp [State.slot, State.setSlot, modifyAt, h]

theorem slot_setSlot_ne (h : j ≠ i) : (s.setSlot i g).slot j = s.slot j := by
  simp [State.slot, State.setSlot, modifyAt, h.symm]

theorem slot_slotTo_same (h : i < s.versions.slots.length) :
    (s.slotTo i st).slot i = { s.slot i with state := st, since := s.time, entered := s.clock } := slot_setSlot_same h

theorem slot_slotTo_ne (h : j ≠ i) : (s.slotTo i st).slot j = s.slot j := slot_setSlot_ne h

/-! ### What a completion and a log leave alone -/

theorem dictApart_ringPush {rec : List Byte} : DictApart s (s.ringPush n rec) := by
  unfold State.ringPush
  split
  · exact ⟨_, s.dom, rfl⟩
  · exact ⟨_, _, rfl⟩

theorem dictApart_versionDone {status : Nat} : DictApart s (s.versionDone tag op status) := by
  unfold State.versionDone State.tableDone
  dsimp only
  split
  · exact dictApart_ringPush
  · exact dictApart_ringPush.objects ObjectsApart.refl.bump64.flag

/-- A completion without an error leaves TABLE_SUMMARY as it is. -/
theorem versionDone_summary (h : Sparse.wf Dict.reset s.obj = true) :
    (s.versionDone tag op 0).obj? Obj.tableSummary = s.obj? Obj.tableSummary :=
  obj?_ringPush h (by decide) (by decide) (by decide)

theorem raiseTrap_obj {level cause : Nat} : (s.raiseTrap n level cause).obj = s.obj := by
  unfold State.raiseTrap
  split <;> rfl

theorem raiseTrap_versions {level cause : Nat} : (s.raiseTrap n level cause).versions = s.versions := by
  unfold State.raiseTrap
  split <;> rfl

/-- Steps that each change no object change none together. -/
theorem foldl_obj {α : Type} {step : State → α → State} {l : List α} (h : ∀ t a, (step t a).obj = t.obj) :
    (l.foldl step s).obj = s.obj :=
  List.foldlRecOn (motive := fun t : State => t.obj = s.obj) l step rfl fun t ht a _ => (h t a).trans ht

theorem filterKey_obj {k key : Nat} {up : Bool} : (s.filterKey n k key up).obj = s.obj := by
  unfold State.filterKey
  split
  · exact foldl_obj fun _ _ => rfl
  · rfl

theorem drainOverflow_obj : (s.drainOverflow n).obj = s.obj := by
  refine foldl_obj fun t u => ?_
  split <;> rfl

theorem setVisible_obj {u : EmUnit} {v : Nat} : (s.setVisible u v).obj = s.obj := by
  unfold State.setVisible State.freeUnit
  split
  · split
    · rfl
    · exact drainOverflow_obj.trans filterKey_obj
  · rfl

theorem setRuleVisible_obj {v : Nat} : (s.setRuleVisible b i v).obj = s.obj := by
  unfold State.setRuleVisible
  split <;> rfl

theorem copyRuleBit_obj {dst src : Nat} : (s.copyRuleBit b i dst src).obj = s.obj := by
  unfold State.copyRuleBit
  split
  · exact setRuleVisible_obj
  · rfl

/-- A log is applied to tables alone, and no object changes. -/
theorem applyLog_obj {log : List LogKey} {dst src : Nat} : (s.applyLog log dst src).obj = s.obj := by
  refine foldl_obj fun t k => ?_
  cases k with
  | unit kind key => exact foldl_obj fun _ _ => setVisible_obj
  | rule b i => exact copyRuleBit_obj

/-! ### The switch of a commit (R228) -/

/-- The log of the building slot is applied to the primed one, and the building slot takes the current one's place. -/
def handedOver (s : State) (b p : Nat) : State :=
  ((s.applyLog (s.slot b).log p b).slotTo b .current).slotTo s.currentSlot .draining

/-- The primed slot begins the next version too. -/
def begun (s : State) (b p : Nat) : State :=
  ((handedOver s b p).slotTo p .building).setSlot p fun x => { x with number := nextVersion (s.slot b).number, log := [] }

/-- The three slots have changed, and the commit is no longer under way. -/
def switched (s : State) (b p : Nat) : State :=
  { begun s b p with versions := { (begun s b p).versions with commit := .none } }

/-- What follows the switch of the slots: it is counted, TABLE_SUMMARY [9] is set, sequencer 1 is told, and the commit completes. -/
def announced (s : State) (tag : Nat) : State :=
  (((s.bump32 Obj.commits).flag Obj.tableSummary 9).raiseTrap 1 1 2).versionDone tag 0x21 0

theorem commitSwitch_switches (hc : s.versions.commit = .priming tag) (hb : s.buildingSlot = some b) (hp : s.slotIn .priming = some p) :
    exec .commitSwitch s = .next (announced (switched s b p) tag) := by
  change execCommitSwitch s = _
  simp only [execCommitSwitch, hc, hb, hp]
  rfl

theorem announced_versions : (announced s tag).versions = s.versions :=
  dictApart_versionDone.versions.trans raiseTrap_versions

theorem announced_summary (h : Sparse.wf Dict.reset s.obj = true) : bit ((announced s tag).obj? Obj.tableSummary) 9 = true := by
  have hbump := bump32_wf (k := Obj.commits) h
  rw [announced, versionDone_summary (by rw [raiseTrap_obj]; exact flag_wf hbump), obj?_congr raiseTrap_obj, obj?_flag hbump,
    if_pos rfl]
  exact bit_setBit _ 9

theorem switched_commit : (switched s b p).versions.commit = .none := rfl

theorem switched_obj : (switched s b p).obj = s.obj := by
  simp only [switched, begun, handedOver, setSlot_obj, slotTo_obj, applyLog_obj]

theorem slots_length_handedOver : (handedOver s b p).versions.slots.length = s.versions.slots.length := by
  rw [handedOver, slots_length_slotTo, slots_length_slotTo, applyLog_versions]

theorem slot_switched : (switched s b p).slot i = (begun s b p).slot i := by rw [switched, slot_withCommit]

/-- Slots other than the primed one are those that the building slot's taking over has left. -/
theorem slot_switched_ne (h : i ≠ p) : (switched s b p).slot i = (handedOver s b p).slot i := by
  rw [slot_switched, begun, slot_setSlot_ne h, slot_slotTo_ne h]

theorem switched_building (hb : b < s.versions.slots.length) (hbp : b ≠ p) (hcb : s.currentSlot ≠ b) :
    ((switched s b p).slot b).state = .current ∧ ((switched s b p).slot b).number = (s.slot b).number ∧
    ((switched s b p).slot b).log = (s.slot b).log := by
  rw [slot_switched_ne hbp, handedOver, slot_slotTo_ne hcb.symm, slot_slotTo_same (by rwa [applyLog_versions]),
    slot_congr applyLog_versions]
  exact ⟨rfl, rfl, rfl⟩

theorem switched_current (hc : s.currentSlot < s.versions.slots.length) (hcp : s.currentSlot ≠ p) :
    ((switched s b p).slot s.currentSlot).state = .draining := by
  rw [slot_switched_ne hcp, handedOver, slot_slotTo_same (by rwa [slots_length_slotTo, applyLog_versions])]

theorem switched_priming (hp : p < s.versions.slots.length) : ((switched s b p).slot p).state = .building ∧
    ((switched s b p).slot p).number = nextVersion (s.slot b).number ∧ ((switched s b p).slot p).log = [] := by
  have hp' : p < (handedOver s b p).versions.slots.length := by rwa [slots_length_handedOver]
  rw [slot_switched, begun, slot_setSlot_same (by rwa [slots_length_slotTo]), slot_slotTo_same hp']
  exact ⟨rfl, rfl, rfl⟩

/-! ### The other passages (R229-R233) -/

theorem abortComplete_undoes (ha : s.versions.aborting = some tag) (hb : s.buildingSlot = some b) :
    let u := (s.applyLog (s.slot b).log b s.currentSlot).setSlot b fun x => { x with log := [] }
    exec .abortComplete s = .next (({ u with versions := { u.versions with aborting := none } } : State).versionDone tag 0x22 0) := by
  change execAbortComplete s = _
  simp only [execAbortComplete, ha, hb]

theorem primingStart_primes (hc : s.versions.commit = .pending tag) (hf : s.slotIn .free = some n) : exec .primingStart s = .next
    (({ s.slotTo n .priming with versions := { (s.slotTo n .priming).versions with commit := .priming tag } } : State).request 1) := by
  change execPrimingStart s = _
  simp only [execPrimingStart, hc, State.startPriming, hf]

theorem slotRetire_retires (hd : (s.slot x.val).state = .draining) (hn : (s.slot x.val).inFlight = 0) :
    exec (.slotRetire x) s = .next ((s.slotTo x.val .retiring).request 1) := if_pos ⟨hd, hn⟩

theorem slotRetire_waits (hn : (s.slot x.val).inFlight ≠ 0) : exec (.slotRetire x) s = .next s := if_neg fun h => hn h.2

theorem cleanupComplete_frees (hr : (s.slot x.val).state = .retiring) :
    let u := (s.applyLog (s.slot s.currentSlot).log x.val s.currentSlot).setSlot s.currentSlot fun y => { y with log := [] }
    exec (.cleanupComplete x) s =
      .next (((u.slotTo x.val .free).setSlot x.val fun y => { y with number := 0, log := [] }).flag Obj.tableSummary 10) := if_pos hr

/-! ### VERSION_CANCEL (R231) -/

/-- The row of VERSION_CANCEL. -/
def versionCancelRow : Family := ⟨0x4081, 1, 1, 1, 1, .bool, 1, .wo, 0, .range 0 1, 0⟩

theorem versionCancel_writable : Writable 0x4081 1 versionCancelRow ∧ OutsideBlocks 0x4081 := by decide +kernel

/-- VERSION_CANCEL is the write of 1 to its object, which the Maquette holds. -/
theorem exec_versionCancel (hs : fastOpen s) (hu : s.fenced 0x5B9 = false) :
    exec .versionCancel s = .next { s.versionCancel with answer := .code 0 } :=
  hostWrite_fastObject hs versionCancel_writable (fun _ => hu) (by decide) rfl rfl

theorem versionCancel_pending (hc : s.versions.commit = .pending tag) : s.versionCancel =
    (({ s with versions := { s.versions with commit := .none } } : State).put Obj.versionCancelResult 1).versionDone tag 0x21
      0x0A := by
  simp only [State.versionCancel, hc]

theorem versionCancel_priming (hc : s.versions.commit = .priming tag) : s.versionCancel = s.put Obj.versionCancelResult 2 := by
  simp only [State.versionCancel, hc]

theorem versionCancel_none (hc : s.versions.commit = .none) : s.versionCancel = s.put Obj.versionCancelResult 3 := by
  simp only [State.versionCancel, hc]

/-! ### STALE_SWEEP and SLOT_AUDIT (R235, R237) -/

theorem staleSweep_drops {queue : QueueId} (hr : s.ready = true) :
    exec (.staleSweep queue) s = .next (s.endCopies ((s.queueCopies queue).takeWhile s.copyStale) 0x61) := if_pos hr

theorem slotAudit_idle (h : (s.slot x.val).state ≠ .draining ∨
    (s.clock - (s.slot x.val).entered) * 5 / 8 ≤ (s.obj? Obj.staleAgeMs + 2) * 1000000 ∨ (s.slot x.val).inFlight = 0) :
    exec (.slotAudit x) s = .next s := by
  refine if_pos ?_
  rw [Bool.or_eq_true, beq_iff_eq, Bool.not_eq_true']
  rcases h with h | h | h
  · refine .inl ?_
    split
    · contradiction
    · rfl
  · refine .inl ?_
    split
    · exact decide_eq_false (Nat.not_lt.mpr h)
    · rfl
  · exact .inr h

/-- A slot that has drained too long is judged by the count that its audit leaves. -/
theorem slotAudit_audits (hd : (s.slot x.val).state = .draining)
    (ha : (s.obj? Obj.staleAgeMs + 2) * 1000000 < (s.clock - (s.slot x.val).entered) * 5 / 8) (hn : (s.slot x.val).inFlight ≠ 0) :
    let u := s.auditSlot x.val
    let v := (({ u with frames := u.frames.map fun f => if f.stamp = some x.val then { f with stamp := none } else f } : State).setSlot
      x.val fun y => { y with inFlight := 0 }).bump32 Obj.auditsCorrected
    let unit := 0x5A0 + (v.coverOf 1).getD 1
    exec (.slotAudit x) s = if (u.slot x.val).inFlight = 0 then .next u else
      .next (v.judge { unit := unit, checker := 3, cls := 0, access := 3, master := unit, address := x.val }) := by
  refine if_neg ?_
  simp [hd, ha, hn]

/-- Settles O46: each passage by the commit, the abort or the slot's state that it waits for. -/
theorem versionsPassOn : Obligations.VersionsPassOn := by
  intro s
  refine ⟨fun tag b ha hb => abortComplete_undoes ha hb, fun tag f hc hf => primingStart_primes hc hf,
    fun tag b p c hl hc hb hp e hbp hcb hcp hc3 hb3 hp3 => ?switch,
    fun i hd => ⟨fun h0 => slotRetire_retires hd h0, fun h0 => slotRetire_waits h0⟩, fun i hr => cleanupComplete_frees hr,
    fun hs hu => ?cancel, fun i => ?audit, fun queue hr => staleSweep_drops hr⟩
  case switch =>
    subst e
    rw [← hl] at hb3 hc3 hp3
    obtain ⟨hbs, hbn, hblog⟩ := switched_building hb3 hbp hcb
    obtain ⟨hps, hpn, hplog⟩ := switched_priming (b := b) hp3
    have hcs := switched_current (b := b) hc3 hcp
    refine ⟨_, commitSwitch_switches hc hb hp, ?_⟩
    simp only [slot_congr announced_versions, announced_versions]
    refine ⟨hbs, hcs, hps, hpn, hbn, hplog, hblog, switched_commit, fun hw => announced_summary ?_⟩
    rw [switched_obj]
    exact (dictWf_iff.mp hw).1
  case cancel =>
    rw [exec_versionCancel hs hu]
    exact ⟨fun tag hc => by rw [versionCancel_pending hc], fun tag hc => by rw [versionCancel_priming hc],
      fun hc => by rw [versionCancel_none hc]⟩
  case audit =>
    refine ⟨fun h => slotAudit_idle h, fun hd ha hn => ?_⟩
    have e := slotAudit_audits hd ha hn
    exact ⟨fun h0 => e.trans (if_pos h0), fun h0 => e.trans (if_neg h0)⟩

end Sys2Proof.Proofs

/-! PROOFS. Replication walks, their list entries and their ends (R257-R263), and SAMPLE_SEED with its registers (R265). -/

namespace Sys2Proof.Proofs

open Sys2Proof.Machine Sys2Proof.Safety

variable {s : State} {f : Frame} {c : Copy} {id group i : Nat} {prune : Bool}

/-! ### CAST_WALK (R257, R260) -/

theorem castWalk_idle (h : s.ready = false ∨ s.castHead = none) : exec .castWalk s = .next s := by
  change execCastWalk s = _
  cases hr : s.ready with
  | false => simp [execCastWalk, hr]
  | true => simp [execCastWalk, hr, h.resolve_left (by simp [hr])]

/-- The head frame of an engine in READY is judged by its age first and by its group's entry next. -/
theorem castWalk_head (hr : s.ready = true) (hc : s.castHead = some c) :
    exec .castWalk s =
      if s.copyStale c then .next (s.endCopy c.id 0x60)
      else if !groupValid (s.groupEntry (c.group.getD 0)) then .next ((s.endCopy c.id 0x66).count 0x338)
      else .next (((({ s with copies := s.copies.filter fun d => d.id != c.id } : State).moveFrame c.frame
        (.walking (c.group.getD 0 * 2 ^ 64 + s.groupEntry (c.group.getD 0)) 0)).setFrame c.frame
          fun f => { f with refs := 1 }).count 0x338) := by
  change execCastWalk s = _
  simp [execCastWalk, hr, hc]

/-! ### A walk and its clock (R260, R263) -/

/-- A place that packs a group above its 64-bit entry unpacks to both. -/
theorem walk_of_walking {entry read : Nat} (hl : f.loc = .walking (group * 2 ^ 64 + entry) read) (he : entry < 2 ^ 64) :
    f.walk = some { frame := f.id, group := group, entry := entry, read := read } := by
  have hgroup : (group * 2 ^ 64 + entry) / 2 ^ 64 = group := by omega
  have hentry : (group * 2 ^ 64 + entry) % 2 ^ 64 = entry := by omega
  simp only [Frame.walk, hl, hgroup, hentry]

theorem castClock_idle (h : s.walks = []) : s.castClock = s := by
  rw [State.castClock, h, List.foldl_nil]

/-- A walk that is alone under way has the clock's 8 entries to itself. -/
theorem castClock_alone {w : Walk} (h : s.walks = [w]) : s.castClock = s.readEntries w (min 8 w.left) := by
  rw [State.castClock, h, List.foldl_cons, List.foldl_nil]

/-! ### A list entry (R259, R260, R261) -/

/-- What an entry asks for of a frame: its VALID bit first, its kind next, and for a LOCAL entry whether it is pruned. -/
theorem castEntry_frame (hf : s.frame? id = some f) :
    s.castEntry id group prune i =
      let e := s.record Obj.replicationList 8 i
      if !bit e 63 then s.bump64 Obj.castInvalidEntries
      else if bit e 62 then (if f.isRemote then s else s.castRemote f group (bits e 61 48))
      else if prune ∧ f.isFront ∧ bits e 47 41 = f.port then s.bump64 Obj.castPruned
      else s.castLocal f group (bits e 47 41) (bits e 40 23) := by
  rw [State.castEntry, hf]

/-! ### CAST_WALK_END (R262) -/

theorem castWalkEnd_none (h : (s.frames.find? fun f => f.walk.any fun w => w.left == 0) = none) :
    exec .castWalkEnd s = .next s := by
  change execCastWalkEnd s = _
  rw [execCastWalkEnd, h]

/-- The oldest walk that has read its list ends by whether it made a copy. -/
theorem castWalkEnd_some (h : (s.frames.find? fun f => f.walk.any fun w => w.left == 0) = some f) :
    exec .castWalkEnd s =
      if f.copied then .next ((s.setFrame f.id fun x => { x with loc := .copies }).releaseRef f.id)
      else .next (s.endFrame f.id 0x66) := by
  change execCastWalkEnd s = _
  rw [execCastWalkEnd, h]

/-! ### SAMPLE_SEED and the sampling register (R265) -/

/-- The row of SAMPLE_SEED. -/
def sampleSeedRow : Family := ⟨0x6843, 1, 1, 2, 1, .u32, 4, .rw, 495397697, .any, 0⟩

theorem sampleSeed_writable : Writable 0x6843 2 sampleSeedRow ∧ OutsideBlocks 0x6843 := by decide +kernel

theorem exec_sampleSeed {v : BitVec 32} (hs : fastOpen s) :
    exec (.sampleSeed v) s = .next { (s.put Obj.sampleSeed v.toNat).seedSamples v.toNat with answer := .code 0 } :=
  hostWrite_fastObject hs sampleSeed_writable (fun _ => rfl) v.isLt rfl rfl

/-- The bit that a sampling register takes in is the parity of its bits 31, 21, 1 and 0. -/
theorem sampleTaps_toNat (v : BitVec 32) :
    (((v >>> 31) ^^^ (v >>> 21) ^^^ (v >>> 1) ^^^ v) &&& 1).toNat =
      (bits v.toNat 31 31 + bits v.toNat 21 21 + bits v.toNat 1 1 + bits v.toNat 0 0) % 2 := by
  simp only [BitVec.toNat_and, BitVec.toNat_xor, BitVec.toNat_ushiftRight, Nat.shiftRight_eq_div_pow, bits]
  change _ &&& 1 = _
  rw [Nat.and_one_is_mod, Nat.xor_mod_two_eq, Nat.add_mod, Nat.xor_mod_two_eq, Nat.add_mod (_ ^^^ _), Nat.xor_mod_two_eq]
  omega

theorem sampleStep_toNat (v : BitVec 32) : (sampleStep v).toNat =
    (2 * v.toNat + (bits v.toNat 31 31 + bits v.toNat 21 21 + bits v.toNat 1 1 + bits v.toNat 0 0) % 2) % 2 ^ 32 := by
  have htaps := sampleTaps_toNat v
  have hlow : v.toNat <<< 1 % 2 ^ 32 = (v.toNat % 2 ^ 31) <<< 1 := by omega
  rw [sampleStep, BitVec.toNat_or, BitVec.toNat_shiftLeft, htaps, hlow, ← Nat.shiftLeft_add_eq_or_of_lt (by omega)]
  omega

/-- Settles O48: the walk by its head frame, a list entry by its bits and by the frame's source, and the end of a walk by whether it made
a copy. -/
theorem framesAreReplicated : Obligations.FramesAreReplicated := by
  intro s
  refine ⟨castWalk_idle, fun c hr hc => ?head, fun id entry group read f _ hl he hid => hid ▸ walk_of_walking hl he, castClock_idle,
    fun w => castClock_alone, fun w n => rfl, fun id f g prune i hf => ?entry, castWalkEnd_none, fun f hf => ?walkEnd,
    fun hs v => exec_sampleSeed hs, sampleStep_toNat⟩
  case head =>
    rw [castWalk_head hr hc]
    exact ⟨fun ha => if_pos ha, fun ha hg => by simp [ha, hg], fun ha hg => by simp [ha, hg]⟩
  case entry =>
    rw [castEntry_frame hf]
    refine ⟨fun hv => ?_, fun hv hk hr => ?_, fun hv hk hr => ?_, fun hv hk hp hs he => ?_, fun hv hk h => ?_⟩
    · simp [hv]
    · simp [hv, hk, hr]
    · simp [hv, hk, hr]
    · simp [hv, hk, hp, hs, he]
    · rcases h with h | h | h <;> simp [hv, hk, h]
  case walkEnd =>
    rw [castWalkEnd_some hf]
    exact ⟨fun h => if_pos h, fun h => by simp [h]⟩

end Sys2Proof.Proofs

/-! PROOFS. What holds of every command and of every step: the queue, the stops and the free values; and the reset state's shape. -/

namespace Sys2Proof.Proofs

open Sys2Proof.Machine Sys2Proof.Safety Sys2Proof.Laws

/-- Settles O1: a step takes the front of the queue alone, and a record with its own rest put back is itself. -/
theorem stepRunsFrontCommand : Obligations.StepRunsFrontCommand := fun _ _ => rfl

/-- Settles O4: the reset state is of the kind that every operation keeps. -/
theorem resetHasShape : Obligations.ResetHasShape := ⟨shape_of_holds holds_reset, holds_reset.versions⟩

/-- Settles O7: whatever the fuses become, the queue that `Holds` names is kept, and an outcome of the kind is no refusal. -/
theorem commandsLeaveTheQueue : Obligations.CommandsLeaveTheQueue := by
  intro c s hs hv
  obtain ⟨f, -, hr⟩ := holds_exec c (holds_of_shape hs hv)
  refine ⟨fun t e => (HoldsR.of_eq e hr).pending, fun r e => ?_⟩
  rw [e] at hr
  exact hr

/-- Settles O8: an outcome of the kind goes on or names a case of the table, and it is no refusal. -/
theorem stepStopsOnlyOnListedMisuse : Obligations.StepStopsOnlyOnListedMisuse := by
  intro s hs hv
  obtain ⟨f, hr⟩ := holds_step (holds_of_shape hs hv)
  cases e : step s with
  | next t => exact .inl ⟨t, rfl⟩
  | fault x =>
    rw [e] at hr
    cases x with
    | unbounded i => exact .inr ⟨i, hr, rfl⟩
  | refused r =>
    rw [e] at hr
    exact hr.elim

/-- Settles O10: `Holds` bounds the counter of free values from below by what it was before the step. -/
theorem openValuesAreTakenInOrder : Obligations.OpenValuesAreTakenInOrder := by
  intro s t hs hv e
  obtain ⟨f, hr⟩ := holds_step (holds_of_shape hs hv)
  exact (HoldsR.of_eq e hr).free

end Sys2Proof.Proofs

/-! PROOFS. Spill bins written and returned (R286-R290), and what the re-reads and alerts of DDR5 channels come to (R291-R293). -/

namespace Sys2Proof.Proofs

open Sys2Proof.Machine Sys2Proof.Safety Sys2Proof.Laws

variable {s t : State} {c : Copy} {f : Frame} {b : Bin} {v x : Nat} {xs : List Nat}

/-! ### SPILL_WRITE and BIN_FLUSH (R288) -/

/-- The state in which a staged copy's bytes, packed into its VOQ's bins, have left the staging buffer. -/
def spilledCopy (t : State) (c : Copy) (f : Frame) (v : Nat) : State :=
  let u := t.setCopy c.id fun x => { x with loc := .bin v (t.firstBin c.id) }
  (if c.cast then u else u.freeCells c.frame).add64 Obj.spillBytesWritten f.stored

theorem spillWrite_none (h : s.copies.find? Copy.isStaged = none) : exec .spillWrite s = .next s := by
  change execSpillWrite s = _
  simp only [execSpillWrite, h]

theorem spillWrite_staged (h : s.copies.find? Copy.isStaged = some c) (hl : c.loc = .staged v) (hf : s.frame? c.frame = some f) :
    exec .spillWrite s = if f.complete = false then .next s else
      match s.packBin v c.id 8 (64 + f.stored) with
      | none => .next s
      | some t => .next (spilledCopy t c f v) := by
  change execSpillWrite s = _
  simp only [execSpillWrite, h, hl, hf, Bool.not_eq_true']
  rfl

theorem binFlush_none {voq : Fin 131072} (h : (s.voqBins voq.val).find? (fun b => b.isOpen) = none) :
    exec (.binFlush voq) s = .next s := by
  change execBinFlush voq s = _
  simp only [execBinFlush, h]

theorem binFlush_open {voq : Fin 131072} (h : (s.voqBins voq.val).find? (fun b => b.isOpen) = some b) :
    exec (.binFlush voq) s = .next (s.writeOut b.bin) := by
  change execBinFlush voq s = _
  simp only [execBinFlush, h]

/-! ### SPILL_RETURN (R289) -/

theorem spillReturn_none (h : s.arm.spilled.findSome? s.returnable = none) : exec .spillReturn s = .next s := by
  change execSpillReturn s = _
  simp only [execSpillReturn, h]

theorem spillReturn_head (h : s.arm.spilled.findSome? s.returnable = some b) : exec .spillReturn s = .next (s.returnBin b) := by
  change execSpillReturn s = _
  simp only [execSpillReturn, h]

/-- A bin all of whose ending copies have come back is free, and its bursts have been read. -/
theorem returnBin_whole (h : s.returnCopies b (s.endingIn b) = (t, [])) :
    s.returnBin b = ({ t with arm := { t.arm with bins := t.arm.bins.filter fun x => x.bin != b.bin } } : State).ddr5Read
      (binChannel b.bin) (bursts (b.filled + 32)) := by
  simp only [State.returnBin, h]

/-- A bin in which a copy waits for cells stays, and so does every other. -/
theorem returnBin_waits (h : s.returnCopies b (s.endingIn b) = (t, x :: xs)) :
    (s.returnBin b).copies = t.copies ∧ (s.returnBin b).arm.bins.map Bin.bin = t.arm.bins.map Bin.bin := by
  simp only [State.returnBin, h, List.map_map]
  refine ⟨trivial, List.map_congr_left fun y _ => ?_⟩
  simp only [Function.comp_apply]
  split <;> rfl

theorem returnCopies_cons_returned (h : s.returnCopy b x = (t, true)) : s.returnCopies b (x :: xs) = t.returnCopies b xs := by
  simp only [State.returnCopies, h]

theorem returnCopies_cons_waits (h : s.returnCopy b x = (t, false)) : s.returnCopies b (x :: xs) = (t, x :: xs) := by
  simp only [State.returnCopies, h]

/-! ### DDR5_REREAD and DDR5_ALERT (R292, R293) -/

theorem burstMatches_iff {a : Nat} {beats : List (BitVec 40)} : burstMatches a beats = true ↔
    ∀ w ∈ beats, bits w.toNat 7 0 = crc8 (toBe 4 (bits w.toNat 39 8) ++ toBe 1 (bits a 13 6)) := by
  simp only [burstMatches, List.all_eq_true, beq_iff_eq, beatCheck]

variable {ch : Channel} {place : Ddr5Place} {burst : Ddr5Burst}

theorem ddr5Reread_away (h : s.ready = false ∨ s.channelInUse ch.val = false) : exec (.ddr5Reread ch place burst) s = .next s := by
  change execDdr5Reread ch place burst s = _
  rcases h with h | h <;> simp [execDdr5Reread, h]

theorem ddr5Reread_good (h : burstMatches burst.address.toNat burst.first = true) :
    exec (.ddr5Reread ch place burst) s = .next s := by
  change execDdr5Reread ch place burst s = _
  simp [execDdr5Reread, h]

section Served

variable (hr : s.ready = true) (hc : s.channelInUse ch.val = true) (h1 : burstMatches burst.address.toNat burst.first = false)
include hr hc h1

theorem ddr5Reread_counted (h2 : burstMatches burst.address.toNat burst.second = true) : exec (.ddr5Reread ch place burst) s =
    .next ((s.bump64 Obj.ddr5Rereads).ddr5Fault ch.val 0 5 burst.address.toNat) := by
  change execDdr5Reread ch place burst s = _
  simp [execDdr5Reread, hr, hc, h1, h2]

/-- A spill bin that fails twice is retired, and a channel that has lost more bins than it may is fenced (R292, R293). -/
theorem ddr5Reread_spillBin (h2 : burstMatches burst.address.toNat burst.second = false) {bin : Nat} :
    let u := (s.retireBin bin).ddr5Fault ch.val 1 5 burst.address.toNat
    exec (.ddr5Reread ch (.spillBin bin) burst) s = .next
      (if u.channelRetired ch.val > u.obj? Obj.channelRetireLimit && !u.fenced (0x420 + ch.val)
       then u.fenceUnit (0x420 + ch.val) 5 false else u) := by
  change execDdr5Reread ch (.spillBin bin) burst s = _
  simp [execDdr5Reread, hr, hc, h1, h2]

end Served

theorem ddr5Alert_fault (h : s.boot.powered = true) :
    exec (.ddr5Alert ch) s = .next ((s.free 40).2.ddr5Fault ch.val 1 6 (s.free 40).1) :=
  if_pos h

/-- Settles O49: each command by the staged copy, the bin or the burst that it meets. -/
theorem spillAndDdr5 : Obligations.SpillAndDdr5 := by
  intro s
  refine ⟨⟨spillWrite_none, fun c v f hs hl hf => ?write⟩, fun voq => ⟨binFlush_none, fun b => binFlush_open⟩, spillReturn_none,
    fun b hb => ⟨spillReturn_head hb, fun t => returnBin_whole, fun t x xs => returnBin_waits⟩,
    fun b x xs => ⟨rfl, fun t => returnCopies_cons_returned, fun t => returnCopies_cons_waits⟩, fun a beats => burstMatches_iff,
    fun ch place burst hr hc => ⟨ddr5Reread_good, ddr5Reread_counted hr hc, fun bin h1 h2 => ddr5Reread_spillBin hr hc h1 h2⟩,
    fun ch place burst => ddr5Reread_away, fun ch => ddr5Alert_fault⟩
  case write =>
    rw [spillWrite_staged hs hl hf]
    refine ⟨fun h => ?_, fun t hcomplete ht => by simp only [hcomplete, ht]; rfl⟩
    rcases h with h | h
    · exact if_pos h
    · simp only [h, ite_self]

end Sys2Proof.Proofs

/-! PROOFS. VOQ credit: which head frame passes (R300, R234), what a balance comes to (R300, R339), and who is granted credit (R301). -/

namespace Sys2Proof.Proofs

open Sys2Proof.Machine Sys2Proof.Safety Sys2Proof.Laws

variable {s t : State} {c : Copy} {f : Frame} {v w n p : Nat} {x : Int}

/-! ### VOQ_PASS (R300, R234) -/

theorem voqPass_waits {voq : Fin 131072} (h : s.ready = false ∨ s.ableVoqs.head? ≠ some voq.val) :
    exec (.voqPass voq) s = .next s := by
  change execVoqPass voq s = _
  rcases h with h | h <;> simp [execVoqPass, h]

theorem voqPass_passes {voq : Fin 131072} (hr : s.ready = true) (h : s.ableVoqs.head? = some voq.val) :
    exec (.voqPass voq) s = .next (((s.noteAble.passVoq voq.val).capCredit voq.val).noteAble) := by
  change execVoqPass voq s = _
  simp [execVoqPass, hr, h]

/-- A VOQ's head frame is that of its oldest copy. -/
theorem voqHead_copy (h : s.voqHead v = some (c, f)) : (s.voqCopies v).head? = some c ∧ s.frame? c.frame = some f := by
  unfold State.voqHead at h
  split at h
  · rename_i hc
    split at h
    · rename_i hf
      obtain ⟨rfl, rfl⟩ := Prod.mk.inj (Option.some.inj h)
      exact ⟨hc, hf⟩
    · cases h
  · cases h

theorem mayPass_needs (h : s.mayPass v = true) : 0 < s.credit v ∧ (s.voqHead v).isSome = true := by
  unfold State.mayPass at h
  split at h
  · cases h
  · rename_i hv
    exact ⟨of_decide_eq_true (Bool.and_eq_true_iff.mp h).1, by rw [hv]; rfl⟩

theorem mayPass_unassigned (h : s.voqHead v = some (c, f)) (hf : s.stale f = false) (hp : s.systemPort (v / 8) = .unassigned) :
    s.mayPass v = false := by
  simp [State.mayPass, h, hf, hp]

theorem passVoq_stale (h : s.voqHead v = some (c, f)) (hf : s.stale f = true) : s.passVoq v = s.endCopy c.id 0x60 := by
  simp [State.passVoq, h, hf]

theorem passVoq_local (h : s.voqHead v = some (c, f)) (hf : s.stale f = false) (hp : s.systemPort (v / 8) = .local p) :
    s.passVoq v = (s.payCredit v f.stored).enterEgress c.id c.nextHop p f.cls := by
  simp [State.passVoq, h, hf, hp]

theorem passVoq_remote {d : Nat} (h : s.voqHead v = some (c, f)) (hf : s.stale f = false)
    (hp : s.systemPort (v / 8) = .remote d n) : s.passVoq v = s.passRemote v d f c := by
  simp [State.passVoq, h, hf, hp]

/-! ### The order of the VOQs that may pass (R300) -/

theorem mayPass_of_able (h : v ∈ s.ableVoqs) : s.mayPass v = true := by
  simp only [State.ableVoqs, List.mem_append, List.mem_filter, Bool.and_eq_true] at h
  rcases h with h | h
  · exact h.2
  · exact h.2.2

/-- The VOQ noted first stays first for as long as it may pass. -/
theorem ableVoqs_head {vs : List Nat} (ht : t.queues.able = v :: vs) (h : t.mayPass v = true) : t.ableVoqs.head? = some v := by
  simp [State.ableVoqs, ht, h]

/-! ### Balances (R300, R339) -/

/-- The map of balances is canonical: an unlisted VOQ has one quantum. -/
abbrev CreditWf (s : State) : Prop := Sparse.wf (fun _ => (4096 : Int)) s.queues.credit = true

theorem creditWf_putCredit (h : CreditWf s) : CreditWf (s.putCredit v x) := sparse_set_wf h

theorem credit_putCredit (h : CreditWf s) : (s.putCredit v x).credit w = if w = v then x else s.credit w := sparse_get_set h

theorem credit_putCredit_self (h : CreditWf s) : (s.putCredit v x).credit v = x := by rw [credit_putCredit h, if_pos rfl]

theorem credit_putCredit_ne (h : CreditWf s) (hw : w ≠ v) : (s.putCredit v x).credit w = s.credit w := by
  rw [credit_putCredit h, if_neg hw]

/-- What a VOQ says of its balance over the fabric changes no queue and no copy (R339). -/
theorem noteCredit_fabric : ∃ y, s.noteCredit v x = { s with fabric := y } := by
  have hsend : ∀ st, ∃ y, s.sendRequest v st = { s with fabric := y } := by
    intro st
    unfold State.sendRequest
    split
    · split
      · exact ⟨_, rfl⟩
      · exact ⟨s.fabric, rfl⟩
    · exact ⟨s.fabric, rfl⟩
  unfold State.noteCredit
  dsimp only
  split
  · exact hsend 1
  · split
    · exact hsend 0
    · exact ⟨s.fabric, rfl⟩

theorem noteCredit_queues : (s.noteCredit v x).queues = s.queues := by
  obtain ⟨y, h⟩ := noteCredit_fabric (s := s) (v := v) (x := x)
  rw [h]

theorem noteCredit_copies : (s.noteCredit v x).copies = s.copies := by
  obtain ⟨y, h⟩ := noteCredit_fabric (s := s) (v := v) (x := x)
  rw [h]

theorem credit_congr (h : t.queues = s.queues) : t.credit v = s.credit v := by rw [State.credit, h, State.credit]

theorem payCredit_queues : (s.payCredit v n).queues = (s.putCredit v (s.credit v - n)).queues := noteCredit_queues

theorem takeGrant_queues : (s.takeGrant v n).queues = (s.addCredit v n).queues := noteCredit_queues

theorem creditWf_capCredit (h : CreditWf s) : CreditWf (s.capCredit v) := by
  unfold State.capCredit
  split
  · exact creditWf_putCredit h
  · exact h

theorem credit_capCredit (h : CreditWf s) :
    (s.capCredit v).credit v = if s.voqEmpty v then min (s.credit v) (s.granted v) else s.credit v := by
  unfold State.capCredit
  split
  · exact credit_putCredit_self h
  · rfl

theorem granted_capCredit : (s.capCredit v).granted w = s.granted w := by
  unfold State.capCredit
  split <;> rfl

/-- The state in which a grant has been added to the balance, which is not yet capped. -/
def granting (s : State) (v n : Nat) : State :=
  let t := s.putCredit v (s.credit v + n)
  { t with queues := { t.queues with granted := Sparse.set (fun _ => 4096) t.queues.granted v n } }

theorem addCredit_eq : s.addCredit v n = (granting s v n).capCredit v := rfl

theorem granted_granting (h : Sparse.wf (fun _ => 4096) s.queues.granted = true) : (granting s v n).granted v = n :=
  (sparse_get_set h).trans (if_pos rfl)

theorem credit_granting (h : CreditWf s) : (granting s v n).credit v = s.credit v + n := credit_putCredit_self h

theorem credit_takeGrant (h : CreditWf s) (hg : Sparse.wf (fun _ => 4096) s.queues.granted = true) :
    (s.takeGrant v n).credit v = if s.voqEmpty v then min (s.credit v + n) n else s.credit v + n := by
  have hw : CreditWf (granting s v n) := creditWf_putCredit h
  rw [credit_congr takeGrant_queues, addCredit_eq, credit_capCredit hw, granted_granting hg, credit_granting h]
  rfl

theorem granted_takeGrant (hg : Sparse.wf (fun _ => 4096) s.queues.granted = true) : (s.takeGrant v n).granted v = n := by
  rw [State.granted, takeGrant_queues, addCredit_eq]
  exact granted_capCredit.trans (granted_granting hg)

theorem creditWf_takeGrant (h : CreditWf s) : CreditWf (s.takeGrant v n) := by
  rw [CreditWf, takeGrant_queues, addCredit_eq]
  exact creditWf_capCredit (s := granting s v n) (creditWf_putCredit h)

/-! ### CREDIT_GRANT (R301) -/

/-- The source that a port's class grants next: the first after the last one, where one has been granted. -/
def nextSource (s : State) (p c : Nat) : Option Nat :=
  match Sparse.find? s.queues.lastSource (8 * p + c) with
  | some last => afterPlace (s.requesters p c) last
  | none => (s.requesters p c).head?

/-- The port's credit scheduler has turned to a class and a source. -/
def turned (s : State) (p c d : Nat) : State :=
  { s with queues := { s.queues with
    lastClass := Sparse.insert s.queues.lastClass p c, lastSource := Sparse.insert s.queues.lastSource (8 * p + c) d,
    grantFrom := Sparse.set (fun _ => 0) s.queues.grantFrom p (s.clock + s.grantClocks p) } }

/-- The state in which a grant to another device has been sent. -/
def grantSent (s u : State) (p c d : Nat) : State :=
  (u.queueWord (grantWord d u.deviceId (u.systemPortOf p) c (s.obj? Obj.creditQuantumBytes))).count 0x334

variable {port : Port} {k d : Nat}

theorem creditGrant_idle (h : s.mayGrant port.val = false ∨ s.grantClass port.val = none) :
    exec (.creditGrant port) s = .next s := by
  change execCreditGrant port s = _
  rcases h with h | h <;> simp [execCreditGrant, h]

theorem creditGrant_turns (hm : s.mayGrant port.val = true) (hc : s.grantClass port.val = some k)
    (hd : nextSource s port.val k = some d) : exec (.creditGrant port) s =
      let u := turned s port.val k d
      match (s.localRequests port.val k).head? with
      | some v => if d = s.deviceId then .next (u.takeGrant v (s.obj? Obj.creditQuantumBytes)) else .next (grantSent s u port.val k d)
      | none => .next (grantSent s u port.val k d) := by
  unfold nextSource at hd
  change execCreditGrant port s = _
  simp only [execCreditGrant, hm, hc, Bool.not_true, Bool.false_eq_true, if_false]
  split
  · rename_i hn
    exact absurd (hn.symm.trans hd) (by simp)
  · rename_i e hs
    obtain rfl : e = d := Option.some.inj (hs.symm.trans hd)
    rfl

theorem mayGrant_paced {until_ : Nat} (h : Sparse.find? s.queues.grantFrom p = some until_) (hc : s.clock < until_) :
    s.mayGrant p = false := by
  have : ¬ until_ ≤ s.clock := Nat.not_le.mpr hc
  simp [State.mayGrant, h, this]

/-- Settles O50: a VOQ by its head frame and its place in the order, a balance by what was put into it, a grant by its source. -/
theorem creditMovesFrames : Obligations.CreditMovesFrames := by
  intro s
  refine ⟨fun voq => ⟨voqPass_waits, voqPass_passes, mayPass_needs, fun c f h => ?head⟩, fun v => mayPass_of_able, rfl,
    fun t ht v vs hv => ableVoqs_head (ht.trans hv), fun hc hg v n => ?balance, fun port => ⟨creditGrant_idle, ?grant, fun _ => mayGrant_paced⟩⟩
  case head =>
    obtain ⟨hcopy, hframe⟩ := voqHead_copy h
    exact ⟨hcopy, hframe, passVoq_stale h, fun hf => ⟨fun p => passVoq_local h hf, mayPass_unassigned h hf, fun d n => passVoq_remote h hf⟩⟩
  case balance =>
    refine ⟨?_, fun w hw => ?_, credit_takeGrant hc hg, credit_capCredit hc, granted_takeGrant hg, noteCredit_copies, ?_, creditWf_takeGrant hc⟩
    · rw [credit_congr payCredit_queues, credit_putCredit_self hc]
    · rw [credit_congr payCredit_queues, credit_putCredit_ne hc hw]
    · rw [payCredit_queues]
      exact creditWf_putCredit hc
  case grant =>
    intro c d hm hk hd
    have hturn := creditGrant_turns hm hk hd
    refine ⟨fun v rest hown hreq => ?_, fun hother => ?_⟩
    · rw [hturn, hreq, hown]
      exact if_pos rfl
    · rw [hturn]
      cases (s.localRequests port.val c).head? with
      | some v => exact if_neg hother
      | none => rfl

end Sys2Proof.Proofs

/-! PROOFS. Egress decisions: the ready port, its tree's walk and its head frame (R303-R308), and shaper refills (R309). -/

namespace Sys2Proof.Proofs

open Sys2Proof.Machine Sys2Proof.Safety Sys2Proof.Laws

variable {s t : State} {c : Copy} {f : Frame} {pipe : Pipe} {g k n p : Nat} {a b q : Pick}

/-! ### EGRESS_DECISION (R303) -/

theorem egressDecision_idle (h : s.decides pipe.val = false ∨ 2 ≤ (s.pipe pipe.val).slotsOut ∨ s.eligiblePorts pipe.val = []) :
    exec (.egressDecision pipe) s = .next s := by
  change execEgressDecision pipe s = _
  rcases h with h | h | h <;> simp [execEgressDecision, h]

section Decides

variable (hd : s.decides pipe.val = true) (hs : (s.pipe pipe.val).slotsOut < 2) (he : s.eligiblePorts pipe.val ≠ [])
include hd hs he

/-- A pipe that may decide, with an eligible port, turns to the ready port after the last one, or its slot is lost. -/
theorem egressDecision_decides : exec (.egressDecision pipe) s =
    match afterPlace ((s.eligiblePorts pipe.val).filter s.portReady) (s.pipe pipe.val).lastPort with
    | some p => s.transmitOn pipe.val p
    | none => .next (s.useEgressSlot pipe.val 7) := by
  have hs' : ¬ 2 ≤ (s.pipe pipe.val).slotsOut := Nat.not_le.mpr hs
  have he' : (s.eligiblePorts pipe.val).isEmpty = false := by simpa using he
  change execEgressDecision pipe s = _
  simp only [execEgressDecision, hd, hs', he', Bool.not_true, decide_false, Bool.or_false, Bool.false_eq_true, if_false] <;> rfl

theorem egressDecision_noneReady
    (h : afterPlace ((s.eligiblePorts pipe.val).filter s.portReady) (s.pipe pipe.val).lastPort = none) :
    exec (.egressDecision pipe) s = .next (s.useEgressSlot pipe.val 7) := by
  rw [egressDecision_decides hd hs he, h]

theorem egressDecision_ready
    (h : afterPlace ((s.eligiblePorts pipe.val).filter s.portReady) (s.pipe pipe.val).lastPort = some p) :
    exec (.egressDecision pipe) s = s.transmitOn pipe.val p := by
  rw [egressDecision_decides hd hs he, h]

end Decides

/-- A walk that ends at a queue finds the queue's head frame. -/
theorem transmitOn_walked (hw : (s.setPipe n fun x => { x with lastPort := p }).walkTree (p / 8) (p % 8) = (t, [a, b, q]))
    (hc : (t.copiesAt (.egress (4096 * (p / 8) + (q.child - 648)))).head? = some c) (hf : t.frame? c.frame = some f) :
    s.transmitOn n p = if t.stale f then .next ((t.endCopy c.id 0x60).useEgressSlot n 5) else t.dequeue n p [a, b, q] c f := by
  simp only [State.transmitOn, hw, hc, hf]

/-- The state in which a walk has been charged with a whole frame's shaped bytes, and the slot used. -/
def charged (t : State) (n p : Nat) (picks : List Pick) (f : Frame) : State :=
  (t.chargeWalk (p / 8) (p % 8) picks (t.shapedBytes p f.stored)).useEgressSlot n 0

/-- A whole frame is charged to the walk by its stored length, then Chisel makes its copy. -/
theorem dequeue_whole {picks : List Pick} (hf : f.complete = true) : t.dequeue n p picks c f =
    match (charged t n p picks f).chisel f c.nextHop with
    | .bytes bytes => .next ((charged t n p picks f).release n p c f bytes)
    | .ends code => .next ((charged t n p picks f).endAtPort p c.id code)
    | .misuse => .fault (.unbounded "UB-RW-1") := by
  simp only [State.dequeue, State.lengthOf, hf, if_true]
  rfl

/-! ### Eligible ports and the walk (R303-R305) -/

/-- A port is eligible by a queue of its own group. -/
theorem queueEligible_of_eligiblePort (h : p ∈ s.eligiblePorts n) : ∃ j, s.queueEligible (p / 8) j = true := by
  simp only [State.eligiblePorts, List.mem_flatMap, List.mem_filter, List.mem_map, List.mem_range, List.contains_eq_mem,
    decide_eq_true_eq] at h
  obtain ⟨g, -, ⟨k, hk, hp⟩, j, ⟨-, hj⟩, -⟩ := h
  have hg : p / 8 = g := by omega
  exact ⟨j, hg ▸ hj⟩

theorem walkTree_ineligible (h : (s.eligible g).ports.contains k = false) : s.walkTree g k = (s, []) := by
  simp only [State.walkTree, h, Bool.not_false, if_true]

/-! ### Refills (R309) -/

/-- A refill latches the rates and the bursts of its record. -/
theorem refill_latches (x : Node) (r ns : Nat) : (x.refill r ns).cir = bits r 159 128 ∧ (x.refill r ns).pir = bits r 95 64 ∧
    (x.refill r ns).cbs = bits r 127 104 ∧ (x.refill r ns).pbs = bits r 63 40 := ⟨rfl, rfl, rfl, rfl⟩

theorem refill_committed_le (x : Node) (r ns : Nat) : (x.refill r ns).c ≤ ((x.refill r ns).cbs * 65536 : Nat) := min_le_left ..

theorem refill_peak_le (x : Node) (r ns : Nat) : (x.refill r ns).p ≤ ((x.refill r ns).pbs * 65536 : Nat) := by
  change (if bits r 95 64 = 0 then _ else _) ≤ _
  split <;> exact min_le_left ..

/-- Tokens that do not reach the burst are all kept. -/
theorem refill_committed_of_room (x : Node) (r ns : Nat)
    (h : x.c + (((x.refill r ns).cir * ns * 65536 + x.carryC) / 8000000 : Nat) ≤ ((x.refill r ns).cbs * 65536 : Nat)) :
    (x.refill r ns).c = x.c + (((x.refill r ns).cir * ns * 65536 + x.carryC) / 8000000 : Nat) := by
  have hx : x.c ≤ ((x.refill r ns).cbs * 65536 : Nat) := by omega
  change min _ (min (((x.refill r ns).cbs * 65536 : Nat) : Int) x.c + _) = _
  rw [min_eq_right hx]
  exact min_eq_right h

/-- Settles O51: the decision by the ready port, the walked queue's head frame by its age and by what Chisel makes of it. -/
theorem portsAreServed : Obligations.PortsAreServed := by
  intro s pipe n
  refine ⟨egressDecision_idle, ?decides, fun p => queueEligible_of_eligiblePort, fun g k => walkTree_ineligible, fun g i => rfl, ?refill⟩
  case decides =>
    intro hd hs he chosen
    refine ⟨egressDecision_noneReady hd hs he, fun p a b q t c f hp hw hc hf => ?_⟩
    rw [egressDecision_ready hd hs he hp, transmitOn_walked hw hc hf]
    refine ⟨fun h => if_pos h, fun h hwhole => ?_⟩
    rw [if_neg (by rw [h]; decide), dequeue_whole hwhole]
    exact ⟨rfl, fun bytes hb => by rw [charged, hb], fun code hb => by rw [charged, hb], fun hb => by rw [charged, hb]⟩
  case refill =>
    intro x r ns y
    obtain ⟨hcir, hpir, hcbs, hpbs⟩ := refill_latches x r ns
    refine ⟨hcir, hpir, hcbs, hpbs, refill_committed_le x r ns, refill_peak_le x r ns, fun h => ?_, rfl⟩
    have h' := refill_committed_of_room x r ns
    push_cast at h'
    push_cast at h
    exact h' h

end Sys2Proof.Proofs

/-! PROOFS. Fabric lanes: training, HELLO and loss (R321, R322, R333), link credit and reach (R327, R328), and what a lane sends
(R325-R327). -/

namespace Sys2Proof.Proofs

open Sys2Proof.Machine Sys2Proof.Safety Sys2Proof.Laws

variable {s t : State} {lane : FabricLane} {word : BitVec 64} {g : FLane → FLane} {k l n w : Nat} {cells : List WaitingCell}

/-! ### A lane after a change of the state -/

theorem DictApart.fabric (h : DictApart s t) : t.fabric = s.fabric := by
  obtain ⟨o, d, rfl⟩ := h
  rfl

theorem lane_congr (h : t.fabric.lanes = s.fabric.lanes) : t.lane k = s.lane k := by rw [State.lane, h, State.lane]

theorem lane_setLane_same (h : l < s.fabric.lanes.length) : (s.setLane l g).lane l = g (s.lane l) := by
  simp [State.lane, State.setLane, modifyAt, List.getD, List.getElem?_eq_getElem h]

theorem lane_setLane_ne (h : k ≠ l) : (s.setLane l g).lane k = s.lane k := by
  simp [State.lane, State.setLane, modifyAt, List.getD, Ne.symm h]

theorem lanes_length_setLane : (s.setLane l g).fabric.lanes.length = s.fabric.lanes.length := List.length_modify ..

theorem lane_countN {e : Nat} : (s.countN e n).lane k = s.lane k :=
  lane_congr (congrArg Fabric.lanes dictApart_countN.fabric)

theorem lane_count {e : Nat} : (s.count e).lane k = s.lane k := lane_countN

theorem lane_settleReach : s.settleReach.lane k = s.lane k := rfl

theorem lane_replaceCells : (s.replaceCells cells).lane k = s.lane k := rfl

/-! ### Training and HELLO (R321, R322) -/

/-- A lane whose training ends is in HELLO. -/
def helloAfterTraining (x : FLane) : FLane := if x.state = .training then { x with state := .hello } else x

theorem laneTrained_tested (h : s.sliceOn (0x180 + lane.val) = true) : exec (.fabricLaneTrained lane) s = .next s := if_pos h

theorem laneTrained_trains (h : s.sliceOn (0x180 + lane.val) = false) :
    exec (.fabricLaneTrained lane) s = .next (s.setLane lane.val helloAfterTraining) :=
  if_neg (by rw [h]; decide)

/-- A lane that is under test or does not train is as it was, and so is every other. -/
theorem laneTrained_idle (h : s.sliceOn (0x180 + lane.val) = true ∨ (s.lane lane.val).state ≠ .training)
    (hl : lane.val < s.fabric.lanes.length) : ∃ t, exec (.fabricLaneTrained lane) s = .next t ∧ ∀ k, t.lane k = s.lane k := by
  by_cases ht : s.sliceOn (0x180 + lane.val) = true
  · exact ⟨s, laneTrained_tested ht, fun k => rfl⟩
  · refine ⟨_, laneTrained_trains (Bool.not_eq_true _ ▸ ht), fun k => ?_⟩
    by_cases hk : k = lane.val
    · rw [hk, lane_setLane_same hl]
      exact if_neg (h.resolve_left ht)
    · exact lane_setLane_ne hk

/-- A lane with the names that its peer's HELLO word gives. -/
def FLane.namedBy (x : FLane) (w : Nat) : FLane :=
  { x with peerDevice := bits w 59 48, peerLane := bits w 47 40, peerRole := bit w 39 }

/-- A lane that a good HELLO has brought to UP, with the peer's credit. -/
def FLane.upBy (x : FLane) (w : Nat) : FLane :=
  { FLane.namedBy x w with state := .up, credit := bits w 38 23, initial := bits w 38 23, reach := 0, mismatch := false }

theorem hello_other (h : bits word.toNat 63 60 ≠ 5) : exec (.hello lane word) s = .next s := if_neg h

theorem hello_takes (h : bits word.toNat 63 60 = 5) : exec (.hello lane word) s = .next (s.takeHello lane.val word.toNat) := if_pos h

theorem takeHello_good (hx : (s.lane l).state = .hello) (h : s.helloGood w = true) :
    s.takeHello l w = (s.setLane l fun y => FLane.upBy y w).settleReach := by
  simp only [State.takeHello, hx, h, if_true]
  rfl

theorem takeHello_bad (hx : (s.lane l).state = .hello) (h : s.helloGood w = false) :
    s.takeHello l w = s.setLane l fun y => { FLane.namedBy y w with mismatch := true } := by
  simp only [State.takeHello, hx, h, Bool.false_eq_true, if_false]
  rfl

theorem takeHello_up (hx : (s.lane l).state = .up) : s.takeHello l w =
    if (s.lane l).peerDevice = bits w 59 48 ∧ (s.lane l).peerLane = bits w 47 40 ∧ (s.lane l).peerRole = bit w 39 then s
    else s.laneDown l .training := by
  simp only [State.takeHello, hx]

theorem laneLoss_active (h : (s.lane lane.val).state = .up ∨ (s.lane lane.val).state = .hello) :
    exec (.fabricLaneLoss lane) s = .next (s.laneDown lane.val .training) := by
  change execFabricLaneLoss lane s = _
  rcases h with h | h <;> simp only [execFabricLaneLoss, h]

theorem laneLoss_idle (hu : (s.lane lane.val).state ≠ .up) (hh : (s.lane lane.val).state ≠ .hello) :
    exec (.fabricLaneLoss lane) s = .next s := by
  change execFabricLaneLoss lane s = _
  simp only [execFabricLaneLoss]

/-! ### Leaving UP (R333) -/

/-- A lane that has left UP for another state. -/
def FLane.leftUp (st : LaneState) (x : FLane) : FLane :=
  { x with state := st, queue := [], credit := 0, owed := 0, reach := 0, hellos := 0,
           retrains := if st = .training then min (x.retrains + 1) 65535 else x.retrains }

theorem laneDown_up {st : LaneState} (h : (s.lane l).state = .up) (hl : l < s.fabric.lanes.length) :
    (s.laneDown l st).lane l = FLane.leftUp st (s.lane l) ∧ (∀ k, k ≠ l → (s.laneDown l st).lane k = s.lane k) ∧
      (s.laneDown l st).fabric.waiting = (s.lane l).queue ++ s.fabric.waiting ∧
      (s.laneDown l st).obj = (s.flag Obj.fabricSummary 1).obj := by
  simp only [State.laneDown, h, if_true, lane_replaceCells]
  exact ⟨lane_setLane_same hl, fun k hk => lane_setLane_ne hk, rfl, rfl⟩

/-! ### LINK_CREDIT and REACH (R327, R328) -/

/-- One LINK_CREDIT word returns more than the cells sent have taken where it lifts the credit above its initial value. -/
theorem overCredits_word (hw : bits w 63 60 = 3) (hx : (s.lane l).state = .up) :
    s.overCredits l [w] = decide ((s.lane l).initial < (s.lane l).credit + bits w 59 44) := by
  simp [State.overCredits, hw, hx]

theorem overCredits_notUp {words : List Nat} (hx : (s.lane l).state ≠ .up) : s.overCredits l words = false := by
  simp [State.overCredits, hx]

theorem linkCredit_adds (hw : bits word.toNat 63 60 = 3) (hx : (s.lane lane.val).state = .up)
    (h : (s.lane lane.val).credit + bits word.toNat 59 44 ≤ (s.lane lane.val).initial) : exec (.linkCredit lane word) s =
      .next ((s.setLane lane.val fun x => { x with credit := x.credit + bits word.toNat 59 44 }).count 0x333) := by
  change execLinkCredit lane word s = _
  simp [execLinkCredit, hw, overCredits_word hw hx, Nat.not_lt.mpr h, State.takeLinkCredit, hx]

theorem linkCredit_misuse (hw : bits word.toNat 63 60 = 3) (hx : (s.lane lane.val).state = .up)
    (h : (s.lane lane.val).initial < (s.lane lane.val).credit + bits word.toNat 59 44) :
    exec (.linkCredit lane word) s = .fault (.unbounded "UB-FAB-3") := by
  change execLinkCredit lane word s = _
  simp [execLinkCredit, hw, overCredits_word hw hx, h, undefinedCase]

theorem linkCredit_idle (h : bits word.toNat 63 60 ≠ 3 ∨ (s.lane lane.val).state ≠ .up) : exec (.linkCredit lane word) s = .next s := by
  rcases h with h | h
  · exact if_pos h
  · change execLinkCredit lane word s = _
    simp [execLinkCredit, overCredits_notUp h, State.takeLinkCredit, h]

theorem reach_replaces (hw : bits word.toNat 63 60 = 4) (he : s.elements = true) (hx : (s.lane lane.val).state = .up)
    (hb : bits word.toNat 59 52 < 86) :
    exec (.reach lane word) s = .next (s.setReach lane.val (bits word.toNat 59 52) (bits word.toNat 47 0)) := by
  change execReach lane word s = _
  simp [execReach, hw, State.takeReach, he, hx, hb]

theorem reach_idle (h : bits word.toNat 63 60 ≠ 4 ∨ s.elements = false ∨ (s.lane lane.val).state ≠ .up ∨ 86 ≤ bits word.toNat 59 52) :
    exec (.reach lane word) s = .next s := by
  have hcond : bits word.toNat 63 60 = 4 →
      ¬ (s.elements = true ∧ (s.lane lane.val).state = .up ∧ bits word.toNat 59 52 < 86) := by
    rintro hw ⟨he, hx, hb⟩
    rcases h with h | h | h | h
    · exact h hw
    · rw [h] at he; cases he
    · exact h hx
    · omega
  by_cases hw : bits word.toNat 63 60 = 4
  · change execReach lane word s = _
    simp only [execReach, hw, if_true, State.takeReach, hcond hw, if_false]
  · exact if_neg hw

theorem reach_setReach {block v : Nat} (hl : l < s.fabric.lanes.length) :
    ((s.setReach l block v).lane l).reach = putBits (s.lane l).reach (48 * block + 47) (48 * block) v := by
  simp only [State.setReach, lane_settleReach, State.dropUnreached, lane_replaceCells]
  rw [lane_setLane_same (by rwa [lanes_length_setLane])]
  simp only [lane_setLane_same hl]

/-! ### What a lane sends (R325-R327) -/

theorem laneSends_hello (hx : (s.lane l).state = .hello) (hl : l < s.fabric.lanes.length) :
    (s.laneSends l).lane l = { s.lane l with sent := controlCell (List.replicate 31 (s.helloWord l)) } := by
  unfold State.laneSends
  simp only [hx]
  rw [lane_count, lane_setLane_same hl, ← hx]

/-- The state in which a lane in UP has made its cell, whose words wait no more. -/
def cellMade (s : State) (l : Nat) (words : List (BitVec 64)) (cell : List Byte) : State :=
  (({ s with fabric := { s.fabric with words := words.foldl (fun ws w => ws.erase w) s.fabric.words } } : State).countN 0x335
    (words.filter fun w => bits w.toNat 63 60 == 1).length).setLane l fun y => { y with sent := cell, owed := y.owed - min y.owed 65535 }

section CellMade

variable {words : List (BitVec 64)} {cell : List Byte} (hl : l < s.fabric.lanes.length)
include hl

theorem lane_cellMade : (cellMade s l words cell).lane l =
    { s.lane l with sent := cell, owed := (s.lane l).owed - min (s.lane l).owed 65535 } := by
  rw [cellMade, lane_setLane_same (by rwa [dictApart_countN.fabric]), lane_countN]
  rfl

theorem lanes_length_cellMade : l < (cellMade s l words cell).fabric.lanes.length := by
  rw [cellMade, lanes_length_setLane, dictApart_countN.fabric]
  exact hl

end CellMade

/-- Without a data cell that it may send, a lane in UP sends a control cell. -/
theorem laneSends_control (hx : (s.lane l).state = .up) (hn : (s.lane l).nextCell = none) : s.laneSends l =
    (cellMade s l (s.laneWords (s.lane l) 31) (controlCell (s.laneWords (s.lane l) 31))).count 0x332 := by
  simp only [State.laneSends, hx, hn, Option.isNone_none, if_true]
  rfl

/-- A data cell takes the oldest cell off the lane's queue, and 1 of its credit. -/
theorem laneSends_data {c : WaitingCell} (hx : (s.lane l).state = .up) (hn : (s.lane l).nextCell = some c) : s.laneSends l =
    (((cellMade s l (s.laneWords (s.lane l) 1) (dataCell c.cell (s.laneWords (s.lane l) 1))).setLane l fun y =>
      { y with queue := y.queue.drop 1, credit := y.credit - 1 }).bump64 Obj.cellsSent).count 0x330 := by
  simp only [State.laneSends, hx, hn, Option.isNone_some, Bool.false_eq_true, if_false]
  rfl

theorem nextCell_of_credit {x : FLane} {c : WaitingCell} {rest : List WaitingCell} (hq : x.queue = c :: rest)
    (hc : x.credit ≠ 0) : x.nextCell = some c := by
  simp [FLane.nextCell, hq, hc]

theorem nextCell_idle {x : FLane} (h : x.queue = [] ∨ x.credit = 0) : x.nextCell = none := by
  rcases h with h | h <;> simp [FLane.nextCell, h]

/-- Settles O52: each command by the lane's state and the word's fields, and what the lane sends by its queue and its credit. -/
theorem fabricLanesPassOn : Obligations.FabricLanesPassOn := by
  intro s lane hlanes l x
  have hl : l < s.fabric.lanes.length := hlanes ▸ lane.isLt
  refine ⟨fun ht hx => ?trained, fun h => laneTrained_idle h hl, fun word => ?words, fun block v _ => reach_setReach hl, fun block => rfl,
    laneLoss_active, laneLoss_idle, fun hx hw st => ?down, fun hx => ?helloSends, fun hx => ?upSends⟩
  case trained =>
    refine ⟨_, laneTrained_trains ht, ?_, fun k => lane_setLane_ne, rfl⟩
    rw [lane_setLane_same hl]
    exact if_pos hx
  case words =>
    refine ⟨hello_other, fun hw hx hg => ?_, fun hw hx hg => ?_, fun hw hx => ?_, fun hw hx hc => ?_, linkCredit_misuse, linkCredit_idle,
      reach_replaces, reach_idle⟩
    · exact ⟨_, hello_takes hw, by rw [takeHello_good hx hg, lane_settleReach]; exact lane_setLane_same hl⟩
    · exact ⟨_, hello_takes hw, by rw [takeHello_bad hx hg]; exact lane_setLane_same hl⟩
    · rw [hello_takes hw, takeHello_up hx]
      exact ⟨fun hp => by rw [if_pos hp], fun hp => by rw [if_neg hp]⟩
    · exact ⟨_, linkCredit_adds hw hx hc, by rw [lane_count]; exact lane_setLane_same hl⟩
  case down =>
    obtain ⟨hself, hothers, hwaiting, hobj⟩ := laneDown_up (st := st) hx hl
    refine ⟨congrArg FLane.state hself, congrArg FLane.queue hself, hwaiting, ?_, hothers⟩
    rw [obj?_congr hobj, obj?_flag (dictWf_iff.mp hw).1, if_pos rfl]
    exact bit_setBit ..
  case helloSends =>
    rw [laneSends_hello hx hl]
    exact ⟨rfl, hx⟩
  case upSends =>
    refine ⟨fun c rest hq hc => ?_, fun h => ?_⟩
    · rw [laneSends_data hx (nextCell_of_credit hq hc), lane_count]
      have hsent := lane_setLane_same (g := fun y => { y with queue := y.queue.drop 1, credit := y.credit - 1 })
        (lanes_length_cellMade (words := s.laneWords x 1) (cell := dataCell c.cell (s.laneWords x 1)) hl)
      rw [lane_cellMade hl] at hsent
      exact ⟨(congrArg FLane.queue hsent).trans (by rw [hq]; rfl), congrArg FLane.credit hsent⟩
    · rw [laneSends_control hx (nextCell_idle h), lane_count, lane_cellMade hl]
      exact ⟨rfl, rfl⟩

end Sys2Proof.Proofs

/-! PROOFS. Fabric control words (R325, R339), cells received (R322, R335, R336), and cells that are open or wait (R330, R332). -/

namespace Sys2Proof.Proofs

open Sys2Proof.Machine Sys2Proof.Safety Sys2Proof.Laws

variable {s : State} {word : BitVec 64} {cell : List Byte} {c : Instr} {d h k l p w : Nat}

/-! ### REQUEST and GRANT (R339) -/

/-- The end-to-end words, each with its command. -/
def wordCommands (word : BitVec 64) : List (Instr × Nat) := [(.request word, 1), (.grant word, 2)]

theorem exec_request (hw : bits word.toNat 63 60 = 1) : exec (.request word) s = .next (s.takeRequest word.toNat) := if_pos hw

theorem exec_grant (hw : bits word.toNat 63 60 = 2) : exec (.grant word) s = .next (s.takeGrantWord word.toNat) := if_pos hw

/-- The flag of a REQUEST word's class and source at a port. -/
def requestFlag (p w : Nat) : Nat := 2 ^ 15 * p + 2 ^ 12 * bits w 21 19 + bits w 47 36

/-- The request flags after a REQUEST word that sets or clears its own at a port. -/
def flagsAfter (s : State) (p w : Nat) : List Nat :=
  let others := s.queues.requests.filter fun x => x != requestFlag p w
  if bit w 18 then others ++ [requestFlag p w] else others

theorem takeRequest_local (hf : s.fabricHeld = false) (hd : bits w 59 48 = s.deviceId)
    (hp : s.systemPort (bits w 35 22) = .local p) : s.takeRequest w = { s with queues := { s.queues with requests := flagsAfter s p w } } := by
  simp only [State.takeRequest, hf, hd, ne_eq, not_true_eq_false, if_false, Bool.false_eq_true, hp]
  rfl

theorem takeGrantWord_own (hf : s.fabricHeld = false) (hd : bits w 59 48 = s.deviceId) :
    s.takeGrantWord w = s.takeGrant (8 * bits w 35 22 + bits w 21 19) ((bits w 18 11 + 1) * 256) := by
  simp [State.takeGrantWord, hf, hd]

theorem wordCommand_idle {e : Instr × Nat} (he : e ∈ wordCommands word) (h : bits word.toNat 63 60 ≠ e.2 ∨ s.fabricHeld = true) :
    exec e.1 s = .next s := by
  simp only [wordCommands, List.mem_cons, List.not_mem_nil, or_false] at he
  rcases he with rfl | rfl
  · change execRequest word s = _
    rcases h with h | h <;> simp [execRequest, State.takeRequest, h]
  · change execGrant word s = _
    rcases h with h | h <;> simp [execGrant, State.takeGrantWord, h]

theorem wordCommand_misrouted {e : Instr × Nat} (he : e ∈ wordCommands word) (hw : bits word.toNat 63 60 = e.2)
    (hf : s.fabricHeld = false) (hd : bits word.toNat 59 48 ≠ s.deviceId) : exec e.1 s = .next (s.bump64 Obj.cellsMisrouted) := by
  simp only [wordCommands, List.mem_cons, List.not_mem_nil, or_false] at he
  rcases he with rfl | rfl
  · rw [exec_request hw, State.takeRequest]
    simp [hf, hd]
  · rw [exec_grant hw, State.takeGrantWord]
    simp [hf, hd]

/-! ### Cells received (R321, R322, R325) -/

theorem exec_cell {lane : FabricLane} (hc : c ∈ ([.dataCell lane cell, .controlCell lane cell] : List Instr)) :
    exec c s = s.receiveCell lane.val cell := by
  simp only [List.mem_cons, List.not_mem_nil, or_false] at hc
  rcases hc with rfl | rfl <;> rfl

theorem receiveCell_misuse (h : s.overCredits l (actingWords cell) = true) :
    s.receiveCell l cell = .fault (.unbounded "UB-FAB-3") := if_pos h

theorem receiveCell_taken (h : s.overCredits l (actingWords cell) = false) : s.receiveCell l cell = .next (s.takeCell l cell) :=
  if_neg (by rw [h]; decide)

/-- Only a lane in UP acts on words, so no other returns too much credit. -/
theorem receiveCell_notUp (h : (s.lane l).state ≠ .up) : s.receiveCell l cell = .next (s.takeCell l cell) :=
  receiveCell_taken (by simp [State.overCredits, h])

theorem takeCell_cut (h : cell.length ≠ 256) : s.takeCell l cell = s := if_pos h

theorem takeCell_idle (hu : (s.lane l).state ≠ .up) (hh : (s.lane l).state ≠ .hello) : s.takeCell l cell = s := by
  by_cases hc : cell.length = 256
  · simp only [State.takeCell, hc, ne_eq, not_true_eq_false, if_false]
  · exact takeCell_cut hc

theorem takeCell_hello (hx : (s.lane l).state = .hello) (hc : cell.length = 256) : s.takeCell l cell = s.takeHelloCell l cell := by
  simp only [State.takeCell, hc, ne_eq, not_true_eq_false, if_false, hx]

theorem takeCell_data (hx : (s.lane l).state = .up) (hc : cell.length = 256) (hb : bit (beNat (cell.take 1)) 7 = true) :
    s.takeCell l cell = s.takeDataCell l cell := by
  simp only [State.takeCell, hc, ne_eq, not_true_eq_false, if_false, hx, hb, if_true]

theorem takeCell_control (hx : (s.lane l).state = .up) (hc : cell.length = 256) (hb : bit (beNat (cell.take 1)) 7 = false) :
    s.takeCell l cell = s.takeControlCell l cell := by
  simp only [State.takeCell, hc, ne_eq, not_true_eq_false, if_false, hx, hb, Bool.false_eq_true]

/-- A control cell of 31 identical HELLO words. -/
def helloCell (cell : List Byte) : Bool :=
  let w := (controlWords cell).headD 0
  beAt cell 0 8 == 0 && bits w 63 60 == 5 && (controlWords cell).all fun v => v == w

theorem takeHelloCell_other (h : helloCell cell = false) :
    s.takeHelloCell l cell = s.setLane l fun x => { x with hellos := 0 } :=
  if_neg (by rw [← helloCell, h]; decide)

/-- A HELLO cell counts, up to the 4 that accept the cell boundary. -/
theorem takeHelloCell_seen (h : helloCell cell = true) : s.takeHelloCell l cell =
    let n := min 4 ((s.lane l).hellos + 1)
    let t := s.setLane l fun x => { x with hellos := n }
    if n = 4 then t.takeHello l ((controlWords cell).headD 0) else t :=
  if_pos h

theorem takeControlCell_misrouted (h : bits (beNat (cell.take 16)) 126 64 ≠ 0) :
    s.takeControlCell l cell = s.bump64 Obj.cellsMisrouted := if_pos h

theorem takeControlCell_words (h : bits (beNat (cell.take 16)) 126 64 = 0) : s.takeControlCell l cell =
    (controlWords cell).foldl (fun t w => if (t.lane l).state = .up then t.takeWord l w else t) s :=
  if_neg (not_not.mpr h)

/-! ### Cells in and out of order (R335, R336) -/

/-- How far a cell's SEQUENCE is ahead of the one that its source is expected to send next. -/
def aheadBy (s : State) (h : Nat) : Nat := (bits h 102 87 + 65536 - s.expectedSeq (bits h 114 103)) % 65536

/-- The state in which a cell waits in the reorder store. -/
def reordered (s : State) (h : Nat) (cell : List Byte) : State :=
  { s with fabric := { s.fabric with reorder := s.fabric.reorder ++ [(bits h 114 103, bits h 102 87, cell)] } }

section Sequenced

variable (hf : s.fabricHeld = false)
include hf

theorem sequenceCell_expected (h0 : aheadBy s h = 0) :
    s.sequenceCell h cell = (s.passCell (bits h 114 103) cell).drainReorder (bits h 114 103) 16384 := by
  unfold aheadBy at h0
  simp only [State.sequenceCell, hf, h0, Bool.false_eq_true, if_false, if_true]

theorem sequenceCell_ahead (h0 : 0 < aheadBy s h) (h1 : aheadBy s h < 32768) (hr : s.fabric.reorder.length < 16384) :
    s.sequenceCell h cell = (reordered s h cell).drainReorder (bits h 114 103) 16384 := by
  unfold aheadBy at h0 h1
  simp only [State.sequenceCell, hf, Nat.ne_of_gt h0, h1, hr, Bool.false_eq_true, if_false, if_true]
  rfl

theorem sequenceCell_behind (h1 : 32768 ≤ aheadBy s h) : s.sequenceCell h cell = s.bump64 Obj.cellsLate := by
  unfold aheadBy at h1
  have h0 : ¬ (bits h 102 87 + 65536 - s.expectedSeq (bits h 114 103)) % 65536 = 0 := by omega
  simp only [State.sequenceCell, hf, h0, Nat.not_lt.mpr h1, Bool.false_eq_true, if_false]

end Sequenced

/-! ### Cells that are open or wait (R330, R332, R336) -/

theorem cellFillTimeout_none {device : Device} {stream : Fin 17} (h : s.openCellOf (32 * device.val + stream.val) = none) :
    exec (.cellFillTimeout device stream) s = .next s := by
  change execCellFillTimeout device stream s = _
  simp only [execCellFillTimeout, h]

theorem cellFillTimeout_open {device : Device} {stream : Fin 17} {x : OpenCell}
    (h : s.openCellOf (32 * device.val + stream.val) = some x) : exec (.cellFillTimeout device stream) s =
      .next (if x.payload.isEmpty then s else s.formCell (32 * device.val + stream.val) x.openFrame) := by
  change execCellFillTimeout device stream s = _
  simp only [execCellFillTimeout, h]
  split <;> rfl

theorem cellPlacement_idle {device : Device} (h : (s.fabric.waiting.find? fun c => c.device == device.val) = none ∨
    s.nextLane device.val = none ∨ s.fabricHeld = true) : exec (.cellPlacement device) s = .next s := by
  change execCellPlacement device s = _
  simp only [execCellPlacement]
  split
  · rename_i hc hl
    rcases h with h | h | h
    · rw [h] at hc; cases hc
    · rw [h] at hl; cases hl
    · exact if_pos h
  · rfl

theorem cellPlacement_places {device : Device} {x : WaitingCell}
    (hc : (s.fabric.waiting.find? fun c => c.device == device.val) = some x) (hl : s.nextLane device.val = some l)
    (hf : s.fabricHeld = false) : exec (.cellPlacement device) s =
      let u : State := { s with fabric := { s.fabric with
        waiting := s.fabric.waiting.erase x, lanePointer := Sparse.set (fun _ => 0) s.fabric.lanePointer device.val l } }
      .next ((u.setLane l fun y => { y with queue := y.queue ++ [{ x with ends := [] }] }).endPlaced x.ends) := by
  change execCellPlacement device s = _
  simp only [execCellPlacement, hc, hl, hf, Bool.false_eq_true, if_false]

theorem unreachableHold_discards {device : Device} (hw : s.cellsWait device.val = true) (hr : s.reachable device.val = false) :
    exec (.unreachableHoldExpiry device) s = .next (s.discardWaiting device.val) :=
  if_pos ⟨hw, by rw [hr]; decide⟩

theorem unreachableHold_idle {device : Device} (h : s.cellsWait device.val = false ∨ s.reachable device.val = true) :
    exec (.unreachableHoldExpiry device) s = .next s := by
  change execUnreachableHoldExpiry device s = _
  rcases h with h | h <;> simp [execUnreachableHoldExpiry, h]

/-- A source with no cell in the reorder store has no gap to be declared lost. -/
theorem declareLost_none (h : ∀ e ∈ s.fabric.reorder, e.1 ≠ d) : s.declareLost d = s := by
  have hnone : (s.fabric.reorder.filter fun e => e.1 == d) = [] :=
    List.filter_eq_nil_iff.mpr fun e he => by simpa using h e he
  simp only [State.declareLost, hnone, List.map_nil, List.min?_nil]

/-- Settles O53: a word by its kind and its device, a cell by the lane's state and its place in its source's order, a waiting cell by
its device's lanes. -/
theorem fabricWordsAndCells : Obligations.FabricWordsAndCells := by
  intro s
  refine ⟨fun word => ⟨fun hw hf hd p hp => ?request, fun hw hf hd => ?grant, fun e he => ⟨wordCommand_idle he, wordCommand_misrouted he⟩⟩,
    fun port cls device => rfl, fun voq => ?refresh, fun lane cell c hc => ?cells,
    fun h cell hf => ⟨sequenceCell_expected hf, sequenceCell_ahead hf, sequenceCell_behind hf⟩,
    fun device stream => ⟨cellFillTimeout_none, fun x => cellFillTimeout_open⟩,
    fun device => ⟨cellPlacement_idle, fun x l => cellPlacement_places, unreachableHold_discards, unreachableHold_idle, ?stale, rfl,
      declareLost_none⟩⟩
  case request => rw [exec_request hw, takeRequest_local hf hd hp, flagsAfter]; rfl
  case grant => rw [exec_grant hw, takeGrantWord_own hf hd]
  case refresh => exact (apply_ite Host.Outcome.next ..).symm
  case stale => exact (apply_ite Host.Outcome.next ..).symm
  case cells =>
    rw [exec_cell hc]
    refine ⟨fun hu hh => ?_, fun hx hlen => ?_, receiveCell_misuse, fun hn hlen => ?_, fun hn hx hlen => ⟨fun hb => ?_, fun hb hm => ?_, fun hb hm => ?_⟩⟩
    · rw [receiveCell_notUp hu, takeCell_idle hu hh]
    · rw [receiveCell_notUp (by rw [hx]; decide), takeCell_hello hx hlen]
      refine ⟨fun hs => ?_, fun hs hlt => ?_, fun hs hfour => ?_⟩
      · rw [takeHelloCell_other hs]
      · rw [takeHelloCell_seen hs]
        exact congrArg Host.Outcome.next (if_neg (Nat.ne_of_lt hlt))
      · rw [takeHelloCell_seen hs, hfour]
        rfl
    · rw [receiveCell_taken hn, takeCell_cut hlen]
    · rw [receiveCell_taken hn, takeCell_data hx hlen hb]
      rfl
    · rw [receiveCell_taken hn, takeCell_control hx hlen hb, takeControlCell_misrouted hm]
    · rw [receiveCell_taken hn, takeCell_control hx hlen hb, takeControlCell_words hm]
      rfl

end Sys2Proof.Proofs

/-! PROOFS. Keys: loads, their ends, erasure, and the lock on loads in the clear (R359-R361). -/

namespace Sys2Proof.Proofs

open Sys2Proof.Machine Sys2Proof.Safety Sys2Proof.Laws

variable {s : State} {f : Family} {w : Written} {b record : List Byte} {i j k slot off n : Nat}

/-! ### A region of a fast domain -/

/-- A region that takes host accesses, in a fast domain and in no block that may be off, and that no unit holds. -/
abbrev FastRegion (i j : Nat) (f : Family) : Prop :=
  Dict.find i j = some f ∧ Dict.highest i ≠ 0 ∧ j ≠ 0 ∧ f.ty = .domain ∧ OutsideBlocks i ∧ i ≠ 0x10F0 ∧ i ≠ 0xB020

theorem regionSize_fast (h : FastRegion i j f) : s.regionSize i j = f.size := by
  obtain ⟨hf, -, -, -, -, h1, h2⟩ := h
  simp [State.regionSize, h1, h2, hf]

/-- The accesses of a region that its row takes: aligned, and within its size. -/
def fitsRegion (f : Family) (off n : Nat) : Prop := off % f.granule = 0 ∧ n % f.granule = 0 ∧ off + n ≤ f.size

theorem placeRefuses_fast {op : Op} (hs : fastOpen s) (h : FastRegion i j f) (hu : s.holderFenced i j op = false) :
    s.placeRefuses f i j op = none := by
  obtain ⟨-, hready, hpll, -⟩ := hs
  obtain ⟨-, -, -, -, ⟨hr, hp, hq⟩, -⟩ := h
  simp [State.placeRefuses, hr, hready, hpll, State.blockOff, hp, hq, hu]

theorem admits_region {op : Op} (hs : fastOpen s) (h : FastRegion i j f) (hu : s.holderFenced i j op = false)
    (hk : s.kindRefuses f (Dict.key i j) op = none) (hp : s.shapeRefuses f i j op = none) (hv : valueRefuses f op = none) :
    s.admits op i j = .ok f := by
  have hplace := placeRefuses_fast hs h hu
  obtain ⟨hf, h1, hj, -⟩ := h
  simp [State.admits, object?_of_find hf h1 hj, lifeAllows_of_plinthOpen hs.1, hk, hp, hv, hplace]

theorem admits_domainWrite (hs : fastOpen s) (h : FastRegion i j f) (ha : f.access = .rw ∨ f.access = .wo)
    (hu : s.holderFenced i j (.domainWrite off b) = false) (hb : fitsRegion f off b.length) :
    s.admits (.domainWrite off b) i j = .ok f := by
  have hsize : s.regionSize i j = f.size := regionSize_fast h
  obtain ⟨ho, hn, hle⟩ := hb
  refine admits_region hs h hu ?_ ?_ rfl
  · rcases ha with ha | ha <;> simp [State.kindRefuses, ha, Op.writes]
  · obtain ⟨-, -, -, hty, -⟩ := h
    simp [State.shapeRefuses, hty, ho, hn, hsize, hle]

/-- Bytes written to a region of a fast domain: what its rule makes of them. -/
theorem hostWriteRegion_fast (hs : fastOpen s) (h : FastRegion i j f) (ha : f.access = .rw ∨ f.access = .wo)
    (hu : s.holderFenced i j (.domainWrite off b) = false) (hb : fitsRegion f off b.length) (hv : i < 0x4000 ∨ 0x4004 ≤ i)
    (hw : s.writeRegion f (Dict.key i j) off b = w) :
    s.hostWriteRegion i j off b = answering (s.outcomeOf w).outcome (.code (s.outcomeOf w).code) := by
  have hadmits := admits_domainWrite hs h ha hu hb
  have hview : writesCopyView (.domainWrite off b) i j = false := by
    simp only [writesCopyView, Bool.and_eq_false_iff, decide_eq_false_iff_not]
    omega
  obtain ⟨⟨hpower, -⟩, -⟩ := id hs
  obtain ⟨-, -, -, -, ⟨-, hp, -⟩, -⟩ := h
  simp [State.hostWriteRegion, hpower, State.serveNow, hadmits, slowFull_of_fastOpen hs, State.serve, hview, State.wakeFor, hp, hw]

/-! ### KEY_LOAD and its end (R359) -/

/-- The row of KEY_LOAD. -/
def keyLoadRow : Family := ⟨0x7030, 1, 1, 1, 1, .domain, 64, .wo, 0, .any, 64⟩

theorem keyLoad_region : FastRegion 0x7030 1 keyLoadRow := by decide +kernel

/-- The key store holds the objects of keys. -/
theorem holderFenced_keys {op : Op} : s.holderFenced 0x7030 j op = s.fenced 0x5B0 := rfl

theorem exec_keyLoad (hs : fastOpen s) (hu : s.fenced 0x5B0 = false) (hr : record.length = 64) (hw : s.writeKey record = w) :
    exec (.keyLoad record) s = answering (s.outcomeOf w).outcome (.code (s.outcomeOf w).code) :=
  hostWriteRegion_fast hs keyLoad_region (.inr rfl) (holderFenced_keys.trans hu) (by simp [fitsRegion, keyLoadRow, hr])
    (.inr (by decide)) hw

theorem keyLoad_starts (hs : fastOpen s) (hu : s.fenced 0x5B0 = false) (hr : record.length = 64) (hl : s.cipher.load = none) :
    exec (.keyLoad record) s = .next { (s.startLoad record).request 4 with answer := .code 0 } :=
  exec_keyLoad hs hu hr (w := wrote ((s.startLoad record).request 4)) (by simp [State.writeKey, hl])

theorem keyLoad_busy (hs : fastOpen s) (hu : s.fenced 0x5B0 = false) (hr : record.length = 64)
    (hl : s.cipher.load.isSome = true) : exec (.keyLoad record) s = .next { s with answer := .code 0x1B } :=
  exec_keyLoad hs hu hr (w := .error 0x1B) (if_pos hl)

/-- No load runs any more. -/
def loadOver (s : State) : State := { s with cipher := { s.cipher with load := none } }

theorem keyLoadEnd_idle (hl : s.cipher.load = none) : exec .keyLoadEnd s = .next s := by
  change execKeyLoadEnd s = _
  simp only [execKeyLoadEnd, hl]

theorem keyLoadEnd_done {key : Key} (hl : s.cipher.load = some b) (hj : s.judgeLoad b = .ok (slot, key)) :
    exec .keyLoadEnd s = .next ((((loadOver s).putKey slot (some key)).put Obj.keyLoadStatus 2).bump32 Obj.keyLoads) := by
  change execKeyLoadEnd s = _
  simp only [execKeyLoadEnd, hl, hj]
  rfl

theorem keyLoadEnd_failed {status : Nat} (hl : s.cipher.load = some b) (hj : s.judgeLoad b = .error status) :
    exec .keyLoadEnd s = .next (((loadOver s).put Obj.keyLoadStatus status).flag Obj.cipherSummary 4) := by
  change execKeyLoadEnd s = _
  simp only [execKeyLoadEnd, hl, hj]
  rfl

/-! ### KEY_ERASE (R361) -/

/-- The row of KEY_ERASE. -/
def keyEraseRow : Family := ⟨0x7030, 1, 1, 3, 1, .u16, 2, .wo, 0, .any, 0⟩

theorem keyErase_writable : Writable 0x7030 3 keyEraseRow ∧ OutsideBlocks 0x7030 := by decide +kernel

theorem exec_keyErase {v : BitVec 16} (hs : fastOpen s) (hu : s.fenced 0x5B0 = false) (hw : s.writeErase v.toNat = w) :
    exec (.keyErase v) s = answering (s.outcomeOf w).outcome (.code (s.outcomeOf w).code) :=
  hostWrite_fastObject hs keyErase_writable (fun _ => holderFenced_keys.trans hu) v.isLt rfl hw

theorem writeErase_sa {v : Nat} (h : bit v 12 = false) :
    s.writeErase v = wrote (((s.eraseKey (bits v 11 0)).request 4).raiseTrap 4 1 3) := by
  simp [State.writeErase, h]

theorem writeErase_job {v : Nat} (h : bit v 12 = true) (hn : bits v 11 0 < 64) :
    s.writeErase v = wrote (((s.eraseKey (4096 + bits v 11 0)).request 4).raiseTrap 4 1 3) := by
  simp [State.writeErase, h, Nat.not_le.mpr hn]

theorem writeErase_noSlot {v : Nat} (h : bit v 12 = true) (hn : 64 ≤ bits v 11 0) : s.writeErase v = refuseValue := by
  simp [State.writeErase, h, hn]

/-! ### What erasure leaves (R361) -/

theorem sparse_find?_mapSome {α : Type} (m : List (Nat × α)) (i : Nat) :
    Sparse.find? (m.map fun e => (e.1, some e.2)) i = (Sparse.find? m i).map some := by
  induction m with
  | nil => rfl
  | cons e m ih =>
    by_cases h : i = e.1
    · simp [Sparse.find?, h]
    · simpa [Sparse.find?, h] using ih

theorem sparse_erase_mapSome {α : Type} (m : List (Nat × α)) (i : Nat) :
    (Sparse.erase m i).map (fun e => (e.1, some e.2)) = Sparse.erase (m.map fun e => (e.1, some e.2)) i := by
  induction m with
  | nil => rfl
  | cons e m ih =>
    rcases Nat.lt_trichotomy e.1 i with h | h | h
    · simp [Sparse.erase, h, ih]
    · simp [Sparse.erase, h]
    · simp [Sparse.erase, Nat.lt_asymm h, h.ne']

/-- The key store lists its slots in order. -/
def keysWf (s : State) : Prop := Sparse.wf (fun _ => none) (s.cipher.keys.map fun e => (e.1, some e.2)) = true

theorem find?_eraseKeys (h : keysWf s) :
    Sparse.find? (Sparse.erase s.cipher.keys slot) k = if k = slot then none else Sparse.find? s.cipher.keys k := by
  apply Option.map_injective (Option.some_injective Key)
  rw [← sparse_find?_mapSome, sparse_erase_mapSome, sparse_find?_erase h, sparse_find?_mapSome]
  split <;> rfl

theorem keyAt_eraseKey (h : keysWf s) : (s.eraseKey slot).keyAt k = if k = slot then none else s.keyAt k := by
  have hkeys : (s.eraseKey slot).cipher.keys = Sparse.erase s.cipher.keys slot := by
    rw [State.eraseKey]
    split <;> rfl
  have hfence : (s.eraseKey slot).keyStoreFenced = s.keyStoreFenced := by
    rw [State.eraseKey]
    split <;> rfl
  rw [State.keyAt, hfence, hkeys, find?_eraseKeys h, State.keyAt]
  split <;> split <;> rfl

theorem jobs_eraseKey : (s.eraseKey slot).cipher.jobs = (s.doomSlot slot 4).cipher.jobs := by
  rw [State.eraseKey]
  split <;> rfl

/-- Every job that uses an erased slot must end. -/
theorem doom_eraseKey {x : Job} (hx : x ∈ (s.eraseKey slot).cipher.jobs) (hs : jobSlot (beNat x.record) = slot) :
    x.doom.isSome = true := by
  rw [jobs_eraseKey, State.doomSlot] at hx
  obtain ⟨y, -, rfl⟩ := List.mem_map.mp hx
  by_cases h : jobSlot (beNat y.record) = slot ∧ y.doom.isNone = true
  · rw [if_pos h]
    rfl
  · rw [if_neg h] at hs ⊢
    rw [← Option.not_isNone, Bool.not_eq_true']
    exact Bool.eq_false_iff.mpr fun hn => h ⟨hs, hn⟩

/-- Sessions that meet a condition are not open once they are closed. -/
theorem sessions_closeSessions {p : Session → Bool} {x : Session} (hx : x ∈ (s.closeSessions p).sop.sessions)
    (ho : x.isOpen = true) : p x = false := by
  rw [State.closeSessions] at hx
  obtain ⟨y, -, rfl⟩ := List.mem_map.mp hx
  by_cases h : (y.isOpen && p y) = true
  · rw [if_pos h] at ho
    cases ho
  · rw [if_neg h] at ho ⊢
    simpa [ho] using h

theorem sessions_eraseKey {x : Session} (hs : slot = 4096 + s.obj? Obj.sopKeySlot)
    (hx : x ∈ (s.eraseKey slot).sop.sessions) (ho : x.isOpen = true) : x.auth = false := by
  have he : s.eraseKey slot = ((s.putKey slot none).doomSlot slot 4).closeSessions fun y => y.auth := if_pos hs
  exact sessions_closeSessions (he ▸ hx) ho

/-! ### KEY_CLEAR_LOAD (R359) -/

/-- The row of KEY_CLEAR_LOAD. -/
def keyClearLoadRow : Family := ⟨0x7030, 1, 1, 5, 1, .bool, 1, .rw, 1, .range 0 1, 0⟩

theorem keyClearLoad_writable : Writable 0x7030 5 keyClearLoadRow ∧ OutsideBlocks 0x7030 := by decide +kernel

theorem exec_keyClearLoad {v : BitVec 8} (hs : fastOpen s) (hu : s.fenced 0x5B0 = false) (hv : v.toNat ≤ 1)
    (hw : wroteIf (s.writeClearLoad v.toNat) = w) :
    exec (.keyClearLoad v) s = answering (s.outcomeOf w).outcome (.code (s.outcomeOf w).code) :=
  hostWrite_fastObject hs keyClearLoad_writable (fun _ => holderFenced_keys.trans hu) v.isLt
    (by simpa [keyClearLoadRow, Check.takes] using hv) hw

theorem keyClearLoad_allowed (hs : fastOpen s) (hu : s.fenced 0x5B0 = false) :
    exec (.keyClearLoad 1) s = .next { s with answer := .code (if s.cipher.clearLocked then 0x16 else 0) } := by
  rw [exec_keyClearLoad hs hu (by decide) rfl]
  cases h : s.cipher.clearLocked <;> simp [State.writeClearLoad, h] <;> rfl

/-- Settles O54: the objects of keys by their rules' cases, an erased slot by the map without its key, and a load's end by its
judgement. -/
theorem keysAreLoadedAndErased : Obligations.KeysAreLoadedAndErased := by
  refine fun s => ⟨fun hs hu => ⟨fun record hr => ⟨keyLoad_starts hs hu hr, keyLoad_busy hs hu hr⟩, fun v h => ?_, fun v h => ?_,
    exec_keyClearLoad hs hu (by decide) rfl, keyClearLoad_allowed hs hu⟩, fun slot h => ?erased, keyLoadEnd_idle,
    fun b hl => ⟨fun slot k => keyLoadEnd_done hl, fun status => keyLoadEnd_failed hl⟩⟩
  · exact exec_keyErase hs hu (writeErase_sa h)
  · exact ⟨fun hn => exec_keyErase hs hu (writeErase_job h hn), fun hn => exec_keyErase hs hu (writeErase_noSlot h hn)⟩
  case erased =>
    exact ⟨(keyAt_eraseKey h).trans (if_pos rfl), fun k hk => (keyAt_eraseKey h).trans (if_neg hk),
      fun x hx => doom_eraseKey hx, fun hslot x hx => sessions_eraseKey hslot hx⟩

end Sys2Proof.Proofs

/-! PROOFS. Cipher jobs: descriptors taken, jobs that end, that resume and that are aborted (R362-R366). -/

namespace Sys2Proof.Proofs

open Sys2Proof.Machine Sys2Proof.Safety Sys2Proof.Laws

variable {s : State} {j : Job} {key : Key} {id op p r status : Nat}

/-! ### A descriptor at TAIL of ring 9 (R362, R363, R366) -/

/-- The commands of the table Job opcodes, each with its opcode. -/
def jobCommands : List (Instr × Nat) :=
  [(.gcmEncrypt, 1), (.gcmDecrypt, 2), (.cmac, 3), (.wrap, 4), (.unwrap, 5), (.exportKey, 6)]

theorem exec_jobCommand {e : Instr × Nat} (he : e ∈ jobCommands) : exec e.1 s = s.takeJob e.2 := by
  simp only [jobCommands, List.mem_cons, List.not_mem_nil, or_false] at he
  rcases he with rfl | rfl | rfl | rfl | rfl | rfl <;> rfl

/-- A descriptor waits, and the device has room for a job. -/
def jobReady (s : State) : Prop := s.ready = true ∧ s.ringEmpty 9 = false ∧ s.cipher.jobs.length < 64

/-- The descriptor at ring 9's TAIL. -/
def frontJob (s : State) : Nat := beNat (s.ringFront 9)

/-- A command takes a descriptor of its opcode, or one of an opcode that the table does not list. -/
def takesJob (op r : Nat) : Prop := jobOp r = op ∨ jobOp r = 0 ∨ 6 < jobOp r

theorem takeJob_waits (h : s.ready = false ∨ s.ringEmpty 9 = true ∨ 64 ≤ s.cipher.jobs.length) : s.takeJob op = .next s := by
  refine if_pos ?_
  rcases h with h | h | h <;> simp [h]

theorem takeJob_other (h : jobOp (frontJob s) ≠ op) (h1 : 1 ≤ jobOp (frontJob s)) (h6 : jobOp (frontJob s) ≤ 6) :
    s.takeJob op = .next s := by
  simp only [frontJob] at h h1 h6
  simp only [State.takeJob]
  split
  · rfl
  · exact if_pos ⟨h, h1, h6⟩

/-- What the checks of R363 make of the descriptor that is taken. -/
def checkedJob (s : State) (op : Nat) : Result :=
  let r := frontJob s
  match s.jobDefect r, s.keyAt (jobSlot r) with
  | some status, _ => .next ((s.ringTake 9).jobDone (jobCompletion r status 0 0) status)
  | none, none => .next s
  | none, some k =>
    if s.jobOverlaps r then undefinedCase "UB-CIP-1"
    else match (if op = 6 then some keyStoreEngine else s.jobPipe) with
      | some p => .next ((s.ringTake 9).placeJob (s.ringFront 9) k p)
      | none => .next s

section Taken

variable (hs : jobReady s) (ho : takesJob op (frontJob s))
include hs ho

/-- Past the checks of the ring and the opcode, an abort that waits for the descriptor comes first. -/
theorem takeJob_aborted (ha : s.cipher.aborted.contains (jobTag (frontJob s)) = true) : s.takeJob op =
    .next (((s.spendAbort (frontJob s)).ringTake 9).jobDone (jobCompletion (frontJob s) 5 0 0) 5) := by
  obtain ⟨hready, hring, hjobs⟩ := hs
  have hop : ¬(jobOp (frontJob s) ≠ op ∧ 1 ≤ jobOp (frontJob s) ∧ jobOp (frontJob s) ≤ 6) := by
    unfold takesJob at ho
    omega
  simp only [frontJob] at ha hop ⊢
  simp only [State.takeJob, hready, hring, Nat.not_le.mpr hjobs, decide_false, Bool.not_true, Bool.or_self, Bool.false_eq_true,
    if_false, hop, ha, if_true]

variable (ha : s.cipher.aborted.contains (jobTag (frontJob s)) = false)
include ha

theorem takeJob_checked : s.takeJob op = checkedJob s op := by
  obtain ⟨hready, hring, hjobs⟩ := hs
  have hop : ¬(jobOp (frontJob s) ≠ op ∧ 1 ≤ jobOp (frontJob s) ∧ jobOp (frontJob s) ≤ 6) := by
    unfold takesJob at ho
    omega
  simp only [frontJob] at ha hop
  simp only [State.takeJob, hready, hring, Nat.not_le.mpr hjobs, decide_false, Bool.not_true, Bool.or_self, Bool.false_eq_true,
    if_false, hop, ha]
  rfl

theorem takeJob_defect (hd : s.jobDefect (frontJob s) = some status) :
    s.takeJob op = .next ((s.ringTake 9).jobDone (jobCompletion (frontJob s) status 0 0) status) := by
  simp only [takeJob_checked hs ho ha, checkedJob, hd]

variable (hd : s.jobDefect (frontJob s) = none) (hk : s.keyAt (jobSlot (frontJob s)) = some key)
include hd hk

theorem takeJob_misuse (hl : s.jobOverlaps (frontJob s) = true) : s.takeJob op = .fault (.unbounded "UB-CIP-1") := by
  simp only [takeJob_checked hs ho ha, checkedJob, hd, hk, hl, if_true, undefinedCase]

theorem takeJob_noPlace (hl : s.jobOverlaps (frontJob s) = false)
    (hp : (if op = 6 then some keyStoreEngine else s.jobPipe) = none) : s.takeJob op = .next s := by
  simp only [takeJob_checked hs ho ha, checkedJob, hd, hk, hl, hp, Bool.false_eq_true, if_false]

theorem takeJob_placed (hl : s.jobOverlaps (frontJob s) = false)
    (hp : (if op = 6 then some keyStoreEngine else s.jobPipe) = some p) :
    s.takeJob op = .next ((s.ringTake 9).placeJob (s.ringFront 9) key p) := by
  simp only [takeJob_checked hs ho ha, checkedJob, hd, hk, hl, hp, Bool.false_eq_true, if_false]

end Taken

/-! ### A job's end (R365) -/

/-- No job of an identifier is in progress any more. -/
def withoutJob (s : State) (id : Nat) : State :=
  { s with cipher := { s.cipher with jobs := s.cipher.jobs.filter fun x => x.id != id } }

/-- What a job run to its end leaves: its output, its blocks counted, and its completion. -/
def jobFinished (s : State) (j : Job) : State :=
  let r := beNat j.record
  let t := (s.jobResult j).1.foldl (fun (t : State) w => t.putJobBytes w.1 w.2) (withoutJob s j.id)
  (t.countJob j (s.jobBlocks r)).jobDone (jobCompletion r (s.jobResult j).2 (s.jobBlocks r) j.suspensions) (s.jobResult j).2

theorem jobEnd_unknown (hj : (s.cipher.jobs.find? fun j => j.id == id) = none) : exec (.jobEnd id) s = .next s := by
  change execJobEnd id s = _
  simp only [execJobEnd, hj]

theorem jobEnd_suspended (hj : (s.cipher.jobs.find? fun j => j.id == id) = some j) (hd : j.doom = none)
    (hs : j.suspended = true) : exec (.jobEnd id) s = .next s := by
  change execJobEnd id s = _
  simp only [execJobEnd, hj, hd, hs, if_true]

theorem jobEnd_finished (hj : (s.cipher.jobs.find? fun j => j.id == id) = some j) (hd : j.doom = none)
    (hs : j.suspended = false) : exec (.jobEnd id) s = .next (jobFinished s j) := by
  have hid : j.id = id := by simpa using List.find?_some hj
  change execJobEnd id s = _
  simp only [execJobEnd, hj, hd, hs, Bool.false_eq_true, if_false, jobFinished, withoutJob, hid]

/-! ### What a job writes (table Job opcodes) -/

theorem jobResult_cmac (h : jobOp (beNat j.record) = 3) : s.jobResult j =
    ([(bits (beNat j.record) 251 232, Aes.cmac j.key.bytes (s.jobBytes (jobIn (beNat j.record))))], 0) := by
  simp [State.jobResult, h]

theorem jobResult_wrap (h : jobOp (beNat j.record) = 4) : s.jobResult j =
    ([(bits (beNat j.record) 271 252, Aes.wrap j.key.bytes (s.jobBytes (jobIn (beNat j.record))))], 0) := by
  simp [State.jobResult, h]

theorem jobResult_badTag (h : jobOp (beNat j.record) = 2)
    (ht : Aes.gcmTag j.key.bytes (slice j.record 8 12) (s.jobBytes (jobAad (beNat j.record))) (s.jobBytes (jobIn (beNat j.record))) ≠
      s.jobBytes (bits (beNat j.record) 251 232, 16)) : s.jobResult j =
    ([(bits (beNat j.record) 271 252, List.replicate (s.jobBytes (jobIn (beNat j.record))).length 0)], 1) := by
  simp [State.jobResult, h, ht]

/-! ### A suspended job that resumes (R364) -/

/-- A job that runs again, on a pipe that may be another. -/
def jobRuns (s : State) (j : Job) (p : Nat) : State :=
  (s.beginWake p).setJob j.id fun x =>
    { x with suspended := false, pipe := p, contexts := max 1 (min (jobWants (beNat j.record)) (s.freeContexts p)) }

theorem jobResume_unknown (hj : (s.cipher.jobs.find? fun j => j.id == id) = none) : exec (.jobResume id) s = .next s := by
  have hnone : (s.cipher.jobs.find? fun j => j.id == id && j.suspended) = none := by
    rw [List.find?_eq_none] at hj ⊢
    exact fun x hx h => hj x hx (Bool.and_eq_true_iff.mp h).1
  change execJobResume id s = _
  simp only [execJobResume, hnone]

/-- Where a suspended job goes on, if anywhere yet. -/
def jobResumed (s : State) (j : Job) : State :=
  if s.runsJobs j.pipe && s.freeContexts j.pipe != 0 && s.jobsMayRun j.pipe then jobRuns s j j.pipe
  else if s.runsJobs j.pipe && (!s.jobsMayRun j.pipe || decide (s.clock < j.since + 1600)) then s
  else match s.jobPipe with
    | some p => (jobRuns s j p).request 4
    | none => s

section Resumes

variable (hj : (s.cipher.jobs.find? fun j => j.id == id && j.suspended) = some j)
include hj

theorem exec_jobResume : exec (.jobResume id) s = .next (jobResumed s j) := by
  change execJobResume id s = _
  simp only [execJobResume, hj, jobResumed, apply_ite Host.Outcome.next]
  cases s.jobPipe <;> rfl

theorem jobResume_held (hr : s.runsJobs j.pipe = true) (hm : s.jobsMayRun j.pipe = false) : exec (.jobResume id) s = .next s := by
  simp [exec_jobResume hj, jobResumed, hr, hm]

theorem jobResume_same (hr : s.runsJobs j.pipe = true) (hm : s.jobsMayRun j.pipe = true) (hf : s.freeContexts j.pipe ≠ 0) :
    exec (.jobResume id) s = .next (jobRuns s j j.pipe) := by
  simp [exec_jobResume hj, jobResumed, hr, hm, hf]

theorem jobResume_early (hr : s.runsJobs j.pipe = true) (hf : s.freeContexts j.pipe = 0) (hc : s.clock < j.since + 1600) :
    exec (.jobResume id) s = .next s := by
  simp [exec_jobResume hj, jobResumed, hr, hf, hc]

theorem jobResume_late (hr : s.runsJobs j.pipe = true) (hm : s.jobsMayRun j.pipe = true) (hf : s.freeContexts j.pipe = 0)
    (hc : j.since + 1600 ≤ s.clock) (hp : s.jobPipe = some p) : exec (.jobResume id) s = .next ((jobRuns s j p).request 4) := by
  simp [exec_jobResume hj, jobResumed, hr, hm, hf, Nat.not_lt.mpr hc, hp]

theorem jobResume_moved (hr : s.runsJobs j.pipe = false) (hp : s.jobPipe = some p) :
    exec (.jobResume id) s = .next ((jobRuns s j p).request 4) := by
  simp [exec_jobResume hj, jobResumed, hr, hp]

end Resumes

/-! ### JOB_ABORT (R366) -/

/-- The row of JOB_ABORT. -/
def jobAbortRow : Family := ⟨0x7040, 1, 1, 2, 1, .u16, 2, .wo, 0, .any, 0⟩

theorem jobAbort_writable : Writable 0x7040 2 jobAbortRow ∧ OutsideBlocks 0x7040 := by decide +kernel

theorem exec_jobAbort {tag : BitVec 16} (hs : fastOpen s) :
    exec (.jobAbort tag) s = .next { s.abortJob tag.toNat with answer := .code 0 } :=
  hostWrite_fastObject hs jobAbort_writable (fun _ => rfl) tag.isLt rfl (w := wrote (s.abortJob tag.toNat)) rfl

/-- Settles O55: a descriptor by the checks in their order, and a job that ends or resumes by its state and its pipe's. -/
theorem cipherJobs : Obligations.CipherJobs := by
  refine fun s => ⟨fun e he => ?taken, fun id hj => ⟨jobEnd_unknown hj, jobResume_unknown hj⟩, fun id j hj hd => ?ended,
    fun j => ⟨jobResult_cmac, jobResult_wrap, jobResult_badTag⟩, fun id j hj => ?resumed, fun hs tag => exec_jobAbort hs⟩
  case taken =>
    rw [exec_jobCommand he]
    refine ⟨takeJob_waits, fun hready hring hjobs => ⟨takeJob_other, fun ho => ?_⟩⟩
    have hs : jobReady s := ⟨hready, hring, hjobs⟩
    exact ⟨takeJob_aborted hs ho, fun ha status => takeJob_defect hs ho ha, fun ha hd k hk =>
      ⟨takeJob_misuse hs ho ha hd hk, takeJob_noPlace hs ho ha hd hk, fun p => takeJob_placed hs ho ha hd hk⟩⟩
  case ended =>
    have hid : j.id = id := by simpa using List.find?_some hj
    refine ⟨jobEnd_suspended hj hd, fun hs => (jobEnd_finished hj hd hs).trans ?_⟩
    rw [jobFinished, withoutJob, hid]
  case resumed =>
    exact ⟨jobResume_held hj, jobResume_same hj, jobResume_early hj, fun hr hm hf hc p => jobResume_late hj hr hm hf hc,
      fun hr p => jobResume_moved hj hr⟩

end Sys2Proof.Proofs

/-! PROOFS. Faults: what is judged, how it is counted and captured, injection, acknowledgement and timing margins (R371-R377, R389-R391). -/

namespace Sys2Proof.Proofs

open Sys2Proof.Machine Sys2Proof.Safety Sys2Proof.Laws

variable {s : State} {f : Family} {w : Written} {e : FaultEvent} {r : Report} {x : Syndrome} {k : Units.Check} {i j v mask cls : Nat}
  {quiet esc cons : Bool}

/-! ### An object that the Plinth holds, whatever its rule makes of the value -/

theorem hostWrite_plinthJudged (hs : plinthOpen s) (h : PlinthWritable i j f) (hv : v < 256 ^ f.size) (hc : f.check.takes v = true)
    (hw : s.writeObject f (Dict.key i j) v none = w) :
    s.hostWrite (Dict.key i j) v = answering (s.outcomeOf w).outcome (.code (s.outcomeOf w).code) := by
  have hadmits : s.admits (.write (toBe f.size v)) i j = .ok f :=
    admits_write_plinth hs h (toBe_length ..) (by rwa [beNat_toBe hv])
  have hslow := slowAccess_write_plinth (s := s) (b := toBe f.size v) h
  obtain ⟨hwr, -, -, hi⟩ := h
  rw [hostWrite_eq_bytes hwr]
  simp [State.hostWriteBytes, hs.1, State.serveNow, hadmits, hslow, State.serve, writesCopyView, State.wakeFor, hi, beNat_toBe hv, hw]

/-! ### What happens, and what it shows (R371, R372, R389) -/

theorem fault_unseen (h : s.boot.powered = false ∨ Units.hasChecker e.unit.toNat e.checker.toNat = false ∨ s.faultSeen e = false) :
    exec (.fault e) s = .next s := by
  refine if_pos ?_
  rcases h with h | h | h <;> simp [h]

/-- A fault that its unit's checker sees. -/
def seen (s : State) (e : FaultEvent) : Prop :=
  s.boot.powered = true ∧ Units.hasChecker e.unit.toNat e.checker.toNat = true ∧ s.faultSeen e = true

theorem fault_real (hs : seen s e) (hi : e.injected = false) : exec (.fault e) s = .next (s.fault e false) := by
  obtain ⟨hp, hc, hf⟩ := hs
  change execFault e s = _
  simp only [execFault, hp, hc, hf, hi, Bool.not_true, Bool.or_self, Bool.false_eq_true, if_false, Bool.not_false, if_true]

/-- What an injected fault comes to: it has its access's inverted check bits shown, or shows nothing. -/
def injectedFault (s : State) (e : FaultEvent) (quiet : Bool) : Option Syndrome → State
  | some x => s.takeInjection.fault { e with syndrome := x } quiet
  | none => s.takeInjection

theorem fault_injected (hs : seen s e) (hi : e.injected = true)
    (ha : s.faults.inject = some (e.unit.toNat, e.checker.toNat, mask, quiet)) (hn : s.obj? Obj.injectPending ≠ 0)
    (hk : Units.check e.unit.toNat e.checker.toNat = some k) :
    exec (.fault e) s = .next (injectedFault s e quiet (injectedSyndrome k mask e.syndrome)) := by
  obtain ⟨hp, hc, hf⟩ := hs
  change execFault e s = _
  simp only [execFault, hp, hc, hf, hi, ha, hn, hk, Bool.not_true, Bool.or_self, Bool.false_eq_true, if_false, true_and, ne_eq,
    not_false_eq_true, if_true, Option.bind_some]
  cases injectedSyndrome k mask e.syndrome <;> simp only [injectedFault, hi]

/-- No checker is armed, or none of its accesses is left to invert. -/
theorem fault_unarmed (hs : seen s e) (hi : e.injected = true) (ha : s.faults.inject = none ∨ s.obj? Obj.injectPending = 0) :
    exec (.fault e) s = .next s := by
  obtain ⟨hp, hc, hf⟩ := hs
  change execFault e s = _
  simp only [execFault, hp, hc, hf, hi, Bool.not_true, Bool.or_self, Bool.false_eq_true, if_false]
  rcases ha with ha | ha
  · rw [ha]
  · split
    · exact if_neg fun h => h.2.2 ha
    · rfl

theorem faultSeen_pointer {c : Fin 786432} (h : e.syndrome = .badPointer c) : s.faultSeen e = s.badPointer e.address.toNat := by
  simp only [State.faultSeen, h]

theorem faultSeen_other (h : ∀ c, e.syndrome ≠ .badPointer c) : s.faultSeen e = true := by
  rw [State.faultSeen]
  split
  next c hc => exact absurd hc (h c)
  next => rfl

theorem injected_oneBit (h : popCount 8 mask = 1) : injectedSyndrome .secded mask x = some .singleBit := by
  simp only [injectedSyndrome, h]

theorem injected_twoBits (h : popCount 8 mask = 2) : injectedSyndrome .secded mask x = some .doubleBit := by
  simp only [injectedSyndrome, h]

theorem injected_noBit : injectedSyndrome .secded 0 x = none := rfl

/-! ### Classes (R373) -/

theorem finalClass_consequential (h : s.consequential r.unit r.master = true) : s.finalClass r = r.cls := by
  simp [State.finalClass, h]

theorem finalClass_corrected (h : s.consequential r.unit r.master = false) (hc : r.cls = 0) :
    s.finalClass r = if (s.unitSt r.unit).pendingC then 1 else 0 := by
  simp [State.finalClass, h, hc, UnitSt.escalates]

theorem finalClass_contained (h : s.consequential r.unit r.master = false) (hc : r.cls = 1) :
    s.finalClass r = if (s.unitSt r.unit).pendingU then 2 else 1 := by
  simp [State.finalClass, h, hc, UnitSt.escalates]

theorem finalClass_fatal (hc : r.cls = 2) : s.finalClass r = 2 := by
  simp [State.finalClass, hc, UnitSt.escalates]

theorem finalClass_le (hc : r.cls ≤ 2) : s.finalClass r ≤ 2 := by
  by_cases h : r.cls = 2
  · exact (finalClass_fatal h).le
  · rw [State.finalClass]
    split <;> omega

/-! ### Counts (R373, R394) -/

/-- A fault in the counter of its final class, and in its summary flag. -/
def countClass (s : State) (cls : Nat) : State := (s.bump64 (Obj.faultsCorrected + cls)).flag Obj.faultSummary cls

/-- An escalated fault in its counter and its summary flag. -/
def countEscalated (s : State) (esc : Bool) : State :=
  if esc then (s.bump64 Obj.escalations).flag Obj.faultSummary 3 else s

/-- A consequential fault in its counter. -/
def countConsequential (s : State) (cons : Bool) : State := if cons then s.bump64 Obj.consequentialFaults else s

theorem countFault_eq : s.countFault cls esc cons = countConsequential (countEscalated (countClass s cls) esc) cons := rfl

theorem dictWf_countClass (hw : s.dictWf = true) : (countClass s cls).dictWf = true := dictWf_put (dictWf_bump64 hw)

theorem dictWf_countEscalated (hw : s.dictWf = true) : (countEscalated s esc).dictWf = true := by
  cases esc
  · exact hw
  · exact dictWf_put (dictWf_bump64 hw)

theorem dictWf_countConsequential (hw : s.dictWf = true) : (countConsequential s cons).dictWf = true := by
  cases cons
  · exact hw
  · exact dictWf_bump64 hw

theorem obj?_bump64_ne (hw : s.dictWf = true) (h : i ≠ j) : (s.bump64 j).obj? i = s.obj? i := obj?_put_ne (dictWf_iff.mp hw).1 h

theorem obj?_flag_ne (hw : s.dictWf = true) (h : i ≠ j) : (s.flag j v).obj? i = s.obj? i := obj?_put_ne (dictWf_iff.mp hw).1 h

theorem obj?_countConsequential (hw : s.dictWf = true) (h : i ≠ Obj.consequentialFaults) :
    (countConsequential s cons).obj? i = s.obj? i := by
  cases cons
  · rfl
  · exact obj?_bump64_ne hw h

theorem obj?_countEscalated (hw : s.dictWf = true) (h : i ≠ Obj.escalations) (hf : i ≠ Obj.faultSummary) :
    (countEscalated s esc).obj? i = s.obj? i := by
  cases esc
  · rfl
  · exact (obj?_flag_ne (dictWf_bump64 hw) hf).trans (obj?_bump64_ne hw h)

theorem obj?_flag_self (hw : s.dictWf = true) : (s.flag j v).obj? j = setBit (s.obj? j) v := obj?_put_self (dictWf_iff.mp hw).1

/-- The flag of an escalation leaves those of the classes. -/
theorem bit_countEscalated (hw : s.dictWf = true) (hc : cls ≤ 2) :
    bit ((countEscalated s esc).obj? Obj.faultSummary) cls = bit (s.obj? Obj.faultSummary) cls := by
  cases esc
  · rfl
  · have he : (countEscalated s true).obj? Obj.faultSummary = setBit (s.obj? Obj.faultSummary) 3 :=
      (obj?_flag_self (dictWf_bump64 hw)).trans (congrArg (setBit · 3) (obj?_bump64_ne hw (by decide)))
    rw [he, bit_setBit_of_lt (by omega)]

/-- The counters of the three classes stand apart from whatever else a fault writes. -/
theorem classCounter_ne (hc : cls ≤ 2) : Obj.faultsCorrected + cls ∉
    Obj.faultSummary :: Obj.escalations :: Obj.consequentialFaults :: Obj.firstError :: Obj.firstErrorUnit :: Obj.firstErrorClass ::
      patinaWrites := by
  have : cls = 0 ∨ cls = 1 ∨ cls = 2 := by omega
  rcases this with rfl | rfl | rfl <;> decide

theorem dictWf_countFault (hw : s.dictWf = true) : (s.countFault cls esc cons).dictWf = true :=
  dictWf_countConsequential (dictWf_countEscalated (dictWf_countClass hw))

theorem obj?_countFault_counter (hw : s.dictWf = true) (hc : cls ≤ 2) :
    (s.countFault cls esc cons).obj? (Obj.faultsCorrected + cls) = (s.obj? (Obj.faultsCorrected + cls) + 1) % 2 ^ 64 := by
  have hne := classCounter_ne hc
  simp only [List.mem_cons, not_or] at hne
  obtain ⟨hflag, hesc, hcons, -⟩ := hne
  have hclass := dictWf_countClass (cls := cls) hw
  rw [countFault_eq, obj?_countConsequential (dictWf_countEscalated hclass) hcons, obj?_countEscalated hclass hesc hflag, countClass,
    obj?_flag_ne (dictWf_bump64 hw) hflag]
  exact obj?_put_self (dictWf_iff.mp hw).1

theorem bit_countFault (hw : s.dictWf = true) (hc : cls ≤ 2) :
    bit ((s.countFault cls esc cons).obj? Obj.faultSummary) cls = true := by
  have hclass := dictWf_countClass (cls := cls) hw
  rw [countFault_eq, obj?_countConsequential (dictWf_countEscalated hclass) (by decide), bit_countEscalated hclass hc, countClass,
    obj?_flag_self (dictWf_bump64 hw), bit_setBit]

/-- The capture's unit is no counter. -/
theorem obj?_countFault_first (hw : s.dictWf = true) (hc : cls ≤ 2) :
    (s.countFault cls esc cons).obj? Obj.firstErrorUnit = s.obj? Obj.firstErrorUnit := by
  have hclass := dictWf_countClass (cls := cls) hw
  have hne := classCounter_ne hc
  simp only [List.mem_cons, not_or] at hne
  obtain ⟨-, -, -, -, hunit, -⟩ := hne
  rw [countFault_eq, obj?_countConsequential (dictWf_countEscalated hclass) (by decide),
    obj?_countEscalated hclass (by decide) (by decide), countClass, obj?_flag_ne (dictWf_bump64 hw) (by decide),
    obj?_bump64_ne hw (Ne.symm hunit)]

theorem countFault_apart : ObjectsApart s (s.countFault cls esc cons) := by
  have hclass : ObjectsApart s (countClass s cls) := (ObjectsApart.refl.bump64).flag
  exact (hclass.bump64.flag.ite hclass).bump64.ite (hclass.bump64.flag.ite hclass)

/-! ### A fault that brings no reaction (R373, R377) -/

/-- A fault noted in its unit, and counted. -/
def faultNoted (s : State) (r : Report) : State :=
  let cons := s.consequential r.unit r.master
  let cls := s.finalClass r
  (s.setUnit r.unit fun x => x.note cls cons).countFault cls (cls != r.cls) cons

/-- It is captured too, where the capture is empty and the fault is not consequential. -/
def faultCaptured (s : State) (r : Report) : State :=
  if !s.consequential r.unit r.master && s.captureEmpty then (faultNoted s r).capture r (s.finalClass r) else faultNoted s r

/-- Nothing follows a fault that is not FATAL, is consequential, or is said to bring no reaction. -/
def unanswered (s : State) (r : Report) : Prop := s.finalClass r ≠ 2 ∨ s.consequential r.unit r.master = true ∨ r.quiet = true

theorem judge_unanswered (hr : s.faults.release = none) (hq : unanswered s r) :
    s.judge r = faultCaptured s r ∨ ∃ e, s.judge r = (faultCaptured s r).log e := by
  have ha : s.abandonRelease r.unit = s := by simp [State.abandonRelease, hr]
  have hreacts : (s.finalClass r == 2 && !s.consequential r.unit r.master && !r.quiet) = false := by
    rcases hq with h | h | h <;> simp [h]
  simp only [State.judge, ha, hreacts, Bool.false_eq_true, if_false]
  cases s.recordsFault r
  · exact .inl rfl
  · exact .inr ⟨_, rfl⟩

/-- A unit's note is never the state of a unit that nothing has happened to. -/
theorem note_ne_clean {x : UnitSt} : x.note cls cons ≠ UnitSt.clean := fun h => by
  have hf : (x.note cls cons).faults = UnitSt.clean.faults := congrArg UnitSt.faults h
  simp only [UnitSt.note, UnitSt.clean] at hf
  omega

theorem unitSt_note {u : Nat} : (s.setUnit u fun x => x.note cls cons).unitSt u = (s.unitSt u).note cls cons := by
  rw [State.unitSt, State.setUnit, Sparse.set, if_neg note_ne_clean, sparse_find?_insert, if_pos rfl]
  rfl

theorem unitSt_log {x : Trouble} {u : Nat} : (s.log x).unitSt u = s.unitSt u := by
  unfold State.unitSt State.log State.ringPush
  dsimp only
  split <;> rfl

/-- What a fault writes beside its unit and its counters stands apart from its class's counter and flag. -/
theorem capture_reads (hw : s.dictWf = true) : (s.capture r cls).dictWf = true ∧
    (s.capture r cls).obj? Obj.firstErrorUnit = r.unit ∧ (s.capture r cls).obj? Obj.firstErrorClass = cls ∧
    ∀ i, i ∉ [Obj.firstError, Obj.firstErrorUnit, Obj.firstErrorClass] → (s.capture r cls).obj? i = s.obj? i := by
  have hone : ∀ v, (s.put Obj.firstError v).dictWf = true := fun v => dictWf_put hw
  have htwo : ∀ v, ((s.put Obj.firstError v).put Obj.firstErrorUnit r.unit).dictWf = true := fun v => dictWf_put (hone v)
  refine ⟨dictWf_put (htwo _), ?_, obj?_put_self (dictWf_iff.mp (htwo _)).1, fun i hi => ?_⟩
  · exact (obj?_put_ne (dictWf_iff.mp (htwo _)).1 (by decide)).trans (obj?_put_self (dictWf_iff.mp (hone _)).1)
  · simp only [List.mem_cons, List.not_mem_nil, or_false, not_or] at hi
    obtain ⟨h1, h2, h3⟩ := hi
    exact (obj?_put_ne (dictWf_iff.mp (htwo _)).1 h3).trans
      ((obj?_put_ne (dictWf_iff.mp (hone _)).1 h2).trans (obj?_put_ne (dictWf_iff.mp hw).1 h1))

/-- What O56 says of a fault of a unit that brings no reaction, of the state that it leaves. -/
structure Counted (s t : State) (r : Report) : Prop where
  wf : t.dictWf = true
  unit : t.unitSt r.unit = (s.unitSt r.unit).note (s.finalClass r) (s.consequential r.unit r.master)
  counter : t.obj? (Obj.faultsCorrected + s.finalClass r) = (s.obj? (Obj.faultsCorrected + s.finalClass r) + 1) % 2 ^ 64
  flag : bit (t.obj? Obj.faultSummary) (s.finalClass r) = true
  frames : t.frames = s.frames
  copies : t.copies = s.copies
  boot : t.boot = s.boot

/-- Objects that are neither the class's counter nor the summary change nothing of it. -/
theorem Counted.objects {t u : State} (h : Counted s t r) (ha : ObjectsApart t u) (hw : u.dictWf = true)
    (hk : ∀ i ∈ [Obj.faultsCorrected + s.finalClass r, Obj.faultSummary], u.obj? i = t.obj? i) : Counted s u r := by
  have hcounter := hk _ (List.mem_cons_self ..)
  have hflag := hk Obj.faultSummary (List.mem_cons_of_mem _ (List.mem_cons_self ..))
  obtain ⟨o, rfl⟩ := ha
  exact ⟨hw, h.unit, hcounter.trans h.counter, (congrArg (bit · _) hflag).trans h.flag, h.frames, h.copies, h.boot⟩

/-- A record of the Patina changes nothing of it. -/
theorem Counted.log {t : State} {x : Trouble} (h : Counted s t r) (hc : r.cls ≤ 2) : Counted s (t.log x) r := by
  obtain ⟨o, d, y, hlog⟩ := log_eq (s := t) (e := x)
  have hne := classCounter_ne (finalClass_le (s := s) hc)
  simp only [List.mem_cons, not_or] at hne
  obtain ⟨-, -, -, -, -, -, hpatina⟩ := hne
  refine ⟨dictWf_log h.wf, unitSt_log.trans h.unit, ?_, ?_, ?_, ?_, log_boot.trans h.boot⟩
  · rw [obj?_log_ne h.wf (by simpa [patinaWrites] using hpatina), h.counter]
  · rw [obj?_log_ne h.wf (by decide), h.flag]
  · rw [hlog]
    exact h.frames
  · rw [hlog]
    exact h.copies

theorem counted_faultNoted (hw : s.dictWf = true) (hc : r.cls ≤ 2) : Counted s (faultNoted s r) r := by
  have hle := finalClass_le (s := s) hc
  obtain ⟨o, ho⟩ := countFault_apart (s := s.setUnit r.unit fun x => x.note (s.finalClass r) (s.consequential r.unit r.master))
    (cls := s.finalClass r) (esc := s.finalClass r != r.cls) (cons := s.consequential r.unit r.master)
  have hu : (s.setUnit r.unit fun x => x.note (s.finalClass r) (s.consequential r.unit r.master)).dictWf = true := hw
  refine ⟨dictWf_countFault hu, ?_, obj?_countFault_counter hu hle, bit_countFault hu hle, ?_, ?_, ?_⟩ <;>
    rw [faultNoted, ho]
  · exact unitSt_note
  all_goals rfl

theorem counted_faultCaptured (hw : s.dictWf = true) (hc : r.cls ≤ 2) : Counted s (faultCaptured s r) r := by
  have hnoted := counted_faultNoted (r := r) hw hc
  rw [faultCaptured]
  split
  · obtain ⟨hwf, -, -, hother⟩ := capture_reads (r := r) (cls := s.finalClass r) hnoted.wf
    have hne := classCounter_ne (finalClass_le (s := s) hc)
    simp only [List.mem_cons, not_or] at hne
    obtain ⟨-, -, -, h1, h2, h3, -⟩ := hne
    refine hnoted.objects (ObjectsApart.refl.put.put.put) hwf fun i hi => hother i ?_
    simp only [List.mem_cons, List.not_mem_nil, or_false] at hi
    rcases hi with rfl | rfl
    · simp [h1, h2, h3]
    · decide
  · exact hnoted

theorem firstUnit_faultNoted (hw : s.dictWf = true) (hc : r.cls ≤ 2) :
    (faultNoted s r).obj? Obj.firstErrorUnit = s.obj? Obj.firstErrorUnit := by
  have hu : (s.setUnit r.unit fun x => x.note (s.finalClass r) (s.consequential r.unit r.master)).dictWf = true := hw
  exact obj?_countFault_first hu (finalClass_le hc)

theorem captured_empty (hw : s.dictWf = true) (hc : r.cls ≤ 2) (hcons : s.consequential r.unit r.master = false)
    (he : s.obj? Obj.firstErrorUnit = 0xFFFF) :
    (faultCaptured s r).obj? Obj.firstErrorUnit = r.unit ∧ (faultCaptured s r).obj? Obj.firstErrorClass = s.finalClass r := by
  obtain ⟨-, hunit, hclass, -⟩ := capture_reads (r := r) (cls := s.finalClass r) (counted_faultNoted (r := r) hw hc).wf
  rw [faultCaptured, if_pos (by simp [hcons, State.captureEmpty, he])]
  exact ⟨hunit, hclass⟩

theorem captured_full (hw : s.dictWf = true) (hc : r.cls ≤ 2) (he : s.obj? Obj.firstErrorUnit ≠ 0xFFFF) :
    (faultCaptured s r).obj? Obj.firstErrorUnit = s.obj? Obj.firstErrorUnit := by
  rw [faultCaptured, if_neg (by simp [State.captureEmpty, he]), firstUnit_faultNoted hw hc]

section Unanswered

variable (hw : s.dictWf = true) (hr : s.faults.release = none) (hc : r.cls ≤ 2) (hq : unanswered s r)
include hw hr hc hq

theorem counted_judge : Counted s (s.judge r) r := by
  have h := counted_faultCaptured (r := r) hw hc
  rcases judge_unanswered hr hq with e | ⟨x, e⟩ <;> rw [e]
  · exact h
  · exact h.log hc

/-- A record of the Patina is no capture. -/
theorem obj?_judge_capture (hi : i ∈ [Obj.firstErrorUnit, Obj.firstErrorClass]) :
    (s.judge r).obj? i = (faultCaptured s r).obj? i := by
  have hne : i ∉ patinaWrites := by
    simp only [List.mem_cons, List.not_mem_nil, or_false] at hi
    rcases hi with rfl | rfl <;> decide
  rcases judge_unanswered hr hq with e | ⟨x, e⟩ <;> rw [e]
  exact obj?_log_ne (counted_faultCaptured hw hc).wf hne

end Unanswered

/-! ### Acknowledgements and INJECT (R374, R377, R389) -/

theorem correctedAutoAck_off {u : BitVec 12} (h : s.obj? Obj.correctedAutoAckMs = 0) :
    exec (.correctedAutoAck u) s = .next s := if_pos h

theorem correctedAutoAck_on {u : BitVec 12} (h : s.obj? Obj.correctedAutoAckMs ≠ 0) :
    exec (.correctedAutoAck u) s = .next (s.setUnit u.toNat fun x => { x with pendingC := false }) := if_neg h

/-- The row of FAULT_ACK. -/
def faultAckRow : Family := ⟨0x9001, 1, 1, 1, 1, .u16, 2, .wo, 0, .any, 0⟩

theorem faultAck_writable : PlinthWritable 0x9001 1 faultAckRow := by decide +kernel

theorem exec_faultAck {v : BitVec 16} (hs : plinthOpen s) (hw : wroteIf (s.faultAck v.toNat) = w) :
    exec (.faultAck v) s = answering (s.outcomeOf w).outcome (.code (s.outcomeOf w).code) :=
  hostWrite_plinthJudged hs faultAck_writable v.isLt rfl hw

theorem faultAck_unit (hv : v ≠ 0xFFFF) (hk : (Units.kind v).isSome = true) :
    s.faultAck v = some (s.setUnit v fun x => { x with pendingC := false, pendingU := false }) := by
  simp [State.faultAck, hv, Option.isSome_iff_ne_none.mp hk]

theorem faultAck_noUnit (hv : v ≠ 0xFFFF) (hk : Units.kind v = none) : s.faultAck v = none := by
  simp [State.faultAck, hv, hk]

/-- The row of FIRST_ERROR_CLEAR. -/
def firstErrorClearRow : Family := ⟨0x9000, 1, 1, 4, 1, .bool, 1, .wo, 0, .range 0 1, 0⟩

theorem firstErrorClear_writable : PlinthWritable 0x9000 4 firstErrorClearRow := by decide +kernel

theorem exec_firstErrorClear (hs : plinthOpen s) : exec .firstErrorClear s = .next { s.clearFirst with answer := .code 0 } :=
  hostWrite_plinthJudged hs firstErrorClear_writable (by decide) rfl (w := wrote s.clearFirst) rfl

/-- The row of INJECT. -/
def injectRow : Family := ⟨0x9030, 1, 1, 1, 1, .u32, 4, .wo, 0, .any, 0⟩

theorem inject_writable : PlinthWritable 0x9030 1 injectRow := by decide +kernel

theorem exec_inject {v : BitVec 32} (hs : plinthOpen s) (hw : wroteIf (s.writeInject v.toNat) = w) :
    exec (.inject v) s = answering (s.outcomeOf w).outcome (.code (s.outcomeOf w).code) :=
  hostWrite_plinthJudged hs inject_writable v.isLt rfl hw

theorem writeInject_arms (hc : Units.hasChecker (bits v 31 20) (bits v 19 16) = true)
    (hn : Units.noInjection (bits v 31 20) (bits v 19 16) = false) (hp : s.obj? Obj.injectPending = 0) (h0 : bits v 6 0 ≠ 0) :
    s.writeInject v = some (({ s with faults := { s.faults with
      inject := some (bits v 31 20, bits v 19 16, bits v 15 8, bit v 7) } } : State).put Obj.injectPending (bits v 6 0)) := by
  simp [State.writeInject, hc, hn, hp, h0]

theorem writeInject_rejected (h : Units.hasChecker (bits v 31 20) (bits v 19 16) = false ∨
    Units.noInjection (bits v 31 20) (bits v 19 16) = true ∨ s.obj? Obj.injectPending ≠ 0 ∨ bits v 6 0 = 0) :
    s.writeInject v = none := by
  refine if_pos ?_
  rcases h with h | h | h | h <;> simp [h]

/-! ### TIMING_MARGIN (R391) -/

/-- A quadrant's margin stored. -/
def marginStored (s : State) (q : Nat) (ps : BitVec 32) : State := s.put (Obj.timingMarginPs q) ps.toNat

/-- A quadrant's margin is noted as below its alarm or not. -/
def setBelow (s : State) (q : Nat) (b : Bool) : State :=
  { s with faults := { s.faults with below := modifyAt s.faults.below q fun _ => b } }

theorem below_setBelow {q : Nat} {b : Bool} (hq : q < s.faults.below.length) : (setBelow s q b).faults.below.getD q false = b := by
  simp [setBelow, modifyAt, List.getD, hq]

theorem below_log {x : Trouble} : (s.log x).faults.below = s.faults.below := by
  unfold State.log State.ringPush
  dsimp only
  split <;> rfl

theorem frames_log {x : Trouble} : (s.log x).frames = s.frames := by
  obtain ⟨o, d, y, h⟩ := log_eq (s := s) (e := x)
  rw [h]

section Margin

variable {q : Quadrant} {ps : BitVec 32}

/-- The alarm's limit is another object than a quadrant's margin. -/
theorem alarm_marginStored (hw : s.dictWf = true) : (marginStored s q.val ps).obj? Obj.marginAlarmPs = s.obj? Obj.marginAlarmPs := by
  refine obj?_put_ne (dictWf_iff.mp hw).1 ?_
  revert q
  decide

theorem margin_ne_patina : ∀ q : Quadrant, Obj.timingMarginPs q.val ∉ patinaWrites := by decide

variable (hw : s.dictWf = true)
include hw

/-- A margin that falls below its alarm is logged. -/
theorem timingMargin_falls (h : ps.toInt < s.obj? Obj.marginAlarmPs) (hb : s.faults.below.getD q.val false = false) :
    exec (.timingMargin q ps) s = .next ((setBelow (marginStored s q.val ps) q.val true).log
      { kind := 12, unit := 0x020 + q.val, detail := q.val }) := by
  rw [← alarm_marginStored (q := q) (ps := ps) hw] at h
  exact (if_pos h).trans (if_neg (Bool.eq_false_iff.mp hb))

theorem timingMargin_stays (h : ps.toInt < s.obj? Obj.marginAlarmPs) (hb : s.faults.below.getD q.val false = true) :
    exec (.timingMargin q ps) s = .next (marginStored s q.val ps) := by
  rw [← alarm_marginStored (q := q) (ps := ps) hw] at h
  exact (if_pos h).trans (if_pos hb)

theorem timingMargin_clears (h : (s.obj? Obj.marginAlarmPs : Int) < ps.toInt) :
    exec (.timingMargin q ps) s = .next (setBelow (marginStored s q.val ps) q.val false) := by
  rw [← alarm_marginStored (q := q) (ps := ps) hw] at h
  exact (if_neg h.not_gt).trans (if_pos h)

theorem timingMargin_meets (h : ps.toInt = s.obj? Obj.marginAlarmPs) :
    exec (.timingMargin q ps) s = .next (marginStored s q.val ps) := by
  rw [← alarm_marginStored (q := q) (ps := ps) hw] at h
  exact (if_neg h.not_lt).trans (if_neg h.not_gt)

theorem timingMargin_reads (hlen : s.faults.below.length = 4) :
    ∃ t, exec (.timingMargin q ps) s = .next t ∧ t.obj? (Obj.timingMarginPs q.val) = ps.toNat ∧
      t.faults.below.getD q.val false = (if ps.toInt < s.obj? Obj.marginAlarmPs then true
        else if (s.obj? Obj.marginAlarmPs : Int) < ps.toInt then false else s.faults.below.getD q.val false) ∧
      t.frames = s.frames ∧ t.boot = s.boot := by
  have hq : q.val < (marginStored s q.val ps).faults.below.length := Nat.lt_of_lt_of_eq q.isLt hlen.symm
  have hput : (marginStored s q.val ps).obj? (Obj.timingMarginPs q.val) = ps.toNat := obj?_put_self (dictWf_iff.mp hw).1
  rcases lt_trichotomy ps.toInt (s.obj? Obj.marginAlarmPs : Int) with h | h | h
  · rw [if_pos h]
    cases hb : s.faults.below.getD q.val false
    · have hset : (setBelow (marginStored s q.val ps) q.val true).dictWf = true := dictWf_put hw
      refine ⟨_, timingMargin_falls hw h hb, ?_, ?_, frames_log, log_boot⟩
      · exact (obj?_log_ne hset (margin_ne_patina q)).trans hput
      · rw [below_log]
        exact below_setBelow hq
    · exact ⟨_, timingMargin_stays hw h hb, hput, hb, rfl, rfl⟩
  · rw [if_neg h.not_lt, if_neg h.not_gt]
    exact ⟨_, timingMargin_meets hw h, hput, rfl, rfl, rfl⟩
  · rw [if_neg h.not_gt, if_pos h]
    exact ⟨_, timingMargin_clears hw h, hput, below_setBelow hq, rfl, rfl⟩

end Margin

/-- Settles O56: a fault by what its checker sees and what is armed, and a fault that brings no reaction as its unit's note, its
counts, its capture and its record. -/
theorem faultsAreJudged : Obligations.FaultsAreJudged := by
  refine fun s => ⟨fun e hp hc hf => ?happens, fun e => fault_unseen, fun e => ⟨fun c => faultSeen_pointer, faultSeen_other⟩,
    fun mask x => ⟨fun _ => injected_oneBit, fun _ => injected_twoBits, fun h => if_pos (by rw [h]; rfl),
      fun h => ⟨if_pos h, by rw [h]; rfl⟩⟩,
    fun r => ⟨finalClass_consequential, finalClass_corrected, finalClass_contained, finalClass_fatal⟩,
    fun r hw hr hc => ?counted, fun u => ⟨correctedAutoAck_off, correctedAutoAck_on⟩, fun hs => ?written,
    fun q ps hlen hw => timingMargin_reads hw hlen⟩
  case happens =>
    have hs : seen s e := ⟨hp, hc, hf⟩
    refine ⟨fault_real hs, fun mask quiet hi ha hn k hk => ⟨fun hx => ?_, fun x hx => ?_⟩, fault_unarmed hs⟩
    · rw [fault_injected hs hi ha hn hk, hx, injectedFault]
    · exact (fault_injected hs hi ha hn hk).trans (by rw [hx]; rfl)
  case counted =>
    intro t cls cons hq
    have h := counted_judge hw hr hc hq
    refine ⟨h.unit, h.counter, h.flag, fun hcons he => ?_, fun he => ?_, h.frames, h.copies, h.boot⟩
    · have hfirst := captured_empty hw hc hcons he
      exact ⟨(obj?_judge_capture hw hr hc hq (by decide)).trans hfirst.1,
        (obj?_judge_capture hw hr hc hq (by decide)).trans hfirst.2⟩
    · exact (obj?_judge_capture hw hr hc hq (by decide)).trans (captured_full hw hc he)
  case written =>
    refine ⟨fun v hv => ?_, exec_faultAck hs rfl, exec_firstErrorClear hs, fun v => ⟨fun hc hn hp h0 => ?_, fun h => ?_⟩⟩
    · have hne : v.toNat ≠ 0xFFFF := fun h => hv (BitVec.eq_of_toNat_eq h)
      exact ⟨fun hk => exec_faultAck hs (congrArg wroteIf (faultAck_unit hne hk)),
        fun hk => exec_faultAck hs (congrArg wroteIf (faultAck_noUnit hne hk))⟩
    · exact exec_inject hs (congrArg wroteIf (writeInject_arms hc hn hp h0))
    · exact exec_inject hs (congrArg wroteIf (writeInject_rejected h))

end Sys2Proof.Proofs

/-! PROOFS. Fences, sweeps, takeovers, returns and releases (R379-R388). -/

namespace Sys2Proof.Proofs

open Sys2Proof.Machine Sys2Proof.Safety Sys2Proof.Laws

variable {s t : State} {w : Written} {x : Takeover} {xs : List Takeover} {unit : BitVec 12} {g : Group} {b p op u v cause : Nat}
  {byHost slice passed : Bool}

/-! ### FENCE_REQUEST (R381, R388) -/

/-- The row of FENCE_REQUEST. -/
def fenceRequestRow : Family := ⟨0x9010, 1, 1, 1, 1, .u32, 4, .wo, 0, .any, 0⟩

theorem fenceRequest_writable : PlinthWritable 0x9010 1 fenceRequestRow := by decide +kernel

/-- A write of FENCE_REQUEST: an operation in [31:24], and a unit. -/
theorem fenceRequest_bits (ho : op < 4) : field 24 op + unit.toNat < 256 ^ 4 ∧ bits (field 24 op + unit.toNat) 31 24 = op ∧
    bits (field 24 op + unit.toNat) 23 12 = 0 ∧ bits (field 24 op + unit.toNat) 11 0 = unit.toNat := by
  have hu : unit.toNat < 4096 := unit.isLt
  simp only [field, bits]
  omega

theorem hostWrite_fenceRequest (hs : plinthOpen s) (hv : v < 256 ^ 4) (hw : s.writeFence v = w) :
    s.hostWrite Obj.fenceRequest v = answering (s.outcomeOf w).outcome (.code (s.outcomeOf w).code) :=
  hostWrite_plinthJudged hs fenceRequest_writable hv rfl hw

theorem writeFence_fences : s.writeFence (field 24 1 + unit.toNat) = wroteIf (s.hostFence unit.toNat) := by
  obtain ⟨-, hop, hz, hu⟩ := fenceRequest_bits (unit := unit) (op := 1) (by decide)
  simp [State.writeFence, State.fenceRequest, hop, hz, hu]

theorem exec_hostFence (hs : plinthOpen s) (hw : wroteIf (s.hostFence unit.toNat) = w) :
    exec (.hostFence unit) s = answering (s.outcomeOf w).outcome (.code (s.outcomeOf w).code) :=
  hostWrite_fenceRequest hs (fenceRequest_bits (by decide)).1 (writeFence_fences.trans hw)

/-! ### Releases (R388) -/

/-- The commands that ask for a release, each with whether it runs the unit's slice. -/
def releaseCommands (unit : BitVec 12) : List (Instr × Bool) := [(.release unit, true), (.releaseWithoutSlice unit, false)]

/-- A release of a DDR5 channel is sequencer 7's work (R430). -/
def releaseAsked (u : Nat) (t : State) : State := if 0x420 ≤ u ∧ u < 0x430 then t.request 7 else t

theorem writeFence_releases (ho : op = 2 ∨ op = 3) : s.writeFence (field 24 op + unit.toNat) =
    wroteIf ((s.startRelease unit.toNat (op == 2)).map (releaseAsked unit.toNat)) := by
  obtain ⟨-, hop, hz, hu⟩ := fenceRequest_bits (unit := unit) (op := op) (by omega)
  rcases ho with rfl | rfl <;> simp [State.writeFence, State.fenceRequest, hop, hz, hu] <;> rfl

theorem exec_releaseCommand {e : Instr × Bool} (hs : plinthOpen s) (he : e ∈ releaseCommands unit)
    (hw : wroteIf ((s.startRelease unit.toNat e.2).map (releaseAsked unit.toNat)) = w) :
    exec e.1 s = answering (s.outcomeOf w).outcome (.code (s.outcomeOf w).code) := by
  simp only [releaseCommands, List.mem_cons, List.not_mem_nil, or_false] at he
  rcases he with rfl | rfl
  · exact hostWrite_fenceRequest hs (fenceRequest_bits (by decide)).1 ((writeFence_releases (.inl rfl)).trans hw)
  · exact hostWrite_fenceRequest hs (fenceRequest_bits (by decide)).1 ((writeFence_releases (.inr rfl)).trans hw)

theorem startRelease_rejected (h : u = 0x5B0 ∨ u = 0x5B1 ∨ Units.kind u = none ∨ s.faults.release.isSome = true) :
    s.startRelease u slice = none := by
  refine if_pos ?_
  rcases h with h | h | h | h <;> simp [h]

/-- A unit that may be released, where no release runs. -/
def mayRelease (s : State) (u : Nat) : Prop :=
  u ≠ 0x5B0 ∧ u ≠ 0x5B1 ∧ (Units.kind u).isSome = true ∧ s.faults.release = none

theorem startRelease_inService (hu : mayRelease s u) (hf : s.fenced u = false) :
    s.startRelease u slice = some (s.put Obj.fenceResult 3) := by
  obtain ⟨h0, h1, hk, hr⟩ := hu
  simp [State.startRelease, h0, h1, hr, Option.isSome_iff_ne_none.mp hk, hf]

theorem startRelease_fenced (hu : mayRelease s u) (hf : s.fenced u = true) : s.startRelease u slice =
    some (({ s.sweep u with faults := { (s.sweep u).faults with
      release := some (u, slice && !(s.unitSlices u).isEmpty) } } : State).put Obj.fenceResult 1) := by
  obtain ⟨h0, h1, hk, hr⟩ := hu
  simp [State.startRelease, h0, h1, hr, Option.isSome_iff_ne_none.mp hk, hf]

theorem releaseEnd_idle (hr : s.faults.release = none) : exec (.releaseEnd passed) s = .next s := by
  change execReleaseEnd passed s = _
  simp only [execReleaseEnd, hr]

theorem releaseEnd_passed (hr : s.faults.release = some (u, slice)) :
    exec (.releaseEnd true) s = .next (((if slice then s.countPassed u else s).unfence u).endRelease u 2) := by
  change execReleaseEnd true s = _
  simp only [execReleaseEnd, hr, Bool.not_true, Bool.and_false, Bool.false_eq_true, if_false]

theorem releaseEnd_failed (hr : s.faults.release = some (u, slice)) :
    exec (.releaseEnd false) s = .next (if slice then s.failRelease u else (s.unfence u).endRelease u 2) := by
  change execReleaseEnd false s = _
  cases slice <;> simp [execReleaseEnd, hr]

/-! ### Fences and sweeps (R379, R380) -/

theorem fenceOne_fenced (hf : s.fenced u = true) : s.fenceOne u cause byHost = s := if_pos hf

theorem fenceOne_inService (hf : s.fenced u = false) : s.fenceOne u cause byHost =
    ((((s.log { kind := if byHost then 3 else 2, unit := u, reaction := 1 }).isolate u cause).fenceEffect u cause).faultTrap
      (trapCause u)) := if_neg (Bool.eq_false_iff.mp hf)

theorem fenceSweep_inService (hf : s.fenced unit.toNat = false) : exec (.fenceSweep unit) s = .next s :=
  if_neg (Bool.eq_false_iff.mp hf)

theorem fenceSweep_fenced (hf : s.fenced unit.toNat = true) : exec (.fenceSweep unit) s = .next (s.sweep unit.toNat) := if_pos hf

theorem sweep_bank (hk : Units.kind u = some (.bitmapBank b)) :
    s.sweep u = (s.frames.filter fun f => f.inBank b).foldl (fun (t : State) f => t.loseFrame f.id 0xD0 0xD0) s := by
  simp only [State.sweep, hk]

theorem sweep_pipe (hk : Units.kind u = some (.pipe p)) : s.sweep u =
    (s.pipeFrames p).foldl (fun (t : State) f => t.endFrame f.id (if t.groupPipe (f.port / 8) = 0xFF then 0xD0 else 0xD1)) s := by
  simp only [State.sweep, hk]

/-! ### Takeovers (R384, R484) -/

theorem takeover_none (h : s.faults.takeovers = []) : exec .takeover s = .next s := by
  change execTakeover s = _
  simp only [execTakeover, h]

/-- The group moves to its pipe, which is awake. -/
def groupTaken (s : State) (x : Takeover) (xs : List Takeover) : State :=
  let c := s.copySampling (s.groupPipe x.group) x.pipe
  let u := ({ c with faults := { c.faults with takeovers := xs } } : State).put (Obj.groupPipe x.group) x.pipe
  (u.setPipe x.pipe fun y => { y with waking := none }).put (Obj.sleepDepth x.pipe) 0

/-- Pipe 16 reaches RUN. -/
def spareRuns (s : State) (x : Takeover) : State :=
  if x.pipe = 16 ∧ s.fn (Fn.pipeNo x.pipe) ≠ 2 then s.reachRun (Fn.pipeNo x.pipe) else s

/-- The changed SLEEP of the group acts, the pipe's slices end, and the takeover is counted, timed and logged. -/
def takeoverEnded (s : State) (x : Takeover) : State :=
  let w := (if s.heldFn (Fn.pipeNo x.pipe) then s else s.thawSleep [x.group]).endSlices fun n => n == x.pipe
  ((w.bump32 Obj.takeovers).put Obj.lastTakeoverNs (min ((w.clock - x.started) * 5 / 8) (2 ^ 32 - 1))).log
    { kind := 5, unit := x.pipe, reaction := if x.neighbour then 3 else 2, detail := field 8 x.pipe + x.group }

theorem spareRuns_eq : spareRuns s x = if x.pipe = 16 ∧ s.fn (Fn.pipeNo 16) ≠ 2 then s.reachRun (Fn.pipeNo 16) else s := by
  by_cases h : x.pipe = 16
  · rw [spareRuns, h]
  · rw [spareRuns, if_neg fun hc => h hc.1, if_neg fun hc => h hc.1]

theorem takeover_next (h : s.faults.takeovers = x :: xs) : exec .takeover s =
    .next (((takeoverEnded (spareRuns (groupTaken s x xs) x) x).startPorts (groupPorts x.group)).startTakeover) := by
  rw [spareRuns_eq]
  change execTakeover s = _
  simp only [execTakeover, h]
  rfl

/-! ### Returns (R387) -/

/-- The row of GROUP_RETURN. -/
def groupReturnRow : Family := ⟨0x9021, 1, 1, 1, 16, .bool, 1, .wo, 0, .range 0 1, 0⟩

theorem groupReturn_writable : ∀ g : Group, PlinthWritable 0x9021 (1 + g.val) groupReturnRow := by decide +kernel

theorem writeObject_groupReturn :
    s.writeObject groupReturnRow (Dict.key 0x9021 (1 + g.val)) 1 none = wroteIf (s.groupReturn g.val) := by
  have hkey : ∀ g : Group, Dict.key 0x9021 (1 + g.val) ∉
      [Obj.firstErrorClear, Obj.faultAck, Obj.faultSummaryClear, Obj.fenceRequest] ∧ Dict.key 0x9021 (1 + g.val) % 256 - 1 = g.val := by
    decide
  obtain ⟨hne, hg⟩ := hkey g
  simp only [List.mem_cons, List.not_mem_nil, or_false, not_or] at hne
  obtain ⟨h1, h2, h3, h4⟩ := hne
  change s.writeFaults groupReturnRow (Dict.key 0x9021 (1 + g.val)) 1 = _
  simp [State.writeFaults, h1, h2, h3, h4, hg, groupReturnRow]

theorem exec_groupReturn (hs : plinthOpen s) (hw : wroteIf (s.groupReturn g.val) = w) :
    exec (.groupReturn g) s = answering (s.outcomeOf w).outcome (.code (s.outcomeOf w).code) :=
  hostWrite_plinthJudged hs (groupReturn_writable g) (by decide) rfl (writeObject_groupReturn.trans hw)

theorem groupReturn_rejected (h : s.groupPipe v = v ∨ 16 < s.groupPipe v ∨ s.fn (Fn.pipeNo v) ≠ 1 ∨
    ∃ t ∈ s.faults.takeovers, t.group = v) : s.groupReturn v = none := by
  refine if_pos ?_
  rcases h with h | h | h | ⟨t, ht, h⟩
  · exact .inl h
  · exact .inr (.inl h)
  · exact .inr (.inr (.inl h))
  · exact .inr (.inr (.inr (List.any_eq_true.mpr ⟨t, ht, beq_iff_eq.mpr h⟩)))

/-- A group that a stopped pipe of its own leaves to another, and that no takeover moves, may return. -/
theorem groupReturn_accepted (hp : s.groupPipe v ≠ v) (h16 : s.groupPipe v ≤ 16) (hf : s.fn (Fn.pipeNo v) = 1)
    (ht : ∀ t ∈ s.faults.takeovers, t.group ≠ v) : s.groupReturn v = some (if s.faults.returns.contains v then s
      else { s with faults := { s.faults with returns := s.faults.returns ++ [v] } }) := by
  have hc : ¬(s.groupPipe v = v ∨ 16 < s.groupPipe v ∨ s.fn (Fn.pipeNo v) ≠ 1 ∨ s.faults.takeovers.any (fun t => t.group == v) = true) := by
    rw [List.any_eq_true]
    rintro (h | h | h | ⟨t, hmem, h⟩)
    · exact hp h
    · omega
    · exact h hf
    · exact ht t hmem (beq_iff_eq.mp h)
  rw [State.groupReturn, if_neg hc, apply_ite some]

theorem groupReturnEnd_waits (h : s.faults.returns.contains g.val = false ∨ s.groupDrained g.val = false) :
    exec (.groupReturnEnd g) s = .next s := by
  refine if_neg ?_
  rcases h with h | h <;> rw [h] <;> simp

theorem groupReturnEnd_drained (hr : s.faults.returns.contains g.val = true) (hd : s.groupDrained g.val = true) :
    exec (.groupReturnEnd g) s = .next ((((({ s with faults := { s.faults with
      returns := s.faults.returns.filter fun y => y != g.val } } : State).put (Obj.groupPipe g.val) g.val).reachRun
        (Fn.pipeNo g.val)).log { kind := 6, unit := g.val, detail := g.val }).startPorts (groupPorts g.val)) :=
  if_pos (by rw [hr, hd]; rfl)

/-- Settles O57: FENCE_REQUEST by its operation, a fence by whether its unit is fenced, and a takeover as the moves that it makes in
turn. -/
theorem fencesAndReleases : Obligations.FencesAndReleases := by
  refine fun s => ⟨fun hs unit => ⟨fun t ht => exec_hostFence hs (congrArg wroteIf ht), fun h => exec_hostFence hs (congrArg wroteIf h),
    fun e he => ?released⟩, fun u cause byHost => fenceOne_fenced, fun u cause byHost => fenceOne_inService, fun unit => ?swept,
    takeover_none, fun x xs => takeover_next, fun hs g => ?returned, fun g => ⟨groupReturnEnd_waits, groupReturnEnd_drained⟩,
    fun passed => releaseEnd_idle, fun u slice hr => ⟨releaseEnd_passed hr, releaseEnd_failed hr⟩⟩
  case released =>
    refine ⟨fun h => exec_releaseCommand hs he (w := refuseValue) (by rw [startRelease_rejected h]; rfl),
      fun h0 h1 hk hr => ⟨fun hf => ?_, fun hf => ?_⟩⟩
    · exact exec_releaseCommand hs he (by rw [startRelease_inService ⟨h0, h1, hk, hr⟩ hf])
    · exact exec_releaseCommand hs he (by rw [startRelease_fenced ⟨h0, h1, hk, hr⟩ hf])
  case swept =>
    exact ⟨fenceSweep_inService, fun b hf hk => (fenceSweep_fenced hf).trans (congrArg _ (sweep_bank hk)),
      fun p hf hk => (fenceSweep_fenced hf).trans (congrArg _ (sweep_pipe hk))⟩
  case returned =>
    refine ⟨fun hp hf h16 ht => ⟨fun hr => ?_, fun hr => ?_⟩, fun h => exec_groupReturn hs (congrArg wroteIf (groupReturn_rejected h))⟩
    all_goals
      have ha := groupReturn_accepted hp hf h16 ht
      rw [hr] at ha
      exact exec_groupReturn hs (congrArg wroteIf ha)

end Sys2Proof.Proofs

/-! PROOFS. Kiln slices (R396-R409), flow counters (R417-R423), DDR5 bursts and the Caliper's commands (R424, R425). -/

namespace Sys2Proof.Proofs

open Sys2Proof.Machine Sys2Proof.Safety Sys2Proof.Laws

variable {s : State} {f : Family} {w : Written} {x : Slice} {r : SliceRun} {which : Fin 2} {pair : Fin 2097152} {b : List Byte}
  {words : List (BitVec 32)} {requested : Bool} {a c e i j k n off v : Nat}

/-! ### Ticks and the slices that they start (R398-R400, R408) -/

theorem kilnTick_held (h : s.tickHeld = true) : exec .kilnTick s = .next s := if_pos h

/-- No request waits for a tick any more. -/
def dequeued (s : State) : State := { s with kiln := { s.kiln with queued := none } }

theorem kilnTick_requested (h : s.tickHeld = false) (hq : (s.request 6).kiln.queued = some v) :
    exec .kilnTick s = .next (((dequeued (s.request 6)).requestedSlice v).2.runEntry
      ((dequeued (s.request 6)).requestedSlice v).1.kind (some ((dequeued (s.request 6)).requestedSlice v).1) true) := by
  change execKilnTick s = _
  simp only [execKilnTick, h, Bool.false_eq_true, if_false, hq]
  rfl

theorem kilnTick_sweeps (h : s.tickHeld = false) (hq : (s.request 6).kiln.queued = none) :
    exec .kilnTick s = .next ((s.request 6).advanceSweep.runEntry (sweepEntry ((s.request 6).obj? Obj.sweepPosition)).1
      ((s.request 6).entryOf (sweepEntry ((s.request 6).obj? Obj.sweepPosition)).1
        (sweepEntry ((s.request 6).obj? Obj.sweepPosition)).2) false) := by
  change execKilnTick s = _
  simp only [execKilnTick, h, Bool.false_eq_true, if_false, hq]

theorem runEntry_starts (h : s.skips x = false) : s.runEntry x.kind (some x) requested = s.startSlice x requested :=
  if_neg (Bool.eq_false_iff.mp h)

theorem runEntry_skips (h : s.skips x = true) : s.runEntry x.kind (some x) requested = s.countSkip x.kind requested := if_pos h

/-! ### The ends of a slice (R399, R402, R404, R405) -/

theorem sliceEnd_none {result : SliceResult} (h : s.kiln.running[which.val]? = none) : exec (.sliceEnd which result) s = .next s := by
  change execSliceEnd which result s = _
  simp only [execSliceEnd, h]

theorem sliceTimeout_none (h : s.kiln.running[which.val]? = none) : exec (.sliceTimeout which) s = .next s := by
  change execSliceTimeout which s = _
  simp only [execSliceTimeout, h]

section Running

variable (hr : s.kiln.running[which.val]? = some r)
include hr

theorem sliceTimeout_fails : exec (.sliceTimeout which) s =
    .next (s.failSlice r 3 0 (if r.slice / 4096 = 8 then 0 else (s.golden r.what).getD 0)) := by
  change execSliceTimeout which s = _
  simp only [execSliceTimeout, hr]

theorem sliceEnd_signature {good : Bool} (hk : r.slice / 4096 = 8) : exec (.sliceEnd which (.signature good)) s =
    .next (if good then s.passSlice r else s.failSlice r 2 0 0) := by
  change execSliceEnd which (.signature good) s = _
  cases good <;> simp [execSliceEnd, hr, hk]

theorem sliceEnd_responses (hk : r.slice / 4096 ≠ 8) : exec (.sliceEnd which (.responses words)) s =
    .next (if misr words = (s.golden r.what).getD 0 then s.passSlice r
      else s.failSlice r 2 (misr words) ((s.golden r.what).getD 0)) := by
  change execSliceEnd which (.responses words) s = _
  simp only [execSliceEnd, hr, hk, if_false, apply_ite Host.Outcome.next]

end Running

/-! ### SLICE_REQUEST (R408) -/

/-- The row of SLICE_REQUEST. -/
def sliceRequestRow : Family := ⟨0x9100, 1, 1, 5, 1, .u16, 2, .wo, 0, .any, 0⟩

theorem sliceRequest_writable : PlinthWritable 0x9100 5 sliceRequestRow := by decide +kernel

theorem exec_sliceRequest {v : BitVec 16} (hs : plinthOpen s) (hw : wroteIf (s.sliceRequest v.toNat) = w) :
    exec (.sliceRequest v) s = answering (s.outcomeOf w).outcome (.code (s.outcomeOf w).code) :=
  hostWrite_plinthJudged hs sliceRequest_writable v.isLt rfl hw

theorem sliceRequest_accepted (hl : (kindUnits (v / 4096)).1 ≤ v % 4096)
    (hu : v % 4096 < (kindUnits (v / 4096)).1 + (kindUnits (v / 4096)).2) (hq : s.kiln.queued = none)
    (hr : ∀ y ∈ s.kiln.running, y.requested = false) : s.sliceRequest v =
      some (({ s with kiln := { s.kiln with queued := some v } } : State).put Obj.sliceRequestResult 1) := by
  refine if_neg ?_
  rintro (h | h | h | h)
  · omega
  · omega
  · simp [hq] at h
  · obtain ⟨y, hy, ht⟩ := List.any_eq_true.mp h
    simp [hr y hy] at ht

theorem sliceRequest_rejected (h : v % 4096 < (kindUnits (v / 4096)).1 ∨
    (kindUnits (v / 4096)).1 + (kindUnits (v / 4096)).2 ≤ v % 4096 ∨ s.kiln.queued.isSome = true ∨
    ∃ y ∈ s.kiln.running, y.requested = true) : s.sliceRequest v = none :=
  if_pos (h.imp_right (Or.imp_right (Or.imp_right List.any_eq_true.mpr)))

/-! ### DDR5 bursts (R424) -/

/-- An object set to a value that is not its reset value leaves every other one. -/
theorem obj?_put_listed (hv : v ≠ Dict.reset k) (hj : j ≠ k) : (s.put k v).obj? j = s.obj? j := by
  rw [State.obj?, State.put, Sparse.set, if_neg hv, Sparse.get, sparse_find?_insert, if_neg hj]
  rfl

theorem setBit_zero_ne (v : Nat) : setBit v 0 ≠ 0 := by
  intro h
  have hb := bit_setBit v 0
  rw [h] at hb
  exact absurd hb (by decide)

theorem reset_counterSummary : Dict.reset Obj.counterSummary = 0 := by decide +kernel

/-- An event counted sets no object but a summary's flag. -/
theorem obj?_countN (hk : k ≠ Obj.counterSummary) : (s.countN e n).obj? k = s.obj? k := by
  have hrecord : ∀ v, (s.putRecord Obj.caliperEvents 8 e v).obj? k = s.obj? k := fun v => obj?_congr putBytes_obj k
  rw [State.countN]
  split
  · rfl
  · rw [apply_ite (fun t : State => t.obj? k), hrecord]
    refine ite_eq_right_iff.mpr fun _ => (obj?_put_listed ?_ hk).trans (hrecord _)
    rw [reset_counterSummary]
    exact setBit_zero_ne _

theorem ddr5Read_boot : (s.ddr5Read c n).boot = s.boot := dictApart_countN.boot

/-- The channel's last burst was a read. -/
theorem ddr5Read_reading : (s.ddr5Read c n).arm.reading.contains c = true := by
  obtain ⟨o, d, h⟩ := dictApart_countN (e := 0x190 + c) (n := n)
    (s := { s with arm := { s.arm with reading := c :: s.arm.reading.filter fun y => y != c } })
  rw [State.ddr5Read, h]
  simp

/-- The channel's last burst was a write. -/
theorem ddr5Write_reading : (s.ddr5Write c n).arm.reading.contains c = false := by
  obtain ⟨o, d, h⟩ := dictApart_countN (e := 0x1A0 + c) (n := n)
    (s := { s with arm := { s.arm with reading := s.arm.reading.filter fun y => y != c } })
  rw [State.ddr5Write, h]
  obtain ⟨o', d', h'⟩ := dictApart_countN (e := 0x1B0 + c) (n := b2n (s.arm.reading.contains c))
    (s := { s with arm := { s.arm with reading := s.arm.reading.filter fun y => y != c }, obj := o, dom := d })
  rw [h']
  simp

/-! ### Flow counters (R417-R423) -/

theorem flowFlush_idle (h : s.ready = false ∨ Sparse.find? s.flow pair.val = none ∨ s.flowLost pair.val = true) :
    exec (.flowFlush pair) s = .next s := by
  refine if_neg ?_
  rcases h with h | h | h <;> simp [h]

theorem flowFlush_writes (hr : s.ready = true) (hf : (Sparse.find? s.flow pair.val).isSome = true)
    (hl : s.flowLost pair.val = false) : exec (.flowFlush pair) s = .next (s.flowWriteBack pair.val) :=
  if_pos (by rw [hr, hf, hl]; rfl)

/-- The row of FLOW_COUNTERS. -/
def flowCountersRow : Family := ⟨0xA000, 1, 1, 1, 1, .domain, 33554432, .rw, 0, .any, 16⟩

theorem flowCounters_region : FastRegion 0xA000 1 flowCountersRow := by decide +kernel

theorem fits_pair (pair : Fin 2097152) : fitsRegion flowCountersRow (16 * pair.val) 16 := by
  have h := pair.isLt
  refine ⟨?_, rfl, ?_⟩ <;> simp only [flowCountersRow] <;> omega

/-- A pair's stored value and its pending delta, as a read returns them. -/
def pairBytes (s : State) (n : Nat) : List Byte :=
  toBe 8 ((s.storedPair n).1 + (s.flowLine n).packets) ++ toBe 8 ((s.storedPair n).2 + (s.flowLine n).octets)

/-- The state after a read of a pair: cleared where FLOW_READ_CLEAR says so. -/
def pairRead (s : State) (n : Nat) : State :=
  let t := s.ddr5Read (s.flowChannel n) 1
  if s.obj? Obj.flowReadClear = 1 then (t.storePair n 0 0).putFlow n .none else t

theorem flowRead_pair (hl : s.flowLost n = false) : s.flowRead n = (pairBytes s n, pairRead s n) := by
  have hclear : (s.ddr5Read (s.flowChannel n) 1).obj? Obj.flowReadClear = s.obj? Obj.flowReadClear := obj?_countN (by decide)
  simp only [State.flowRead, hl, Bool.false_eq_true, if_false, hclear]
  rfl

theorem flowReads_one (hl : s.flowLost n = false) : s.flowReads n 1 = (pairBytes s n, pairRead s n) := by
  simp only [State.flowReads, flowRead_pair hl, List.append_nil]

/-- Bytes read from FLOW_COUNTERS. -/
theorem readRegion_flow : s.readRegion (Dict.key 0xA000 1) off n = s.flowReads (off / 16) (n / 16) := if_pos rfl

theorem exec_flowCounterRead (hs : fastOpen s) (hl : s.flowLost pair.val = false) :
    exec (.flowCounterRead pair 1) s = .next { pairRead s pair.val with answer := .completion (pairBytes s pair.val) } := by
  have hfit := fits_pair pair
  have hsize : s.regionSize 0xA000 1 = 33554432 := regionSize_fast flowCounters_region
  have ha : s.admits (.domainRead (16 * pair.val) 16) 0xA000 1 = .ok flowCountersRow := by
    obtain ⟨ho, hn, hle⟩ := hfit
    refine admits_region hs flowCounters_region rfl rfl ?_ rfl
    simp only [State.shapeRefuses, flowCountersRow] at ho hn hle ⊢
    simp only [ho, hsize, ne_eq, not_true_eq_false, or_self, if_false, Nat.not_lt.mpr hle]
  have hdiv : 16 * pair.val / 16 = pair.val := by omega
  have hserve : s.serveNow (.domainRead (16 * pair.val) 16) 0xA000 1 none =
      { code := 0, data := pairBytes s pair.val, outcome := .next (pairRead s pair.val) } := by
    have hwake : s.wakeFor 0xA000 = s := rfl
    simp only [State.serveNow, ha, slowFull_of_fastOpen hs, Bool.and_false, Bool.false_eq_true, if_false, serve_domainRead ha, hwake,
      readRegion_flow, hdiv, flowReads_one hl]
  obtain ⟨⟨hpower, -⟩, -⟩ := hs
  change execFlowCounterRead pair 1 s = _
  have hone : ((1 : Fin 89)).val = 1 := rfl
  simp only [execFlowCounterRead, hpower, hone, Nat.mul_one, hserve, Bool.not_true, Bool.false_eq_true, if_false, one_ne_zero, if_true]
  rfl

/-! ### Bytes as numbers -/

theorem foldl_beNat (b : List Byte) (a : Nat) :
    b.foldl (fun a y => 256 * a + y.toNat) a = a * 256 ^ b.length + beNat b := by
  induction b generalizing a with
  | nil => simp [beNat]
  | cons y b ih =>
    have hy : beNat (y :: b) = y.toNat * 256 ^ b.length + beNat b := (ih _).trans (by simp)
    rw [List.foldl_cons, ih, hy, List.length_cons, Nat.pow_succ]
    ring

theorem beNat_append (a b : List Byte) : beNat (a ++ b) = beNat a * 256 ^ b.length + beNat b := by
  rw [beNat, List.foldl_append, foldl_beNat]
  rfl

theorem beNat_zeros (h : ∀ y ∈ b, y = 0) : beNat b = 0 := by
  induction b with
  | nil => rfl
  | cons y b ih =>
    have hy : y = 0 := h y (List.mem_cons_self ..)
    rw [← List.singleton_append, beNat_append, ih fun z hz => h z (List.mem_cons_of_mem _ hz), hy]
    simp [beNat]

/-- A record of two counters reads back as them. -/
theorem recordsOf_pair {p o : Nat} (hp : p < 2 ^ 64) (ho : o < 2 ^ 64) : ∃ v, recordsOf 16 (toBe 8 p ++ toBe 8 o) = [v] ∧
    bits v 127 64 = p ∧ bits v 63 0 = o := by
  have hlen : (toBe 8 p ++ toBe 8 o).length = 16 := by simp [toBe_length]
  have hv : beNat (toBe 8 p ++ toBe 8 o) = p * 2 ^ 64 + o := by
    rw [beNat_append, beNat_toBe (by omega), beNat_toBe (by omega), toBe_length]
    norm_num
  refine ⟨p * 2 ^ 64 + o, ?_, ?_, ?_⟩
  · rw [recordsOf, hlen]
    simp only [Nat.reduceDiv, List.range_one, List.map_cons, List.map_nil, beAt, slice, Nat.mul_zero, List.drop_zero]
    rw [List.take_of_length_le hlen.le, hv]
  · simp only [bits]
    omega
  · simp only [bits]
    omega

theorem exec_flowCounterWrite {packets octets : BitVec 64} (hs : fastOpen s) (hl : s.flowLost pair.val = false) :
    exec (.flowCounterWrite pair packets octets) s =
      .next { s.flowWrite pair.val packets.toNat octets.toNat with answer := .code 0 } := by
  obtain ⟨v, hv, hp, ho⟩ := recordsOf_pair packets.isLt octets.isLt
  have hlen : (toBe 8 packets.toNat ++ toBe 8 octets.toNat).length = 16 := by simp [toBe_length]
  have hdiv : 16 * pair.val / 16 = pair.val := by omega
  have hwrite : s.writeFlow (16 * pair.val) (toBe 8 packets.toNat ++ toBe 8 octets.toNat) =
      wrote (s.flowWrite pair.val packets.toNat octets.toNat) := by
    simp [State.writeFlow, hv, hp, ho, hdiv, State.writePair, hl]
  exact hostWriteRegion_fast hs flowCounters_region (.inl rfl) rfl (hlen.symm ▸ fits_pair pair) (.inr (by decide)) hwrite

theorem flowInc_serves {packets octets : Nat} (h : s.flowServed.contains (n % 2097152) = true ∨
    (s.flowMayAccept (n % 2097152) = true ∧ s.flowQueue (n % 2097152) = [])) :
    s.flowInc n packets octets = s.flowServe (n % 2097152) packets octets := by
  refine if_pos ?_
  rcases h with h | ⟨ha, hq⟩
  · simp only [h, Bool.true_or]
  · simp only [ha, hq, List.isEmpty_nil, Bool.and_self, Bool.or_true]

theorem flowInc_waits {packets octets : Nat} (hc : s.flowServed.contains (n % 2097152) = false)
    (h : s.flowMayAccept (n % 2097152) = false ∨ s.flowQueue (n % 2097152) ≠ []) :
    s.flowInc n packets octets = s.flowWait (n % 2097152) packets octets := by
  refine if_neg ?_
  rw [hc, Bool.false_or, Bool.and_eq_true, List.isEmpty_iff]
  rintro ⟨ha, hq⟩
  rcases h with h | h
  · rw [h] at ha
    cases ha
  · exact h hq

/-! ### The Caliper's commands (R425) -/

/-- The row of CALIPER_FREEZE. -/
def caliperFreezeRow : Family := ⟨0xA100, 1, 1, 2, 1, .bool, 1, .rw, 0, .range 0 1, 0⟩

/-- The row of CALIPER_CLEAR_ALL. -/
def caliperClearRow : Family := ⟨0xA100, 1, 1, 3, 1, .bool, 1, .wo, 0, .range 0 1, 0⟩

theorem caliperFreeze_writable : Writable 0xA100 2 caliperFreezeRow ∧ OutsideBlocks 0xA100 := by decide +kernel

theorem caliperClear_writable : Writable 0xA100 3 caliperClearRow ∧ OutsideBlocks 0xA100 := by decide +kernel

theorem hostWrite_caliperFreeze (hs : fastOpen s) (hv : v ≤ 1) :
    s.hostWrite Obj.caliperFreeze v = .next { s.caliperFreeze v with answer := .code 0 } :=
  hostWrite_fastObject hs caliperFreeze_writable (fun _ => rfl) (Nat.lt_of_le_of_lt hv (by decide))
    (by simpa [caliperFreezeRow, Check.takes] using hv) (w := wrote (s.caliperFreeze v)) rfl

theorem caliperFreeze_freezes (h : s.obj? Obj.caliperFreeze ≠ 1) :
    s.caliperFreeze 1 = (s.put Obj.caliperFreeze 1).put Obj.caliperFrozenAt s.time := by
  simp [State.caliperFreeze, h]

theorem caliperFreeze_frozen (h : s.obj? Obj.caliperFreeze = 1) : s.caliperFreeze 1 = s := by
  simp [State.caliperFreeze, h]

theorem exec_caliperClearAll (hs : fastOpen s) :
    exec .caliperClearAll s = .next { s.caliperClear with answer := .code 0 } :=
  hostWrite_fastObject hs caliperClear_writable (fun _ => rfl) (by decide) rfl (w := wrote s.caliperClear) rfl

/-- No listed byte of the Caliper's counters is left, and an unlisted one is 0. -/
theorem byte_caliperClear (ha : a / 2 ^ 32 = Obj.caliperEvents) :
    Sparse.get Defaults.dom s.caliperClear.dom a = 0 := by
  have hnone : ∀ m : List (Nat × Byte), Sparse.find? (m.filter fun e => e.1 / 2 ^ 32 != Obj.caliperEvents) a = none := by
    intro m
    induction m with
    | nil => rfl
    | cons e m ih =>
      rw [List.filter_cons]
      split
      next he =>
        have hne : a ≠ e.1 := fun h => bne_iff_ne.mp he (h ▸ ha)
        exact (if_neg hne).trans ih
      next => exact ih
  have hdefault : Defaults.dom a = 0 := by
    simp only [Defaults.dom, ha]
    rfl
  simp only [State.caliperClear, Sparse.get, hnone, hdefault, Option.getD_none]

theorem getN_zeros {m : List (Nat × Byte)} (h : ∀ i < n, Sparse.get Defaults.dom m (a + i) = 0) :
    ∀ y ∈ Sparse.getN Defaults.dom m a n, y = 0 := by
  induction n generalizing a with
  | zero => simp [Sparse.getN]
  | succ n ih =>
    intro y hy
    rcases List.mem_cons.mp hy with rfl | hy
    · exact h 0 (Nat.succ_pos n)
    · exact ih (fun i hi => (congrArg _ (by omega)).trans (h (i + 1) (by omega))) y hy

theorem record_caliperClear (he : e < 1024) : s.caliperClear.record Obj.caliperEvents 8 e = 0 := by
  refine beNat_zeros (getN_zeros fun i hi => byte_caliperClear ?_)
  rw [Defaults.domAddr]
  omega

/-- Settles O58: a tick by what waits for it, a slice's end by its kind, a pair by its channel and its bank, and the Caliper by
whether it is frozen. -/
theorem slicesAndCounters : Obligations.SlicesAndCounters := by
  refine fun s => ⟨kilnTick_held, fun h => ⟨fun v => kilnTick_requested h, kilnTick_sweeps h⟩,
    fun x requested => ⟨runEntry_starts, runEntry_skips⟩, fun which result h => ⟨sliceEnd_none h, sliceTimeout_none h⟩,
    fun which r hr => ⟨fun hk => ?signature, fun hk => ?responses⟩,
    fun hs v => ⟨fun hl hu hq hr => ?_, fun h => ?_⟩, fun pair => ⟨flowFlush_idle, flowFlush_writes, fun hs hl => ?flow⟩,
    fun n packets octets => ⟨flowInc_serves, flowInc_waits, fun h => if_pos h⟩,
    fun c n => ⟨ddr5Read_boot.symm, ddr5Read_reading, ddr5Write_reading, rfl⟩, fun hs => ?caliper⟩
  case signature =>
    exact ⟨sliceEnd_signature hr hk, sliceEnd_signature hr hk, (sliceTimeout_fails hr).trans (by rw [if_pos hk])⟩
  case responses =>
    exact ⟨fun words => ⟨fun h => (sliceEnd_responses hr hk).trans (by rw [if_pos h]),
      fun h => (sliceEnd_responses hr hk).trans (by rw [if_neg h])⟩, (sliceTimeout_fails hr).trans (by rw [if_neg hk])⟩
  · exact exec_sliceRequest hs (congrArg wroteIf (sliceRequest_accepted hl hu hq hr))
  · exact exec_sliceRequest hs (congrArg wroteIf (sliceRequest_rejected h))
  case flow =>
    have hread := exec_flowCounterRead hs hl
    refine ⟨fun h => ?_, fun h => ?_, fun packets octets => exec_flowCounterWrite hs hl⟩
    · rw [pairRead, if_neg h] at hread
      exact hread
    · rw [pairRead, if_pos h] at hread
      exact hread
  case caliper =>
    refine ⟨fun h => (hostWrite_caliperFreeze hs le_rfl).trans ?_, fun h => (hostWrite_caliperFreeze hs le_rfl).trans ?_,
      hostWrite_caliperFreeze hs (Nat.zero_le 1), exec_caliperClearAll hs, fun hw => ⟨fun e => record_caliperClear, rfl⟩⟩
    · rw [caliperFreeze_freezes h]
    · rw [caliperFreeze_frozen h]

end Sys2Proof.Proofs

/-! PROOFS. The Atelier's sequencers: words, dispatch, checkpoints, traps, and reloads (R429-R444). -/

namespace Sys2Proof.Proofs

open Sys2Proof.Machine Sys2Proof.Safety Sys2Proof.Laws

variable {s t : State} {x : Sequencer} {g : Machine.Seq → Machine.Seq} {w : Written} {image : List Byte} {trap : Trap} {f : TrapFrame}
  {a b k m n v : Nat} {c good : Bool}

/-! ### A sequencer changed -/

theorem seq_setSeq_same (h : n < s.atelier.seqs.length) : (s.setSeq n g).seq n = g (s.seq n) := by
  simp [State.seq, State.setSeq, modifyAt, List.getD, h]

theorem seq_setSeq_ne (h : m ≠ n) : (s.setSeq n g).seq m = s.seq m := by
  simp [State.seq, State.setSeq, modifyAt, List.getD, h.symm]

/-- What a change of a sequencer leaves of it, it leaves of every sequencer. -/
theorem seq_setSeq_keeps {α : Type} {p : Machine.Seq → α} (h : ∀ q, p (g q) = p q) : p ((s.setSeq n g).seq m) = p (s.seq m) := by
  by_cases hm : m = n
  · subst hm
    by_cases hl : m < s.atelier.seqs.length
    · rw [seq_setSeq_same hl, h]
    · simp [State.seq, State.setSeq, modifyAt, List.getD, Nat.not_lt.mp hl]
  · rw [seq_setSeq_ne hm]

/-- A change that leaves the service of a sequencer leaves which queues each one serves. -/
theorem servedQueues_setSeq (h : ∀ q, (g q).service = q.service) : (s.setSeq n g).servedQueues m = s.servedQueues m := by
  have hserves : ∀ q, (g q).serves = q.serves := fun q => by rw [Seq.serves, h q, Seq.serves]
  have hin : ∀ i, (s.setSeq n g).inService i = s.inService i := fun i => by
    rw [State.inService, State.inService, seq_setSeq_keeps hserves]
    rfl
  have hcover : ∀ i, (s.setSeq n g).coverOf i = s.coverOf i := fun i => by
    rw [State.coverOf, State.coverOf, funext hin]
  simp only [State.servedQueues, hin, hcover]

/-! ### Words (R435) -/

/-- The commands that run a word, each with its sequence code. -/
def wordRuns (x : Sequencer) : List (Instr × Nat) :=
  [(.continueWord x, 0), (.jumpWord x, 1), (.branchSet x, 2), (.branchClear x, 3), (.callWord x, 4), (.returnWord x, 5),
    (.waitWord x, 6), (.checkpoint x, 7), (.endRoutine x, 8), (.trapReturn x, 9)]

/-- A word of another sequence code is not run. -/
theorem word_other {e : Instr × Nat} (he : e ∈ wordRuns x) (h : s.atWord x.val e.2 = false) : exec e.1 s = .next s := by
  have hnot : (!s.atWord x.val e.2) = true := by rw [h]; rfl
  simp only [wordRuns, List.mem_cons, List.not_mem_nil, or_false] at he
  rcases he with rfl | rfl | rfl | rfl | rfl | rfl | rfl | rfl | rfl | rfl <;> exact if_pos hnot

/-- The state after the operations of a sequencer's word. -/
def ran (s : State) (n : Nat) : State := s.runOps n (s.seqWord n)

theorem continueWord_runs (h : s.atWord x.val 0 = true) :
    exec (.continueWord x) s = .next ((ran s x.val).goto x.val (s.pcNext x.val)) := if_neg (by rw [h]; decide)

theorem jumpWord_runs (h : s.atWord x.val 1 = true) :
    exec (.jumpWord x) s = .next ((ran s x.val).goto x.val (bits (s.seqWord x.val) 132 119)) := if_neg (by rw [h]; decide)

theorem callWord_runs (h : s.atWord x.val 4 = true) : exec (.callWord x) s =
    .next (((ran s x.val).setSeq x.val fun q => q.setReg 15 (s.pcNext x.val % 16384)).goto x.val
      (bits (s.seqWord x.val) 132 119)) := if_neg (by rw [h]; decide)

theorem returnWord_runs (h : s.atWord x.val 5 = true) : exec (.returnWord x) s =
    .next ((ran s x.val).goto x.val (bits (((ran s x.val).seq x.val).reg 15) 13 0)) := if_neg (by rw [h]; decide)

section Conditions

variable (hc : (ran s x.val).condition x.val (bits (s.seqWord x.val) 137 133) = (c, t))
include hc

theorem branchWord_goes {onTrue : Bool} : s.branchWord x.val onTrue =
    t.goto x.val (if c == onTrue then bits (s.seqWord x.val) 132 119 else s.pcNext x.val) := by
  unfold ran at hc
  simp only [State.branchWord, hc]

theorem branchSet_runs (h : s.atWord x.val 2 = true) : exec (.branchSet x) s =
    .next (t.goto x.val (if c = true then bits (s.seqWord x.val) 132 119 else s.pcNext x.val)) := by
  refine (if_neg (by rw [h]; decide)).trans ?_
  rw [branchWord_goes hc]
  simp only [beq_iff_eq]

theorem branchClear_runs (h : s.atWord x.val 3 = true) : exec (.branchClear x) s =
    .next (t.goto x.val (if c = false then bits (s.seqWord x.val) 132 119 else s.pcNext x.val)) := by
  refine (if_neg (by rw [h]; decide)).trans ?_
  rw [branchWord_goes hc]
  simp only [beq_iff_eq]

/-- The first clock of a WAIT runs the word's operations. -/
theorem waitWord_runs (h : s.atWord x.val 6 = true) (hw : (s.seq x.val).waiting = false) : exec (.waitWord x) s =
    .next (if c then t.goto x.val (s.pcNext x.val) else t.setSeq x.val fun q => { q with waiting := true }) := by
  unfold ran at hc
  change execWaitWord x s = _
  simp only [execWaitWord, h, hw, hc, Bool.not_true, Bool.false_eq_true, if_false, apply_ite Host.Outcome.next]

end Conditions

/-! ### The next address (R435) -/

/-- A sequencer at an address. -/
def atAddress (s : State) (n a : Nat) : State := s.setSeq n fun q => { q with pc := BitVec.ofNat 14 a, waiting := false }

theorem store_atAddress : ((atAddress s n a).seq n).store = (s.seq n).store := seq_setSeq_keeps (p := Seq.store) fun _ => rfl

theorem goto_stored (ha : a < 16384) (h : a < (s.seq n).store.length) : s.goto n a = atAddress s n a := by
  have hm : a % 16384 = a := Nat.mod_eq_of_lt ha
  have hstore : a < ((atAddress s n a).seq n).store.length := by rwa [store_atAddress]
  simp only [State.goto, hm]
  exact if_pos hstore

/-- An address at or above WORD_COUNT is a FATAL fault. -/
theorem goto_outside (ha : a < 16384) (h : (s.seq n).store.length ≤ a) : s.goto n a =
    (atAddress s n a).judge { unit := 0x5A0 + n, checker := 2, cls := 2, access := 12, master := 0x5A0 + n, address := 0 } := by
  have hm : a % 16384 = a := Nat.mod_eq_of_lt ha
  have hstore : ¬ a < ((atAddress s n a).seq n).store.length := by rw [store_atAddress]; omega
  simp only [State.goto, hm]
  exact if_neg hstore

theorem pc_atAddress (ha : a < 16384) (hn : n < s.atelier.seqs.length) : ((atAddress s n a).seq n).pc.toNat = a := by
  rw [atAddress, seq_setSeq_same hn]
  simp only [BitVec.toNat_ofNat]
  exact Nat.mod_eq_of_lt ha

/-! ### The ALU (R436) -/

theorem alu_results (ha : a < 2 ^ 64) (hb : b < 2 ^ 64) :
    (alu 2 a b).result = some ((a + b) % 2 ^ 64) ∧ (alu 2 a b).carry = some (decide (2 ^ 64 ≤ a + b)) ∧
      (alu 3 a b).result = some ((a + 2 ^ 64 - b) % 2 ^ 64) ∧ (alu 4 a b).result = some (Nat.land a b) ∧
      (alu 5 a b).result = some (Nat.lor a b) ∧ (alu 8 a b).result = some (a / 2 ^ (b % 64)) ∧
      (alu 16 a b).result = some (a * b % 2 ^ 64) ∧ (alu 10 a b).write = false := by
  have hand : Nat.land a b < 2 ^ 64 := Nat.and_lt_two_pow a hb
  have hor : Nat.lor a b < 2 ^ 64 := Nat.or_lt_two_pow ha hb
  have hshift : bits b 5 0 = b % 64 := by simp [bits]
  have hright : a / 2 ^ (b % 64) < 2 ^ 64 := Nat.lt_of_le_of_lt (Nat.div_le_self ..) ha
  refine ⟨rfl, rfl, rfl, congrArg some (Nat.mod_eq_of_lt hand), congrArg some (Nat.mod_eq_of_lt hor), ?_, rfl, rfl⟩
  rw [← hshift] at hright ⊢
  exact congrArg some (Nat.mod_eq_of_lt hright)

/-! ### Dispatch, checkpoints and the end of a routine (R430, R431, R433) -/

/-- A sequencer that may take a request: it is in service, idle, and no trap waits. -/
def mayDispatch (s : State) (n : Nat) : Prop :=
  s.ready = true ∧ s.inService n = true ∧ (s.seq n).running = none ∧ (s.seq n).level = 0 ∧ (s.seq n).nextTrap = none

theorem routineDispatch_none (h : mayDispatch s x.val) (hq : s.dispatchQueue x.val = none) : exec (.routineDispatch x) s = .next s := by
  obtain ⟨hr, hi, hrun, hl, ht⟩ := h
  change execRoutineDispatch x s = _
  simp [execRoutineDispatch, hr, hi, hrun, hl, ht, hq]

theorem routineDispatch_takes (h : mayDispatch s x.val) (hq : s.dispatchQueue x.val = some k) : exec (.routineDispatch x) s =
    .next ((s.setSeq k fun y => { y with queue := y.queue.drop 1 }).setSeq x.val fun y =>
      y.enter k ((s.seq k).queue.headD none)) := by
  obtain ⟨hr, hi, hrun, hl, ht⟩ := h
  change execRoutineDispatch x s = _
  simp [execRoutineDispatch, hr, hi, hrun, hl, ht, hq]

/-- The state past a CHECKPOINT word. -/
def pastWord (s : State) (n : Nat) : State := (ran s n).goto n (s.pcNext n)

/-- A sequencer's record of where its routine stands. -/
def noted (s : State) (n : Nat) : State := s.setSeq n fun q => { q with checkpoint := some (q.saved q.pc) }

theorem checkpoint_noRoutine (h : s.atWord x.val 7 = true) (hr : ((pastWord s x.val).seq x.val).running = none) :
    exec (.checkpoint x) s = .next (pastWord s x.val) := by
  unfold pastWord ran at hr ⊢
  change execCheckpoint x s = _
  simp only [execCheckpoint, h, hr, Bool.not_true, Bool.false_eq_true, if_false]

theorem checkpoint_trap (h : s.atWord x.val 7 = true) (hl : ((pastWord s x.val).seq x.val).level ≠ 0) :
    exec (.checkpoint x) s = .next (pastWord s x.val) := by
  unfold pastWord ran at hl ⊢
  change execCheckpoint x s = _
  simp only [execCheckpoint, h, Bool.not_true, Bool.false_eq_true, if_false]
  split
  · rfl
  · exact if_pos hl

/-- A sequencer that covers no other stays with its routine. -/
theorem checkpoint_own (h : s.atWord x.val 7 = true) (hr : ((pastWord s x.val).seq x.val).running = some x.val)
    (hl : ((pastWord s x.val).seq x.val).level = 0) (hq : (pastWord s x.val).servedQueues x.val = [x.val]) :
    exec (.checkpoint x) s = .next (noted (pastWord s x.val) x.val) := by
  have hserved : (noted (pastWord s x.val) x.val).servedQueues x.val = [x.val] :=
    (servedQueues_setSeq (g := fun q => { q with checkpoint := some (q.saved q.pc) }) fun _ => rfl).trans hq
  unfold noted pastWord ran at *
  change execCheckpoint x s = _
  simp only [execCheckpoint, h, hr, hl, hserved, Bool.not_true, Bool.false_eq_true, if_false, ne_eq, not_true_eq_false, List.any_cons,
    List.any_nil, bne_self_eq_false, Bool.false_and, Bool.or_self, Bool.and_false]

/-- The routine is counted. -/
def routineCounted (s : State) (n : Nat) : State := (ran s n).bump64 (Obj.seqRoutines n)

theorem endRoutine_ends (h : s.atWord x.val 8 = true) : exec (.endRoutine x) s =
    .next ((routineCounted s x.val).setSeq x.val fun q => { q with
      running := none, checkpoint := none, level := 0, frames := [none, none], waiting := false, noTrap := false,
      turn := (routineCounted s x.val).turnAfter x.val (((ran s x.val).seq x.val).running.getD x.val) }) :=
  if_neg (by rw [h]; decide)

/-! ### Traps (R437) -/

theorem microTrap_takes (hr : s.ready = true) (hw : s.seqWorks x.val = true) (ht : (s.seq x.val).nextTrap = some trap) :
    exec (.microTrap x) s = .next ((s.count (0x1C8 + x.val)).setSeq x.val fun q => { q with
      frames := modifyAt q.frames (trap.level - 1) fun _ => some (q.saved q.pc), traps := q.traps.erase trap, level := trap.level,
      pc := BitVec.ofNat 14 (64 + 8 * (trap.level - 1) + trap.cause), waiting := false }) := by
  change execMicroTrap x s = _
  simp only [execMicroTrap, hr, hw, ht, Bool.and_self, if_true]

theorem microTrap_none (ht : (s.seq x.val).nextTrap = none) : exec (.microTrap x) s = .next s := by
  change execMicroTrap x s = _
  simp only [execMicroTrap, ht, ite_self]

theorem trapReturn_restores (h : s.atWord x.val 9 = true) (hl : ((ran s x.val).seq x.val).level ≠ 0)
    (hf : ((ran s x.val).seq x.val).frames.getD (((ran s x.val).seq x.val).level - 1) none = some f) : exec (.trapReturn x) s =
      .next ((ran s x.val).setSeq x.val fun q => { q.resumed f with
        frames := modifyAt q.frames (((ran s x.val).seq x.val).level - 1) fun _ => none }) := by
  unfold ran at *
  change execTrapReturn x s = _
  simp only [execTrapReturn, h, hl, hf, Bool.not_true, Bool.false_eq_true, if_false]

/-! ### Reloads (R441-R443) -/

/-- The row of RELOAD_START. -/
def reloadStartRow : Family := ⟨0x8010, 1, 1, 2, 1, .enum8, 1, .wo, 0, .range 1 2, 0⟩

theorem reloadStart_writable : Writable 0x8010 2 reloadStartRow ∧ OutsideBlocks 0x8010 := by decide +kernel

theorem hostWrite_reloadStart (hs : fastOpen s) (hv : v = 1 ∨ v = 2) (hw : wroteIf (s.reloadStart v) = w) :
    s.hostWrite Obj.reloadStart v = answering (s.outcomeOf w).outcome (.code (s.outcomeOf w).code) := by
  refine hostWrite_fastObject hs reloadStart_writable (fun _ => rfl) ?_ ?_ hw <;> rcases hv with rfl | rfl <;> decide

theorem reloadStart_refused (h : s.mayReload = false) : s.reloadStart v = none := if_pos (by rw [h]; rfl)

theorem reloadStart_image (h : s.mayReload = true) :
    s.reloadStart 1 = some ((s.startReload s.reloadImage false).request 7) := by
  simp [State.reloadStart, h]

theorem reloadStart_hold (h : s.mayReload = true) :
    s.reloadStart 2 = some ((s.startReload s.atelier.hold true).request 7) := by
  simp [State.reloadStart, h]

theorem reloadVerified_idle (h : s.verifying = false ∨ s.atelier.flashRead = true) :
    exec (.reloadVerified good) s = .next s := by
  refine if_pos ?_
  rcases h with h | h <;> simp [h]

/-- Where the Kiln asks for no second try, an image is judged as it stands. -/
theorem reloadVerified_judges (hv : s.verifying = true) (hf : s.atelier.flashRead = false) (hr : s.kiln.retry = false) :
    exec (.reloadVerified good) s = .next (s.judgeReload s.atelier.staging good) := by
  change execReloadVerified good s = _
  simp only [execReloadVerified, hv, hf, hr, Bool.not_true, Bool.or_self, Bool.false_eq_true, if_false, Bool.false_and]

theorem judgeReload_rejects (h : s.reloadVerdict image good ≠ 2) :
    s.judgeReload image good = s.endReload (s.reloadVerdict image good) := if_neg h

theorem judgeReload_passes (h : s.reloadVerdict image good = 2) : s.judgeReload image good =
    (({ s with atelier := { s.atelier with staging := image } } : State).put Obj.reloadStatus 2).reloadNext := if_pos h

theorem flashRereadEnd_judges (hv : s.verifying = true) (hf : s.atelier.flashRead = true) : exec (.flashRereadEnd image good) s =
    .next (({ s with atelier := { s.atelier with flashRead := false } } : State).judgeReload (image.take 393216) good) :=
  if_pos (by rw [hv, hf]; rfl)

theorem sequencerRelease_passes (h : ((List.range 8).find? fun i => (s.seq i).service == .releasing) = some k)
    (hc : (s.seq k).atCheckpoint = true) : exec .sequencerRelease s = .next ((s.passWork k).setSeq k fun q =>
      { q with service := if s.kindOn 9 (0x5A0 + k) then .underTest else .loading }) := by
  change execSequencerRelease s = _
  simp only [execSequencerRelease, h, hc, Bool.not_true, Bool.false_eq_true, if_false]

/-- A sequencer whose store holds the staged image is in service again. -/
def storeLoaded (s : State) (k : Nat) : State :=
  s.setSeq k fun q => { q with store := imageStore s.atelier.staging, service := .inService, loadRetried := false }

theorem sequencerLoaded_matched (h : ((List.range 8).find? fun i => (s.seq i).service == .loading) = some k) :
    exec (.sequencerLoaded true) s = .next ((({ storeLoaded s k with atelier := { (storeLoaded s k).atelier with
      loaded := (storeLoaded s k).atelier.loaded ++ [k] } } : State).put (Obj.seqImageLevel k)
        (imageLevel s.atelier.staging)).reloadNext) := by
  change execSequencerLoaded true s = _
  simp only [execSequencerLoaded, h, if_true, storeLoaded]

/-- Settles O59: a word by its sequence code, an address by the store, and a reload by its verdict. -/
theorem sequencersWork : Obligations.SequencersWork := by
  intro s x n w u next
  refine ⟨fun e he => word_other he, continueWord_runs, jumpWord_runs,
    fun c t hc => ⟨branchSet_runs hc, branchClear_runs hc, waitWord_runs hc⟩, callWord_runs, returnWord_runs,
    fun hlen a ha => ⟨fun h => ?stored, goto_outside ha⟩, fun a b => alu_results,
    fun k hr hi hrun hl ht => ⟨routineDispatch_none ⟨hr, hi, hrun, hl, ht⟩, routineDispatch_takes ⟨hr, hi, hrun, hl, ht⟩⟩,
    fun h => ?checkpoint, endRoutine_ends, fun trap => microTrap_takes, microTrap_none, fun f => trapReturn_restores,
    fun hs => ?reloads, fun good => ⟨reloadVerified_idle, fun hv hf hr => ?verdict⟩, fun image good => flashRereadEnd_judges,
    fun k => sequencerRelease_passes, fun k => sequencerLoaded_matched⟩
  case stored =>
    rw [goto_stored ha h]
    exact ⟨pc_atAddress ha (Nat.lt_of_lt_of_eq x.isLt hlen.symm), rfl⟩
  case checkpoint =>
    intro t
    refine ⟨fun k hr hl hq hk => ?_, fun ho => ho.elim (checkpoint_noRoutine h) (checkpoint_trap h)⟩
    subst hk
    exact checkpoint_own h hr hl hq
  case reloads =>
    refine ⟨fun h => ⟨?_, ?_⟩, fun h => ⟨?_, ?_⟩⟩
    · exact hostWrite_reloadStart hs (.inl rfl) (congrArg wroteIf (reloadStart_refused h))
    · exact hostWrite_reloadStart hs (.inr rfl) (congrArg wroteIf (reloadStart_refused h))
    · exact hostWrite_reloadStart hs (.inl rfl) (congrArg wroteIf (reloadStart_image h))
    · exact hostWrite_reloadStart hs (.inr rfl) (congrArg wroteIf (reloadStart_hold h))
  case verdict =>
    have hj := reloadVerified_judges (good := good) hv hf hr
    exact ⟨fun h => hj.trans (congrArg _ (judgeReload_rejects h)), fun h => hj.trans (congrArg _ (judgeReload_passes h))⟩

end Sys2Proof.Proofs

/-! PROOFS. Time pins, the SMBus target, the pins of PCIe and of the test access port, reference clocks and the die's temperature
(R87, R455, R466-R472). -/

namespace Sys2Proof.Proofs

open Sys2Proof.Machine Sys2Proof.Safety Sys2Proof.Laws

variable {s : State} {b : List Byte} {pec : Option Byte} {clock : Fin 8} {ns : Int} {code n v : Nat}

/-! ### PPS_IN and PPS_OUT (R470, R471) -/

/-- An edge on PPS_IN, stamped with the time less the input's delay and counted. -/
def edgeStamped (s : State) : State :=
  (({ s with timing := { s.timing with lastIn := some s.clock } } : State).put Obj.ppsInTime
    (ofInt 64 (s.timebaseNow - toInt 32 (s.obj? Obj.ppsInDelayNs)))).wrap32 Obj.ppsInCount

theorem ppsInEdge_taken (hp : s.boot.powered = true)
    (h : ∀ c, s.timing.lastIn = some c → 100000 * 8 ≤ (s.clock - c) * 5) : exec .ppsInEdge s = .next (edgeStamped s) := by
  refine if_neg ?_
  rw [hp, Bool.not_true, Bool.false_or, Option.any_eq_true]
  rintro ⟨c, hc, hlt⟩
  exact Nat.not_lt.mpr (h c hc) (of_decide_eq_true hlt)

theorem ppsInEdge_tooSoon {c : Nat} (hc : s.timing.lastIn = some c) (h : (s.clock - c) * 5 < 100000 * 8) :
    exec .ppsInEdge s = .next s := by
  refine if_pos ?_
  rw [hc, Option.any_some, decide_eq_true h, Bool.or_true]

theorem exec_ppsOutEdge (hp : s.boot.powered = true) : exec .ppsOutEdge s = .next s.ppsJudge := if_pos hp

/-- An instant that no pulse has marked has been reached. -/
def pulseDue (s : State) : Prop :=
  s.obj? Obj.ppsOutEnable = 1 ∧ s.timing.base < s.ppsSecond ∧ ∀ l, s.timing.lastPulse = some l → l < s.ppsSecond

/-- PPS_OUT has risen for the second that the timebase has reached. -/
def pulsed (s : State) : State :=
  { s.ppsBase with timing := { s.ppsBase.timing with
    ppsOut := true, lastPulse := some s.ppsSecond, lastEdge := s.timebaseNow, todDue := s.pinColumn == .running } }

theorem ppsJudge_due (h : pulseDue s) : s.ppsJudge = pulsed s := by
  obtain ⟨he, hb, hl⟩ := h
  refine if_pos ?_
  rw [he, decide_eq_true hb]
  cases hp : s.timing.lastPulse with
  | none => rfl
  | some l => exact decide_eq_true (hl l hp)

theorem ppsJudge_notDue (h : s.obj? Obj.ppsOutEnable ≠ 1 ∨ s.ppsSecond ≤ s.timing.base ∨
    ∃ l, s.timing.lastPulse = some l ∧ s.ppsSecond ≤ l) : s.ppsJudge = s.ppsBase := by
  refine if_neg ?_
  rcases h with h | h | ⟨l, hl, h⟩
  · simp [h]
  · simp [not_lt.mpr h]
  · simp [hl, not_lt.mpr h]

/-- The timebase stepped. -/
def stepped (s : State) (ns : Int) : State := { s with timebase := s.timebase + ns }

theorem timebaseStep_eq (hp : s.boot.powered = true) : exec (.timebaseStep ns) s =
    .next (if 0 < ns then (stepped s ns).ppsJudge else (stepped s ns).ppsBase) := if_neg (by rw [hp]; decide)

/-! ### Time of day (R472) -/

theorem todTxStart_notDue (h : s.timing.todDue = false) : exec .todTxStart s = .next s := if_pos (by simp [h])

/-- The message that is due is due no more. -/
def todOver (s : State) (sent : List Byte) : State := { s with timing := { s.timing with todDue := false, sent := sent } }

theorem todTxStart_due (hp : s.boot.powered = true) (h : s.timing.todDue = true) : exec .todTxStart s =
    .next (todOver s (if s.obj? Obj.todTxEnable = 1 ∧ s.pinColumn = .running then
      todMessage (s.obj? Obj.todTxFlags) (ofInt 64 s.timing.lastEdge) else s.timing.sent)) := if_neg (by simp [hp, h])

theorem todMessageReceived_good (hp : s.boot.powered = true) (hl : b.length = 16) (hm : beAt b 0 2 = 0x5A56)
    (hc : beAt b 15 1 = crc8 (b.take 15)) :
    exec (.todMessageReceived b) s = .next ((s.put Obj.todRxLast (beNat b)).wrap32 Obj.todRxCount) := by
  change execTodMessageReceived b s = _
  simp [execTodMessageReceived, hp, hl, hm, hc]

theorem todMessageReceived_bad (hp : s.boot.powered = true)
    (h : b.length ≠ 16 ∨ beAt b 0 2 ≠ 0x5A56 ∨ beAt b 15 1 ≠ crc8 (b.take 15)) :
    exec (.todMessageReceived b) s = .next (s.bump32 Obj.todRxErrors) := by
  refine (if_neg (by rw [hp]; decide)).trans (if_neg ?_)
  rcases h with h | h | h <;> simp [h]

/-! ### SMBus (R466-R468) -/

theorem boardReads_open (h0 : s.boot.fuses ≠ 0) (h4 : s.boot.fuses ≠ 4) : s.boardReads = true := by
  simp [State.boardReads, h0, h4]

theorem boardReads_closed (h : s.boot.fuses = 0 ∨ s.boot.fuses = 4) : s.boardReads = false := by
  rcases h with h | h <;> simp [State.boardReads, h]

/-- A value answered least significant byte first, under its packet error code. -/
def smbusAnswered (s : State) (code n v : Nat) : State :=
  { s with answer := .smbus (toLe n v) (s.smbusReadPec code (toLe n v)) }

theorem smbusRead_allowed (hp : s.boot.powered = true) : s.smbusRead true code n v = smbusAnswered s code n v :=
  if_neg (by rw [hp]; decide)

theorem smbusRead_refused (hp : s.boot.powered = true) : s.smbusRead false code n v = { s with answer := .nack } :=
  if_neg (by rw [hp]; decide)

/-- The commands that read what the life-cycle state may keep from the board: each with its command code, its size and its value. -/
def boardCommands (s : State) : List (Instr × Nat × Nat × Nat) :=
  [(.smbusReadBootState, 1, 1, s.obj? Obj.bootState), (.smbusReadDieTemp, 16, 4, s.obj? Obj.dieTemp),
    (.smbusReadTempAlarm, 17, 4, s.obj? Obj.tempAlarm), (.smbusReadRailStatus, 18, 4, s.railStatus)]

theorem exec_boardCommand {e : Instr × Nat × Nat × Nat} (he : e ∈ boardCommands s) :
    exec e.1 s = .next (s.smbusRead s.boardReads e.2.1 e.2.2.1 e.2.2.2) := by
  simp only [boardCommands, List.mem_cons, List.not_mem_nil, or_false] at he
  rcases he with rfl | rfl | rfl | rfl <;> rfl

theorem writeTempAlarm_badPec {c : Byte} (hc : pec = some c) (h : c.toNat ≠ s.smbusWritePec 17 b) :
    exec (.smbusWriteTempAlarm b pec) s = .next s := if_pos (by simp [hc, h])

section GoodPec

variable (hp : s.boot.powered = true) (hpec : ∀ c, pec = some c → c.toNat = s.smbusWritePec 17 b)
include hp hpec

/-- No packet error code, or a right one, lets the write through to the dictionary. -/
theorem writeTempAlarm_goodPec : exec (.smbusWriteTempAlarm b pec) s =
    if b.length != 4 || !s.boardReads then .next { s with answer := .nack }
    else .next { s.put Obj.tempAlarm (leNat b) with answer := .none } := by
  refine if_neg ?_
  rw [hp, Bool.not_true, Bool.false_or, Option.any_eq_true]
  rintro ⟨c, hc, hne⟩
  exact bne_iff_ne.mp hne (hpec c hc)

theorem writeTempAlarm_taken (hl : b.length = 4) (h0 : s.boot.fuses ≠ 0) (h4 : s.boot.fuses ≠ 4) :
    exec (.smbusWriteTempAlarm b pec) s = .next { s.put Obj.tempAlarm (leNat b) with answer := .none } :=
  (writeTempAlarm_goodPec hp hpec).trans (if_neg (by simp [hl, boardReads_open h0 h4]))

theorem writeTempAlarm_refused (h : b.length ≠ 4 ∨ s.boot.fuses = 0 ∨ s.boot.fuses = 4) :
    exec (.smbusWriteTempAlarm b pec) s = .next { s with answer := .nack } := by
  refine (writeTempAlarm_goodPec hp hpec).trans (if_pos ?_)
  rcases h with h | h
  · simp [h]
  · simp [boardReads_closed h]

end GoodPec

/-! ### The test access port (R469) -/

/-- The commands that load an instruction that drives pins. -/
def extestCommands : List (Instr × Tap) := [(.extestPulse, .extestPulse), (.extestTrain, .extestTrain)]

theorem exec_extest {e : Instr × Tap} (he : e ∈ extestCommands) : exec e.1 s = s.loadInstruction e.2 := by
  simp only [extestCommands, List.mem_cons, List.not_mem_nil, or_false] at he
  rcases he with rfl | rfl <;> rfl

theorem loadInstruction_scrapped {t : Tap} (h : s.boot.fuses = 4) : s.loadInstruction t = .next s := if_pos (by simp [h])

theorem loadInstruction_misuse {t : Tap} (hp : s.boot.powered = true) (h : s.boot.fuses ≠ 4)
    (hf : ∃ n ∈ Fn.numbers, s.fn n ≠ 0) : s.loadInstruction t = .fault (.unbounded "UB-PIN-2") := by
  obtain ⟨n, hn, hne⟩ := hf
  have hany : (Fn.numbers.any fun i => s.fn i != 0) = true := List.any_eq_true.mpr ⟨n, hn, bne_iff_ne.mpr hne⟩
  exact (if_neg (by simp [hp, h])).trans (if_pos hany)

theorem loadInstruction_loads {t : Tap} (hp : s.boot.powered = true) (h : s.boot.fuses ≠ 4) (hf : ∀ n ∈ Fn.numbers, s.fn n = 0) :
    s.loadInstruction t = .next { s with pins := { s.pins with trstN := true, tap := t } } := by
  refine (if_neg (by simp [hp, h])).trans (if_neg ?_)
  rw [List.any_eq_true]
  rintro ⟨n, hn, hne⟩
  exact bne_iff_ne.mp hne (hf n hn)

/-! ### SD reference clocks (R87) -/

theorem bit_eq_testBit : bit v n = v.testBit n := by
  rw [bit, Nat.testBit_eq_decide_div_mod_eq]
  rfl

theorem bit_clearBits_self : bit (clearBits v (2 ^ n)) n = false := by
  have hand : Nat.land v (2 ^ n) = if bit v n then 2 ^ n else 0 := by
    rw [bit_eq_testBit]
    refine (Nat.and_two_pow v n).trans ?_
    cases v.testBit n <;> simp
  rw [clearBits, hand, bit_sub_self]

/-- A byte has the bits of the number that it is made of. -/
theorem bit_byte (h : n < 8) : bit (BitVec.ofNat 8 v).toNat n = bit v n := by
  rw [BitVec.toNat_ofNat, bit_eq_testBit, bit_eq_testBit, Nat.testBit_mod_two_pow, decide_eq_true h, Bool.true_and]

theorem sdRefclkLoss_shows (hw : s.dictWf = true) : ∃ t, exec (.sdRefclkLoss clock) s = .next t ∧
    bit (t.obj? Obj.clockStatus) (8 + clock.val) = false ∧ bit t.pins.sdLost.toNat clock.val = true := by
  refine ⟨_, rfl, ?_, (bit_byte clock.isLt).trans (bit_setBit _ _)⟩
  exact (congrArg (bit · _) (obj?_put_self (dictWf_iff.mp (by exact hw)).1)).trans bit_clearBits_self

theorem sdRefclkReturn_shows (hw : s.dictWf = true) : ∃ t, exec (.sdRefclkReturn clock) s = .next t ∧
    bit (t.obj? Obj.clockStatus) (8 + clock.val) = true ∧ bit t.pins.sdLost.toNat clock.val = false := by
  refine ⟨_, rfl, ?_, (bit_byte clock.isLt).trans bit_clearBits_self⟩
  exact (congrArg (bit · _) (obj?_put_self (dictWf_iff.mp (by exact hw)).1)).trans (bit_setBit _ _)

/-- Settles O60: the pins of time by what is due, the SMBus by the life-cycle state, an instruction by the functions, and a reference
clock by its bits. -/
theorem pinsAndBoard : Obligations.PinsAndBoard := by
  intro s hp
  refine ⟨ppsInEdge_taken hp, fun c => ppsInEdge_tooSoon, ⟨fun he hb hl => ?_, fun h => ?_⟩, fun ns => ⟨fun h => ?_, fun h => ?_⟩, rfl,
    todTxStart_notDue, fun hd => ⟨fun he hc => ?_, fun h => ?_⟩,
    fun m => ⟨todMessageReceived_good hp, todMessageReceived_bad hp⟩,
    fun e he => ⟨fun h0 h4 => ?_, fun h => ?_⟩, congrArg _ (smbusRead_allowed hp),
    fun rail mv => congrArg _ (smbusRead_allowed hp), fun v pec => ⟨fun c => writeTempAlarm_badPec, fun hpec =>
      ⟨writeTempAlarm_taken hp hpec, writeTempAlarm_refused hp hpec⟩⟩, rfl, rfl, rfl,
    fun e he => ⟨fun h => (exec_extest he).trans (loadInstruction_scrapped h),
      fun h hf => (exec_extest he).trans (loadInstruction_misuse hp h hf),
      fun h hf => (exec_extest he).trans (loadInstruction_loads hp h hf)⟩,
    fun c hw => ⟨sdRefclkLoss_shows hw, sdRefclkReturn_shows hw⟩, fun v => rfl⟩
  · exact (exec_ppsOutEdge hp).trans (congrArg _ (ppsJudge_due ⟨he, hb, hl⟩))
  · exact (exec_ppsOutEdge hp).trans (congrArg _ (ppsJudge_notDue h))
  · exact ((timebaseStep_eq hp).trans (congrArg _ (if_pos h))).trans (exec_ppsOutEdge (s := stepped s ns) hp).symm
  · exact ⟨(timebaseStep_eq hp).trans (congrArg _ (if_neg (not_lt.mpr h))), rfl⟩
  · exact (todTxStart_due hp hd).trans (by rw [if_pos ⟨he, hc⟩]; rfl)
  · refine (todTxStart_due hp hd).trans ?_
    rw [if_neg fun hc => h.elim (fun h => h hc.1) fun h => h hc.2]
    rfl
  · exact (exec_boardCommand he).trans (by rw [boardReads_open h0 h4, smbusRead_allowed hp]; rfl)
  · exact (exec_boardCommand he).trans (by rw [boardReads_closed h, smbusRead_refused hp])

end Sys2Proof.Proofs
